-- ==== Sys2Proof/Word.lean ====
section
/-!
DEFINITION. Words, bytes and sparse tables.
Multi-byte fields are little-endian (R8): byte 0 of a value is its least significant byte.
-/

namespace Sys2Proof

abbrev Byte := BitVec 8
abbrev Half := BitVec 16
abbrev Word := BitVec 32
abbrev Quad := BitVec 64

/-- A 4 KiB block as its bytes, lowest address first (Table 0.3). -/
abbrev Block := List Byte

/-- A sparse table: (key, value) pairs with strictly rising keys, holding no entry equal to the table's default. -/
abbrev Tbl (α : Type) := List (Nat × α)

end Sys2Proof
end

