-- ==== Sys2Proof/Syntax.lean ====
section
/-!
DEFINITION. The commands of the block: one constructor per row of spec/opcode_table.json.
The table gives its rows no operand fields; the operands here are what the rule of the row says the
event carries (log entry 2): the function, queue or object it names, and what the world outside the
package supplies at that instant (R1): host data read, a member's status and data, a frame, a message.
-/

namespace Sys2Proof

/-- A PCIe function: its port, 0 to 15, and its function number, 0 for the PF and 1 to 64 for a VF (R44). -/
structure Fn where
  port : Nat
  fn   : Nat
  deriving DecidableEq, Repr

/-- A memory request from the host: the function it is for, and the IDE stream it arrives on, 0 the link stream and 1 to 16 the
selective ones; none for a plain TLP (R58). -/
structure Req extends Fn where
  stream : Option Nat
  deriving DecidableEq, Repr

/-- The four dictionary masters (Table 16.1). -/
inductive Master where
  | admin
  | tenant (t : Nat)
  | sideband
  | firmware
  deriving DecidableEq, Repr

/-- What a device read of host memory brought back: its bytes, or a failure of Table 2.8. -/
inductive HostData where
  | bytes (b : List Byte)
  | fail
  deriving DecidableEq, Repr

/-- What the segment-list read of check 10 of Table 4.1 brought back (R74, R101). -/
inductive SegRead where
  | single
  | list (segs : List (Quad × Word))
  | unreadable
  deriving DecidableEq, Repr

/-- One submission entry as it left the ring or the slot, with the segment list it names (Table 3.2). -/
structure Fetched where
  raw  : BitVec 512
  segs : SegRead
  deriving DecidableEq, Repr

/-- Which device read a missing completion belongs to (Table 2.8). -/
inductive TimedRead where
  | entryFetch (f : Fn) (q : Nat)
  | data (ctx : Nat) (unit : Nat)
  | copyFetch (chan : Nat)
  | copySource (chan : Nat)
  deriving DecidableEq, Repr

/-- The link-layer errors of Table 2.8. -/
inductive LinkError where
  | receiverError | badTlp | badDllp | replayTimeout | replayRollover
  deriving DecidableEq, Repr

/-- The fatal errors of Table 2.8. -/
inductive FatalError where
  | malformedTlp | receiverOverflow | flowControl | surpriseDown
  deriving DecidableEq, Repr

/-- A host-side error of Table 2.8. -/
inductive TlpError where
  | linkCorrectable (e : LinkError)
  | ecrc (forRead : Option TimedRead)
  | poisonedWrite
  | badCompletion (poisoned : Bool) (r : TimedRead)
  | unexpectedCompletion
  | unsupportedRequest (write : Bool)
  | fatal (e : FatalError)
  deriving DecidableEq, Repr

/-- NVMe completion status of a member command, as Table 10.5 sorts it. -/
inductive NvmeStatus where
  | success
  | unrecoveredRead
  | reservationConflict
  | notReady
  | abortRequested
  | abortedSqDeletion
  | other
  deriving DecidableEq, Repr

/-- R57: what an IDE stream is associated with: a range of function numbers and up to two address ranges, as (base, limit). -/
structure IdeAssoc where
  ridLo : Nat
  ridHi : Nat
  addrs : List (Nat × Nat)
  deriving DecidableEq, Repr

/-- A member label as read (Table 7.6). -/
structure Label where
  role     : Nat
  array    : Nat
  owner    : Quad
  inst     : Quad
  slot     : Nat
  domain   : Nat
  mapShare : Nat
  deriving DecidableEq, Repr

/-- What admission learns of a controller (Table 10.2) and of its label. `label` is none when it is blank. -/
structure Controller where
  port        : Nat
  half        : Nat
  bus         : Nat
  levels      : Nat
  nvme        : Bool
  nguid       : BitVec 128
  rdyInTime   : Bool
  version14   : Bool
  ioQueues    : Nat
  mqes        : Nat
  mdtsKib     : Nat
  ns4k        : Bool
  capacityMib : Nat
  dsm         : Bool
  resvOk      : Bool
  foreignResv : Bool
  acl         : Nat
  capToS      : Nat
  writeCache  : Bool
  singlePort  : Bool
  label       : Option Label
  /-- EUI-64 of namespace 1 (R296). -/
  eui64       : Quad := 0
  /-- Smallest maximum payload size along the path, B (R292). -/
  payload     : Nat := 512
  /-- Asynchronous Event Requests it takes, less one (R298). -/
  aerl        : Nat := 3
  deriving DecidableEq, Repr

/-- What ends the commands of a member path (R306): its link went down, a downstream port contained an error, or an uncorrectable AER error,
with its header. -/
inductive PathEvent where
  | linkDown
  | dpc
  | aer (header : BitVec 128)
  deriving DecidableEq, Repr

/-- What a controller tells of itself: a critical warning, with its bits, or CSTS.CFS, a controller fatal status (R305, Table 9.2). -/
inductive MemberAlarm where
  | warning (bits : Byte)
  | fatal
  deriving DecidableEq, Repr

/-- What verification of an image slot finds (Table 17.5, R465): header fields, and whether each
hash or signature test passed. -/
structure ImageFacts where
  magic        : Word
  version      : Half
  fwVersion    : Quad
  svn          : Nat
  bodyLen      : Nat
  rootHashOk   : Bool
  imageSigOk   : Bool
  headerSigOk  : Bool
  bodyHashOk   : Bool
  deriving DecidableEq, Repr

/-- What a start reads from a vault: the header of its area, no bytes where it cannot be read, and whether every unit passes its CRC in the
table (R251). -/
structure VaultHead where
  bytes   : List Byte
  unitsOk : Bool
  deriving DecidableEq, Repr

/-- Thermal thresholds of Table 17.2. -/
inductive Thermal where
  | alert | limit | limitPlus5 | shutdown
  deriving DecidableEq, Repr

/-- Where an uncorrectable memory error falls: the rows of Table 8.8 in order, with what the error concerns. -/
inductive MemError where
  | warmPage (volume page : Nat)
  | hotPage (volume page : Nat)
  | windowSlot (array seq lba : Nat)
  | dumpSlot (array seq lba : Nat)
  | journalCopy (array : Nat)
  | assemblyCached (array seq : Nat)
  | assemblyThrough (ctx unit : Nat)
  | queueState (f : Fn) (q : Nat)
  | softBuffer (chan pba : Nat)
  | control
  deriving DecidableEq, Repr

/-- The header of a Falfer request (Table 16.9), with its MAC and the address and UDP port it came from. -/
structure FalferMsg where
  keySlot : Nat
  seq     : Nat
  serial  : Quad
  tag     : Word
  sender  : BitVec 128
  port    : Nat
  mac     : BitVec 128
  deriving DecidableEq, Repr

/-- A sector's address tag (Table 11.8). -/
structure SectorTag where
  cylinder : Nat
  head     : Nat
  zone     : Nat
  sector   : Nat
  pba      : Nat
  formatId : Nat
  serial   : Nat
  deriving DecidableEq, Repr

/-- One decode attempt on a sector: the hard decisions it ended with, the user bytes, CRC and tag of the information part and the
4,096 parity bits (R326, R327). -/
structure Attempt where
  user   : List Byte
  crc    : Word
  tag    : SectorTag
  parity : List Bool
  deriving DecidableEq, Repr

/-- What the channel obtained from one sector read, in the order of Table 11.10: the tag the read intended; the sample count of its
first sample and how many it has; the shock flag; the largest |PES| over its span, 1/4,096 track (R351); per fragment, the detector's
hard decisions from 64 bits before the expected sync mark to 64 bits after it, 152 in all; and the hard decisions after each iteration
of step 1, of each alternate alignment by fragment and shift (R332), and of step 3. -/
structure SectorRead where
  tag        : SectorTag
  span       : Nat × Nat
  shock      : Bool
  pes        : Nat
  marks      : List (List Bool)
  first      : List Attempt
  alternates : List ((Nat × Int) × List Attempt)
  recovery   : List Attempt
  deriving DecidableEq, Repr

/-- A failing facet of a recovery job (R339): the LLR of each user bit before it, and what the decode of each round ended with: hard
decisions, and the LLR of each user bit. -/
structure IrFacet where
  llrs   : List Int
  rounds : List (Attempt × List Int)
  deriving DecidableEq, Repr

/-- A zone entry (Table 11.11). -/
structure ZoneEntry where
  first   : Nat
  last    : Nat
  sectors : Nat
  rate    : Nat
  gain    : Int
  boost   : Nat
  offset  : Int
  asym    : Int
  fir     : List Int
  target  : List Int
  precomp : List Nat
  deriving DecidableEq, Repr

/-- A copy of the reallocation table as read from the reserved tracks (R361): its generation, the bytes of its 16 B entries, and its
CRC-32C. -/
structure TableCopy where
  generation : Nat
  bytes      : List Byte
  crc        : Word
  deriving DecidableEq, Repr

/-- A servo wedge as demodulated (Table 12.1): the 16 servo bits in the window that match the SAM best, first bit highest, wedge number,
the 24 Gray-coded bits of the track ID, the chevron times t_AB and t_AA in one unit, the sample count at the SAM, and for the index wedge
by how many ppm the last revolution's period differs from the commanded one. -/
structure Wedge where
  sam       : BitVec 16
  number    : Nat
  gray      : BitVec 24
  tAB       : Nat
  tAA       : Nat
  count     : Nat
  periodPpm : Nat
  deriving DecidableEq, Repr

/-- An upstream sample block (Table 11.2), with its ten samples, or a status block (Table 11.3). -/
inductive UpBlock where
  | samples (shock invalid : Bool) (bits : BitVec 60)
  | counter (n : Nat)
  | health (tempC : Int) (atSpeed loaded gate fault supplies : Bool) (periodUs : Nat)
  | ack (tag result : Nat)
  | readData (tag : Nat) (value : Word)
  | writeFault (cause : Nat)
  | idle
  deriving DecidableEq, Repr

/-- A front-end command (Table 11.5) as carried in a downstream block, or one of the other kinds of Table 11.4. -/
inductive DownBlock where
  | writeData (count : Nat) (bits : BitVec 56)
  | vcm (wedge : Nat) (current : BitVec 16)
  | cmd (opcode tag : Nat) (operand : BitVec 44)
  | idle
  deriving DecidableEq, Repr

/-- How a front-end write ends (R320). -/
inductive WriteEnd where
  | count0 | endWrite | underrun | gap | shock | ownerChange | linkLoss | driverFault
  deriving DecidableEq, Repr

/-- One map delta or summary entry of a beam as the stream carries it (R381): a data block with its number, CRC-32C and, for a
relocation, the location it was copied from; or a range delta. -/
inductive MapDelta where
  | block (n vol lba seq : Nat) (crc : Word) (src : Option (Nat × Nat × Nat))
  | range (vol lba len : Nat) (zero : Bool) (seq after : Nat)
  deriving DecidableEq, Repr

/-- A geometry of an array, as the stream carries it. -/
structure StreamGeom where
  mirror  : Bool
  k       : Nat
  m       : Nat
  epoch   : Nat
  members : List Nat
  deriving DecidableEq, Repr

/-- A packet of the stream to the MIRROR (R381), and the items of a resynchronisation (Table 13.5), which travel the same way
(log entry 61). -/
inductive StreamItem where
  | sweep (array : Nat) (cur : StreamGeom) (prev : Option StreamGeom) (kind slot target meridian remaining seq : Nat)
  | beam (array beam : Nat) (byTimer swept : Bool) (time : Nat) (deltas : List MapDelta) (checksum : Word) (digest : List Word)
  | journal (array gen nextSeq horizon : Nat) (openList holders outage : List Nat)
  | segment (array seg st epoch : Nat) (mask : List Nat)
  | realloc (chan pba : Nat) (spare : Nat × Nat × Nat) (lost : Bool)
  | snapshot (seq : Nat) (records : List (Nat × List Byte))
  | key (volume : Nat) (key : Option (BitVec 512))
  | rws (index sub value : Nat)
  | arbiter (member : Nat)
  | wbUnit (array volume lba seq : Nat) (blocks : List (Sum Block Bool))
  | member (index : Nat) (ident : BitVec 128) (state : Nat) (label : Option Label) (priv : Bool)
  | array (array : Nat) (mirror : Bool) (k m shift epoch segs : Nat) (members : List Nat) (inst : Nat) (through : Bool)
  | volume (volume capacity tenant array : Nat) (readOnly writeBack : Bool) (kcv : Option Word)
  | extent (owner : Nat) (copies : List (Nat × Nat))
  | mapPage (volume page : Nat) (bytes : List Byte)
  | tenant (tenant opRate opDepth byteRate byteDepth w1 w2 quota : Nat)
  | binding (f : Fn) (tenant quota : Nat)
  deriving DecidableEq, Repr

/-- What Neighbour Discovery brings (R444): the port's own duplicate address detection starts, finds another node with the
address, or a node asks for an address. -/
inductive NdEvent where
  | start
  | conflict
  | solicit (target sender : BitVec 128)
  deriving DecidableEq, Repr

/-- Registers of a function's configuration space that the host programs (Table 2.1, R51, R61): BAR `n`, the VF BARs of the SR-IOV
capability, and the control and status registers of the PCI Express and AER capabilities. -/
inductive CfgReg where
  | bar (n : Nat)
  | vfBar (n : Nat)
  | deviceControl
  | deviceControl2
  | linkControl
  | aerUncStatus
  | aerCorrStatus
  | aerCorrMask
  | aerControl
  deriving DecidableEq, Repr

/-- A write of a register or dictionary object: of BAR0 of a function and BAR2 of the admin function, by offset and width in bytes;
of the registers of configuration space that the spec names, by their names; of an object by a master. -/
inductive RegWrite where
  | bar0 (r : Req) (offset width : Nat) (value : Quad)
  | bar2 (offset width : Nat) (value : Quad)
  | busMaster (f : Fn) (on : Bool)
  | msixControl (f : Fn) (enable mask : Bool)
  | aerMask (f : Fn) (bits : Word)
  | aerSeverity (f : Fn) (bits : Word)
  | config (f : Fn) (reg : CfgReg) (value : Word)
  | object (who : Master) (index sub : Nat) (value : List Byte)
  deriving DecidableEq, Repr

/-- The commands of the block. -/
inductive Instr where
  -- power, reset and boot
  | porNAssert
  | porNRelease (bootMode : Nat) (pairId : Bool)
  | sbPhyResetRelease
  | plcaConfig
  | imageVerifyComplete (slot : Nat) (img : Option ImageFacts)
  | coreRstNRelease
  | coreRstNAssert
  | corePowerLoss
  | selfTestComplete (failed : Option (Bool × Nat)) (katFails : BitVec 16)
  | ddrTrained (modules : Option (Nat × Bool × Bool × Nat))
  | enumWaitExpire (vault0 vault1 : VaultHead) (firstLead : Quad)
  | recoveryComplete (array : Nat)
  -- modes
  | modeRequestFocus (who : Master)
  | modeRequestSolo (who : Master)
  | focusDrainComplete
  | eclipseDestageComplete
  | eclipseDestageFailed
  | softReset (who : Master) (value : Nat)
  | softResetComplete
  | fabricPeakReset (who : Master)
  | stageTimeRefresh (ps : Nat)
  -- pacer and temperature
  | sagSensorBelow (sensor : Nat)
  | sagDeepCut (sensor : Nat)
  | sagRecoveryStep
  | thermalThreshold (t : Thermal) (tjC : Int) (sensor : Nat)
  | thermalActionEnd (t : Thermal) (tjC : Int)
  | thermalTrip
  | thermalRestart
  | supplyCollapse
  | collapseRestart (bootMode : Nat) (pairId : Bool)
  -- host ports
  | hpPerstNAssert (port : Nat)
  | hpPerstNRelease (port : Nat)
  | hostLinkDown (port : Nat) (hotReset : Bool)
  | hostLinkUp (port speed width : Nat)
  | flr (f : Fn)
  | vfEnableClear (port : Nat)
  | receivedErrorTlp (f : Fn) (e : TlpError)
  | completionTimeout (f : Fn) (r : TimedRead)
  | ideIntegrityFailure (port stream : Nat)
  | ideKeySetSwitch (port stream : Nat)
  | ideKmKeyProgram (port stream session keySet : Nat) (key : BitVec 256) (assoc : IdeAssoc)
  | doeDiscovery (port index : Nat)
  | getVersion (port : Nat)
  | getCapabilities (port : Nat)
  | negotiateAlgorithms (port : Nat)
  | getDigests (port : Nat)
  | getCertificate (port slot offset length : Nat)
  | challenge (port slot : Nat) (nonce : BitVec 256)
  | getMeasurements (port index : Nat) (nonce : BitVec 256)
  | keyExchange (port : Nat) (share : List Byte)
  | finish (port session : Nat) (verified : Bool)
  | heartbeat (port session : Nat)
  | keyUpdate (port session : Nat)
  | endSession (port session : Nat)
  | msixPendingSend (f : Fn) (vector : Nat)
  | registerWrite (t : RegWrite)
  -- queues
  | sqTailDoorbell (r : Req) (q : Nat) (value : Word)
  | cqHeadDoorbell (r : Req) (q : Nat) (value : Word)
  | createCq (r : Req) (q : Nat)
  | createSq (r : Req) (q : Nat)
  | deleteSq (r : Req) (q : Nat)
  | deleteCq (r : Req) (q : Nat)
  | sqShutdownDrained (f : Fn) (q : Nat)
  | sqShutdownFinish (f : Fn) (q : Nat) (cids : List (Option Half))
  | inlinePush (r : Req) (q slot : Nat) (whole : Bool) (e : Fetched)
  | sqFetch (f : Fn) (q : Nat)
  | sqFetchComplete (f : Fn) (q : Nat) (entries : Option (List Fetched))
  | overflowDrain (f : Fn) (q : Nat)
  | coalesceTimerExpire (f : Fn) (q : Nat)
  -- host opcodes: each names the command, by its context number
  | read (ctx : Nat)
  | write (ctx : Nat)
  | flush (ctx : Nat)
  | trim (ctx : Nat)
  | writeZeroes (ctx : Nat)
  | copy (ctx : Nat)
  | fence (ctx : Nat)
  | abort (ctx : Nat)
  | queryVolume (ctx : Nat)
  | queryDarkMap (ctx : Nat)
  | irisAdmit (tenant : Option Nat) (cls : Nat)
  -- admin opcodes: the oldest admin command of the admin queue, with the data its descriptor names
  | queueCreateCq
  | queueCreateSq
  | queueDeleteSq
  | queueDeleteCq
  | volumeCreate
  | volumeDelete
  | volumeResize
  | volumeSet
  | arrayCreate (table : HostData)
  | arrayDelete
  | arrayReshapeStart (table : HostData)
  | arrayReshapePause
  | arrayReshapeResume
  | arrayRebuildStart
  | arrayRebuildPause
  | arrayRebuildResume
  | domain
  | spare
  | release
  | fail
  | vault
  | tenantSet
  | tenantDelete
  | functionBind
  | functionUnbind
  | tenantIsolate
  | isolationComplete
  | tenantRelease
  | keyLoad (wrapped : HostData)
  | keyUnload
  | firmwareDownload (piece : HostData) (img : Option ImageFacts)
  | downloadWriterExpire (slot : Nat)
  | firmwareActivate
  | activationDrainComplete
  | activationDrainTimeout
  | activationResume (stallUs : Nat)
  | svnCommit (who : Master) (value : Nat)
  | pairStart (partnerLead partnerSolo : Bool)
  | pairDissolve
  | pairSwap
  | swapDrainComplete
  | swapDrainTimeout
  | handover (epoch : Nat)
  | meterRingSet
  | meterRollover
  | timeSet
  | meterSnapshot
  | capacityTick
  | meterRingWrite
  | meterRingHead (who : Master) (value : Word)
  -- beams, map, cleaner
  | readAroundTrigger (job : Nat)
  | prismKat (who : Master)
  | prismKatComplete (failed : BitVec 16) (partnerFailed : Bool)
  | scrubBeam (array inst epoch segment offset : Nat)
  | hostDataReadComplete (ctx unit : Nat) (data : HostData)
  | unitPlace (ctx unit : Nat)
  | beamCloseTimer (array beam : Nat)
  | beamCommit (array beam : Nat)
  | checkpointTimer
  | checkpointComplete
  | journalBatchTimer (array : Nat)
  | cleanerSelect (array segment : Nat)
  | segmentFree (array segment : Nat)
  -- protected cache and memory
  | powerFail
  | dumpQuiesced
  | dumpStreamComplete
  | vaultFlushComplete
  | dumpSealed (dumpUs : Nat)
  | dumpVaultFailed (vault : Nat)
  | vaultTest
  | vaultTestComplete (r0 r1 : Nat)
  | holdupAttest (who : Master)
  | attestExpire
  | trackingSlot (channel : Nat) (lane : Nat × Nat) (correction : Int × Int)
  | patrolScrub (ddr : Bool) (corrected : Nat) (uncorrectable : Option (MemError × Nat))
  -- members
  | memberTimeout (tag : Nat)
  | probeIssue (member : Nat)
  | absentFailTimeout (member : Nat)
  | rebuildDelayExpire (array slot : Nat)
  | epochBarrierComplete (array : Nat)
  | facetRebuildStep (array segment : Nat)
  | meridianSweepStep (array segment : Nat)
  | holdRetryTimer (array : Nat)
  | hotplugArrival (port half : Nat) (levels : Nat × Nat) (speed width : Nat)
  | controllerReady (c : Controller)
  | memberCommandComplete (tag : Nat) (status : NvmeStatus) (data : List Byte)
  | abortWaitExpire (member : Nat)
  | readyLimitExpire (member : Nat)
  | memberReturnTimeout (member : Nat)
  | memberPathError (port : Nat) (half : Nat × PathEvent) (members : List Nat)
  | memberLinkDownTimeout (member : Nat)
  | memberCriticalWarning (member : Nat) (alarm : MemberAlarm)
  | smartPoll (member : Nat) (tempC : Int)
  -- Lens links and front-ends
  | lensUpstreamFrame (chan seq epoch flags : Nat) (crc : BitVec 24) (blocks : List UpBlock)
  | lensLinkUp (chan version : Nat) (serialLow serialHigh : Word) (surfaces : Nat)
      (tables : List (List (List Byte × List Byte))) (copies : List TableCopy) (label : Option Label)
  | lensLinkLoss (chan : Nat)
  | feDownstreamFrame (chan link seq epoch : Nat) (crc : BitVec 24) (blocks : List DownBlock)
  | feOwnerLossDetect (chan : Nat)
  | feHeadRetract (chan : Nat)
  | feEpochForget (chan : Nat)
  | feSpindleStop (chan : Nat)
  | nop (chan tag : Nat)
  | readReg (chan tag reg : Nat)
  | writeReg (chan tag reg : Nat) (value : Word)
  | setClock (chan tag khz : Nat)
  | setRead (chan tag : Nat) (gain boost offset : Byte)
  | setPrecomp (chan tag : Nat) (s1 s2 s3 : Byte)
  | selectHead (chan tag head : Nat)
  | startWrite (chan tag count : Nat)
  | endWrite (chan tag : Nat)
  | spindle (chan tag rpm accel : Nat)
  | load (chan tag : Nat)
  | park (chan tag : Nat)
  | setShock (chan tag : Nat) (threshold : Byte)
  | feWriteEnd (chan : Nat) (cause : WriteEnd)
  | sectorDecode (chan : Nat) (r : SectorRead)
  | sectorReread (chan pba : Nat)
  | irJobStart (array : Nat) (relation : List (Nat × Option IrFacet))
  | adaptUpdate (chan zone head : Nat) (fir : List Int) (gain offset asym : Int)
  | zoneTableFlush (chan : Nat)
  | servoWedge (chan : Nat) (w : Wedge)
  | servoLost (chan : Nat)
  | shutterRewrite (chan : Nat)
  | shockHoldEnd (chan : Nat)
  | adjacentVerify (chan : Nat) (notClean : List (Nat × Option Block))
  | cadenceDecide (array : Nat) (utilisation : List (Nat × Nat)) (downOk : Bool)
  | cadenceDrained (array : Nat)
  | cadenceSettled (array : Nat)
  | spinupTimeout (chan : Nat)
  | reallocate (chan pba : Nat) (content : Option Block) (clean : Bool)
  | reallocTableWrite (chan : Nat)
  -- mirror pair
  | renewSend
  | renewReceive (epoch seq : Nat)
  | renewAck (seq : Nat)
  | renewalMissed
  | leaseExpireLead
  | streamAckTimeout
  | leaseExpireMirror
  | guardElapsed
  | fenceTimeout (member : Option Nat)
  | takeoverComplete (gapUs : Nat)
  | segmentEmbargoEnd
  | streamPacket (seq : Nat) (item : StreamItem)
  | streamAck (seq : Nat) (mismatch : Option (Nat × Nat))
  | mirrorLinkUp (serial : Quad) (strap : Bool) (width : Nat)
  | mirrorLinkRetrain (width : Nat)
  | partnerLeave
  | resyncComplete
  | resyncLost
  -- copy engine
  | copyStart (r : Req) (address : Quad)
  | copyAbort (r : Req)
  | copyRingBase (r : Req) (base : Quad)
  | copyRingHead (r : Req) (value : Word)
  | copyDescriptorFetched (chan : Nat) (raw : Option (BitVec 512))
  | copyBurstComplete (chan : Nat) (source : HostData) (writeOk : Bool)
  | copyStagingGranted (chan : Nat)
  -- mailboxes
  | txWord (r : Req) (w : Quad)
  | txDoorbell (r : Req) (bits : Word)
  | rxPop (r : Req) (value : Word)
  | rxDoorbellClear (r : Req) (bits : Word)
  | firmwareTakeWord (f : Fn)
  | firmwarePostWord (f : Fn) (w : Quad)
  -- fault hub and black box
  | faultOnset (source : Nat) (detail : Word)
  | faultLiveEnd (source : Nat)
  | faultClear (who : Master) (source : Nat) (value : Half)
  | faultClearAll (who : Master)
  | firstFaultClear (who : Master)
  | faultInjectPulse (who : Master) (source sev : Nat) (detail : Half) (withReal : Bool)
  | faultInjectHold (who : Master) (source sev : Nat) (detail : Half) (withReal : Bool)
  | faultInjectRelease (who : Master) (source : Nat)
  | blackBoxWrite
  | bboxErase (who : Master) (value : Nat)
  | lastGaspTest (ok : Bool)
  -- dictionary, settings, side-band
  | dictSlotGet (slot : Nat)
  | dictSlotSet (slot : Nat)
  | mailboxDictGet (f : Fn)
  | mailboxDictSet (f : Fn)
  | take (who : Master)
  | renew (who : Master)
  | claimRelease (who : Master)
  | force (who : Master)
  | claimExpire
  | settingsStore (who : Master) (value : Nat)
  | settingsStoreComplete (verified : Bool)
  | factoryReset (who : Master) (value : Nat)
  | get (m : FalferMsg) (targets : List (Nat × Nat))
  | discoveryGet (tag : Word) (sender : BitVec 128) (port : Nat) (targets : List (Nat × Nat))
  | set (m : FalferMsg) (index sub : Nat) (value : List Byte)
  | store (m : FalferMsg)
  | claim (m : FalferMsg) (action : Nat)
  | subscribe (m : FalferMsg) (minSev kinds udpPort lifetime : Nat)
  | subscriptionExpire (index : Nat)
  | fileRead (m : FalferMsg) (file offset length : Nat)
  | fileWrite (m : FalferMsg) (file offset : Nat) (data : List Byte)
  | fileCommit (m : FalferMsg) (file : Nat) (img : Option ImageFacts)
  | neighbourDiscovery (e : NdEvent)
  | icmpv6Echo (target sender : BitVec 128) (data : List Byte)
  | sync (gm : BitVec 64) (originNs : Int) (arriveNs : Nat) (twoStep : Bool)
  | followUp (gm : BitVec 64) (originNs : Int)
  | delayReq (sentNs : Nat)
  | delayResp (gm : BitVec 64) (receiveNs : Int)
  | announce (gm : BitVec 64) (domain : Nat) (rank : Nat)
  | announceTimeout
  -- rows at the end of the table
  | vfEnableSet (port count : Nat)
  | mirrorLinkDown
  | notReadyRetry (tag : Nat)
  | cstsRdyFall (member : Nat)
  | feCommandDone (chan : Nat)
  | thermalTripWaitExpire
  | eclipseParkDelayExpire
  | firmwareRaiseDoorbell (f : Fn) (bits : Word)
  | firmwareTakeDoorbell (f : Fn) (bits : Word)
  deriving DecidableEq, Repr

end Sys2Proof
end

