-- ==== Sys2Proof/Config.lean ====
section
/-!
DEFINITION. What the spec leaves open. Each constant is opaque, so no proof can see a value (log entry 3): a claim about a
free value holds for every value. A `Nat` argument named `n` is the model's counter of free values drawn so far.
-/

namespace Sys2Proof.Config

/-- A number the spec does not state. -/
opaque freeNat (n : Nat) : Nat

/-- Bytes the spec does not state; consumers take as many as they need. -/
opaque freeByte (n i : Nat) : BitVec 8

/-- A random draw of the device: an array's instance number (R176), a key pair (R227). -/
opaque randomDraw (n : Nat) : Nat

/-- A vendor-defined answer of an attestation protocol (R60). -/
opaque spdmBytes (code arg : Nat) : List (BitVec 8)

/-- Ten ADC samples of a front-end, by the sample count of the first (R317). -/
opaque adcSamples (chan count : Nat) : BitVec 60

/-- What a front-end's own register beyond 0x005 reads before it is written (R319). -/
opaque makerRegister (chan reg : Nat) : BitVec 32

/-- `dict.catalogue_entries` of the firmware image that runs (R431). -/
opaque catalogueEntries : Nat

/-- Bytes of the catalogue from an offset of BAR2: where an entry stands among the image's is not stated (R431, R433). -/
opaque catalogueBytes (offset : Nat) : List (BitVec 8)

/-- What the device writes to a catalogue slot on members at a generation: its layout is not stated (R214). -/
opaque catalogueSlot (gen : Nat) : List (BitVec 8)

/-- The header of the protected-cache window, of its image sequence, the head and the tail of the delta log, and the data slots in use:
R241 states what it holds and not its layout. -/
opaque windowHeader (imageSeq head tail : Nat) (slots : List Nat) : List (BitVec 8)

/-- The 32 B form of a committed delta in the delta log, of its fields (R241). -/
opaque logEntry (fields : List Nat) : List (BitVec 8)

/-- A 32 B directory entry of a data slot, of its volume, LBA, write sequence, array, beam, block and CRC-32C (R241). -/
opaque slotEntry (fields : List Nat) : List (BitVec 8)

/-- The poison mark of a data slot (R252). -/
opaque poisonMark : List (BitVec 8)

/-- CRC-32C of a 1 MiB unit of the protected-cache window some bytes of which nothing in use fills (R244). R241 leaves those bytes open, and
four of them in a row give a CRC any value. -/
opaque unitCrc (imageSeq unit : Nat) : BitVec 32

/-- A meridian checkpoint, with the position of a facet sweep: its layout is not stated, only what it holds: array instance, current and
previous geometry epochs, meridian, segments left and sequence number (R274, R287). -/
opaque meridianBytes (inst cur prev meridian remaining seq : Nat) : List (BitVec 8)

/-- The device key-encryption key, drawn at manufacture (R230). -/
opaque deviceKek : BitVec 256

end Sys2Proof.Config
end

