-- ==== Sys2Proof/Machine/Bytes.lean ====
section
/-!
DEFINITION. Byte strings (R8), and SHA-256 and HMAC-SHA-256 (FIPS 180-4 and 198) as the Falfer MAC uses them (R445). PRESUMED: the
algorithms are those of the standards, which the spec cites and does not print (log entry 7).
-/

namespace Sys2Proof.Machine

/-! ### Bytes -/

/-- `n` bytes of a value, least significant first (R8). -/
def le (n v : Nat) : List Byte := (List.range n).map (fun i => BitVec.ofNat 8 (v / 2 ^ (8 * i)))

/-- The value of bytes, least significant first (R8). -/
def unle : List Byte → Nat
  | [] => 0
  | b :: r => b.toNat + 256 * unle r

/-- Exactly `n` bytes: cut, or padded with zeros. -/
def fitBytes (n : Nat) (b : List Byte) : List Byte := b.take n ++ List.replicate (n - b.length) 0

/-- A big-endian number of 8 bytes. -/
def be8 (v : Nat) : List Byte := (le 8 v).reverse

/-! ### SHA-256 and HMAC -/

def primesTo64 : List Nat :=
  [2, 3, 5, 7, 11, 13, 17, 19, 23, 29, 31, 37, 41, 43, 47, 53, 59, 61, 67, 71, 73, 79, 83, 89, 97, 101, 103, 107, 109, 113,
   127, 131] ++
  [137, 139, 149, 151, 157, 163, 167, 173, 179, 181, 191, 193, 197, 199, 211, 223, 227, 229, 233, 239, 241, 251, 257, 263,
   269, 271, 277, 281, 283, 293, 307, 311]

/-- The largest `x` below 2^n above `lo` with x^e ≤ v, by bits. -/
def rootBits (e v : Nat) : Nat → Nat → Nat
  | 0, x => x
  | n + 1, x => rootBits e v n (if (x + 2 ^ n) ^ e ≤ v then x + 2 ^ n else x)

/-- Round constant of a prime: the first 32 bits of the fraction of its cube root. -/
def shaK (p : Nat) : Word := BitVec.ofNat 32 (rootBits 3 (p * 2 ^ 96) 36 0)

/-- Initial word of a prime: the first 32 bits of the fraction of its square root. -/
def shaH (p : Nat) : Word := BitVec.ofNat 32 (rootBits 2 (p * 2 ^ 64) 37 0)

def wordBe (b : List Byte) : Word := BitVec.ofNat 32 (unle (b.take 4).reverse)

/-- The message schedule, newest first, `n` more words. -/
def shaSchedule : Nat → List Word → List Word
  | 0, w => w
  | n + 1, w =>
    let x := w.getD 14 0
    let y := w.getD 1 0
    let s0 := x.rotateRight 7 ^^^ x.rotateRight 18 ^^^ (x >>> 3)
    let s1 := y.rotateRight 17 ^^^ y.rotateRight 19 ^^^ (y >>> 10)
    shaSchedule n ((w.getD 15 0 + s0 + w.getD 6 0 + s1) :: w)

/-- One round on the eight working words. -/
def shaRound (v : List Word) (kw : Word × Word) : List Word :=
  match v with
  | [a, b, c, d, e, f, g, h] =>
    let s1 := e.rotateRight 6 ^^^ e.rotateRight 11 ^^^ e.rotateRight 25
    let ch := (e &&& f) ^^^ (~~~e &&& g)
    let t1 := h + s1 + ch + kw.1 + kw.2
    let s0 := a.rotateRight 2 ^^^ a.rotateRight 13 ^^^ a.rotateRight 22
    let mj := (a &&& b) ^^^ (a &&& c) ^^^ (b &&& c)
    [t1 + (s0 + mj), a, b, c, d + t1, e, f, g]
  | _ => v

def shaBlock (h : List Word) (b : List Byte) : List Word :=
  let w := shaSchedule 48 ((List.range 16).map fun i => wordBe (b.drop (4 * i))).reverse
  List.zipWith (· + ·) h ((List.zip (primesTo64.map shaK) w.reverse).foldl shaRound h)

/-- The 64-byte blocks of a message, `n` of them. -/
def chunks64 : Nat → List Byte → List (List Byte)
  | 0, _ => []
  | n + 1, b => b.take 64 :: chunks64 n (b.drop 64)

def sha256 (m : List Byte) : List Byte :=
  let z := (119 - m.length % 64) % 64
  let p := m ++ [0x80] ++ List.replicate z 0 ++ be8 (8 * m.length)
  ((chunks64 (p.length / 64) p).foldl shaBlock ((primesTo64.take 8).map shaH)).flatMap fun w => (le 4 w.toNat).reverse

/-- HMAC-SHA-256 with a key of at most 64 bytes. -/
def hmacSha256 (key m : List Byte) : List Byte :=
  let k := fitBytes 64 key
  sha256 (k.map (· ^^^ 0x5C) ++ sha256 (k.map (· ^^^ 0x36) ++ m))

/-! ### Falfer messages (R445, Table 16.9) -/

/-- Bytes 0x00 to the end of the payload. -/
def falferHead (type keySlot result seq serial tag : Nat) (payload : List Byte) : List Byte :=
  le 2 0xFA1F ++ le 1 1 ++ le 1 type ++ le 1 keySlot ++ le 1 result ++ le 2 payload.length ++ le 8 seq ++ le 8 serial
    ++ le 4 tag ++ le 4 0 ++ payload

/-- The MAC under a key. -/
def falferMac (key : BitVec 256) (b : List Byte) : BitVec 128 := BitVec.ofNat 128 (unle ((hmacSha256 (le 32 key.toNat) b).take 16))

end Sys2Proof.Machine
end

