-- ==== Sys2Proof/Machine/State.lean ====
section
/-!
DEFINITION. The state of the GP7160: plain data, one field for every piece of state the spec gives the device.
The value of a dictionary object that is a plain scalar (settings, counters, status values) is held in `vals`, under
the object's own name (Dictionary.lean); everything with more structure has a type of its own here.
Times are in nanoseconds. Sparse tables list only entries that differ from the default named beside them.
-/

namespace Sys2Proof.Machine

/-- Who raises which: the one fault is for a command that the spec gives no effect at all. The table has none, and no command raises
it (NOTES.md, Stops). Safe: the model would stop where the hardware goes on in a way the spec does not state. -/
inductive Fault where
  /-- A command whose behaviour the spec leaves unstated altogether; the rule is named. -/
  | unstated (rule : String)
  deriving DecidableEq, Repr

/-- Refusals. -/
inductive Refusal where
  /-- A command that has no meaning yet; raised only by Dispatch.lean. Safe. -/
  | notModelled (mnemonic : String)
  deriving DecidableEq, Repr

/-- Table 1.6: the six modes. -/
inductive Mode where
  | dark | focus | solo | lead | mirror | eclipse
  deriving DecidableEq, Repr

/-- A mode transition or pair operation in progress (R28, R36). -/
inductive Transition where
  /-- SOLO or LEAD to FOCUS: fetch stopped, draining. -/
  | focusDrain
  /-- ECLIPSE to FOCUS: the destage of R33, `soft` when a soft reset started it (R39). -/
  | eclipseDestage (soft : Bool)
  /-- Soft reset taken up from the mode named (R127). -/
  | softReset (source : Mode)
  /-- PAIR_SWAP on the LEAD (Table 13.6); the admin command that asked, if it was issued here. -/
  | swap (ctx : Option Nat)
  /-- PAIR_SWAP passed to the LEAD from this MIRROR, waiting for HANDOVER or step 7. -/
  | swapAsked (ctx : Nat)
  /-- A tie on the arbiter (R373), with the mode it was started from and the admin command that asked. -/
  | tie (source : Mode) (ctx : Option Nat)
  /-- Tie won; fencing the other members (Table 13.2, step 8). -/
  | takeover (ctx : Option Nat)
  deriving DecidableEq, Repr

/-- Pins, power, reset, modes and boot (chapters 1 and 17). -/
structure Power where
  /-- R462: POR_N high. -/
  porHigh : Bool
  /-- R455: CORE_RST_N high. -/
  coreRstHigh : Bool
  /-- R456: CORE_PWR_EN driven high. -/
  corePwrEn : Bool
  /-- R248: PWR_FAIL_N low. -/
  pwrFailLow : Bool
  /-- R293, R471: MP_PERST_N[31:0] driven low. -/
  mpPerstLow : Bool
  /-- R443: SB_PHY_RST_N high. -/
  sbPhyRstHigh : Bool
  /-- R460: THERM_ALERT_N driven low. -/
  thermAlertLow : Bool
  /-- R471, Table 17.6 step 10: host-port receivers terminated. -/
  hostTerminated : Bool
  /-- R463: BOOT_MODE as sampled. -/
  bootMode : Nat
  /-- R463: PAIR_ID as sampled. -/
  pairId : Bool
  /-- R27: the present mode; none while POR_N is asserted. -/
  mode : Option Mode
  /-- R36: the transition in progress. -/
  trans : Option Transition
  /-- R30: the core is starting, steps 6 to 10 of Table 17.6. -/
  coreStarting : Bool
  /-- R29, Table 17.6 step 7: self-test passed in this start. -/
  selfTested : Bool
  /-- Table 17.6 step 8: DDR trained and the image running in this start. -/
  ddrReady : Bool
  /-- R457: Periscope held in reset after a collapse. -/
  collapsed : Bool
  /-- R31 step 3, R28, R128: fetch and inline acceptance stopped device-wide, apart from the mode. -/
  fetchStopped : Bool
  /-- R380: a paired LEAD in ECLIPSE has still to send PARK. -/
  parkPending : Bool
  /-- R458: sensors now below pacer.sag_mv. -/
  sagBelow : List Nat
  /-- R458: sag-derived admission, percent. -/
  sagPct : Nat
  /-- R460: thermal-derived admission, percent. -/
  thermPct : Nat
  /-- R461: a thermal trip is waiting for the dump. -/
  tripPending : Bool
  /-- R467: a thermal trip holds the core off until the Periscope sensor has cooled. -/
  tripped : Bool
  /-- R220: arrays whose recovery has not finished. -/
  recovering : List Nat
  /-- R220: the last stop was orderly: every open beam committed at entry to FOCUS. -/
  orderly : Bool
  /-- R45: port whose PF is the admin function now. -/
  adminPort : Nat
  /-- R466: the slot tried first has failed in this start, so that the other one is being verified. -/
  triedSlots : List Nat
  /-- R189: a known-answer test is running. -/
  katRunning : Bool
  deriving DecidableEq, Repr

/-- Device time (R157, R449). -/
structure TimeState where
  /-- R157: device time, ns since 1970-01-01 00:00 UTC. -/
  device : Nat
  /-- Time since POR_N release, ns; the model's own, for bucket refill and leases. -/
  now : Nat
  /-- R449: consecutive Sync intervals with |offset| below 10 µs. -/
  goodSyncs : Nat
  /-- R449: the selected grandmaster and its rank. -/
  master : Option (BitVec 64 × Nat)
  /-- R449: two-step Sync waiting for its Follow_Up: arrival time. -/
  syncArrival : Option Nat
  /-- R449: Delay_Req sent at this time and not yet answered. -/
  delaySent : Option Nat
  /-- R449: last master-to-slave difference, ns. -/
  masterToSlave : Int
  /-- R449: measured path delay, ns. -/
  pathDelay : Int
  /-- R449: slew still to be applied, ns. -/
  slew : Int
  /-- R155: `now` when device time was last locked; none if never. -/
  lastLocked : Option Nat
  deriving DecidableEq, Repr

/-- One fault source: Table 15.2 and the registers of R412. Default: all zero. -/
structure FaultSrc where
  /-- R412 bit 7. -/
  clearDenied : Bool
  /-- R412 bits 6:4. -/
  latchedSev : Nat
  /-- R412 bit 3. -/
  realOnset : Bool
  /-- R412 bit 2. -/
  injectedOnset : Bool
  /-- R412 bit 1. -/
  latched : Bool
  /-- R413: the real signal. -/
  realLive : Bool
  /-- R419: an injection in progress: 0 none, 1 pulse, 2 hold. -/
  injLive : Nat
  /-- R413: onset count, 32 bits. -/
  count : Nat
  /-- R413: onset time, 64 bits. -/
  onset : Nat
  /-- R413: clearing time, 64 bits. -/
  cleared : Nat
  /-- R413: detail word, 32 bits. -/
  detail : Nat
  /-- R423: `now` of the last FAULT record, plus 1; 0 when none. -/
  lastRecord : Nat
  /-- R423: onsets suppressed since that record. -/
  suppressed : Bool
  deriving DecidableEq, Repr

/-- One black-box record before its sequence number is given (Table 15.6); the payload is 36 bytes. -/
structure BbRecord where
  kind     : Nat
  flags    : Nat
  source   : Nat
  severity : Nat
  mode     : Nat
  time     : Nat
  payload  : List Byte
  deriving DecidableEq, Repr

/-- The fault hub and black box (chapter 15). -/
structure FaultHub where
  /-- R411, R412: sources 0x000 to 0x27F; default `FaultSrc` all zero. -/
  src : Tbl FaultSrc
  /-- R416: the first-fault register: source, latched_sev, injected, real, onset time. -/
  first : Option (Nat × Nat × Bool × Bool × Nat)
  /-- R422: the ring in MRAM, by slot: the 64 bytes of each record; default no bytes (a torn or empty slot). -/
  ring : Tbl (List Byte)
  /-- R422: sequence of the newest record. -/
  head : Nat
  /-- R427: records waiting to be written, oldest first. -/
  queue : List BbRecord
  deriving DecidableEq, Repr

/-- An IDE stream of a port (R57): in the Secure state, the key set in use, the key of each set once programmed, and of a selective
stream the routing-ID range and the address ranges of its association. -/
structure IdeStream where
  secure : Bool
  keySet : Nat
  key0 : Option (BitVec 256)
  key1 : Option (BitVec 256)
  ridLo : Nat
  ridHi : Nat
  addrs : List (Nat × Nat)
  deriving DecidableEq, Repr

/-- R140: a flow of lane 2, one tenant's class 1 or 2, in one direction of a port: its deficit in bytes, and the admitted commands that
wait for the port, oldest first. -/
structure Flow where
  tenant : Option Nat
  cls : Nat
  deficit : Nat
  waiting : List Nat
  deriving DecidableEq, Repr

/-- R140, R141: one direction of a host port: the flows of lane 2, the one being served first, and the level of the class-0 reservation
in bytes × 10^9. -/
structure Lane where
  flows : List Flow
  c0Level : Int
  deriving DecidableEq, Repr

/-- A host port (chapter 2). -/
structure HostPort where
  /-- R43: HP_PERST_N[n] low. -/
  perstLow : Bool
  /-- R42: link in L0. -/
  linkUp : Bool
  /-- R42: trained speed, 1 to 5. -/
  speed : Nat
  /-- R41: trained width. -/
  width : Nat
  /-- R42, R43: released and waiting to train. -/
  readyToTrain : Bool
  /-- R63: VF Enable, with the number of VFs enabled. -/
  vfs : Nat
  /-- R66: TotalVFs, subsystem vendor ID and subsystem ID, as taken at the last port reset. -/
  totalVfs : Nat
  subsysVendor : Nat
  subsysId : Nat
  /-- R57: IDE streams, 0 the link stream and 1 to 16 the selective ones. -/
  ide : Tbl IdeStream
  /-- R60: SPDM sessions open on the PF DOE mailbox: (session, secured). -/
  sessions : List (Nat × Bool)
  /-- R60: SPDM negotiation reached: 0 none, 1 version, 2 capabilities, 3 algorithms. -/
  spdmStage : Nat
  /-- R140, R141: towards the host, and from it. -/
  toHost : Lane
  fromHost : Lane
  /-- R141: time of the last update of the two reservation levels. -/
  c0Last : Nat
  deriving DecidableEq, Repr

/-- What the host programs in a function's configuration space, and what AER shows there (Table 2.1, R51, R61). Default:
`FnConfig.initial`. -/
structure FnConfig where
  /-- R51: BAR0 with BAR1, BAR2 with BAR3, and the VF BAR0 of the SR-IOV capability, as programmed. -/
  bar0 : Quad
  bar2 : Quad
  vfBar0 : Quad
  /-- Table 2.1: Device Control, Device Control 2 and Link Control. -/
  deviceControl : Half
  deviceControl2 : Half
  linkControl : Half
  /-- R61: the AER capability: uncorrectable and correctable status, correctable mask, ECRC enables, and the header log. -/
  aerUncStatus : Word
  aerCorrStatus : Word
  aerCorrMask : Word
  ecrcGenerate : Bool
  ecrcCheck : Bool
  headerLog : BitVec 128
  deriving DecidableEq, Repr

/-- The defaults of PCI Express (log entry 71). -/
def FnConfig.initial : FnConfig :=
  { bar0 := 0, bar2 := 0, vfBar0 := 0, deviceControl := 0x2810, deviceControl2 := 0, linkControl := 0, aerUncStatus := 0
    aerCorrStatus := 0, aerCorrMask := 0x2000, ecrcGenerate := false, ecrcCheck := false, headerLog := 0 }

/-- A function (chapters 2 and 14). Default: `FnState.absent`. -/
structure FnState where
  /-- R46: bound tenant. -/
  bound : Option Nat
  /-- R47: queue quota. -/
  quota : Nat
  /-- R391: Bus Master Enable. -/
  busMaster : Bool
  /-- R55: MSI-X Enable. -/
  msixEnable : Bool
  /-- R55: MSI-X Function Mask. -/
  fnMask : Bool
  /-- R55: vectors unmasked in the MSI-X table. -/
  unmasked : List Nat
  /-- R55: the address and data words of the MSI-X table, by vector × 4 + word; default 0. -/
  msixTable : Tbl Nat
  /-- R55: pending-bit array. -/
  pba : List Nat
  /-- R61: uncorrectable errors that AER does not report, and those reported as fatal, by status bit. -/
  aerMask : Word
  aerFatal : Word
  /-- Table 2.1, R51, R61. -/
  cfg : FnConfig
  /-- R64: an FLR of the function is in progress. -/
  inFlr : Bool
  /-- R54: bits 4:0 of summary offset 0x000. -/
  summary : BitVec 5
  /-- R54: summary_events. -/
  events : Word
  /-- R54: event_vector. -/
  eventVector : Nat
  /-- R54: queue_error map, by queue number. -/
  queueErr : List Nat
  /-- R402: words waiting for the firmware, with stamps. -/
  tx : List (Quad × BitVec 18)
  /-- R402: tx_doorbell. -/
  txDoorbell : Word
  /-- R402: tx_mask. -/
  txMask : Word
  /-- R402: words waiting for the function, with stamps. -/
  rx : List (Quad × BitVec 18)
  /-- R402: rx_doorbell. -/
  rxDoorbell : Word
  /-- R402: rx_mask. -/
  rxMask : Word
  /-- R403: the function's FLR count modulo 32. -/
  flrEpoch : Nat
  /-- R408: purge markers the firmware has not yet taken, with their epochs. -/
  purges : List Nat
  /-- R436: words the firmware has taken of a request that is not whole yet. -/
  req : List (Quad × BitVec 18)
  /-- R406, R436: words of a reply that wait for space in rx. -/
  owed : List Quad
  deriving DecidableEq, Repr

/-- Reset values of a function's registers (Tables 2.6 and 14.5; MSI-X as PCIe defines). -/
def FnState.absent : FnState :=
  { bound := none, quota := 0, busMaster := false, msixEnable := false, fnMask := false, unmasked := [], msixTable := [], pba := [],
    aerMask := 0, aerFatal := 0x00062020, cfg := FnConfig.initial, inFlr := false,
    summary := 0, events := 0, eventVector := 0, queueErr := [], tx := [], txDoorbell := 0, txMask := 0, rx := [],
    rxDoorbell := 0, rxMask := 0xFFFFFFFF, flrEpoch := 0, purges := [], req := [], owed := [] }

/-- Table 3.1: sq_state. -/
inductive SqState where
  | absent | active | stopped | draining
  deriving DecidableEq, Repr

/-- Table 3.1: cq_state. -/
inductive CqState where
  | absent | active | stalled
  deriving DecidableEq, Repr

/-- An inline entry accepted, and the undurable writes that it covers, should it be a FLUSH, as they stood then (R76, R117). -/
structure InlineEntry where
  entry : Fetched
  covers : List Nat
  deriving DecidableEq, Repr

/-- A completion entry before it is placed (Table 3.3). -/
structure Cqe where
  sq     : Nat
  cid    : Half
  status : Nat
  qual   : Nat
  result : Nat
  /-- The command's submission stamp (R120) and opcode, and the write it completes (R117). -/
  stamp  : Nat
  opcode : Nat
  record : Option Nat
  deriving DecidableEq, Repr

/-- A queue number's page and rings (Table 3.1). Default: `QState.absent`. -/
structure QState where
  /-- Offset 0x08. -/
  sqBase : Quad
  /-- Offset 0x10. -/
  cqBase : Quad
  /-- Offset 0x18 bits 31:16. -/
  sqDepthM1 : Nat
  /-- Offset 0x18 bits 15:0. -/
  cqDepthM1 : Nat
  /-- Offset 0x1C bit 31. -/
  inlineEn : Bool
  /-- Offset 0x1C bit 30. -/
  irqEn : Bool
  /-- Offset 0x1C bits 29:20. -/
  boundCq : Nat
  /-- Offset 0x1C bits 18:8. -/
  vector : Nat
  /-- Offset 0x20 bits 15:8. -/
  coalTime : Nat
  /-- Offset 0x20 bits 7:0. -/
  coalCount : Nat
  /-- Offset 0x28 bits 31:24. -/
  setupResult : Nat
  /-- Offset 0x28 bits 19:16. -/
  sqState : SqState
  /-- Offset 0x28 bits 15:12. -/
  cqState : CqState
  /-- Offset 0x00, the device's SQ tail. -/
  sqTail : Nat
  /-- Offset 0x2C. -/
  sqHead : Nat
  /-- Offset 0x04, the last head accepted. -/
  cqHead : Nat
  /-- Offset 0x30. -/
  cqTail : Nat
  /-- R87: the overflow store, oldest first. -/
  overflow : List Cqe
  /-- R88: completions kept in their commands' contexts, oldest first: (context, entry). -/
  parked : List (Nat × Cqe)
  /-- R120: submission stamps of the entries between sq_head and sq_tail, in ring order. -/
  stamps : List Nat
  /-- R85: inline entries accepted and not yet taken: (position, entry). -/
  inlineHeld : List (Nat × InlineEntry)
  /-- R76, R113: inline entries consumed, for which Aperture has had no room yet: (submission stamp, entry). -/
  inlineReady : List (Nat × InlineEntry)
  /-- R86: a ring read outstanding for this many entries. -/
  fetching : Nat
  /-- R81: completions written since the last message. -/
  unsignalled : Nat
  /-- R89: entries outstanding at the start of the shutdown, not yet fetched then. -/
  drained : Bool
  /-- R89: the admin command that deleted the SQ. -/
  deleter : Option Nat
  /-- R94: op held during a firmware-activation stall, with the admin command that asked. -/
  heldOp : Option (Nat × Option Nat)
  /-- R67: device queue slot. -/
  slot : Option Nat
  deriving DecidableEq, Repr

/-- Reset values of Table 3.1. -/
def QState.absent : QState :=
  { sqBase := 0, cqBase := 0, sqDepthM1 := 0, cqDepthM1 := 0, inlineEn := false, irqEn := false, boundCq := 0,
    vector := 0, coalTime := 0, coalCount := 0, setupResult := 0, sqState := .absent, cqState := .absent, sqTail := 0,
    sqHead := 0, cqHead := 0, cqTail := 0, overflow := [], parked := [], stamps := [], inlineHeld := [], inlineReady := [], fetching := 0,
    unsignalled := 0, drained := false, deleter := none, heldOp := none, slot := none }

/-- A location in an array: array, beam, data block (R165, R208). -/
structure Loc where
  array : Nat
  beam  : Nat
  block : Nat
  deriving DecidableEq, Repr

/-- Where a block of a command stands. -/
inductive BlockState where
  /-- A member read is outstanding or a survivor set is being gathered. -/
  | reading
  /-- Delivered (READ) or held for re-encryption (COPY, plain bytes). -/
  | done (plain : Block)
  /-- Cleared or never written. -/
  | clear
  /-- Allocated and reading as zeros. -/
  | zero
  /-- On the dark-block list. -/
  | dark
  /-- No candidate passed, or the array went OFFLINE: the qualifier of READ_UNRECOVERED. -/
  | unrecovered (qual : Nat)
  /-- It could not be written to the host buffer (TRANSFER_ERROR, qualifier 0x03). -/
  | undelivered
  deriving DecidableEq, Repr

/-- Where an atomic unit of a command stands (R123, R197). -/
inductive UnitState where
  /-- Its host or source data is still being read. -/
  | reading
  /-- Its stored blocks are in the condenser: ciphertext per block, or for a block that travels as a delta whether it is
  zero-flagged. `waits`: the waits counted for it so far, bit 0 placement (R217, R226), 1 spill (R239), 2 full (R242). -/
  | ready (blocks : List (Sum Block Bool)) (waits : Nat)
  /-- Placed with this write sequence. -/
  | placed (seq : Nat)
  /-- Its beam has committed. -/
  | committed
  /-- Never placed: the status and qualifier it leaves. -/
  | failed (status qual : Nat)
  deriving DecidableEq, Repr

/-- An atomic unit: first block, length, state. -/
structure Piece where
  lba : Nat
  len : Nat
  st  : UnitState
  /-- Table 8.8: it is placed, and its data is being read again from the host buffer. -/
  again : Bool := false
  deriving DecidableEq, Repr

/-- Where a consumed command stands. -/
inductive Phase where
  /-- Waiting for hazards (R112) or FENCE (R122). -/
  | held
  /-- In Iris (R136). -/
  | iris
  /-- Admitted, not yet started. -/
  | admitted
  /-- Started. -/
  | started
  /-- Ended; its completion waits in its context for CQ space (R88). -/
  | ended
  deriving DecidableEq, Repr

/-- A consumed, uncompleted command. -/
structure Ctx where
  id     : Nat
  fn     : Fn
  q      : Nat
  stamp  : Nat
  raw    : BitVec 512
  segs   : SegRead
  phase  : Phase
  /-- Effective class after demotion (R142). -/
  cls    : Nat
  /-- R142. -/
  demoted : Bool
  /-- Tenant charged (R138). -/
  tenant : Option Nat
  /-- READ, COPY source: one state per block. -/
  blocks : List BlockState
  /-- WRITE, COPY, TRIM, WRITE_ZEROES: the atomic units. -/
  units  : List Piece
  /-- FLUSH: the write records it covers (R117). -/
  covers : List Nat
  /-- FLUSH, FENCE: waiting, with its own number; ABORT: the submission stamp of the target whose entry it waits for. -/
  waitOn : Option Nat
  /-- ABORT: its result word (R104). -/
  answer : Nat
  /-- ABORT or isolation asked this command to stop (R104, R148). -/
  stopping : Bool
  /-- COPY: its copy-engine channel, 12 to 15 (R390). -/
  chan   : Option Nat
  /-- R230: the keys in force when it started: of its volume, then of COPY's source. -/
  keys   : List (BitVec 512)
  /-- R150: it has passed Iris. -/
  passed : Bool
  /-- It has passed the meter stage (R150), and is the write with this record (R117). -/
  metered : Bool
  record : Option Nat
  /-- R89: the status and qualifier of its end, while its completion waits for another place. -/
  ended  : Option (Nat × Nat)
  /-- R119: it has finished, `answer` being its result word, and waits for earlier ORDERED commands. -/
  waitsOrder : Bool
  /-- R89: an entry of a ring that was never fetched, which only completes ABORTED_QUEUE. -/
  unfetched : Bool
  deriving DecidableEq, Repr

/-- A command as it is consumed: nothing of it has been done. -/
def Ctx.fresh (id : Nat) (f : Fn) (q stamp : Nat) (raw : BitVec 512) (segs : SegRead) (tenant : Option Nat) : Ctx :=
  { id := id, fn := f, q := q, stamp := stamp, raw := raw, segs := segs, phase := .held, cls := (raw.extractLsb' 8 2).toNat
    demoted := false, tenant := tenant, blocks := [], units := [], covers := [], waitOn := none, answer := 0, stopping := false
    chan := none, keys := [], passed := false, metered := false, record := none, ended := none, waitsOrder := false, unfetched := false }

/-- A completed write that is not yet committed, for FLUSH, ORDERED and R116. -/
structure WriteRec where
  id     : Nat
  fn     : Fn
  q      : Nat
  volume : Nat
  array  : Nat
  ordered : Bool
  /-- R117: its completion entry has been written. -/
  written : Bool
  /-- Write sequences of its units not yet committed. -/
  seqs   : List Nat
  deriving DecidableEq, Repr

/-- Command execution (chapters 3 and 4). -/
structure Commands where
  /-- R67: queue pages, by function pack × 1,024 + queue; default `QState.absent`. -/
  qs : Tbl QState
  /-- R67: device queue slots in use: slot to queue key. -/
  slots : Tbl Nat
  /-- R113: consumed, uncompleted commands, in order of consumption. -/
  ctxs : List Ctx
  /-- Next context number. -/
  nextCtx : Nat
  /-- R120: next submission stamp. -/
  nextStamp : Nat
  /-- R136: commands waiting in Iris, in order of arrival. -/
  irisQ : List Nat
  /-- R121, R122: per function pack, commands that completed with a status other than OK: (stamp, next stamp at the
  completion); default none. -/
  failLog : Tbl (List (Nat × Nat))
  /-- R115, R117: completed writes not yet committed. -/
  writes : List WriteRec
  /-- R119: ORDERED commands not yet durable are found among `ctxs` and `writes`. -/
  nextWrite : Nat
  /-- R148: TENANT_ISOLATE running: tenant, context, commands completed ABORTED. -/
  isolating : Option (Nat × Nat × Nat)
  deriving DecidableEq, Repr

/-- A tenant's token-table entry and counters (R139, R150). Default: undefined. -/
structure Tenant where
  /-- R139. -/
  defined : Bool
  /-- R148. -/
  isolated : Bool
  /-- Table 5.2 words W1 to W4, W6:W7. -/
  opRate : Nat
  opDepth : Nat
  byteRate : Nat
  byteDepth : Nat
  w1 : Nat
  w2 : Nat
  quota : Nat
  /-- R137: levels, × 10^9, and the time of their last update. -/
  opLevel : Int
  byteLevel : Int
  last : Nat
  /-- Table 5.4: the seven 64-bit counters. -/
  blocksRead : Nat
  blocksWritten : Nat
  commands : Nat
  c0Commands : Nat
  busyUs : Nat
  capSeconds : Nat
  encBlocks : Nat
  /-- R156: reset at the next edge; rollover flag due. -/
  rollover : Bool
  rolloverFlag : Bool
  /-- Latest record (R155), 64 bytes; none before the first snapshot. -/
  lastRecord : List Byte
  /-- R160: deleted, with its record due in the next snapshot. -/
  deleting : Bool
  deriving DecidableEq, Repr

/-- A tenant never set (R139). -/
def Tenant.undefined : Tenant :=
  { defined := false, isolated := false, opRate := 0, opDepth := 0, byteRate := 0, byteDepth := 0, w1 := 8, w2 := 2,
    quota := 0, opLevel := 0, byteLevel := 0, last := 0, blocksRead := 0, blocksWritten := 0, commands := 0,
    c0Commands := 0, busyUs := 0, capSeconds := 0, encBlocks := 0, rollover := false, rolloverFlag := false,
    lastRecord := [], deleting := false }

/-- Meters (R152 to R159). -/
structure Meter where
  /-- R153: ring base, depth, enable, vector. -/
  base : Quad
  depth : Nat
  enabled : Bool
  vector : Nat
  /-- R154: waiting snapshots, oldest first: sequence and records. -/
  backlog : List (Nat × List (List Byte))
  /-- R155: gap flag due on the next record written. -/
  gap : Bool
  /-- R155: takeover flag due. -/
  takeover : Bool
  /-- R158: last minute stamped. -/
  lastMinute : Nat
  /-- R155: time stepped across an edge. -/
  stepped : Bool
  /-- R159: ECLIPSE has been left since the last snapshot, whose records carry the gap flag. -/
  eclipsed : Bool
  deriving DecidableEq, Repr

/-- A geometry of an array (R162): the scheme, its counts, and the member of each slot. -/
structure Geom where
  /-- False: k+m parity; true: mirror. -/
  mirror : Bool
  k : Nat
  m : Nat
  members : List Nat
  epoch : Nat
  deriving DecidableEq, Repr

/-- A block as the condenser and the protected cache hold it: its stored bytes, and the summary entry held with them (R180, R201, R240). -/
structure Stored where
  data : Block
  entry : Block
  deriving DecidableEq, Repr

/-- What one item of a beam is, in placement order. -/
inductive Item where
  /-- A host or relocated block: its data block number, address, write sequence, stored bytes, and for a relocation the
  location it was copied from. -/
  | block (n vol lba seq : Nat) (data : Stored) (src : Option Loc)
  /-- A range delta: TRIM, or WRITE_ZEROES when `zero`. -/
  | delta (vol lba len : Nat) (zero : Bool) (seq after : Nat)
  deriving DecidableEq, Repr

/-- State of one facet of a closed beam. -/
inductive FacetState where
  /-- Not issued, or issued and not complete: member commands outstanding. -/
  | pending (left : Nat)
  | written
  /-- Counts as an erasure (R204). -/
  | erased
  deriving DecidableEq, Repr

/-- A beam that is open, or closed and not yet committed (R198, R204). -/
structure Beam where
  num : Nat
  /-- Internal beam (R199). -/
  internal : Bool
  /-- R175 bit 1: carries a sweep relocation. -/
  swept : Bool
  epoch : Nat
  items : List Item
  closed : Bool
  /-- R202: closed by the timer or forced. -/
  byTimer : Bool
  /-- R204: one state per slot, once closed. -/
  facets : List FacetState
  /-- R204: every journal copy lists the segment and holds the deltas. -/
  journalled : Bool
  /-- R381, R382: its packet to the MIRROR: 0 not sent, 1 sent, 2 acknowledged. -/
  mirror : Nat
  /-- R383: held by a mismatch. -/
  mismatch : Bool
  /-- R203: device time at close. -/
  time : Nat
  deriving DecidableEq, Repr

/-- R223: segment states. -/
inductive SegState where
  | free | opened | sealed | cleaning
  deriving DecidableEq, Repr

/-- A segment and its record (R223, R268). Default: FREE, epoch 1, mask 0. -/
structure Segment where
  st : SegState
  live : Nat
  epoch : Nat
  mask : List Nat
  /-- R274: offsets of its beams that committed. -/
  beams : List Nat
  /-- R225: beams of the array that hold committed relocations from it. -/
  into : List Nat
  deriving DecidableEq, Repr

/-- A running sweep (R274, R275, R276, R284). -/
inductive Sweep where
  | facet (slot spare : Nat) (catchUp : Bool)
  | relocation
  | reshape
  deriving DecidableEq, Repr

/-- What waits for the epoch barrier of R278. -/
inductive Barrier where
  | facet (slot spare : Nat)
  | relocation
  | reshape (g : Geom)
  deriving DecidableEq, Repr

/-- What a whole beam is read for: a facet rebuild or catch-up (R274), scrub (R185), or roll-forward (R221). -/
inductive BeamUse where
  | rebuild | scrub | roll
  deriving DecidableEq, Repr

/-- A beam being read, range by range (R171, R172). -/
structure BeamRead where
  use : BeamUse
  beam : Nat
  /-- Bytes of a range. -/
  unit : Nat
  /-- Ranges arrived: slot, offset in the facet, and the bytes; no bytes mark a failed read. -/
  got : List (Nat × Nat × List Byte)
  deriving DecidableEq, Repr

/-- R274: a segment whose facets of one slot are being written. -/
structure Rebuild where
  seg : Nat
  slot : Nat
  target : Nat
  /-- Beams done; the next is the first one committed and not done. -/
  done : List Nat
  /-- Its live blocks have been asked for. -/
  checked : Bool
  /-- Contents that take the place of blocks that failed the check: data block number and bytes. -/
  fixes : List (Nat × Block)
  /-- Its facet has been issued to the target. -/
  writing : Bool
  deriving DecidableEq, Repr

/-- R216: one copy of the journal, in a slot of a member. -/
structure JournalCopy where
  member : Nat
  slot : Nat
  gen : Nat
  openList : List Nat
  horizon : Nat
  deltas : List (Nat × Item)
  nextSeq : Nat
  epoch : Nat
  /-- Its write has completed. -/
  whole : Bool
  deriving DecidableEq, Repr

/-- R220 to R222: a recovery of the array that is not closed out. -/
structure Recovery where
  /-- Its steps after the first have begun: it does not wait for the array to leave OFFLINE. -/
  begun : Bool
  /-- Roll-forward: beams still to be scanned, in open order, and the journal's epoch. -/
  scan : List Nat
  epoch : Nat
  /-- Roll-forward: the deltas of the journal used. -/
  deltas : List (Nat × Item)
  /-- Roll-forward: relocated blocks of the beam being applied whose source is being read: block number, volume, LBA, crc, seq_low. -/
  moved : List (Nat × Nat × Nat × Word × Nat)
  /-- The first beam of `scan` is being applied. -/
  applying : Bool
  /-- Beams opened since the horizon and not found complete, each with whether it carries an acknowledged unit. -/
  opened : List (Nat × Bool)
  /-- Acknowledged units are lost (R222, R252). -/
  lost : Bool
  /-- The journal has still to be read, which waits for the array to leave OFFLINE (R220); with a valid image, also from the window. -/
  unread : Option Bool
  deriving DecidableEq, Repr

/-- An array (chapters 6, 7 and 9). -/
structure Arr where
  /-- Current geometry; `geom.epoch` is the geometry epoch (R175). -/
  geom : Geom
  /-- Previous geometry in use during a meridian sweep (R276, R285). -/
  prev : Option Geom
  /-- log2 of the facet size (R162). -/
  shift : Nat
  /-- WRITE_THROUGH (R191). -/
  writeThrough : Bool
  /-- R176: instance number. -/
  inst : Nat
  /-- B / 64 (R167). -/
  segs : Nat
  /-- R196: next write sequence. -/
  nextSeq : Nat
  /-- R200: active segment and the offset of its next unopened beam. -/
  active : Option (Nat × Nat)
  /-- R198, R204: beams open or uncommitted, in open order. -/
  beams : List Beam
  /-- R223, R268: segments; default FREE. -/
  seg : Tbl Segment
  /-- R214: journal holders. -/
  holders : List Nat
  /-- R218: a re-homing whose copy is not complete. -/
  rehoming : Bool
  /-- R216: journal generation. -/
  journalGen : Nat
  /-- R216: open-segment list, in open order. -/
  openList : List Nat
  /-- R216: horizon beam, an offset in the first listed segment. -/
  horizon : Nat
  /-- R216: range deltas held in the journal, each with its beam, in placement order. -/
  deltas : List (Nat × Item)
  /-- R217: beams with a delta, or in a segment, that the newest journal write issued does not hold. -/
  jdirty : List Nat
  /-- R211: a running checkpoint: the segments its horizon passes, the horizon's place (segment, offset), and the beams whose deltas
  it covers. -/
  ckpt : Option (List Nat × Nat × Nat × List Nat)
  /-- R205, R241: the delta log beyond the horizon: committed beams, each with the place of its first delta in the ring and its deltas, in
  commit order. -/
  log : List (Nat × Nat × List MapDelta)
  /-- R216: the journal copies on members. -/
  copies : List JournalCopy
  /-- R183: repairs queued or placed and not committed: (volume, LBA). -/
  repairs : List (Nat × Nat)
  /-- R266, R267: units and deltas kept in the protected cache for re-placement, in write-sequence order. -/
  keptUnits : List Item
  /-- R226, R239: the waits counted for the first of them, as `UnitState.ready` counts. -/
  keptWaits : Nat
  /-- Running sweep, paused, held. -/
  sweep : Option Sweep
  paused : Bool
  onHold : Bool
  /-- R278: barrier in progress, with the admin command that waits for it. -/
  barrier : Option (Barrier × Option Nat)
  /-- R273: slots whose rebuild delay is running. -/
  rebuildDue : List Nat
  /-- R269: outage record. -/
  outage : List Nat
  /-- R266: reason, 0 none, 1 members, 2 journal lost. -/
  offline : Nat
  /-- R224: segment being cleaned. -/
  cleaning : List Nat
  /-- R377: segments that may not take beams until the embargo ends. -/
  embargo : List Nat
  /-- R281: held by a block lost for the moment. -/
  cleanerHold : Bool
  /-- R356: the array's cadence; a change in progress; `now` + 1 at the last change, 0 when none. -/
  cadence : Nat
  cadenceTo : Option Nat
  cadenceAt : Nat
  /-- R274: facets being rebuilt. -/
  rebuild : Option Rebuild
  /-- Beams being read whole. -/
  reads : List BeamRead
  /-- R175, bit 1: the sources of relocations that a sweep made and that have not committed. -/
  swept : List Loc
  /-- R281: for each block declared dark in a beam that is still worked on, the beam. -/
  darkened : List Nat
  /-- R220: its recovery. -/
  recovery : Option Recovery
  /-- R267: it has left OFFLINE and places what was kept before it serves. -/
  returning : Bool
  /-- R269: segment records as its map-region extents hold them: geometry epoch and missing mask; default 0 and 0. -/
  records : Tbl (Nat × Nat)
  /-- R287: sequence number of the last meridian checkpoint. -/
  meridianSeq : Nat
  deriving DecidableEq, Repr

/-- R228: volume states. -/
inductive VolState where
  | ready | deleting
  deriving DecidableEq, Repr

/-- A volume (chapter 7). -/
structure Vol where
  st : VolState
  capacity : Nat
  tenant : Nat
  array : Nat
  readOnly : Bool
  /-- R382: mirrored write-back. -/
  writeBack : Bool
  /-- R230: loaded XTS key pair. -/
  key : Option (BitVec 512)
  /-- R230: key stored in the catalogue. -/
  stored : Option (BitVec 512)
  /-- R230: key check value. -/
  kcv : Option Word
  /-- R208: map entries by LBA; default 0. -/
  map : Tbl Quad
  /-- R210: the entries as the pages of the map region hold them. -/
  region : Tbl Quad
  allocated : Nat
  dark : Nat
  /-- R228: the admin command that deletes it. -/
  deleter : Option Nat
  deriving DecidableEq, Repr

/-- Table 9.1: member states. -/
inductive MemberState where
  | absent | online | slow | failed | target | spare
  deriving DecidableEq, Repr

/-- R303: escalation of a timed-out command. -/
inductive Escalation where
  | idle
  /-- Aborts sent for the timed-out commands with these tags. -/
  | aborting (tags : List Nat)
  /-- CC.EN cleared, waiting for CSTS.RDY to fall. -/
  | disabling
  /-- CC.EN set, waiting for CSTS.RDY. -/
  | enabling
  /-- Function level reset and link reset sent. -/
  | relinking
  deriving DecidableEq, Repr

/-- A member index (chapters 9 and 10). Default: `Member.absent`. -/
structure Member where
  st : MemberState
  /-- State to return to from SLOW (R262). -/
  was : MemberState
  /-- Label as the device last wrote or read it; none when blank. -/
  label : Option Label
  /-- Spare dedicated to an array (R289). -/
  dedicated : Option Nat
  /-- Capacity in MiB (R295, R213). -/
  capacityMib : Nat
  /-- Array area in bytes, of the member after its system area (R167, R213). -/
  areaBytes : Nat
  /-- R296: identifier. -/
  ident : BitVec 128
  port : Nat
  half : Nat
  levels : Nat
  bus : Nat
  writeCache : Bool
  singlePort : Bool
  /-- R308: reservation held by this device, registered key. -/
  reserved : Bool
  regKey : Option Quad
  acl : Nat
  capToS : Nat
  /-- R301: MDTS in KiB, 0 for no limit. -/
  mdtsKib : Nat
  /-- R304: Aborts outstanding. -/
  aborts : Nat
  esc : Escalation
  /-- R261: times of recent timeouts. -/
  timeoutAt : List Nat
  /-- R262: consecutive good probes. -/
  probes : Nat
  /-- R289: RELEASE is probing this FAILED member. -/
  releasing : Bool
  /-- R300: I/O queues exist. -/
  queues : Bool
  /-- R376: not fenced by this device. -/
  unfenced : Bool
  /-- R264: it has been FAILED in a slot that it may still hold. -/
  barred : Bool := false
  /-- R262: its label has changed while it was SLOW, and is still to be written. -/
  labelDue : Bool := false
  /-- R312: enumerated since the core started. -/
  seen : Bool := false
  deriving DecidableEq, Repr

/-- A member never seen (R259). -/
def Member.absent : Member :=
  { st := .absent, was := .absent, label := none, dedicated := none, capacityMib := 0, areaBytes := 0, ident := 0, port := 0, half := 0,
    levels := 0, bus := 0, writeCache := false, singlePort := false, reserved := false, regKey := none, acl := 0,
    capToS := 0, mdtsKib := 0, aborts := 0, esc := .idle, timeoutAt := [], probes := 0, releasing := false, queues := false,
    unfenced := false }

/-- Why a member command was issued. -/
inductive Purpose where
  /-- A range of a slot for a block job: `summary` false for the block's own range. -/
  | job (id slot : Nat) (summary : Bool)
  /-- Part of a facet write of a beam. -/
  | facet (array beam slot : Nat)
  | label
  /-- Part of a write of a label, of the catalogue or of a sweep's position, whose end nothing waits for. -/
  | area
  | probe
  | journal (array gen : Nat)
  /-- A copy of a changed map page (R211). -/
  | checkpoint (vol page copy : Nat)
  /-- A range of a slot, of a beam read whole. -/
  | beamRead (array : Nat) (use : BeamUse) (slot : Nat)
  /-- Part of a rebuilt facet (R274). -/
  | rebuilt (array beam : Nat)
  /-- A copy of a map page, read for a job (R212). -/
  | page (job copy : Nat)
  /-- A copy of a map page that is read again after a memory error (Table 8.8). -/
  | pageAgain (vol page copy : Nat)
  /-- A journal copy read again after a memory error. -/
  | reload
  /-- A sector of a relation, read for interference recovery (R338). -/
  | relation
  /-- Register or acquire in a tie or fence (R308, R373). -/
  | tie
  | fence
  deriving DecidableEq, Repr

/-- An NVMe or Lens command outstanding at a member (R298, R301). -/
structure MCmd where
  tag : Nat
  member : Nat
  write : Bool
  offset : Nat
  length : Nat
  /-- What a write carries. -/
  bytes : List Byte
  why : Purpose
  /-- R261: timed out, or ended early; its result is discarded. -/
  dead : Bool
  /-- R304: an Abort of it is outstanding. -/
  aborted : Bool
  /-- R261: `now` at its issue. -/
  issued : Nat
  /-- R261: its timeout has passed. -/
  expired : Bool := false
  /-- R300: the I/O queue of the member that it takes, 0 on a platter member. -/
  queue : Nat := 0
  /-- R300: its queues are full, and it has not been issued yet. -/
  waiting : Bool := false
  /-- A reservation command: the key it carries, and the one it preempts (R308). -/
  key : Nat := 0
  preempts : Nat := 0
  deriving DecidableEq, Repr

/-- Whose block a job obtains. -/
inductive JobOwner where
  /-- Block `off` of a READ. -/
  | readBlock (ctx off : Nat)
  /-- Source block `off` of a COPY. -/
  | copyBlock (ctx off : Nat)
  /-- A live block of a beam with a faulty facet, to be relocated (R183). -/
  | repair
  /-- A live block that the cleaner, or a sweep when `swept`, relocates (R224, R276). -/
  | clean (swept : Bool)
  /-- A live block that a facet rebuild checks (R274). -/
  | check
  /-- A live block that failed in scrub (R185). -/
  | scrub
  /-- The source of relocated block `n` of a beam that roll-forward applies (R221). -/
  | source (n : Nat)
  deriving DecidableEq, Repr

/-- One block being obtained (R171, R180 to R184, R270). -/
structure Job where
  id : Nat
  /-- More than one where reads of the block failed the check together (R194). -/
  owners : List JobOwner
  vol : Nat
  lba : Nat
  loc : Loc
  /-- Facets that this read alone is routed around, of the block's range or of the summary's (R270). -/
  extra : List (Nat × Bool)
  /-- Ranges arrived: (slot, summary range?) and the bytes; empty bytes mark a failed read. -/
  got : List (Nat × Bool × List Byte)
  /-- The survivors have been asked for. -/
  wide : Bool
  /-- R280, R302: ranges that a member has reported unreadable: slot, and summary range or not. -/
  unreadable : List (Nat × Bool)
  /-- R195: the reconstructions made: summary range or not, and the survivors. -/
  decodes : List (Bool × List Nat)
  /-- Read-around running (R270). -/
  around : Bool
  /-- R212: the other copies of the map page that have arrived; none before they were asked for. -/
  pages : Option (List (Nat × List Byte))
  deriving DecidableEq, Repr

/-- Members, ports and their outstanding work (chapters 9 and 10). -/
structure Members where
  /-- R259: members by index; default `Member.absent`. -/
  tbl : Tbl Member
  /-- R296: the member directory: identifier by index. -/
  dir : Tbl (BitVec 128)
  /-- R301: commands outstanding. -/
  cmds : List MCmd
  nextTag : Nat
  jobs : List Job
  nextJob : Nat
  /-- R293: ports that operate as two half-ports. -/
  bifurcated : List Nat
  /-- R306: half-ports whose link is down or has failed. -/
  down : List (Nat × Nat) := []
  /-- R307: directory entries that are private to the partner. -/
  priv : List Nat := []
  /-- R384: indices that the partner's directory has named in this resynchronisation. -/
  named : List Nat := []
  /-- R292: header log of a half-port's root error collection, by port × 2 + half. -/
  aerHeader : Tbl (BitVec 128) := []
  deriving DecidableEq, Repr

/-- The protected cache, dump and vaults (chapter 8). -/
structure PCache where
  /-- R236: window size in GiB in force. -/
  windowGib : Nat
  /-- R243: vaults in use; none also once a vault has failed in a dump (R249). -/
  vaults : List (Option Nat)
  /-- R245: rates of the last vault test, MB/s. -/
  r0 : Nat
  r1 : Nat
  /-- R247: a vault test is running. -/
  testing : Bool
  /-- R245: an attestation stands. -/
  attested : Bool
  /-- R251: an unconsumed image exists; its window size in MiB. -/
  image : Option Nat
  /-- Table 8.6: image_seq of the last dump, and each vault's header state. -/
  imageSeq : Nat
  hdr0 : Nat
  hdr1 : Nat
  /-- R252: poisoned data slots, each by its block: array, write sequence and LBA. -/
  poisoned : List (Nat × Nat × Nat)
  /-- R248: a dump is running without entry to ECLIPSE (R461). -/
  quiet : Bool
  /-- Table 8.6: device time at dump start. -/
  dumpTime : Nat
  deriving DecidableEq, Repr

/-- R214: a map-region extent: its owner, a volume or (16,384 + a) array a, and for each of its three copies the member
and the extent of its map share. -/
structure Extent where
  owner : Nat
  copies : List (Nat × Nat)
  deriving DecidableEq, Repr

/-- DDR, the condenser and the map region (R210, R214, R233, R253). -/
structure MemoryState where
  /-- R253: corrections, by channel, rank, byte lane and kind (`trackKey`), offset by 32; default 32 (no correction). -/
  correction : Tbl Nat
  /-- R211: a checkpoint is running. -/
  checkpoint : Bool
  /-- R216: checkpoint number of the map region. -/
  mapGen : Nat
  /-- R214: assigned extents, in order of assignment. -/
  extents : List Extent
  /-- R211: map pages changed since the last checkpoint read them: (volume, page). -/
  dirtyPages : List (Nat × Nat)
  /-- R211: pages of the running checkpoint that no copy holds yet: (owner, page). -/
  unwritten : List (Nat × Nat)
  /-- R210: pages of the hot tier, the latest used first: (volume, page). -/
  hot : List (Nat × Nat)
  /-- R214: generation of the catalogue. -/
  catGen : Nat
  /-- R241: the tail of the delta log: deltas appended to the ring so far. -/
  logTail : Nat
  deriving DecidableEq, Repr

/-- What the header of a surface's stored zone table gives (R334). -/
structure ZoneHeader where
  zones      : Nat
  formatId   : Nat
  generation : Nat
  deriving DecidableEq, Repr

def ZoneHeader.none : ZoneHeader := ⟨0, 0, 0⟩

/-- A reallocation entry (Table 12.5): the member block, and its spare. -/
structure ReallocEntry where
  pba      : Nat
  cylinder : Nat
  head     : Nat
  sector   : Nat
  lost     : Bool
  deriving DecidableEq, Repr

/-- What the device writes on a platter member outside its member blocks: the header and the entry block of a surface's zone tables
(R334), a copy of the reallocation table on a surface, with its generation and CRC-32C (R361), or a spare (R359). -/
inductive TrackWrite where
  | zoneHeader (surface : Nat)
  | zoneEntries (surface : Nat)
  | reallocCopy (second : Bool) (surface generation : Nat) (crc : Word)
  | spare (pba cylinder head sector : Nat)
  deriving DecidableEq, Repr

/-- The device's side of a Lens channel (chapters 11 and 12). Default: `Lens.down`. -/
structure Lens where
  /-- Table 11.13, lens[n].link bits. -/
  blockLock : Bool
  up : Bool
  owner : Bool
  parked : Bool
  versionRefused : Bool
  /-- R316: sequence of the last frame accepted. -/
  lastSeq : Option Nat
  /-- R323: the link came up while no member command may go out (R31): the label that a read of the member finds, and whether every surface
  can be served; the member joins when commands go out again. -/
  joinDue : Option (Option Label × Bool)
  /-- R315: sequence of the next frame that the device sends. -/
  txSeq : Nat
  /-- R323: CRC-valid frames accepted one after the other, counted up to 16. -/
  accepted : Nat
  /-- R317: sample count announced. -/
  sampleCount : Nat
  /-- R317: the count of the next sample to arrive, once a COUNTER block has given one. -/
  nextSample : Option Nat
  /-- R324: samples lost, as first count and number; and the count from which they are lost until the next COUNTER block. -/
  lostSpans : List (Nat × Nat)
  gapAt : Option Nat
  /-- R317: HEALTH bit 8. -/
  atSpeed : Bool
  /-- R353: a write is in progress. -/
  gate : Bool
  /-- R337: when the zone tables were last written. -/
  flushedAt : Option Nat
  /-- R336: zone entries, as head × 64 + zone, for which a sector that passed at step 1 has an update due. -/
  adaptDue : List Nat
  /-- R319: next tag; tags of commands not acknowledged, with opcode. -/
  nextTag : Nat
  waiting : List (Nat × Nat)
  /-- R319: surfaces; R334: the zone-table header of each surface; default `ZoneHeader.none`. -/
  surfaces : Nat
  headers : Tbl ZoneHeader
  /-- R335: the rate last sent by SET_CLOCK, kHz. -/
  clock : Nat
  /-- R333: sectors read again: member block, widened window (R331), re-reads of steps 4 and 6 made, and 0 being read again, 1 due
  as R324 has it, 2 due as step 4 or 6. -/
  rereads : List (Nat × Bool × Nat × Nat)
  /-- R338: sectors that wait for interference recovery, with the tags intended. -/
  irWait : List (Nat × SectorTag)
  /-- R350: member command in service, by tag. -/
  cur : Option Nat
  /-- R350, R354: member blocks of a write in service and the data regions of each still to be written. -/
  left : List (Nat × List Nat)
  /-- R351: the START_WRITE outstanding: its tag and its data region. -/
  region : Option (Nat × Nat)
  /-- R324: consecutive write faults of the facet being written. -/
  writeFaults : Nat
  /-- R354: data regions of a shutter event, to be written again; revolutions that ended in one. -/
  rewrite : List Nat
  shutterRevs : Nat
  /-- R354: writes held after a shock flag. -/
  shockHold : Bool
  /-- R344: consecutive missed wedges, and the last wedge found. -/
  missed : Nat
  lastWedge : Nat
  /-- R349: consecutive wedges within the settle limits. -/
  settleRead : Nat
  settleWrite : Nat
  head : Nat
  /-- R355: adjacent-track verify due: cylinder, head and wedge. -/
  verifyDue : Option (Nat × Nat × Nat)
  /-- R334: zone entries by head × 64 + zone: (stored, live); default none. -/
  zones : Tbl (ZoneEntry × ZoneEntry)
  /-- R360: reallocation table: pba to (cylinder, head, sector, content lost); default none. -/
  realloc : Tbl (Nat × Nat × Nat × Bool)
  /-- R360: retired spares. -/
  retired : List (Nat × Nat × Nat)
  /-- R361: journal entries not yet in a table copy, each with the module's serial and the generation of the copy it is due in. -/
  journal : List (Nat × Nat × ReallocEntry)
  /-- R361: when the table was last written. -/
  tableAt : Option Nat
  /-- R361: generations of copies A and B. -/
  copyA : Nat
  copyB : Nat
  /-- R359: sectors reported for reallocation, with the content decoded. -/
  reported : List (Nat × Option Block)
  /-- R358: a start or change of the spindle is being waited for. -/
  spinning : Bool
  deriving DecidableEq, Repr

/-- A channel whose link is down. -/
def Lens.down : Lens :=
  { blockLock := false, up := false, owner := false, parked := true, versionRefused := false, lastSeq := none,
    joinDue := none, txSeq := 0, accepted := 0, sampleCount := 0, nextSample := none, lostSpans := [], gapAt := none, atSpeed := false, gate := false
    flushedAt := none, adaptDue := [], nextTag := 0, waiting := [], surfaces := 0, headers := [], clock := 0
    rereads := [], irWait := [], cur := none, left := [], region := none, writeFaults := 0, rewrite := [], shutterRevs := 0
    shockHold := false, missed := 0, lastWedge := 0, settleRead := 0, settleWrite := 0, head := 0, verifyDue := none, zones := []
    realloc := [], retired := [], journal := [], tableAt := none, copyA := 0, copyB := 0, reported := [], spinning := false }

/-- A front-end module (R313 to R322). Default: `FrontEnd.idle`. -/
structure FrontEnd where
  /-- R319: registers 0x000 to 0x005 and the maker's registers; default 0. -/
  regs : Tbl Nat
  /-- R321: newest owner epoch; owner link 0 (A) or 1 (B). -/
  eMax : Option Nat
  ownerLink : Option Nat
  /-- R316: last sequence accepted on each link. -/
  seqA : Option Nat
  seqB : Option Nat
  /-- R319: ADC and write clock, kHz; settling. -/
  clockKhz : Nat
  settling : Bool
  /-- R319: SET_READ, SET_PRECOMP, SET_SHOCK values. -/
  gain : Nat
  boost : Nat
  offset : Nat
  precomp : Nat × Nat × Nat
  shock : Nat
  head : Nat
  /-- R319: the head was switched less than 1 µs ago. -/
  switched : Bool
  /-- R320: write gate active; tag and start count of the write, and its write data received. -/
  gate : Bool
  writeTag : Option Nat
  startCount : Nat
  data : List Bool
  /-- R317: HEALTH bit 11, a write fault is latched. -/
  faulted : Bool
  /-- R315: the shock flag since the previous frame. -/
  shockSeen : Bool
  /-- R315: sequence of the next upstream frame on links A and B. -/
  upSeq : Nat × Nat
  /-- R319: spindle target and acceleration; turning. -/
  rpm : Nat
  accel : Nat
  /-- R319: heads loaded; a LOAD or PARK in progress with its tag. -/
  loaded : Bool
  moving : Option (Bool × Nat)
  clockTag : Option Nat
  /-- R319: VCM current held. -/
  vcm : BitVec 16
  /-- R317: sample count, 44 bits, and samples taken that no block has carried yet. -/
  samples : Nat
  unsent : Nat
  /-- R322: link-loss hold active. -/
  lossHold : Bool
  deriving DecidableEq, Repr

/-- A front-end before any command. -/
def FrontEnd.idle : FrontEnd :=
  { regs := [], eMax := none, ownerLink := none, seqA := none, seqB := none, clockKhz := 0, settling := false, gain := 0,
    boost := 0, offset := 0, precomp := (0, 0, 0), shock := 0, head := 0, switched := false, gate := false, writeTag := none,
    startCount := 0, data := [], faulted := false, shockSeen := false, upSeq := (0, 0), rpm := 0, accel := 0, loaded := false
    moving := none, clockTag := none, vcm := 0, samples := 0, unsent := 0, lossHold := false }

/-- Lens-wide state. -/
structure LensState where
  /-- R313: channels 0 to 23; default `Lens.down`. -/
  chan : Tbl Lens
  /-- R313: front-ends 0 to 23; default `FrontEnd.idle`. -/
  fe : Tbl FrontEnd
  /-- R340: sectors that began to wait for interference recovery, as (channel, member block), oldest first. -/
  irOrder : List (Nat × Nat)
  /-- R338: sectors read for a relation that decoded, as (channel, member block), with their user bytes. -/
  irHeld : List ((Nat × Nat) × Block)
  deriving DecidableEq, Repr

/-- A Lens frame sent: the fields of its control block, and its data blocks; idle blocks fill the rest (Table 11.1). -/
structure Frame (α : Type) where
  seq    : Nat
  epoch  : Nat
  flags  : Nat
  crc    : BitVec 24
  blocks : List α
  deriving DecidableEq, Repr

/-- The mirror pair (chapter 13). -/
structure Pair where
  /-- R365: link up, width. -/
  linkUp : Bool
  width : Nat
  /-- R367: partner's strap. -/
  partnerStrap : Bool
  /-- R368, R385: the partner is MIRROR, or READY, and caught up. -/
  partnerReady : Bool
  /-- R371: on a LEAD its lease is valid; on a MIRROR the LEAD's is taken as valid. -/
  lease : Bool
  /-- R384: packets that concern items not yet copied, in order. -/
  deferred : List StreamItem := []
  /-- R370: the last partner epoch, in MRAM. -/
  partnerEpoch : Nat
  /-- R371, R373: the epoch written to MRAM for the last tie. -/
  claim : Nat
  /-- R371: RENEW sequence last sent, last acknowledged, last received. -/
  renewSeq : Nat
  renewAcked : Nat
  renewSeen : Nat
  /-- R375: the lease has expired on a MIRROR and its guard runs. -/
  guarding : Bool
  /-- R381: stream sequence last sent, last received in order. -/
  streamSent : Nat
  streamSeen : Nat
  /-- R381: packets sent and not acknowledged, oldest first. -/
  unacked : List (Nat × StreamItem)
  /-- R382: items of mirrored write-back units held for the LEAD, with their array. -/
  held : List (Nat × Item)
  /-- R383: verdict pending: array, beam. -/
  verdict : Option (Nat × Nat)
  /-- R384: resynchronising from a LEAD (or else a SOLO device); the admin command that waits. -/
  resync : Option (Bool × Nat)
  /-- R373: arbiter name waiting for acknowledgement. -/
  arbiterNext : Option Nat
  /-- R385: caught up with the stream. -/
  caughtUp : Bool
  /-- R309: fenced; no member command is issued. -/
  fenced : Bool := false
  /-- R308: the key of the previous holder, which a tie and its fences preempt. -/
  fenceKey : Nat := 0
  deriving DecidableEq, Repr

/-- What a copy channel is doing (R393 to R400). -/
inductive ChanWork where
  | none
  /-- A descriptor fetch is outstanding at this address. -/
  | fetch (addr : Nat)
  /-- Waiting for the staging buffer. -/
  | waitStage
  /-- Moving bytes: bytes of the descriptor read (staged) and written so far. -/
  | move (read written : Nat)
  deriving DecidableEq, Repr

/-- A copy record before it is written (Table 14.3). -/
structure CopyRec where
  status : Nat
  chainEnd : Bool
  writeSide : Bool
  staged : Bool
  hops : Nat
  lines : Nat
  desc : Nat
  residue : Nat
  tag : Nat
  irq : Bool
  deriving DecidableEq, Repr

/-- A copy-engine channel (Table 14.1). Default: `Chan.unbound`. -/
structure Chan where
  base : Quad
  depthM1 : Nat
  tail : Nat
  head : Nat
  irqEn : Bool
  vector : Nat
  hops : Nat
  /-- Table 14.1 state: 0 unbound, 1 IDLE, 2 RUNNING, 3 WAIT_RING, 4 ABORTING. -/
  st : Nat
  work : ChanWork
  /-- The descriptor in hand and its address. -/
  desc : BitVec 512
  addr : Nat
  staged : Bool
  buffer : List Byte
  /-- Record waiting for ring space, and the descriptor address to go on to afterwards. -/
  record : Option CopyRec
  next : Option Nat
  /-- COPY command using a channel 12 to 15. -/
  ctx : Option Nat
  deriving DecidableEq, Repr

/-- A channel after reset (Table 14.1). -/
def Chan.unbound : Chan :=
  { base := 0, depthM1 := 0, tail := 0, head := 0, irqEn := false, vector := 0, hops := 0, st := 0, work := .none,
    desc := 0, addr := 0, staged := false, buffer := [], record := none, next := none, ctx := none }

/-- A BAR2 access slot (Table 16.5). Default: all zero. -/
structure DictSlot where
  index : Nat
  sub : Nat
  length : Nat
  busy : Bool
  result : Nat
  rlength : Nat
  data : List Byte
  deriving DecidableEq, Repr

/-- A stored settings copy (R440). -/
structure Settings where
  seq : Nat
  valid : Bool
  vals : Tbl Nat
  binds : Tbl (Nat × Nat)
  tenants : Tbl Tenant
  deriving DecidableEq, Repr

/-- The dictionary and settings (chapter 16). -/
structure Dict where
  /-- R437: holder, 0 free, 1 admin, 2 side-band, and the time of expiry. -/
  holder : Nat
  expiry : Nat
  /-- R434: access slots 0 to 7. -/
  slots : Tbl DictSlot
  /-- R440: copies A and B in MRAM. -/
  copyA : Settings
  copyB : Settings
  /-- R440: a store is running into this copy; the side-band requester that waits for it. -/
  storing : Option (Nat × Settings)
  storeFor : Option FalferMsg
  /-- R441: copy content loaded, for objects outside Periscope. -/
  loaded : Settings
  deriving DecidableEq, Repr

/-- The side-band port (R443 to R449). -/
structure SideBand where
  /-- R445: keys of slots 0 to 3, in MRAM identity; default all zeros. -/
  keys : Tbl (BitVec 256)
  /-- R445: highest sequence accepted, device sequence, per slot. -/
  seqIn : Tbl Nat
  seqOut : Tbl Nat
  /-- R447: subscriptions by number, 0 to 3: sender, port, slot, min severity, kinds. -/
  subs : Tbl (BitVec 128 × Nat × Nat × Nat × Nat)
  /-- R444: duplicate address detection found a conflict. -/
  dadConflict : Bool
  deriving DecidableEq, Repr

/-- A QSPI image slot (R465, R468). -/
structure ImageSlot where
  /-- 0 empty, 1 downloading, 2 verified, 3 failed. -/
  st : Nat
  img : Option ImageFacts
  /-- R469: writer: 0 none, 1 admin, 2 side-band. -/
  writer : Nat
  /-- R448: ranges written since the erase. -/
  written : List (Nat × Nat)
  deriving DecidableEq, Repr

/-- Firmware images and activation (R128, R464 to R470). -/
structure Firmware where
  slotA : ImageSlot
  slotB : ImageSlot
  /-- Version and svn of the running image. -/
  version : Quad
  svn : Nat
  /-- R128: activation in progress: slot and the admin command. -/
  activating : Option (Nat × Nat)
  /-- R134: `now` when the last activation stall began. -/
  stallStart : Nat
  deriving DecidableEq, Repr

/-- Fixed identity of the unit (MRAM identity), set at manufacture. -/
structure Identity where
  serial : Quad
  mac : BitVec 48
  stepping : Nat
  deriving DecidableEq, Repr

/-- How a request of the device travels (Table 2.1, R59): the IDE stream it goes on, none for plain TLPs, and its relaxed-ordering and
no-snoop attributes. -/
structure TlpAttr where
  stream : Option Nat
  relaxed : Bool
  noSnoop : Bool
  /-- The TLP carries an ECRC digest. -/
  digest : Bool
  deriving DecidableEq, Repr

/-- What an observer outside the package sees, in order (the model's own record of outputs, log entry 4). -/
inductive Out where
  /-- A memory write as a function: address and bytes. -/
  | hostWrite (f : Fn) (addr : Nat) (bytes : List Byte) (attr : TlpAttr)
  /-- A memory read request as a function. -/
  | hostRead (f : Fn) (addr len : Nat) (attr : TlpAttr)
  | msix (f : Fn) (vector : Nat) (attr : TlpAttr)
  /-- An error reported through AER (Table 2.8): its status bit, uncorrectable or not, and the message sent: 0 none, 1 ERR_NONFATAL,
  2 ERR_FATAL, 3 ERR_COR. -/
  | aer (f : Fn) (uncorrectable : Bool) (statusBit message : Nat)
  | urCompletion (f : Fn) (attr : TlpAttr)
  /-- An answer on a PF DOE mailbox. -/
  | doe (port : Nat) (code : Nat) (bytes : List Byte)
  /-- A member command issued (tag, member, write, offset, length, bytes written), FUA (R301), and the I/O queue of Table 10.4 it takes,
  0 on a platter member. -/
  | member (tag m : Nat) (write : Bool) (offset len : Nat) (bytes : List Byte) (fua : Bool) (queue : Nat)
  /-- A reservation command on namespace 1 of a member (R308, R310), on its I/O queue: action, reservation type, key, and the key it
  preempts. -/
  | reservation (m queue : Nat) (action : String) (rtype key preempts : Nat)
  /-- R244: a Write to a vault of a 1 MiB unit of the protected-cache window, or of a part of one (tag, member, offset, unit, length).
  `parts`: what it carries of the window in use, each with its offset in the Write; R241 leaves the other bytes open. -/
  | windowUnit (tag m offset unit len : Nat) (parts : List (Nat × List Byte))
  /-- An NVMe admin action on a member: Abort, controller disable, enable, resets, features, log pages, queues, Flush, Deallocate. -/
  | memberCtl (m : Nat) (what : String) (arg : Nat)
  /-- A downstream Lens frame on a channel. -/
  | lensDown (chan : Nat) (f : Frame DownBlock)
  /-- A write of the device to the reserved tracks or the spares of a platter member. -/
  | lensTrack (chan : Nat) (what : TrackWrite) (bytes : List Byte)
  /-- An upstream frame that a front-end sends on link 0 (A) or 1 (B). -/
  | feUp (chan link : Nat) (f : Frame UpBlock)
  /-- R320: bits that a front-end has written on a head, and the sample count of the first. -/
  | feWrite (chan head count : Nat) (bits : List Bool)
  /-- R339: the priors of a round of a recovery job, one for each user bit of a failing facet. -/
  | irPrior (array beam facet round : Nat) (prior : List Int)
  /-- A pair-protocol packet. -/
  | pair (what : String) (a b : Nat)
  /-- A packet of the stream (R381). -/
  | stream (seq : Nat) (item : StreamItem)
  /-- A Falfer reply or notice (Table 16.9): key slot, type, result, tag, sequence, payload and MAC (none on a discovery reply), to the
  sender's address and port. -/
  | falfer (dest : BitVec 128) (port keySlot kind result : Nat) (tag : Word) (seq : Nat) (payload : List Byte) (mac : Option (BitVec 128))
  /-- An IPv6 or IEEE 1588 packet of the side-band port. -/
  | sideband (what : String) (dest : BitVec 128) (payload : List Byte)
  /-- Result of a dictionary access, and the value read. -/
  | dict (who : Master) (result : Nat) (value : List Byte)
  /-- A pin driven. -/
  | pin (name : String) (level : Bool)
  /-- A write to the PHY over MDIO. -/
  | mdio (reg value : Nat)
  deriving DecidableEq, Repr

end Sys2Proof.Machine

namespace Sys2Proof.Machine

/-- The state of the device: all that the spec gives it. -/
structure Dev where
  /-- The model's own counter for free values (log entry 3). -/
  fresh : Nat
  /-- The model's own record of what the device sent, oldest first (log entry 4). -/
  out : List Out
  /-- Scalar dictionary objects (Tables 1.4 to 17.15) by object key; default: the object's default. -/
  vals : Tbl Nat
  pw : Power
  tm : TimeState
  fh : FaultHub
  ports : Tbl HostPort
  fns : Tbl FnState
  cm : Commands
  tenants : Tbl Tenant
  mt : Meter
  arrays : Tbl Arr
  vols : Tbl Vol
  mb : Members
  pc : PCache
  ms : MemoryState
  ls : LensState
  pr : Pair
  chans : Tbl Chan
  /-- R398: channel that holds the staging buffer. -/
  staging : Option Nat
  dc : Dict
  sb : SideBand
  fw : Firmware
  ident : Identity
  deriving DecidableEq, Repr

/-- The state of the block: the device, and the commands that wait for it, first in, first out. -/
structure State where
  pending : List Instr
  dev : Dev
  deriving DecidableEq, Repr

end Sys2Proof.Machine

namespace Sys2Proof.Machine

/-- Settings copy before any store: invalid, so that the defaults load (R441). -/
def Settings.blank : Settings := { seq := 0, valid := false, vals := [], binds := [], tenants := [] }

/-- A host port while the core is down. -/
def HostPort.idle : HostPort :=
  { perstLow := true, linkUp := false, speed := 0, width := 0, readyToTrain := false, vfs := 0, totalVfs := 64
    subsysVendor := 0x1F6A, subsysId := 0, ide := [], sessions := [],
    spdmStage := 0, toHost := { flows := [], c0Level := 0 }, fromHost := { flows := [], c0Level := 0 }, c0Last := 0 }

/-- A QSPI slot that is empty. -/
def ImageSlot.empty : ImageSlot := { st := 0, img := none, writer := 0, written := [] }

/-- A fault source never raised (Table 15.2). -/
def FaultSrc.clear : FaultSrc :=
  { clearDenied := false, latchedSev := 0, realOnset := false, injectedOnset := false, latched := false,
    realLive := false, injLive := 0, count := 0, onset := 0, cleared := 0, detail := 0, lastRecord := 0,
    suppressed := false }

/-- A segment that holds nothing (R223). -/
def Segment.free : Segment := { st := .free, live := 0, epoch := 1, mask := [], beams := [], into := [] }

/-- An access slot after reset (Table 16.5). -/
def DictSlot.reset : DictSlot :=
  { index := 0, sub := 0, length := 0, busy := false, result := 0, rlength := 0, data := [] }

/-- The core side with nothing in it: what CORE_RST_N leaves of commands (R462). -/
def Commands.empty : Commands :=
  { qs := [], slots := [], ctxs := [], nextCtx := 0, nextStamp := 0, irisQ := [], failLog := [], writes := [],
    nextWrite := 0, isolating := none }

/-- Meters with no ring (R153). -/
def Meter.off : Meter :=
  { base := 0, depth := 0, enabled := false, vector := 0, backlog := [], gap := false, takeover := false,
    lastMinute := 0, stepped := false, eclipsed := false }

/-- No partner known (R389). -/
def Pair.none : Pair :=
  { linkUp := false, width := 0, partnerStrap := false, partnerReady := false, lease := false, partnerEpoch := 0, claim := 0
    renewSeq := 0, renewAcked := 0, renewSeen := 0, guarding := false, streamSent := 0, streamSeen := 0, unacked := [], held := []
    verdict := .none, resync := .none, arbiterNext := .none, caughtUp := false }

/-- Power and modes while POR_N is asserted: in reset, with no mode (R27, R462). -/
def Power.inReset : Power :=
  { porHigh := false, coreRstHigh := false, corePwrEn := false, pwrFailLow := false, mpPerstLow := true,
    sbPhyRstHigh := false, thermAlertLow := false, hostTerminated := false, bootMode := 0, pairId := false, mode := .none,
    trans := .none, coreStarting := false, selfTested := false, ddrReady := false, collapsed := false,
    fetchStopped := false, parkPending := false, sagBelow := [], sagPct := 100, thermPct := 100, tripPending := false,
    tripped := false, recovering := [], orderly := true, adminPort := 0, triedSlots := [], katRunning := false }

/-- Device time at POR_N release starts at 0 (R157). -/
def TimeState.zero : TimeState :=
  { device := 0, now := 0, goodSyncs := 0, master := .none, syncArrival := .none, delaySent := .none, masterToSlave := 0,
    pathDelay := 0, slew := 0, lastLocked := .none }

/-- The device right after reset: POR_N is asserted, everything the spec resets holds its reset value, and MRAM holds what
a unit leaves manufacture with (log entry 5): nothing stored, no member, no record, both image slots empty. -/
def Dev.reset : Dev :=
  { fresh := 0, out := [], vals := [], pw := Power.inReset, tm := TimeState.zero,
    fh := { src := [], first := none, ring := [], head := 0, queue := [] },
    ports := [], fns := [], cm := Commands.empty, tenants := [], mt := Meter.off, arrays := [], vols := [],
    mb := { tbl := [], dir := [], cmds := [], nextTag := 0, jobs := [], nextJob := 0, bifurcated := [] },
    pc := { windowGib := 4, vaults := [none, none], r0 := 0, r1 := 0, testing := false, attested := false, image := none,
            imageSeq := 0, hdr0 := 0, hdr1 := 0, poisoned := [], quiet := false, dumpTime := 0 },
    ms := { correction := [], checkpoint := false, mapGen := 0, extents := [], dirtyPages := [], unwritten := [], hot := [], catGen := 0,
            logTail := 0 },
    ls := { chan := [], fe := [], irOrder := [], irHeld := [] }, pr := Pair.none, chans := [], staging := none,
    dc := { holder := 0, expiry := 0, slots := [], copyA := Settings.blank, copyB := Settings.blank, storing := none,
            storeFor := none, loaded := Settings.blank },
    sb := { keys := [], seqIn := [], seqOut := [], subs := [], dadConflict := false },
    fw := { slotA := ImageSlot.empty, slotB := ImageSlot.empty, version := 0, svn := 0, activating := none, stallStart := 0 },
    ident := { serial := 0, mac := 0, stepping := 0 } }

/-- The state right after reset: no command waits. -/
def State.reset : State := { pending := [], dev := Dev.reset }

end Sys2Proof.Machine
end

