-- ==== Sys2Proof/Machine/Catalogue.lean ====
section
/-!
DEFINITION. The object catalogue (R431): one family per row of the spec's object tables, with its index, type, access,
default, accepted range, rights, flags and instance rule (Table 16.3). The accepted range is the one the Meaning column
states, else the whole type. A default shown as "—" in a table is 0 here (log entry 6).
A family is its position in `catalogue`; `Fam` names the positions.
-/

namespace Sys2Proof.Machine

/-- Dictionary types (Table 16.3). -/
inductive Ty where
  | bool | u8 | u16 | u32 | u64 | i16 | i32 | str32 | blob | record
  deriving DecidableEq, Repr

/-- Access codes (Table 0.4). -/
inductive Access where
  | RO | RW | RWS | WO | W1C | W1S | CMD
  deriving DecidableEq, Repr

/-- One row of the catalogue. -/
structure Row where
  index     : Nat
  sub       : Nat
  ty        : Ty
  access    : Access
  dflt      : Nat
  lo        : Nat
  hi        : Nat
  /-- Bits 1:0 admin read, write; 3:2 tenant; 5:4 side-band. -/
  rights    : Nat
  /-- Flag bit 0 of Table 16.3. -/
  exclusive : Bool
  /-- Flag bit 1 of Table 16.3. -/
  periscope : Bool
  /-- Instance rule and its parameter (Table 16.3). -/
  rule      : Nat
  f         : Nat
  instances : Nat
  /-- Value length in bytes. -/
  length    : Nat
  /-- Symbolic name. -/
  name      : String
  deriving DecidableEq, Repr

/-- Rows 0 to 24. -/
def rows0 : List Row := [
  ⟨0x1010, 0x01, .u8, .RO, 0, 0, 255, 17, false, true, 0, 0, 1, 1, "device.mode"⟩,
  ⟨0x1010, 0x02, .u8, .CMD, 0, 0, 255, 34, false, false, 0, 0, 1, 1, "device.mode_request"⟩,
  ⟨0x1010, 0x03, .u8, .RO, 0, 0, 255, 17, false, false, 0, 0, 1, 1, "device.mode_refusal"⟩,
  ⟨0x1010, 0x04, .u32, .RO, 0, 0, 4294967295, 17, false, true, 0, 0, 1, 4, "device.mode_changes"⟩,
  ⟨0x1010, 0x05, .u16, .RO, 0, 0, 65535, 17, false, true, 0, 0, 1, 2, "device.eclipse_source"⟩,
  ⟨0xA110, 0x01, .u16, .RO, 0, 0, 65535, 17, false, false, 0, 0, 1, 2, "fabric.stage_ps"⟩,
  ⟨0xA110, 0x02, .u16, .RO, 0, 0, 65535, 17, false, false, 0, 0, 1, 2, "fabric.stage_ps_peak"⟩,
  ⟨0xA110, 0x03, .u8, .CMD, 0, 0, 255, 34, false, false, 0, 0, 1, 1, "fabric.peak_reset"⟩,
  ⟨0x2000, 0x01, .u8, .RWS, 0, 0, 15, 51, true, false, 0, 0, 1, 1, "host.admin_port"⟩,
  ⟨0x2000, 0x02, .bool, .RWS, 1, 0, 1, 51, false, false, 0, 0, 1, 1, "host.ide_required"⟩,
  ⟨0x2000, 0x03, .u16, .RWS, 8042, 0, 65535, 51, false, false, 0, 0, 1, 2, "host.subsys_vendor"⟩,
  ⟨0x2000, 0x04, .u16, .RWS, 0, 0, 65535, 51, false, false, 0, 0, 1, 2, "host.subsys_id"⟩,
  ⟨0x2000, 0x05, .u8, .RO, 0, 0, 255, 21, false, false, 0, 0, 1, 1, "device.stepping"⟩,
  ⟨0x2010, 0x01, .u16, .RO, 0, 0, 65535, 17, false, false, 1, 0, 16, 2, "host.port[n].link"⟩,
  ⟨0x2010, 0x02, .u8, .RWS, 5, 1, 5, 51, false, false, 1, 0, 16, 1, "host.port[n].max_speed"⟩,
  ⟨0x2010, 0x03, .bool, .RWS, 0, 0, 1, 51, false, false, 1, 0, 16, 1, "host.port[n].aspm_l1"⟩,
  ⟨0x2010, 0x04, .u8, .RWS, 64, 0, 64, 51, false, false, 1, 0, 16, 1, "host.port[n].total_vfs"⟩,
  ⟨0x2010, 0x05, .u32, .RO, 0, 0, 4294967295, 17, false, false, 1, 0, 16, 4, "host.port[n].link_downs"⟩,
  ⟨0x2010, 0x06, .u32, .RO, 0, 0, 4294967295, 17, false, false, 1, 0, 16, 4, "host.port[n].ide_failures"⟩,
  ⟨0x2010, 0x07, .u32, .RO, 0, 0, 4294967295, 17, false, false, 1, 0, 16, 4, "host.port[n].ur_count"⟩,
  ⟨0x2100, 0x00, .u32, .RO, 4294967295, 0, 4294967295, 21, false, false, 3, 1, 4096, 4, "q[n].owner"⟩,
  ⟨0x2100, 0x00, .u64, .RO, 0, 0, 18446744073709551615, 21, false, false, 3, 2, 4096, 8, "q[n].cq_stalls"⟩,
  ⟨0x2100, 0x00, .u32, .RO, 0, 0, 4294967295, 21, false, false, 3, 3, 4096, 4, "q[n].doorbell_errors"⟩,
  ⟨0x2100, 0x00, .u64, .RO, 0, 0, 18446744073709551615, 21, false, false, 3, 4, 4096, 8, "q[n].inline_accepted"⟩,
  ⟨0x2100, 0x00, .u64, .RO, 0, 0, 18446744073709551615, 21, false, false, 3, 5, 4096, 8, "q[n].inline_rejected"⟩]

/-- Rows 25 to 49. -/
def rows1 : List Row := [
  ⟨0x2100, 0x00, .u8, .RO, 0, 0, 255, 21, false, false, 3, 6, 4096, 1, "q[n].overflow_peak"⟩,
  ⟨0x2000, 0x06, .u16, .RO, 0, 0, 65535, 17, false, false, 0, 0, 1, 2, "queue.slots_used"⟩,
  ⟨0x1010, 0x06, .u16, .CMD, 0, 0, 65535, 34, false, false, 0, 0, 1, 2, "device.soft_reset"⟩,
  ⟨0x1020, 0x01, .u8, .RO, 0, 0, 255, 17, false, false, 0, 0, 1, 1, "fw.activation_state"⟩,
  ⟨0x1020, 0x02, .u32, .RO, 0, 0, 4294967295, 17, false, false, 0, 0, 1, 4, "fw.last_stall_us"⟩,
  ⟨0x1020, 0x03, .u16, .RO, 0, 0, 65535, 17, false, false, 0, 0, 1, 2, "fw.last_activation"⟩,
  ⟨0x2000, 0x07, .u64, .RO, 0, 0, 18446744073709551615, 17, false, false, 0, 0, 1, 8, "cmd.whole_volume_tracked"⟩,
  ⟨0x2000, 0x08, .u64, .RO, 0, 0, 18446744073709551615, 17, false, false, 0, 0, 1, 8, "cmd.fence_failed"⟩,
  ⟨0x3000, 0x01, .u32, .RWS, 100, 10, 100000, 51, false, false, 0, 0, 1, 4, "iris.c0.member_budget_us"⟩,
  ⟨0x3000, 0x02, .u8, .RWS, 60, 10, 95, 51, false, false, 0, 0, 1, 1, "iris.c0.readaround_at"⟩,
  ⟨0x3000, 0x03, .u8, .RWS, 10, 0, 50, 51, false, false, 0, 0, 1, 1, "iris.c3_floor"⟩,
  ⟨0x3000, 0x04, .u8, .RWS, 30, 0, 75, 51, false, false, 0, 0, 1, 1, "iris.c3_floor_critical"⟩,
  ⟨0x3000, 0x05, .u8, .RWS, 50, 0, 100, 51, false, false, 0, 0, 1, 1, "iris.c3_ceiling"⟩,
  ⟨0x3000, 0x06, .u64, .RO, 0, 0, 18446744073709551615, 17, false, false, 0, 0, 1, 8, "iris.c0_bound_excursions"⟩,
  ⟨0x3010, 0x01, .u8, .RWS, 10, 0, 25, 51, false, false, 1, 0, 16, 1, "iris.port[n].c0_reserve"⟩,
  ⟨0x3010, 0x02, .u64, .RO, 0, 0, 18446744073709551615, 17, false, false, 1, 0, 16, 8, "iris.port[n].c0_demoted"⟩,
  ⟨0x3030, 0x01, .u32, .RW, 0, 0, 4294967295, 3, false, false, 0, 0, 1, 4, "meter.ring_head"⟩,
  ⟨0x3030, 0x02, .u32, .RO, 0, 0, 4294967295, 17, false, false, 0, 0, 1, 4, "meter.ring_tail"⟩,
  ⟨0x3030, 0x03, .u64, .RO, 0, 0, 18446744073709551615, 17, false, false, 0, 0, 1, 8, "meter.sequence"⟩,
  ⟨0x3030, 0x04, .u8, .RO, 0, 0, 255, 17, false, false, 0, 0, 1, 1, "meter.backlog"⟩,
  ⟨0x3030, 0x05, .u32, .RO, 0, 0, 4294967295, 17, false, false, 0, 0, 1, 4, "meter.lost_snapshots"⟩,
  ⟨0x3030, 0x06, .u8, .RO, 0, 0, 255, 21, false, true, 0, 0, 1, 1, "time.source"⟩,
  ⟨0x3030, 0x07, .i32, .RO, 0, 0, 4294967295, 17, false, true, 0, 0, 1, 4, "time.offset_ns"⟩,
  ⟨0x3100, 0x00, .record, .RO, 0, 0, 0, 21, false, false, 2, 0, 4096, 29, "tenant[t].entry"⟩,
  ⟨0x3400, 0x00, .record, .RO, 0, 0, 0, 21, false, false, 2, 0, 4096, 64, "meter[t].last"⟩]

/-- Rows 50 to 74. -/
def rows2 : List Row := [
  ⟨0x4000, 0x01, .u8, .CMD, 0, 0, 255, 34, false, false, 0, 0, 1, 1, "prism.kat"⟩,
  ⟨0x4000, 0x02, .u16, .RO, 0, 0, 65535, 17, false, false, 0, 0, 1, 2, "prism.kat_result"⟩,
  ⟨0x4000, 0x03, .u32, .RO, 0, 0, 4294967295, 17, false, false, 0, 0, 1, 4, "prism.kat_runs"⟩,
  ⟨0x4000, 0x04, .u64, .RO, 0, 0, 18446744073709551615, 17, false, false, 0, 0, 1, 8, "prism.encoded_bytes"⟩,
  ⟨0x4000, 0x05, .u64, .RO, 0, 0, 18446744073709551615, 17, false, false, 0, 0, 1, 8, "prism.decoded_bytes"⟩,
  ⟨0x4100, 0x01, .u8, .RO, 0, 0, 255, 17, false, false, 1, 0, 64, 1, "array[n].scheme"⟩,
  ⟨0x4100, 0x02, .u8, .RO, 0, 0, 255, 17, false, false, 1, 0, 64, 1, "array[n].data_facets"⟩,
  ⟨0x4100, 0x03, .u32, .RO, 0, 0, 4294967295, 17, false, false, 1, 0, 64, 4, "array[n].facet_size"⟩,
  ⟨0x4100, 0x04, .u8, .RO, 0, 0, 255, 17, false, false, 1, 0, 64, 1, "array[n].redundancy"⟩,
  ⟨0x4100, 0x05, .u8, .RO, 0, 0, 255, 17, false, false, 1, 0, 64, 1, "array[n].width"⟩,
  ⟨0x4100, 0x06, .u16, .RO, 0, 0, 65535, 17, false, false, 1, 0, 64, 2, "array[n].beam_blocks"⟩,
  ⟨0x4100, 0x07, .u32, .RO, 0, 0, 4294967295, 17, false, false, 1, 0, 64, 4, "array[n].segments"⟩,
  ⟨0x4100, 0x08, .u32, .RO, 0, 0, 4294967295, 17, false, false, 1, 0, 64, 4, "array[n].geometry_epoch"⟩,
  ⟨0x4100, 0x09, .u64, .RO, 0, 0, 18446744073709551615, 17, false, false, 1, 0, 64, 8, "array[n].instance"⟩,
  ⟨0x4100, 0x0A, .u64, .RO, 0, 0, 18446744073709551615, 17, false, false, 1, 0, 64, 8, "array[n].crc_mismatches"⟩,
  ⟨0x4100, 0x0B, .u64, .RO, 0, 0, 18446744073709551615, 17, false, false, 1, 0, 64, 8, "array[n].repairs"⟩,
  ⟨0x4100, 0x0C, .u64, .RO, 0, 0, 18446744073709551615, 17, false, false, 1, 0, 64, 8, "array[n].unrecovered"⟩,
  ⟨0x4100, 0x0D, .u16, .RWS, 336, 0, 65535, 51, false, false, 1, 0, 64, 2, "array[n].scrub_interval_h"⟩,
  ⟨0x4100, 0x0E, .u64, .RO, 0, 0, 18446744073709551615, 17, false, false, 1, 0, 64, 8, "array[n].parity_mismatches"⟩,
  ⟨0x4001, 0x01, .u64, .RO, 0, 0, 18446744073709551615, 17, false, false, 0, 0, 1, 8, "map.pages"⟩,
  ⟨0x4001, 0x02, .u64, .RO, 0, 0, 18446744073709551615, 17, false, false, 0, 0, 1, 8, "map.warm_limit"⟩,
  ⟨0x4001, 0x03, .u64, .RO, 0, 0, 18446744073709551615, 17, false, false, 0, 0, 1, 8, "map.hot_hits"⟩,
  ⟨0x4001, 0x04, .u16, .RWS, 100, 10, 10000, 51, false, false, 0, 0, 1, 2, "map.checkpoint_ms"⟩,
  ⟨0x4001, 0x05, .u32, .RO, 0, 0, 4294967295, 17, false, false, 0, 0, 1, 4, "map.extents_free"⟩,
  ⟨0x4001, 0x06, .u64, .RO, 0, 0, 18446744073709551615, 17, false, false, 0, 0, 1, 8, "map.page_repairs"⟩]

/-- Rows 75 to 99. -/
def rows3 : List Row := [
  ⟨0x4002, 0x01, .u8, .RWS, 10, 1, 50, 51, false, false, 0, 0, 1, 1, "cleaner.start_free_pct"⟩,
  ⟨0x4002, 0x02, .u8, .RWS, 2, 2, 16, 51, false, false, 0, 0, 1, 1, "cleaner.reserve_segments"⟩,
  ⟨0x4002, 0x03, .u64, .RO, 0, 0, 18446744073709551615, 17, false, false, 0, 0, 1, 8, "cleaner.relocated_blocks"⟩,
  ⟨0x4002, 0x04, .u64, .RO, 0, 0, 18446744073709551615, 17, false, false, 0, 0, 1, 8, "cleaner.placement_waits"⟩,
  ⟨0x4003, 0x01, .u8, .RO, 0, 0, 255, 17, false, false, 0, 0, 1, 1, "journal.domain_shortfall"⟩,
  ⟨0x4003, 0x02, .u32, .RO, 0, 0, 4294967295, 17, false, false, 0, 0, 1, 4, "journal.rehomes"⟩,
  ⟨0x4100, 0x10, .u16, .RWS, 200, 20, 10000, 51, false, false, 1, 0, 64, 2, "array[n].close_timer_us"⟩,
  ⟨0x4100, 0x11, .u8, .RO, 0, 0, 255, 17, false, false, 1, 0, 64, 1, "array[n].policy"⟩,
  ⟨0x4100, 0x12, .u64, .RO, 1, 0, 18446744073709551615, 17, false, false, 1, 0, 64, 8, "array[n].write_seq"⟩,
  ⟨0x4100, 0x13, .u32, .RO, 0, 0, 4294967295, 17, false, false, 1, 0, 64, 4, "array[n].free_segments"⟩,
  ⟨0x4100, 0x14, .u64, .RO, 0, 0, 18446744073709551615, 17, false, false, 1, 0, 64, 8, "array[n].abandoned_beams"⟩,
  ⟨0x4100, 0x15, .u64, .RO, 0, 0, 18446744073709551615, 17, false, false, 1, 0, 64, 8, "array[n].journal_holders"⟩,
  ⟨0x4100, 0x16, .bool, .W1C, 0, 0, 1, 51, false, false, 1, 0, 64, 1, "array[n].replay_lost"⟩,
  ⟨0x4100, 0x17, .u64, .RO, 0, 0, 18446744073709551615, 17, false, false, 1, 0, 64, 8, "array[n].timer_closes"⟩,
  ⟨0x4200, 0x00, .record, .RO, 0, 0, 0, 21, false, false, 2, 0, 16384, 21, "volume[v].record"⟩,
  ⟨0x7000, 0x01, .u32, .RO, 0, 0, 4294967295, 17, false, false, 0, 0, 1, 4, "ddr.config"⟩,
  ⟨0x7000, 0x02, .u16, .RO, 0, 0, 65535, 17, false, false, 0, 0, 1, 2, "ddr.capacity_gib"⟩,
  ⟨0x7000, 0x03, .u64, .RO, 0, 0, 18446744073709551615, 17, false, false, 0, 0, 1, 8, "ddr.ce_count"⟩,
  ⟨0x7000, 0x04, .u64, .RO, 0, 0, 18446744073709551615, 17, false, false, 0, 0, 1, 8, "ddr.ue_count"⟩,
  ⟨0x7000, 0x05, .u8, .RWS, 24, 1, 168, 51, false, false, 0, 0, 1, 1, "ddr.scrub_hours"⟩,
  ⟨0x7000, 0x06, .u32, .RO, 0, 0, 4294967295, 17, false, false, 0, 0, 1, 4, "ddr.track_saturated"⟩,
  ⟨0x7010, 0x01, .u64, .RO, 0, 0, 18446744073709551615, 17, false, false, 0, 0, 1, 8, "condenser.ce_count"⟩,
  ⟨0x7010, 0x02, .u64, .RO, 0, 0, 18446744073709551615, 17, false, false, 0, 0, 1, 8, "condenser.ue_count"⟩,
  ⟨0x7010, 0x03, .u64, .RO, 0, 0, 18446744073709551615, 17, false, false, 0, 0, 1, 8, "condenser.spill_waits"⟩,
  ⟨0x7100, 0x01, .u8, .RWS, 4, 1, 16, 51, false, false, 0, 0, 1, 1, "pcache.window_gib"⟩]

/-- Rows 100 to 124. -/
def rows4 : List Row := [
  ⟨0x7100, 0x02, .bool, .RO, 0, 0, 1, 17, false, false, 0, 0, 1, 1, "pcache.window_pending"⟩,
  ⟨0x7100, 0x03, .u16, .RWS, 2047, 0, 65535, 51, true, false, 0, 0, 1, 2, "pcache.vault[0]"⟩,
  ⟨0x7100, 0x04, .u16, .RWS, 2047, 0, 65535, 51, true, false, 0, 0, 1, 2, "pcache.vault[1]"⟩,
  ⟨0x7100, 0x05, .u16, .RWS, 0, 0, 65535, 51, true, false, 0, 0, 1, 2, "pcache.board_power_w"⟩,
  ⟨0x7100, 0x06, .u16, .RWS, 0, 0, 65535, 51, true, false, 0, 0, 1, 2, "pcache.holdup_energy_j"⟩,
  ⟨0x7100, 0x07, .u8, .CMD, 0, 0, 255, 34, false, false, 0, 0, 1, 1, "pcache.holdup_attest"⟩,
  ⟨0x7100, 0x08, .u16, .RWS, 24, 1, 720, 51, false, false, 0, 0, 1, 2, "pcache.attest_interval_h"⟩,
  ⟨0x7100, 0x09, .u16, .RO, 0, 0, 65535, 17, false, false, 0, 0, 1, 2, "pcache.required_energy_j"⟩,
  ⟨0x7100, 0x0A, .u32, .RO, 0, 0, 4294967295, 17, false, false, 0, 0, 1, 4, "pcache.vault_rate_mbps"⟩,
  ⟨0x7100, 0x0B, .bool, .RO, 0, 0, 1, 21, false, false, 0, 0, 1, 1, "pcache.holdup_certified"⟩,
  ⟨0x7100, 0x0C, .u8, .RO, 0, 0, 255, 17, false, false, 0, 0, 1, 1, "pcache.dump_state"⟩,
  ⟨0x7100, 0x0D, .u8, .RO, 0, 0, 255, 17, false, false, 0, 0, 1, 1, "pcache.image_state"⟩,
  ⟨0x7100, 0x0E, .u64, .RO, 0, 0, 18446744073709551615, 17, false, false, 0, 0, 1, 8, "pcache.full_waits"⟩,
  ⟨0x7100, 0x0F, .u32, .RO, 0, 0, 4294967295, 17, false, false, 0, 0, 1, 4, "pcache.dumps"⟩,
  ⟨0x5000, 0x01, .u32, .RWS, 2000, 100, 60000, 51, false, false, 0, 0, 1, 4, "member.timeout_solid_ms"⟩,
  ⟨0x5000, 0x02, .u32, .RWS, 6000, 500, 60000, 51, false, false, 0, 0, 1, 4, "member.timeout_platter_ms"⟩,
  ⟨0x5000, 0x03, .u8, .RWS, 3, 1, 16, 51, false, false, 0, 0, 1, 1, "member.fail_timeouts"⟩,
  ⟨0x5000, 0x04, .u16, .RWS, 10, 1, 3600, 51, false, false, 0, 0, 1, 2, "member.fail_window_s"⟩,
  ⟨0x5000, 0x05, .u8, .RWS, 10, 1, 100, 51, false, false, 0, 0, 1, 1, "member.slow_probes"⟩,
  ⟨0x5000, 0x06, .u16, .RWS, 300, 10, 65535, 51, false, false, 0, 0, 1, 2, "member.absent_fail_s"⟩,
  ⟨0x5000, 0x07, .u32, .RO, 0, 0, 4294967295, 17, false, false, 0, 0, 1, 4, "member.stale_labels"⟩,
  ⟨0x5100, 0x00, .u8, .RO, 0, 0, 255, 17, false, false, 2, 0, 2048, 1, "member[i].state"⟩,
  ⟨0x5110, 0x00, .u32, .RO, 0, 0, 4294967295, 17, false, false, 2, 0, 2048, 4, "member[i].timeouts"⟩,
  ⟨0x5120, 0x00, .u32, .RO, 0, 0, 4294967295, 17, false, false, 2, 0, 2048, 4, "member[i].assignment"⟩,
  ⟨0x4100, 0x20, .u8, .RO, 0, 0, 255, 17, false, false, 1, 0, 64, 1, "array[n].state"⟩]

/-- Rows 125 to 149. -/
def rows5 : List Row := [
  ⟨0x4100, 0x21, .u8, .RO, 0, 0, 255, 17, false, false, 1, 0, 64, 1, "array[n].activity"⟩,
  ⟨0x4100, 0x22, .u8, .RWS, 1, 0, 3, 51, false, false, 1, 0, 64, 1, "array[n].rebuild_policy"⟩,
  ⟨0x4100, 0x23, .u16, .RWS, 30, 0, 3600, 51, false, false, 1, 0, 64, 2, "array[n].rebuild_delay_s"⟩,
  ⟨0x4100, 0x24, .u32, .RO, 0, 0, 4294967295, 17, false, false, 1, 0, 64, 4, "array[n].meridian"⟩,
  ⟨0x4100, 0x25, .u32, .RO, 0, 0, 4294967295, 17, false, false, 1, 0, 64, 4, "array[n].sweep_remaining"⟩,
  ⟨0x4100, 0x26, .u64, .RO, 0, 0, 18446744073709551615, 17, false, false, 1, 0, 64, 8, "array[n].dark_blocks"⟩,
  ⟨0x4100, 0x27, .u64, .RO, 0, 0, 18446744073709551615, 17, false, false, 1, 0, 64, 8, "array[n].dark_beams"⟩,
  ⟨0x4100, 0x28, .u64, .RO, 0, 0, 18446744073709551615, 17, false, false, 1, 0, 64, 8, "array[n].readarounds"⟩,
  ⟨0x4100, 0x29, .u64, .RO, 0, 0, 18446744073709551615, 17, false, false, 1, 0, 64, 8, "array[n].readaround_wins"⟩,
  ⟨0x4100, 0x2A, .u64, .RO, 0, 0, 18446744073709551615, 17, false, false, 1, 0, 64, 8, "array[n].readaround_skipped"⟩,
  ⟨0x4100, 0x2B, .u16, .RWS, 256, 1, 4096, 51, false, false, 1, 0, 64, 2, "array[n].readaround_max"⟩,
  ⟨0x4100, 0x2C, .u8, .RO, 0, 0, 255, 17, false, false, 1, 0, 64, 1, "array[n].offline_reason"⟩,
  ⟨0x4100, 0x2D, .u8, .RO, 0, 0, 255, 17, false, false, 1, 0, 64, 1, "array[n].slots_down"⟩,
  ⟨0x5001, 0x01, .u16, .RWS, 1000, 100, 10000, 51, false, false, 0, 0, 1, 2, "mport.abort_wait_ms"⟩,
  ⟨0x5001, 0x02, .u8, .RWS, 30, 1, 127, 51, false, false, 0, 0, 1, 1, "mport.ready_limit_s"⟩,
  ⟨0x5001, 0x03, .u8, .RWS, 30, 1, 255, 51, false, false, 0, 0, 1, 1, "mport.enum_wait_s"⟩,
  ⟨0x5001, 0x04, .bool, .RWS, 0, 0, 1, 51, false, false, 0, 0, 1, 1, "mport.preempt_foreign"⟩,
  ⟨0x5001, 0x05, .u16, .RO, 0, 0, 65535, 17, false, false, 0, 0, 1, 2, "mport.solid_members"⟩,
  ⟨0x5001, 0x06, .u32, .RO, 0, 0, 4294967295, 17, false, false, 0, 0, 1, 4, "mport.dir_full_rejects"⟩,
  ⟨0x5020, 0x01, .bool, .RWS, 0, 0, 1, 51, false, false, 1, 0, 32, 1, "mport[n].bifurcate"⟩,
  ⟨0x5020, 0x02, .u32, .RO, 0, 0, 4294967295, 17, false, false, 1, 0, 32, 4, "mport[n].link"⟩,
  ⟨0x5020, 0x03, .u32, .RO, 0, 0, 4294967295, 17, false, false, 1, 0, 32, 4, "mport[n].link_downs"⟩,
  ⟨0x5130, 0x00, .u32, .RO, 0, 0, 4294967295, 17, false, false, 2, 0, 2048, 4, "member[i].attach"⟩,
  ⟨0x5140, 0x00, .u8, .RO, 0, 0, 255, 17, false, false, 2, 0, 2048, 1, "member[i].reject"⟩,
  ⟨0x5150, 0x00, .u32, .RO, 0, 0, 4294967295, 17, false, false, 2, 0, 2048, 4, "member[i].errors"⟩]

/-- Rows 150 to 174. -/
def rows6 : List Row := [
  ⟨0x5160, 0x00, .u32, .RO, 0, 0, 4294967295, 17, false, false, 2, 0, 2048, 4, "member[i].resets"⟩,
  ⟨0x5170, 0x00, .i16, .RO, 0, 0, 65535, 17, false, false, 2, 0, 2048, 2, "member[i].temp_c"⟩,
  ⟨0x6000, 0x01, .u8, .RWS, 24, 8, 64, 51, false, false, 0, 0, 1, 1, "lens.ldpc_iter"⟩,
  ⟨0x6000, 0x02, .u8, .RWS, 4, 1, 8, 51, false, false, 0, 0, 1, 1, "lens.recovery_rounds"⟩,
  ⟨0x6000, 0x03, .u8, .RWS, 4, 1, 16, 51, false, false, 0, 0, 1, 1, "lens.reread_limit"⟩,
  ⟨0x6000, 0x04, .u8, .RWS, 8, 0, 8, 51, false, false, 0, 0, 1, 1, "lens.ir_rounds"⟩,
  ⟨0x6000, 0x05, .u8, .RWS, 1, 0, 15, 51, false, false, 0, 0, 1, 1, "lens.ir_offset"⟩,
  ⟨0x6000, 0x06, .bool, .RWS, 1, 0, 1, 51, false, false, 0, 0, 1, 1, "lens.adapt_enable"⟩,
  ⟨0x6000, 0x07, .u16, .RWS, 60, 10, 1440, 51, false, false, 0, 0, 1, 2, "lens.table_flush_min"⟩,
  ⟨0x6000, 0x08, .u16, .RO, 0, 0, 65535, 17, false, false, 0, 0, 1, 2, "lens.owner_epoch"⟩,
  ⟨0x6000, 0x09, .u64, .RO, 0, 0, 18446744073709551615, 17, false, false, 0, 0, 1, 8, "lens.ir_jobs"⟩,
  ⟨0x6000, 0x0A, .u64, .RO, 0, 0, 18446744073709551615, 17, false, false, 0, 0, 1, 8, "lens.ir_skipped"⟩,
  ⟨0x6010, 0x01, .u16, .RO, 0, 0, 65535, 17, false, false, 1, 0, 24, 2, "lens[n].link"⟩,
  ⟨0x6010, 0x02, .u64, .RO, 0, 0, 18446744073709551615, 17, false, false, 1, 0, 24, 8, "lens[n].fe_serial"⟩,
  ⟨0x6010, 0x03, .i16, .RO, 0, 0, 65535, 17, false, false, 1, 0, 24, 2, "lens[n].fe_temp_c"⟩,
  ⟨0x6010, 0x04, .u32, .RO, 0, 0, 4294967295, 17, false, false, 1, 0, 24, 4, "lens[n].crc_frames"⟩,
  ⟨0x6010, 0x05, .u32, .RO, 0, 0, 4294967295, 17, false, false, 1, 0, 24, 4, "lens[n].link_losses"⟩,
  ⟨0x6010, 0x06, .u64, .RO, 0, 0, 18446744073709551615, 17, false, false, 1, 0, 24, 8, "lens[n].sectors_read"⟩,
  ⟨0x6010, 0x07, .u64, .RO, 0, 0, 18446744073709551615, 17, false, false, 1, 0, 24, 8, "lens[n].recovered"⟩,
  ⟨0x6010, 0x08, .u64, .RO, 0, 0, 18446744073709551615, 17, false, false, 1, 0, 24, 8, "lens[n].failed"⟩,
  ⟨0x6010, 0x09, .u32, .RO, 0, 0, 4294967295, 17, false, false, 1, 0, 24, 4, "lens[n].sync_missed"⟩,
  ⟨0x6010, 0x0A, .u32, .RO, 0, 0, 4294967295, 17, false, false, 1, 0, 24, 4, "lens[n].realigned"⟩,
  ⟨0x6010, 0x0B, .u64, .RO, 0, 0, 18446744073709551615, 17, false, false, 1, 0, 24, 8, "lens[n].ir_saved"⟩,
  ⟨0x6010, 0x0C, .u32, .RO, 0, 0, 4294967295, 17, false, false, 1, 0, 24, 4, "lens[n].adapt_clamped"⟩,
  ⟨0x6010, 0x0D, .u32, .RO, 0, 0, 4294967295, 17, false, false, 1, 0, 24, 4, "lens[n].write_faults"⟩]

/-- Rows 175 to 199. -/
def rows7 : List Row := [
  ⟨0x6010, 0x0E, .u16, .RW, 0, 0, 65535, 51, false, false, 1, 0, 24, 2, "lens[n].zone_select"⟩,
  ⟨0x6010, 0x0F, .record, .RO, 0, 0, 0, 17, false, false, 1, 0, 24, 64, "lens[n].zone_live"⟩,
  ⟨0x6010, 0x10, .record, .RO, 0, 0, 0, 17, false, false, 1, 0, 24, 64, "lens[n].zone_stored"⟩,
  ⟨0x6001, 0x01, .u8, .RWS, 80, 30, 100, 51, false, false, 0, 0, 1, 1, "lens.servo.seek_current_pct"⟩,
  ⟨0x6001, 0x02, .u8, .RWS, 6, 2, 15, 51, false, false, 0, 0, 1, 1, "lens.servo.write_settle_pes"⟩,
  ⟨0x6001, 0x03, .u8, .RWS, 15, 5, 40, 51, false, false, 0, 0, 1, 1, "lens.servo.read_settle_pes"⟩,
  ⟨0x6001, 0x04, .u16, .RWS, 500, 10, 5000, 51, false, false, 0, 0, 1, 2, "lens.servo.max_age_ms"⟩,
  ⟨0x6001, 0x05, .u8, .RWS, 1, 0, 1, 51, false, false, 0, 0, 1, 1, "lens.cadence_policy"⟩,
  ⟨0x6001, 0x06, .u16, .RWS, 7200, 4800, 7200, 51, false, false, 0, 0, 1, 2, "lens.cadence_fixed"⟩,
  ⟨0x6001, 0x07, .u8, .RWS, 70, 20, 95, 51, false, false, 0, 0, 1, 1, "lens.cadence_up_pct"⟩,
  ⟨0x6001, 0x08, .u8, .RWS, 30, 5, 60, 51, false, false, 0, 0, 1, 1, "lens.cadence_down_pct"⟩,
  ⟨0x6001, 0x09, .u8, .RWS, 100, 10, 255, 51, false, false, 0, 0, 1, 1, "lens.cadence_accel"⟩,
  ⟨0x6001, 0x0A, .u8, .RWS, 20, 5, 60, 51, false, false, 0, 0, 1, 1, "lens.spinup_s"⟩,
  ⟨0x6001, 0x0B, .u16, .RWS, 1000, 100, 2000, 51, false, false, 0, 0, 1, 2, "lens.spindle_tol_ppm"⟩,
  ⟨0x6001, 0x0C, .u8, .RWS, 8, 1, 64, 51, false, false, 0, 0, 1, 1, "lens.shutter_retries"⟩,
  ⟨0x6040, 0x01, .u8, .RWS, 11, 5, 20, 51, false, false, 1, 0, 24, 1, "lens[n].shutter_pes"⟩,
  ⟨0x6040, 0x02, .i16, .RO, 0, 0, 65535, 17, false, false, 1, 0, 24, 2, "lens[n].pes"⟩,
  ⟨0x6040, 0x03, .u16, .RO, 0, 0, 65535, 17, false, false, 1, 0, 24, 2, "lens[n].servo_state"⟩,
  ⟨0x6040, 0x04, .u32, .RO, 0, 0, 4294967295, 17, false, false, 1, 0, 24, 4, "lens[n].cylinder"⟩,
  ⟨0x6040, 0x05, .u16, .RO, 0, 0, 65535, 17, false, false, 1, 0, 24, 2, "lens[n].cadence_rpm"⟩,
  ⟨0x6040, 0x06, .u8, .RO, 0, 0, 255, 17, false, false, 1, 0, 24, 1, "lens[n].utilisation_pct"⟩,
  ⟨0x6040, 0x07, .u32, .RO, 0, 0, 4294967295, 17, false, false, 1, 0, 24, 4, "lens[n].shutter_events"⟩,
  ⟨0x6040, 0x08, .u32, .RO, 0, 0, 4294967295, 17, false, false, 1, 0, 24, 4, "lens[n].sam_missed"⟩,
  ⟨0x6040, 0x09, .u32, .RO, 0, 0, 4294967295, 17, false, false, 1, 0, 24, 4, "lens[n].servo_lost"⟩,
  ⟨0x6040, 0x0A, .u32, .RO, 0, 0, 4294967295, 17, false, false, 1, 0, 24, 4, "lens[n].adjacent_verifies"⟩]

/-- Rows 200 to 224. -/
def rows8 : List Row := [
  ⟨0x6040, 0x0B, .u32, .RO, 0, 0, 4294967295, 17, false, false, 1, 0, 24, 4, "lens[n].realloc_count"⟩,
  ⟨0x6040, 0x0C, .u16, .RO, 0, 0, 65535, 17, false, false, 1, 0, 24, 2, "lens[n].realloc_pending"⟩,
  ⟨0x6040, 0x0D, .bool, .RO, 0, 0, 1, 17, false, false, 1, 0, 24, 1, "lens[n].realloc_exhausted"⟩,
  ⟨0x8000, 0x01, .bool, .RWS, 0, 0, 1, 51, true, false, 0, 0, 1, 1, "pair.enable"⟩,
  ⟨0x8000, 0x02, .u8, .RO, 0, 0, 255, 17, false, false, 0, 0, 1, 1, "pair.state"⟩,
  ⟨0x8000, 0x03, .u64, .RO, 0, 0, 18446744073709551615, 17, false, false, 0, 0, 1, 8, "pair.lease_epoch"⟩,
  ⟨0x8000, 0x04, .u64, .RO, 0, 0, 18446744073709551615, 17, false, false, 0, 0, 1, 8, "pair.partner_serial"⟩,
  ⟨0x8000, 0x05, .u16, .RO, 0, 0, 65535, 17, false, false, 0, 0, 1, 2, "pair.link"⟩,
  ⟨0x8000, 0x06, .u8, .RWS, 5, 1, 6, 51, false, false, 0, 0, 1, 1, "pair.ack_timeout_ms"⟩,
  ⟨0x8000, 0x07, .u8, .RWS, 5, 1, 10, 51, false, false, 0, 0, 1, 1, "pair.fence_ms"⟩,
  ⟨0x8000, 0x08, .u32, .RO, 0, 0, 4294967295, 17, false, false, 0, 0, 1, 4, "pair.renewals_missed"⟩,
  ⟨0x8000, 0x09, .u32, .RO, 0, 0, 4294967295, 17, false, false, 0, 0, 1, 4, "pair.ties_won"⟩,
  ⟨0x8000, 0x0A, .u32, .RO, 0, 0, 4294967295, 17, false, false, 0, 0, 1, 4, "pair.ties_lost"⟩,
  ⟨0x8000, 0x0B, .u32, .RO, 0, 0, 4294967295, 17, false, false, 0, 0, 1, 4, "pair.takeovers"⟩,
  ⟨0x8000, 0x0C, .u32, .RO, 0, 0, 4294967295, 17, false, false, 0, 0, 1, 4, "pair.last_gap_us"⟩,
  ⟨0x8000, 0x0D, .u32, .RO, 0, 0, 4294967295, 17, false, false, 0, 0, 1, 4, "pair.verdicts"⟩,
  ⟨0x8000, 0x0E, .u64, .RO, 0, 0, 18446744073709551615, 17, false, false, 0, 0, 1, 8, "pair.wb_waits"⟩,
  ⟨0x8000, 0x0F, .u8, .RO, 0, 0, 255, 17, false, false, 0, 0, 1, 1, "pair.resync_pct"⟩,
  ⟨0x8000, 0x10, .u64, .RO, 0, 0, 18446744073709551615, 17, false, false, 0, 0, 1, 8, "pair.last_swap"⟩,
  ⟨0x8000, 0x11, .u8, .RO, 0, 0, 255, 17, false, false, 0, 0, 1, 1, "pair.refusal"⟩,
  ⟨0x8000, 0x12, .u16, .RO, 2047, 0, 65535, 17, false, false, 0, 0, 1, 2, "pair.arbiter"⟩,
  ⟨0xB000, 0x01, .u16, .RWS, 4096, 1, 65535, 51, false, false, 0, 0, 1, 2, "copy.chain_limit"⟩,
  ⟨0xB000, 0x02, .u64, .RO, 0, 0, 18446744073709551615, 17, false, false, 0, 0, 1, 8, "copy.staged_bytes"⟩,
  ⟨0xB010, 0x01, .u16, .RWS, 65535, 0, 65535, 51, false, false, 1, 0, 16, 2, "copy.chan[c].function"⟩,
  ⟨0xB010, 0x02, .u8, .RO, 0, 0, 255, 21, false, false, 1, 0, 16, 1, "copy.chan[c].state"⟩]

/-- Rows 225 to 249. -/
def rows9 : List Row := [
  ⟨0xB010, 0x03, .u64, .RO, 0, 0, 18446744073709551615, 21, false, false, 1, 0, 16, 8, "copy.chan[c].bytes"⟩,
  ⟨0xB010, 0x04, .u64, .RO, 0, 0, 18446744073709551615, 21, false, false, 1, 0, 16, 8, "copy.chan[c].chains"⟩,
  ⟨0xB010, 0x05, .u32, .RO, 0, 0, 4294967295, 21, false, false, 1, 0, 16, 4, "copy.chan[c].failures"⟩,
  ⟨0xB010, 0x06, .u32, .RO, 0, 0, 4294967295, 21, false, false, 1, 0, 16, 4, "copy.chan[c].refused"⟩,
  ⟨0xB100, 0x01, .u32, .RO, 0, 0, 4294967295, 17, false, false, 1, 0, 16, 4, "mbox.port[n].rejected"⟩,
  ⟨0xB100, 0x02, .u32, .RO, 0, 0, 4294967295, 17, false, false, 1, 0, 16, 4, "mbox.port[n].purges"⟩,
  ⟨0x9000, 0x01, .record, .RO, 0, 0, 0, 17, false, true, 0, 0, 1, 13, "fault.first"⟩,
  ⟨0x9000, 0x02, .u8, .CMD, 0, 0, 255, 34, false, true, 0, 0, 1, 1, "fault.first_clear"⟩,
  ⟨0x9000, 0x03, .blob, .RO, 0, 0, 0, 17, false, true, 0, 0, 1, 80, "fault.latched_map"⟩,
  ⟨0x9000, 0x04, .bool, .RWS, 0, 0, 1, 51, true, true, 0, 0, 1, 1, "fault.inject_enable"⟩,
  ⟨0x9000, 0x05, .u8, .RWS, 2, 0, 4, 51, false, true, 0, 0, 1, 1, "fault.inject_max"⟩,
  ⟨0x9000, 0x06, .u8, .CMD, 0, 0, 255, 34, false, true, 0, 0, 1, 1, "fault.clear_all"⟩,
  ⟨0x9000, 0x07, .u32, .RO, 0, 0, 4294967295, 17, false, true, 0, 0, 1, 4, "fault.clear_refused"⟩,
  ⟨0x9100, 0x00, .u16, .W1C, 0, 0, 65535, 51, false, true, 4, 1, 640, 2, "fault[s].status"⟩,
  ⟨0x9100, 0x00, .u8, .RWS, 0, 0, 4, 51, true, true, 4, 2, 640, 1, "fault[s].severity"⟩,
  ⟨0x9100, 0x00, .u32, .RO, 0, 0, 4294967295, 17, false, true, 4, 3, 640, 4, "fault[s].count"⟩,
  ⟨0x9100, 0x00, .u64, .RO, 0, 0, 18446744073709551615, 17, false, true, 4, 4, 640, 8, "fault[s].onset"⟩,
  ⟨0x9100, 0x00, .u64, .RO, 0, 0, 18446744073709551615, 17, false, true, 4, 5, 640, 8, "fault[s].cleared"⟩,
  ⟨0x9100, 0x00, .u32, .RO, 0, 0, 4294967295, 17, false, true, 4, 6, 640, 4, "fault[s].detail"⟩,
  ⟨0x9100, 0x00, .u32, .CMD, 0, 0, 4294967295, 34, false, true, 4, 7, 640, 4, "fault[s].inject"⟩,
  ⟨0x9200, 0x01, .u64, .RO, 0, 0, 18446744073709551615, 17, false, true, 0, 0, 1, 8, "bbox.head"⟩,
  ⟨0x9200, 0x02, .u64, .RW, 0, 0, 18446744073709551615, 51, false, true, 0, 0, 1, 8, "bbox.select"⟩,
  ⟨0x9200, 0x03, .record, .RO, 0, 0, 0, 17, false, true, 0, 0, 1, 64, "bbox.record"⟩,
  ⟨0x9200, 0x04, .u16, .CMD, 0, 0, 65535, 34, true, true, 0, 0, 1, 2, "bbox.erase"⟩,
  ⟨0x9200, 0x05, .u32, .RO, 0, 0, 4294967295, 17, false, true, 0, 0, 1, 4, "bbox.suppressed"⟩]

/-- Rows 250 to 274. -/
def rows10 : List Row := [
  ⟨0x9200, 0x06, .bool, .RO, 0, 0, 1, 17, false, true, 0, 0, 1, 1, "bbox.last_gasp_ok"⟩,
  ⟨0x1000, 0x01, .str32, .RO, 0, 0, 0, 21, false, true, 0, 0, 1, 32, "id.part"⟩,
  ⟨0x1000, 0x02, .u64, .RO, 0, 0, 18446744073709551615, 21, false, true, 0, 0, 1, 8, "id.serial"⟩,
  ⟨0x1000, 0x03, .u64, .RO, 0, 0, 18446744073709551615, 17, false, true, 0, 0, 1, 8, "id.mac"⟩,
  ⟨0x1F00, 0x01, .u8, .CMD, 0, 0, 255, 34, false, true, 0, 0, 1, 1, "claim.request"⟩,
  ⟨0x1F00, 0x02, .u8, .RO, 0, 0, 255, 17, false, true, 0, 0, 1, 1, "claim.holder"⟩,
  ⟨0x1F00, 0x03, .u16, .RO, 0, 0, 65535, 17, false, true, 0, 0, 1, 2, "claim.remaining_ms"⟩,
  ⟨0x1F00, 0x04, .u32, .RO, 0, 0, 4294967295, 17, false, true, 0, 0, 1, 4, "claim.forced"⟩,
  ⟨0x1F10, 0x01, .u16, .RO, 0, 0, 65535, 21, false, true, 0, 0, 1, 2, "dict.catalogue_entries"⟩,
  ⟨0x1F10, 0x02, .u32, .RO, 0, 0, 4294967295, 17, false, true, 0, 0, 1, 4, "dict.refused_writes"⟩,
  ⟨0x1F40, 0x01, .u16, .CMD, 0, 0, 65535, 34, true, true, 0, 0, 1, 2, "settings.store"⟩,
  ⟨0x1F40, 0x02, .u8, .RO, 0, 0, 255, 17, false, true, 0, 0, 1, 1, "settings.state"⟩,
  ⟨0x1F40, 0x03, .u64, .RO, 0, 0, 18446744073709551615, 17, false, true, 0, 0, 1, 8, "settings.sequence"⟩,
  ⟨0x1F40, 0x04, .u8, .RO, 0, 0, 255, 17, false, true, 0, 0, 1, 1, "settings.loaded_copy"⟩,
  ⟨0x1F40, 0x05, .u16, .CMD, 0, 0, 65535, 34, true, true, 0, 0, 1, 2, "settings.factory_reset"⟩,
  ⟨0x1F50, 0x01, .u8, .RWS, 1, 0, 255, 51, false, true, 0, 0, 1, 1, "sb.plca_node"⟩,
  ⟨0x1F50, 0x02, .u8, .RWS, 8, 1, 255, 51, false, true, 0, 0, 1, 1, "sb.plca_count"⟩,
  ⟨0x1F50, 0x03, .u32, .RWS, 2083330, 0, 4294967295, 51, false, true, 0, 0, 1, 4, "sb.phy_plca_reg"⟩,
  ⟨0x1F50, 0x04, .u32, .RO, 0, 0, 4294967295, 17, false, true, 0, 0, 1, 4, "sb.auth_failures"⟩,
  ⟨0x1F50, 0x05, .u32, .RO, 0, 0, 4294967295, 17, false, true, 0, 0, 1, 4, "sb.replays"⟩,
  ⟨0x1F50, 0x06, .u8, .RO, 0, 0, 255, 17, false, true, 0, 0, 1, 1, "sb.subscribers"⟩,
  ⟨0x1F50, 0x10, .blob, .WO, 0, 0, 0, 34, true, true, 5, 0, 4, 32, "sb.key[k]"⟩,
  ⟨0x1F60, 0x01, .u8, .RWS, 0, 0, 127, 51, false, true, 0, 0, 1, 1, "time.domain"⟩,
  ⟨0x1F60, 0x02, .u32, .RO, 0, 0, 4294967295, 17, false, true, 0, 0, 1, 4, "time.steps"⟩,
  ⟨0x1030, 0x01, .u8, .RW, 0, 0, 1, 51, false, true, 0, 0, 1, 1, "boot.slot"⟩]

/-- Rows 275 to 298. -/
def rows11 : List Row := [
  ⟨0x1030, 0x02, .u8, .RO, 0, 0, 255, 17, false, true, 0, 0, 1, 1, "boot.booted_slot"⟩,
  ⟨0x1030, 0x03, .u8, .RO, 0, 0, 255, 17, false, true, 0, 0, 1, 1, "boot.slot_state"⟩,
  ⟨0x1030, 0x04, .u32, .RO, 0, 0, 4294967295, 17, false, true, 0, 0, 1, 4, "boot.min_svn"⟩,
  ⟨0x1030, 0x05, .u32, .CMD, 0, 0, 4294967295, 34, false, true, 0, 0, 1, 4, "boot.svn_commit"⟩,
  ⟨0x1030, 0x06, .u8, .RO, 0, 0, 255, 17, false, true, 0, 0, 1, 1, "boot.straps"⟩,
  ⟨0x1030, 0x07, .u8, .RO, 0, 0, 255, 17, false, true, 0, 0, 1, 1, "boot.stage"⟩,
  ⟨0x1030, 0x08, .u32, .RO, 0, 0, 4294967295, 17, false, true, 0, 0, 1, 4, "boot.por_count"⟩,
  ⟨0xA000, 0x01, .u16, .RO, 0, 0, 65535, 17, false, true, 0, 0, 1, 2, "power.vdd_core_mv"⟩,
  ⟨0xA000, 0x02, .u16, .RO, 0, 0, 65535, 17, false, true, 0, 0, 1, 2, "power.vdd_aon_mv"⟩,
  ⟨0xA000, 0x03, .u16, .RO, 0, 0, 65535, 17, false, true, 0, 0, 1, 2, "power.vdd_nvm_mv"⟩,
  ⟨0xA000, 0x04, .u32, .RO, 0, 0, 4294967295, 17, false, true, 0, 0, 1, 4, "power.collapses"⟩,
  ⟨0xA000, 0x05, .u32, .RO, 0, 0, 4294967295, 17, false, true, 0, 0, 1, 4, "life.hours"⟩,
  ⟨0xA000, 0x06, .u16, .RO, 0, 0, 65535, 17, false, true, 0, 0, 1, 2, "life.avg_tj_dc"⟩,
  ⟨0xA000, 0x07, .u16, .RO, 0, 0, 65535, 17, false, true, 0, 0, 1, 2, "life.avg_core_mv"⟩,
  ⟨0xA000, 0x08, .u32, .RO, 0, 0, 4294967295, 17, false, true, 0, 0, 1, 4, "life.exceed_hours"⟩,
  ⟨0xA100, 0x01, .u16, .RWS, 680, 620, 720, 51, false, false, 0, 0, 1, 2, "pacer.sag_mv"⟩,
  ⟨0xA100, 0x02, .u8, .RO, 100, 0, 255, 17, false, false, 0, 0, 1, 1, "pacer.admission_pct"⟩,
  ⟨0xA100, 0x03, .u32, .RO, 0, 0, 4294967295, 17, false, false, 0, 0, 1, 4, "pacer.sag_events"⟩,
  ⟨0xA100, 0x04, .u32, .RO, 0, 0, 4294967295, 17, false, false, 0, 0, 1, 4, "pacer.deep_events"⟩,
  ⟨0xA120, 0x01, .u8, .RWS, 100, 60, 110, 51, false, false, 0, 0, 1, 1, "thermal.alert_c"⟩,
  ⟨0xA120, 0x02, .u8, .RWS, 105, 85, 105, 51, false, false, 0, 0, 1, 1, "thermal.limit_c"⟩,
  ⟨0xA120, 0x03, .u8, .RWS, 115, 90, 120, 51, false, false, 0, 0, 1, 1, "thermal.shutdown_c"⟩,
  ⟨0xA120, 0x04, .i16, .RO, 0, 0, 65535, 17, false, false, 0, 0, 1, 2, "thermal.tj_c"⟩,
  ⟨0xA120, 0x05, .i16, .RO, 0, 0, 65535, 17, false, false, 0, 0, 1, 2, "thermal.tj_peak_c"⟩]

/-- The catalogue (R431), in the order of the tables. -/
def catalogue : List Row :=
  rows0 ++ rows1 ++ rows2 ++ rows3 ++ rows4 ++ rows5 ++ rows6 ++ rows7 ++ rows8 ++ rows9 ++ rows10 ++ rows11

/-! The families by name: their positions in `catalogue`. -/
namespace Fam
abbrev deviceMode : Nat := 0
abbrev deviceModeRequest : Nat := 1
abbrev deviceModeRefusal : Nat := 2
abbrev deviceModeChanges : Nat := 3
abbrev deviceEclipseSource : Nat := 4
abbrev fabricStagePs : Nat := 5
abbrev fabricStagePsPeak : Nat := 6
abbrev fabricPeakReset : Nat := 7
abbrev hostAdminPort : Nat := 8
abbrev hostIdeRequired : Nat := 9
abbrev hostSubsysVendor : Nat := 10
abbrev hostSubsysId : Nat := 11
abbrev deviceStepping : Nat := 12
abbrev hostPortLink : Nat := 13
abbrev hostPortMaxSpeed : Nat := 14
abbrev hostPortAspmL1 : Nat := 15
abbrev hostPortTotalVfs : Nat := 16
abbrev hostPortLinkDowns : Nat := 17
abbrev hostPortIdeFailures : Nat := 18
abbrev hostPortUrCount : Nat := 19
abbrev qOwner : Nat := 20
abbrev qCqStalls : Nat := 21
abbrev qDoorbellErrors : Nat := 22
abbrev qInlineAccepted : Nat := 23
abbrev qInlineRejected : Nat := 24
abbrev qOverflowPeak : Nat := 25
abbrev queueSlotsUsed : Nat := 26
abbrev deviceSoftReset : Nat := 27
abbrev fwActivationState : Nat := 28
abbrev fwLastStallUs : Nat := 29
abbrev fwLastActivation : Nat := 30
abbrev cmdWholeVolumeTracked : Nat := 31
abbrev cmdFenceFailed : Nat := 32
abbrev irisC0MemberBudgetUs : Nat := 33
abbrev irisC0ReadaroundAt : Nat := 34
abbrev irisC3Floor : Nat := 35
abbrev irisC3FloorCritical : Nat := 36
abbrev irisC3Ceiling : Nat := 37
abbrev irisC0BoundExcursions : Nat := 38
abbrev irisPortC0Reserve : Nat := 39
abbrev irisPortC0Demoted : Nat := 40
abbrev meterRingHead : Nat := 41
abbrev meterRingTail : Nat := 42
abbrev meterSequence : Nat := 43
abbrev meterBacklog : Nat := 44
abbrev meterLostSnapshots : Nat := 45
abbrev timeSource : Nat := 46
abbrev timeOffsetNs : Nat := 47
abbrev tenantEntry : Nat := 48
abbrev meterLast : Nat := 49
abbrev prismKat : Nat := 50
abbrev prismKatResult : Nat := 51
abbrev prismKatRuns : Nat := 52
abbrev prismEncodedBytes : Nat := 53
abbrev prismDecodedBytes : Nat := 54
abbrev arrayScheme : Nat := 55
abbrev arrayDataFacets : Nat := 56
abbrev arrayFacetSize : Nat := 57
abbrev arrayRedundancy : Nat := 58
abbrev arrayWidth : Nat := 59
abbrev arrayBeamBlocks : Nat := 60
abbrev arraySegments : Nat := 61
abbrev arrayGeometryEpoch : Nat := 62
abbrev arrayInstance : Nat := 63
abbrev arrayCrcMismatches : Nat := 64
abbrev arrayRepairs : Nat := 65
abbrev arrayUnrecovered : Nat := 66
abbrev arrayScrubIntervalH : Nat := 67
abbrev arrayParityMismatches : Nat := 68
abbrev mapPages : Nat := 69
abbrev mapWarmLimit : Nat := 70
abbrev mapHotHits : Nat := 71
abbrev mapCheckpointMs : Nat := 72
abbrev mapExtentsFree : Nat := 73
abbrev mapPageRepairs : Nat := 74
abbrev cleanerStartFreePct : Nat := 75
abbrev cleanerReserveSegments : Nat := 76
abbrev cleanerRelocatedBlocks : Nat := 77
abbrev cleanerPlacementWaits : Nat := 78
abbrev journalDomainShortfall : Nat := 79
abbrev journalRehomes : Nat := 80
abbrev arrayCloseTimerUs : Nat := 81
abbrev arrayPolicy : Nat := 82
abbrev arrayWriteSeq : Nat := 83
abbrev arrayFreeSegments : Nat := 84
abbrev arrayAbandonedBeams : Nat := 85
abbrev arrayJournalHolders : Nat := 86
abbrev arrayReplayLost : Nat := 87
abbrev arrayTimerCloses : Nat := 88
abbrev volumeRecord : Nat := 89
abbrev ddrConfig : Nat := 90
abbrev ddrCapacityGib : Nat := 91
abbrev ddrCeCount : Nat := 92
abbrev ddrUeCount : Nat := 93
abbrev ddrScrubHours : Nat := 94
abbrev ddrTrackSaturated : Nat := 95
abbrev condenserCeCount : Nat := 96
abbrev condenserUeCount : Nat := 97
abbrev condenserSpillWaits : Nat := 98
abbrev pcacheWindowGib : Nat := 99
abbrev pcacheWindowPending : Nat := 100
abbrev pcacheVault0 : Nat := 101
abbrev pcacheVault1 : Nat := 102
abbrev pcacheBoardPowerW : Nat := 103
abbrev pcacheHoldupEnergyJ : Nat := 104
abbrev pcacheHoldupAttest : Nat := 105
abbrev pcacheAttestIntervalH : Nat := 106
abbrev pcacheRequiredEnergyJ : Nat := 107
abbrev pcacheVaultRateMbps : Nat := 108
abbrev pcacheHoldupCertified : Nat := 109
abbrev pcacheDumpState : Nat := 110
abbrev pcacheImageState : Nat := 111
abbrev pcacheFullWaits : Nat := 112
abbrev pcacheDumps : Nat := 113
abbrev memberTimeoutSolidMs : Nat := 114
abbrev memberTimeoutPlatterMs : Nat := 115
abbrev memberFailTimeouts : Nat := 116
abbrev memberFailWindowS : Nat := 117
abbrev memberSlowProbes : Nat := 118
abbrev memberAbsentFailS : Nat := 119
abbrev memberStaleLabels : Nat := 120
abbrev memberState : Nat := 121
abbrev memberTimeouts : Nat := 122
abbrev memberAssignment : Nat := 123
abbrev arrayState : Nat := 124
abbrev arrayActivity : Nat := 125
abbrev arrayRebuildPolicy : Nat := 126
abbrev arrayRebuildDelayS : Nat := 127
abbrev arrayMeridian : Nat := 128
abbrev arraySweepRemaining : Nat := 129
abbrev arrayDarkBlocks : Nat := 130
abbrev arrayDarkBeams : Nat := 131
abbrev arrayReadarounds : Nat := 132
abbrev arrayReadaroundWins : Nat := 133
abbrev arrayReadaroundSkipped : Nat := 134
abbrev arrayReadaroundMax : Nat := 135
abbrev arrayOfflineReason : Nat := 136
abbrev arraySlotsDown : Nat := 137
abbrev mportAbortWaitMs : Nat := 138
abbrev mportReadyLimitS : Nat := 139
abbrev mportEnumWaitS : Nat := 140
abbrev mportPreemptForeign : Nat := 141
abbrev mportSolidMembers : Nat := 142
abbrev mportDirFullRejects : Nat := 143
abbrev mportBifurcate : Nat := 144
abbrev mportLink : Nat := 145
abbrev mportLinkDowns : Nat := 146
abbrev memberAttach : Nat := 147
abbrev memberReject : Nat := 148
abbrev memberErrors : Nat := 149
abbrev memberResets : Nat := 150
abbrev memberTempC : Nat := 151
abbrev lensLdpcIter : Nat := 152
abbrev lensRecoveryRounds : Nat := 153
abbrev lensRereadLimit : Nat := 154
abbrev lensIrRounds : Nat := 155
abbrev lensIrOffset : Nat := 156
abbrev lensAdaptEnable : Nat := 157
abbrev lensTableFlushMin : Nat := 158
abbrev lensOwnerEpoch : Nat := 159
abbrev lensIrJobs : Nat := 160
abbrev lensIrSkipped : Nat := 161
abbrev lensLink : Nat := 162
abbrev lensFeSerial : Nat := 163
abbrev lensFeTempC : Nat := 164
abbrev lensCrcFrames : Nat := 165
abbrev lensLinkLosses : Nat := 166
abbrev lensSectorsRead : Nat := 167
abbrev lensRecovered : Nat := 168
abbrev lensFailed : Nat := 169
abbrev lensSyncMissed : Nat := 170
abbrev lensRealigned : Nat := 171
abbrev lensIrSaved : Nat := 172
abbrev lensAdaptClamped : Nat := 173
abbrev lensWriteFaults : Nat := 174
abbrev lensZoneSelect : Nat := 175
abbrev lensZoneLive : Nat := 176
abbrev lensZoneStored : Nat := 177
abbrev lensServoSeekCurrentPct : Nat := 178
abbrev lensServoWriteSettlePes : Nat := 179
abbrev lensServoReadSettlePes : Nat := 180
abbrev lensServoMaxAgeMs : Nat := 181
abbrev lensCadencePolicy : Nat := 182
abbrev lensCadenceFixed : Nat := 183
abbrev lensCadenceUpPct : Nat := 184
abbrev lensCadenceDownPct : Nat := 185
abbrev lensCadenceAccel : Nat := 186
abbrev lensSpinupS : Nat := 187
abbrev lensSpindleTolPpm : Nat := 188
abbrev lensShutterRetries : Nat := 189
abbrev lensShutterPes : Nat := 190
abbrev lensPes : Nat := 191
abbrev lensServoState : Nat := 192
abbrev lensCylinder : Nat := 193
abbrev lensCadenceRpm : Nat := 194
abbrev lensUtilisationPct : Nat := 195
abbrev lensShutterEvents : Nat := 196
abbrev lensSamMissed : Nat := 197
abbrev lensServoLost : Nat := 198
abbrev lensAdjacentVerifies : Nat := 199
abbrev lensReallocCount : Nat := 200
abbrev lensReallocPending : Nat := 201
abbrev lensReallocExhausted : Nat := 202
abbrev pairEnable : Nat := 203
abbrev pairState : Nat := 204
abbrev pairLeaseEpoch : Nat := 205
abbrev pairPartnerSerial : Nat := 206
abbrev pairLink : Nat := 207
abbrev pairAckTimeoutMs : Nat := 208
abbrev pairFenceMs : Nat := 209
abbrev pairRenewalsMissed : Nat := 210
abbrev pairTiesWon : Nat := 211
abbrev pairTiesLost : Nat := 212
abbrev pairTakeovers : Nat := 213
abbrev pairLastGapUs : Nat := 214
abbrev pairVerdicts : Nat := 215
abbrev pairWbWaits : Nat := 216
abbrev pairResyncPct : Nat := 217
abbrev pairLastSwap : Nat := 218
abbrev pairRefusal : Nat := 219
abbrev pairArbiter : Nat := 220
abbrev copyChainLimit : Nat := 221
abbrev copyStagedBytes : Nat := 222
abbrev copyChanFunction : Nat := 223
abbrev copyChanState : Nat := 224
abbrev copyChanBytes : Nat := 225
abbrev copyChanChains : Nat := 226
abbrev copyChanFailures : Nat := 227
abbrev copyChanRefused : Nat := 228
abbrev mboxPortRejected : Nat := 229
abbrev mboxPortPurges : Nat := 230
abbrev faultFirst : Nat := 231
abbrev faultFirstClear : Nat := 232
abbrev faultLatchedMap : Nat := 233
abbrev faultInjectEnable : Nat := 234
abbrev faultInjectMax : Nat := 235
abbrev faultClearAll : Nat := 236
abbrev faultClearRefused : Nat := 237
abbrev faultStatus : Nat := 238
abbrev faultSeverity : Nat := 239
abbrev faultCount : Nat := 240
abbrev faultOnset : Nat := 241
abbrev faultCleared : Nat := 242
abbrev faultDetail : Nat := 243
abbrev faultInject : Nat := 244
abbrev bboxHead : Nat := 245
abbrev bboxSelect : Nat := 246
abbrev bboxRecord : Nat := 247
abbrev bboxErase : Nat := 248
abbrev bboxSuppressed : Nat := 249
abbrev bboxLastGaspOk : Nat := 250
abbrev idPart : Nat := 251
abbrev idSerial : Nat := 252
abbrev idMac : Nat := 253
abbrev claimRequest : Nat := 254
abbrev claimHolder : Nat := 255
abbrev claimRemainingMs : Nat := 256
abbrev claimForced : Nat := 257
abbrev dictCatalogueEntries : Nat := 258
abbrev dictRefusedWrites : Nat := 259
abbrev settingsStore : Nat := 260
abbrev settingsState : Nat := 261
abbrev settingsSequence : Nat := 262
abbrev settingsLoadedCopy : Nat := 263
abbrev settingsFactoryReset : Nat := 264
abbrev sbPlcaNode : Nat := 265
abbrev sbPlcaCount : Nat := 266
abbrev sbPhyPlcaReg : Nat := 267
abbrev sbAuthFailures : Nat := 268
abbrev sbReplays : Nat := 269
abbrev sbSubscribers : Nat := 270
abbrev sbKey : Nat := 271
abbrev timeDomain : Nat := 272
abbrev timeSteps : Nat := 273
abbrev bootSlot : Nat := 274
abbrev bootBootedSlot : Nat := 275
abbrev bootSlotState : Nat := 276
abbrev bootMinSvn : Nat := 277
abbrev bootSvnCommit : Nat := 278
abbrev bootStraps : Nat := 279
abbrev bootStage : Nat := 280
abbrev bootPorCount : Nat := 281
abbrev powerVddCoreMv : Nat := 282
abbrev powerVddAonMv : Nat := 283
abbrev powerVddNvmMv : Nat := 284
abbrev powerCollapses : Nat := 285
abbrev lifeHours : Nat := 286
abbrev lifeAvgTjDc : Nat := 287
abbrev lifeAvgCoreMv : Nat := 288
abbrev lifeExceedHours : Nat := 289
abbrev pacerSagMv : Nat := 290
abbrev pacerAdmissionPct : Nat := 291
abbrev pacerSagEvents : Nat := 292
abbrev pacerDeepEvents : Nat := 293
abbrev thermalAlertC : Nat := 294
abbrev thermalLimitC : Nat := 295
abbrev thermalShutdownC : Nat := 296
abbrev thermalTjC : Nat := 297
abbrev thermalTjPeakC : Nat := 298
end Fam

/-- The row of a family; a family number outside the catalogue has a row that nothing may access. -/
def famRow (f : Nat) : Row := catalogue.getD f ⟨0, 0, .u8, .RO, 0, 0, 0, 0, false, false, 0, 0, 0, 1, ""⟩

end Sys2Proof.Machine
end

