-- ==== Sys2Proof/Machine/Ops.lean ====
section
/-!
DEFINITION. The named operations over the state: sparse tables, accessors of each register group, dictionary values,
outputs, black-box records and notices.
-/

namespace Sys2Proof.Machine

/-- What a command does to the device; the queue is not its concern. -/
def onDev (s : State) (k : Dev → Dev) : Host.Outcome State Fault Refusal := .next { s with dev := k s.dev }

/-! ### Sparse tables -/

/-- The entry of key `k`, or the default. -/
def tget {α : Type} (t : Tbl α) (k : Nat) (d : α) : α :=
  match t with
  | [] => d
  | (k', v) :: r => if k' = k then v else tget r k d

/-- The entry of key `k`, if any. -/
def tfind {α : Type} (t : Tbl α) (k : Nat) : Option α :=
  match t with
  | [] => none
  | (k', v) :: r => if k' = k then some v else tfind r k

/-- The table without key `k`. -/
def tdel {α : Type} (t : Tbl α) (k : Nat) : Tbl α := t.filter (fun e => e.1 != k)

/-- Insert before the first larger key. -/
def tins {α : Type} (t : Tbl α) (k : Nat) (v : α) : Tbl α :=
  match t with
  | [] => [(k, v)]
  | e :: r => if k < e.1 then (k, v) :: e :: r else e :: tins r k v

/-- Write a table that has a default: an entry equal to the default is removed. -/
def tset {α : Type} [DecidableEq α] (t : Tbl α) (k : Nat) (v d : α) : Tbl α :=
  if v = d then tdel t k else tins (tdel t k) k v

/-- Write a table that has no default. -/
def tput {α : Type} (t : Tbl α) (k : Nat) (v : α) : Tbl α := tins (tdel t k) k v

/-- The keys, rising. -/
def tkeys {α : Type} (t : Tbl α) : List Nat := t.map (·.1)

/-- Keys strictly rise. -/
def tsorted {α : Type} (t : Tbl α) : Bool :=
  match t with
  | [] => true
  | e :: r => (r.all fun e' => decide (e.1 < e'.1)) && tsorted r

/-- Canonical form: keys strictly rise and no entry equals the default. -/
def twf {α : Type} [DecidableEq α] (t : Tbl α) (d : α) : Bool := tsorted t && t.all (fun e => decide (e.2 ≠ d))

/-! ### Bits -/

/-- Bit `i` of a number. -/
def bit (v i : Nat) : Bool := v / 2 ^ i % 2 == 1

/-- Bits `hi : lo` of a number. -/
def bits (v hi lo : Nat) : Nat := v / 2 ^ lo % 2 ^ (hi + 1 - lo)

/-- 1 or 0. -/
def b2n (b : Bool) : Nat := if b then 1 else 0

/-- Round up to a multiple of `m`. -/
def roundUp (n m : Nat) : Nat := (n + m - 1) / m * m

/-- Ceiling division. -/
def cdiv (n m : Nat) : Nat := (n + m - 1) / m

/-! ### Fault sources (Table 15.1): kinds, severities, scopes -/

/-- R414, Table 15.4: the scope of a source. -/
inductive Scope where
  | device
  | hostPort (n : Nat)
  | member
  | lens (n : Nat)
  deriving DecidableEq, Repr

/-- Table 15.1: reserved sources, and numbers that are no source. -/
def srcReserved (s : Nat) : Bool :=
  (0x020 ≤ s && s ≤ 0x03F) || (0x052 ≤ s && s ≤ 0x05F) || (0x076 ≤ s && s ≤ 0x07F)
  || (0x080 ≤ s && s ≤ 0x0BF && s % 4 == 3) || (0x236 ≤ s && s ≤ 0x23F) || (0x245 ≤ s && s ≤ 0x24F)
  || (0x255 ≤ s && s ≤ 0x25F) || 0x280 ≤ s

/-- Table 15.1: severity fixed. -/
def srcFixed (s : Nat) : Bool := s ≤ 0x003 || (0x016 ≤ s && s ≤ 0x01D)

/-- Table 15.1, with Table 8.8 for 0x060 to 0x069: default severity. -/
def srcDefault (s : Nat) : Nat :=
  if srcReserved s then 0
  else if s = 0x002 ∨ s = 0x01F then 2
  else if s ≤ 0x003 then 4
  else if s ≤ 0x013 then 0
  else if s = 0x014 then 1
  else if s ≤ 0x01E then 4
  else if s ≤ 0x051 then 4
  else if s ≤ 0x069 then [1, 1, 2, 2, 2, 1, 1, 1, 0, 4].getD (s - 0x060) 0
  else if s ≤ 0x075 then 2
  else if s ≤ 0x0FF then 1
  else if s ≤ 0x1FF then (if s % 4 = 0 then 1 else 2)
  else if s ≤ 0x22F then (if s % 2 = 0 then 1 else 2)
  else if s ≤ 0x232 then 2
  else if s = 0x241 ∨ s = 0x243 ∨ s = 0x250 ∨ s = 0x251 then 2
  else 1

/-- Table 15.1: condition sources; the others are event sources (R411). -/
def srcCondition (s : Nat) : Bool :=
  s == 0x003 || (0x004 ≤ s && s ≤ 0x015) || s == 0x01F || (0x06A ≤ s && s ≤ 0x075)
  || (0x080 ≤ s && s ≤ 0x0BF && s % 4 == 2) || (0x0C0 ≤ s && s ≤ 0x0FF && s % 2 == 0)
  || (0x200 ≤ s && s ≤ 0x22F && s % 2 == 1) || s == 0x242 || s == 0x253

/-- Table 15.1: scope. -/
def srcScope (s : Nat) : Scope :=
  if 0x080 ≤ s ∧ s ≤ 0x0BF then .hostPort ((s - 0x080) / 4)
  else if 0x200 ≤ s ∧ s ≤ 0x22F then .lens ((s - 0x200) / 2)
  else if 0x230 ≤ s ∧ s ≤ 0x234 then .member
  else .device

/-- R415: the sources that can signal while the core is unpowered or in reset. -/
def srcPeriscope (s : Nat) : Bool := s == 0x002 || s == 0x003 || s == 0x01F || (0x250 ≤ s && s ≤ 0x254)

/-! ### Dictionary values held in `vals` -/

/-- Default of a scalar object (Tables 1.4 to 17.15; `fault[s].severity` by Table 15.1). -/
def valDefault (f i : Nat) : Nat := if f = Fam.faultSeverity then srcDefault i else (famRow f).dflt

/-- Key of family `f`, instance `i`. Families number below 512. -/
def valKey (f i : Nat) : Nat := i * 512 + f

def Dev.val (s : Dev) (f : Nat) (i : Nat := 0) : Nat := tget s.vals (valKey f i) (valDefault f i)

def Dev.setVal (s : Dev) (f i v : Nat) : Dev :=
  { s with vals := tset s.vals (valKey f i) v (valDefault f i) }

/-- Draw a free value (log entry 3). -/
def Dev.draw (s : Dev) : Dev := { s with fresh := s.fresh + 1 }

/-- Bits of a scalar type. -/
def Ty.bits : Ty → Nat
  | .bool | .u8 => 8
  | .u16 | .i16 => 16
  | .u32 | .i32 => 32
  | _ => 64

/-- Add to a counter. The spec does not say what a counter shows past its width, but for those it names: free. -/
def Dev.addVal (s : Dev) (f i n : Nat) : Dev :=
  let v := s.val f i + n
  let w := (famRow f).ty.bits
  if v < 2 ^ w then s.setVal f i v else (s.setVal f i (Config.freeNat s.fresh % 2 ^ w)).draw

/-- Increment a counter. -/
def Dev.bump (s : Dev) (f : Nat) (i : Nat := 0) : Dev := s.addVal f i 1

/-- A flag object is set. -/
def Dev.flag (s : Dev) (f : Nat) (i : Nat := 0) : Bool := s.val f i != 0

/-! ### Outputs -/

def emit (o : Out) (s : Dev) : Dev := { s with out := s.out ++ [o] }

/-! ### Accessors -/

/-- A function as packed in `q[n].owner`: port in bits 3:0, function in bits 10:4. -/
def packFn (f : Fn) : Nat := f.port % 16 + 16 * f.fn

def unpackFn (p : Nat) : Fn := ⟨p % 16, p / 16⟩

/-- Key of queue `q` of function `f`. -/
def qKey (f : Fn) (q : Nat) : Nat := packFn f * 1024 + q % 1024

def Dev.port (s : Dev) (n : Nat) : HostPort := tget s.ports n HostPort.idle
def Dev.setPort (s : Dev) (n : Nat) (p : HostPort) : Dev := { s with ports := tset s.ports n p HostPort.idle }
def Dev.fnS (s : Dev) (f : Fn) : FnState := tget s.fns (packFn f) FnState.absent
def Dev.setFn (s : Dev) (f : Fn) (x : FnState) : Dev := { s with fns := tset s.fns (packFn f) x FnState.absent }
def Dev.q (s : Dev) (f : Fn) (n : Nat) : QState := tget s.cm.qs (qKey f n) QState.absent
def Dev.setQ (s : Dev) (f : Fn) (n : Nat) (x : QState) : Dev :=
  { s with cm := { s.cm with qs := tset s.cm.qs (qKey f n) x QState.absent } }
def Dev.src (s : Dev) (n : Nat) : FaultSrc := tget s.fh.src n FaultSrc.clear
def Dev.setSrc (s : Dev) (n : Nat) (x : FaultSrc) : Dev :=
  { s with fh := { s.fh with src := tset s.fh.src n x FaultSrc.clear } }
def Dev.ten (s : Dev) (t : Nat) : Tenant := tget s.tenants t Tenant.undefined
def Dev.setTen (s : Dev) (t : Nat) (x : Tenant) : Dev := { s with tenants := tset s.tenants t x Tenant.undefined }
def Dev.arr? (s : Dev) (a : Nat) : Option Arr := tfind s.arrays a
def Dev.setArr (s : Dev) (a : Nat) (x : Arr) : Dev := { s with arrays := tput s.arrays a x }
def Dev.vol? (s : Dev) (v : Nat) : Option Vol := tfind s.vols v
def Dev.setVol (s : Dev) (v : Nat) (x : Vol) : Dev := { s with vols := tput s.vols v x }
def Dev.mem (s : Dev) (m : Nat) : Member := tget s.mb.tbl m Member.absent
def Dev.setMem (s : Dev) (m : Nat) (x : Member) : Dev :=
  { s with mb := { s.mb with tbl := tset s.mb.tbl m x Member.absent } }
def Dev.lens (s : Dev) (n : Nat) : Lens := tget s.ls.chan n Lens.down
def Dev.setLens (s : Dev) (n : Nat) (x : Lens) : Dev :=
  { s with ls := { s.ls with chan := tset s.ls.chan n x Lens.down } }
def Dev.fe (s : Dev) (n : Nat) : FrontEnd := tget s.ls.fe n FrontEnd.idle
def Dev.setFe (s : Dev) (n : Nat) (x : FrontEnd) : Dev :=
  { s with ls := { s.ls with fe := tset s.ls.fe n x FrontEnd.idle } }
def Dev.chan (s : Dev) (n : Nat) : Chan := tget s.chans n Chan.unbound
def Dev.setChan (s : Dev) (n : Nat) (x : Chan) : Dev := { s with chans := tset s.chans n x Chan.unbound }
def Dev.slot (s : Dev) (n : Nat) : DictSlot := tget s.dc.slots n DictSlot.reset
def Dev.setSlot (s : Dev) (n : Nat) (x : DictSlot) : Dev :=
  { s with dc := { s.dc with slots := tset s.dc.slots n x DictSlot.reset } }
def Dev.ctx? (s : Dev) (id : Nat) : Option Ctx := s.cm.ctxs.find? (fun c => c.id == id)
/-- Change one command in flight. -/
def Dev.modCtx (s : Dev) (id : Nat) (g : Ctx → Ctx) : Dev :=
  { s with cm := { s.cm with ctxs := s.cm.ctxs.map (fun c => if c.id = id then g c else c) } }

/-! ### IDE streams and request attributes (R58, R59, Table 2.1) -/

/-- Stream `i` is Secure and its association covers the function: the link stream every one, a selective one those of its
routing-ID range. -/
def streamCovers (i : Nat) (x : IdeStream) (f : Fn) : Bool :=
  x.secure && (i == 0 || (decide (x.ridLo ≤ f.fn) && decide (f.fn ≤ x.ridHi)))

/-- R59: the stream that covers a function: a selective one before the link stream. A stream that has become Insecure covers none, so the
device sends on another Secure one, or plain TLPs (DESIGN CHOICE, log entry 72). -/
def HostPort.streamOf (p : HostPort) (f : Fn) : Option Nat :=
  match p.ide.find? fun e => e.1 != 0 && streamCovers e.1 e.2 f with
  | some e => some e.1
  | none => (p.ide.find? fun e => streamCovers e.1 e.2 f).map (·.1)

/-- R59, Table 2.1: how a request or completion of a function travels. Relaxed ordering is set on data writes and no-snoop on data reads
and writes, each when Device Control enables it; every TLP carries a digest when AER's ECRC generation is enabled. -/
def Dev.attr (s : Dev) (f : Fn) (data write : Bool) : TlpAttr :=
  let x := (s.fnS f).cfg
  { stream := (s.port f.port).streamOf f, relaxed := data && write && x.deviceControl.getLsbD 4
    noSnoop := data && x.deviceControl.getLsbD 11, digest := x.ecrcGenerate }

/-- A data write as a function, and a write of a ring or a meter record. -/
def sendData (f : Fn) (addr : Nat) (b : List Byte) (s : Dev) : Dev := emit (.hostWrite f addr b (s.attr f true true)) s
def sendRing (f : Fn) (addr : Nat) (b : List Byte) (s : Dev) : Dev := emit (.hostWrite f addr b (s.attr f false true)) s

/-- A data read as a function, and a read of a ring or a descriptor. -/
def readData (f : Fn) (addr len : Nat) (s : Dev) : Dev := emit (.hostRead f addr len (s.attr f true false)) s
def readRing (f : Fn) (addr len : Nat) (s : Dev) : Dev := emit (.hostRead f addr len (s.attr f false false)) s

/-- An MSI-X message. -/
def sendMsix (f : Fn) (v : Nat) (s : Dev) : Dev := emit (.msix f v (s.attr f false true)) s

/-! ### Functions -/

/-- R44: the PF of a port and the VFs that VF Enable has brought into being. -/
def Dev.fnsOfPort (s : Dev) (p : Nat) : List Fn := (List.range ((s.port p).vfs + 1)).map (fun v => ⟨p, v⟩)

def Dev.allFns (s : Dev) : List Fn := (List.range 16).flatMap s.fnsOfPort

/-- R44, R63: the function exists. -/
def Dev.fnExists (s : Dev) (f : Fn) : Bool := f.port < 16 && f.fn ≤ (s.port f.port).vfs

/-- R45. -/
def Dev.isAdmin (s : Dev) (f : Fn) : Bool := f.fn == 0 && f.port == s.pw.adminPort

def Dev.adminFn (s : Dev) : Fn := ⟨s.pw.adminPort, 0⟩

/-- Table 2.5. -/
def vectorCount (f : Fn) : Nat := if f.fn = 0 then 2048 else 64

/-- Table 2.5, R67. -/
def queueLimit (f : Fn) : Nat := if f.fn = 0 then 1024 else 64

/-! ### Modes -/

/-- Codes of `device.mode` (Table 1.4). -/
def Mode.code : Mode → Nat
  | .dark => 0 | .focus => 1 | .solo => 2 | .lead => 3 | .mirror => 4 | .eclipse => 5

/-- Insert before the first element of a greater key. -/
def insertBy {α : Type} (key : α → Nat) (a : α) : List α → List α
  | [] => [a]
  | b :: r => if key a < key b then a :: b :: r else b :: insertBy key a r

/-- Sort by key; elements of one key keep their order. -/
def sortBy {α : Type} (key : α → Nat) (l : List α) : List α := l.foldl (fun r a => insertBy key a r) []

def Dev.inMode (s : Dev) (m : Mode) : Bool := s.pw.mode == some m

/-- A mode that serves tenants: SOLO or LEAD (Table 1.6). -/
def Dev.serving (s : Dev) : Bool := s.inMode .solo || s.inMode .lead

/-- The core domain runs (Table 1.6): every mode but DARK. -/
def Dev.coreUp (s : Dev) : Bool :=
  s.inMode .focus || s.inMode .solo || s.inMode .lead || s.inMode .mirror || s.inMode .eclipse

/-- R33: the destage on the way from ECLIPSE to FOCUS is running. -/
def Dev.destaging (s : Dev) : Bool :=
  s.inMode .eclipse && (match s.pw.trans with | some (.eclipseDestage _) => true | _ => false)

/-- R31, R33, R461: the mode lets internal work proceed: not ECLIPSE but for the destage of R33, and no dump without an entry to it. -/
def Dev.unstopped (s : Dev) : Bool := (!s.inMode .eclipse || s.destaging) && !s.pc.quiet

/-- Internal work proceeds: the core runs, and the mode lets it. -/
def Dev.working (s : Dev) : Bool := s.coreUp && s.unstopped

/-- R372, R375: a LEAD contends for the lease, or a MIRROR takes over: nothing is fetched, completed or issued. A tie of
PAIR_START stops nothing (Table 13.1). -/
def Dev.contending (s : Dev) : Bool :=
  match s.pw.trans with
  | some (.tie src _) => src == .lead || src == .mirror
  | some (.takeover _) => true
  | _ => false

/-- R27, R31: commands go to members. A fenced device sends none (R309), one that contends none but those of its tie and fences (R372,
R373), and a MIRROR none (R386). -/
def Dev.memberIo (s : Dev) : Bool := s.unstopped && !s.pr.fenced && !s.contending && !s.inMode .mirror

/-- R249: a dump is under way. -/
def Dev.dumping (s : Dev) : Bool := s.val Fam.pcacheDumpState == 1 || s.val Fam.pcacheDumpState == 2

/-- Periscope runs: POR_N released and no collapse standing (R457). -/
def Dev.periscope (s : Dev) : Bool := s.pw.porHigh && !s.pw.collapsed && s.pw.mode.isSome

def Dev.setMode0 (s : Dev) (m : Option Mode) : Dev := { s with pw := { s.pw with mode := m } }
def Dev.setTrans (s : Dev) (t : Option Transition) : Dev := { s with pw := { s.pw with trans := t } }

/-! ### Device time -/

/-- R155, R413: the unsynced flag of a record. -/
def Dev.unsynced (s : Dev) : Bool := s.val Fam.timeSource != 2

/-! ### Black box (R422, R423, Table 15.6) -/

/-- Queue a record; `source` 0xFFFF and `severity` 0xFF when none. -/
def bbox (kind flags source severity : Nat) (payload : List Byte) (s : Dev) : Dev :=
  { s with fh := { s.fh with queue := s.fh.queue ++ [
      { kind := kind, flags := flags + b2n s.unsynced, source := source, severity := severity,
        mode := (s.pw.mode.map Mode.code).getD 0, time := s.tm.device, payload := fitBytes 36 payload }] } }

/-! ### Side-band messages and notices (R445, R447) -/

/-- Send a Falfer message under a key slot, with its MAC: the device's own sequence of the slot increases by 1 (R445). -/
def falferSend (dest : BitVec 128) (port keySlot kind result : Nat) (tag : Word) (payload : List Byte) (s : Dev) : Dev :=
  let n := tget s.sb.seqOut keySlot 0 + 1
  let mac := falferMac (tget s.sb.keys keySlot 0) (falferHead kind keySlot result n s.ident.serial.toNat tag.toNat payload)
  emit (.falfer dest port keySlot kind result tag n payload (some mac)) { s with sb := { s.sb with seqOut := tset s.sb.seqOut keySlot n 0 } }

/-- R447: one notice to each subscriber whose kinds byte has `kind`'s bit and whose least severity is met. -/
def notice (kind : Nat) (sev : Option Nat) (payload : List Byte) (s : Dev) : Dev :=
  (s.sb.subs.map (·.2)).foldl (fun s sub =>
    if bit sub.2.2.2.2 kind && (match sev with | none => true | some v => decide (sub.2.2.2.1 ≤ v)) then
      falferSend sub.1 sub.2.1 sub.2.2.1 0x10 0 0 payload s
    else s) s

/-- R447: the payload of a NOTICE. -/
def noticePayload (source severity kind time detail count : Nat) : List Byte :=
  le 2 source ++ le 1 severity ++ le 1 kind ++ le 8 time ++ le 4 detail ++ le 4 count

end Sys2Proof.Machine
end

