-- ==== Sys2Proof/Machine/Frame.lean ====
section
/-!
DEFINITION. Frames of the Lens links: data blocks, control block and CRC-24 (R315 to R318).
-/

namespace Sys2Proof.Machine

/-! ### Frames (Tables 11.1 to 11.4) -/

/-- Data blocks as 64-bit words. The bits that a kind does not use are 0; Table 11.4 says so of the downstream ones (log entry 79). -/
def UpBlock.word (b : UpBlock) : BitVec 64 :=
  let status (t payload : Nat) : BitVec 64 := BitVec.ofNat 64 (2 ^ 62 + t * 2 ^ 52 + payload)
  match b with
  | .samples shock invalid d => BitVec.ofNat 64 (b2n shock * 2 ^ 61 + b2n invalid * 2 ^ 60 + d.toNat)
  | .counter c => status 1 (c % 2 ^ 44)
  | .health t atSpeed loaded gate fault supplies period =>
    status 2 ((t % 256).toNat + b2n atSpeed * 2 ^ 8 + b2n loaded * 2 ^ 9 + b2n gate * 2 ^ 10 + b2n fault * 2 ^ 11 + b2n supplies * 2 ^ 12
      + period % 65536 * 2 ^ 16)
  | .ack tag result => status 3 (tag % 256 * 256 + result % 256)
  | .readData tag v => status 4 (tag % 256 * 2 ^ 40 + v.toNat)
  | .writeFault cause => status 5 (cause % 256)
  | .idle => BitVec.ofNat 64 (3 * 2 ^ 62)

def DownBlock.word (b : DownBlock) : BitVec 64 :=
  match b with
  | .writeData count d => BitVec.ofNat 64 (count % 64 * 2 ^ 56 + d.toNat)
  | .vcm wedge current => BitVec.ofNat 64 (2 ^ 62 + wedge % 512 * 2 ^ 16 + current.toNat)
  | .cmd op tag v => BitVec.ofNat 64 (2 * 2 ^ 62 + op % 256 * 2 ^ 52 + tag % 256 * 2 ^ 44 + v.toNat)
  | .idle => BitVec.ofNat 64 (3 * 2 ^ 62)

/-- One step of the CRC-24 of Table 11.1, polynomial 0x86_4CFB. -/
def crc24Bit (c : BitVec 24) (b : Bool) : BitVec 24 := if xor (c.getLsbD 23) b then (c <<< 1) ^^^ 0x864CFB else c <<< 1

/-- The `n` high bits of a word, most significant first. -/
def crc24Word (c : BitVec 24) (w : BitVec 64) (n : Nat) : BitVec 24 :=
  (List.range n).foldl (fun c i => crc24Bit c (w.getLsbD (63 - i))) c

/-- The crc of a frame: 31 data blocks, idle ones after those given, then bits 63:24 of its control block. -/
def frameCrc (type seq epoch flags : Nat) (blocks : List (BitVec 64)) : BitVec 24 :=
  let data := blocks.take 31 ++ List.replicate (31 - blocks.length) (BitVec.ofNat 64 (3 * 2 ^ 62))
  let control := BitVec.ofNat 64 (type * 2 ^ 56 + seq % 256 * 2 ^ 48 + epoch % 65536 * 2 ^ 32 + flags % 256 * 2 ^ 24)
  crc24Word (data.foldl (fun c w => crc24Word c w 64) 0xB704CE) control 40

/-- R315: the crc of an upstream and of a downstream frame; the flags of a downstream frame are 0. -/
def upCrc (seq epoch flags : Nat) (blocks : List UpBlock) : BitVec 24 := frameCrc 0x2D seq epoch flags (blocks.map UpBlock.word)
def downCrc (seq epoch : Nat) (blocks : List DownBlock) : BitVec 24 := frameCrc 0xD2 seq epoch 0 (blocks.map DownBlock.word)

/-- A frame of these blocks. -/
def upFrame (seq epoch flags : Nat) (blocks : List UpBlock) : Frame UpBlock :=
  { seq := seq, epoch := epoch, flags := flags, crc := upCrc seq epoch flags blocks, blocks := blocks }
def downFrameOf (seq epoch : Nat) (blocks : List DownBlock) : Frame DownBlock :=
  { seq := seq, epoch := epoch, flags := 0, crc := downCrc seq epoch blocks, blocks := blocks }

end Sys2Proof.Machine
end

