-- ==== Sys2Proof/Machine/Flags.lean ====
section
/-!
DEFINITION. Flags and signals: MSI-X messages and the pending-bit array (R55, R56), the summary page (R54), the queue-error
map, mode changes, entry to ECLIPSE (R31), and the fault hub (R413 to R420) but for the isolation of a member, which is in
MemberOps.lean.
-/

namespace Sys2Proof.Machine

/-! ### MSI-X -/

/-- R55, R56: a message may leave now; none in ECLIPSE (R31), and none from a LEAD that contends (Table 13.3). -/
def msixAllowed (s : Dev) (f : Fn) (v : Nat) : Bool :=
  let x := s.fnS f
  x.msixEnable && !x.fnMask && x.unmasked.contains v && !s.inMode .eclipse && !(s.inMode .lead && s.contending)

/-- R55: send, or set the pending bit. -/
def raiseVector (f : Fn) (v : Nat) (s : Dev) : Dev :=
  if msixAllowed s f v then sendMsix f v s
  else
    let x := s.fnS f
    s.setFn f { x with pba := if x.pba.contains v then x.pba else x.pba ++ [v] }

/-- R56: one message per pending vector that may leave now. -/
def flushPba (f : Fn) (s : Dev) : Dev :=
  (s.fnS f).pba.foldl (fun s v =>
    if msixAllowed s f v then
      let x := s.fnS f
      sendMsix f v (s.setFn f { x with pba := x.pba.filter (· != v) })
    else s) s

/-! ### The summary page (R54, Table 2.6) -/

/-- A bit of offset 0x000 went from 0 to 1: summary_events latches it and one message is raised on event_vector. -/
def latchEvent (f : Fn) (n : Nat) (s : Dev) : Dev :=
  let x := s.fnS f
  let s := s.setFn f { x with events := x.events ||| (1#32 <<< n) }
  if x.eventVector < vectorCount f then raiseVector f x.eventVector s else s

/-- Set bit `n` (0 to 4) of offset 0x000 to `on`. -/
def setSummary (n : Nat) (on : Bool) (s : Dev) (f : Fn) : Dev :=
  let x := s.fnS f
  let old := x.summary.getLsbD n
  let s := s.setFn f { x with summary := if on then x.summary ||| (1#5 <<< n) else x.summary &&& ~~~(1#5 <<< n) }
  if on && !old then latchEvent f n s else s

/-- Bit 4 concerns this function (Table 15.3): a source LATCHED with latched_sev 2 or higher; on the admin function every
source, elsewhere those of its host port. -/
def faultConcerns (s : Dev) (f : Fn) : Bool :=
  s.fh.src.any fun e => e.2.latched && decide (2 ≤ e.2.latchedSev)
    && (s.isAdmin f || srcScope e.1 == .hostPort f.port)

/-- Bit 1: the function's tenant is isolated. -/
def isolatedFn (s : Dev) (f : Fn) : Bool :=
  match (s.fnS f).bound with
  | some t => (s.ten t).isolated
  | none => false

/-- Bit 3 (Table 14.5): an unmasked rx_doorbell bit is set. -/
def mailboxPending (s : Dev) (f : Fn) : Bool := let x := s.fnS f; x.rxDoorbell &&& ~~~x.rxMask != 0

/-- Give bits 4, 3, 2 and 1 their present values, latching what rises. -/
def refreshSummary (s : Dev) (f : Fn) : Dev :=
  let s := setSummary 4 (faultConcerns s f) s f
  let s := setSummary 3 (mailboxPending s f) s f
  let s := setSummary 2 (!(s.fnS f).queueErr.isEmpty) s f
  setSummary 1 (isolatedFn s f) s f

/-- R54: a function that comes into being or is reset: summary_events 0, offset 0x000 at its present values, no latch, and no message
pending. -/
def presentSummary (s : Dev) (f : Fn) : Dev :=
  let x := s.fnS f
  let now := b2n (s.inMode .eclipse) + 2 * b2n (isolatedFn s f) + 4 * b2n (!x.queueErr.isEmpty)
    + 8 * b2n (mailboxPending s f) + 16 * b2n (faultConcerns s f)
  s.setFn f { x with events := 0, summary := BitVec.ofNat 5 now, pba := [] }

/-- Table 2.6: the queue_error bit of a queue is set and its SQ is STOPPED (R86). -/
def stopSq (f : Fn) (n : Nat) (s : Dev) : Dev :=
  let x := s.q f n
  if x.sqState = .active then
    let s := s.setQ f n { x with sqState := .stopped }
    let y := s.fnS f
    let s := s.setFn f { y with queueErr := if y.queueErr.contains n then y.queueErr else y.queueErr ++ [n] }
    setSummary 2 true s f
  else s

/-- The queue numbers of a function that hold a ring. -/
def Dev.queuesOf (s : Dev) (f : Fn) : List Nat :=
  (s.cm.qs.filter fun e => e.1 / 1024 == packFn f && (e.2.sqState != .absent || e.2.cqState != .absent)).map (·.1 % 1024)

/-! ### Modes (Table 1.7) -/

/-- Table 2.6: bits 23:16 of offset 0x000 copy the mode; each bit that rises latches (log entry 12). -/
def latchModeBits (old new : Nat) (s : Dev) (f : Fn) : Dev :=
  (List.range 3).foldl (fun s i => if bit new i && !bit old i then latchEvent f (16 + i) s else s) s

/-- A mode change (R28): counts it, writes the MODE record with its trigger (Table 15.7), shows it in every summary page,
drives ECLIPSE_N, tells subscribers (R447), notes for the meters that the device became LEAD or left ECLIPSE (R155, R159), and on leaving
ECLIPSE sends the pending MSI-X messages (R56). -/
def changeMode (m : Mode) (trigger source severity : Nat) (s : Dev) : Dev :=
  match s.pw.mode with
  | none => s.setMode0 (some m)
  | some o =>
    if o = m then s
    else
      let s := (s.setMode0 (some m)).bump Fam.deviceModeChanges
      let s := { s with mt := { s.mt with
        takeover := s.mt.takeover || m == .lead, eclipsed := s.mt.eclipsed || o == .eclipse } }
      let s := bbox 0x02 0 source severity ([o.code, m.code, trigger].map (BitVec.ofNat 8)) s
      let s := notice 1 none (noticePayload 0xFFFF 0 1 s.tm.device m.code 0) s
      let s := if m = .eclipse ∨ o = .eclipse then emit (.pin "ECLIPSE_N" (m != .eclipse)) s else s
      if m = .dark then s
      else
        let s := s.allFns.foldl (latchModeBits o.code m.code) s
        let s := if m = .eclipse then s.allFns.foldl (setSummary 0 true) s else s
        if o = .eclipse then
          let s := s.allFns.foldl (setSummary 0 false) s
          s.allFns.foldl (fun s f => flushPba f s) s
        else s

/-! ### Lens commands of the device (Table 11.5) -/

/-- One frame to the front-end of channel `n`, with the owner epoch of the device (R315, R321). -/
def lensFrame (n : Nat) (blocks : List DownBlock) (s : Dev) : Dev :=
  let l := s.lens n
  emit (.lensDown n (downFrameOf l.txSeq (s.val Fam.lensOwnerEpoch) blocks)) (s.setLens n { l with txSeq := (l.txSeq + 1) % 256 })

/-- Send a front-end command on channel `n`; its tag waits for the ACK (R319). -/
def lensCmd (n opcode : Nat) (operand : BitVec 44) (s : Dev) : Dev :=
  let l := s.lens n
  lensFrame n [.cmd opcode l.nextTag operand]
    (s.setLens n { l with nextTag := (l.nextTag + 1) % 256, waiting := l.waiting ++ [(l.nextTag, opcode)] })

/-- PARK (Table 11.5). -/
def lensPark (n : Nat) (s : Dev) : Dev :=
  let s := lensCmd n 0x0B 0 s
  let l := s.lens n
  s.setLens n { l with parked := true, gate := false, region := none }

/-- The write gate of a channel is withdrawn: END_WRITE when a write is active. -/
def lensShutter (n : Nat) (s : Dev) : Dev :=
  let l := s.lens n
  if l.gate || l.region.isSome then lensCmd n 0x08 0 (s.setLens n { l with gate := false, region := none }) else s

/-- Channels whose link is up. -/
def Dev.lensUp (s : Dev) : List Nat := (List.range 24).filter fun n => (s.lens n).up

/-! ### Entry to ECLIPSE (R31, Table 1.8) -/

def Dev.imageSlot (s : Dev) (n : Nat) : ImageSlot := if n = 0 then s.fw.slotA else s.fw.slotB

/-- An activation ends: its record (R423), its outcome (R130), also where its command is gone, and how long the stall was (R134). -/
def noteActivation (slot status qual : Nat) (oldVersion : Quad) (s : Dev) : Dev :=
  let new := ((s.imageSlot slot).img.map (·.fwVersion)).getD 0
  let s := s.setVal Fam.fwLastActivation 0 (status + 256 * qual)
  let s := s.setVal Fam.fwLastStallUs 0 (min ((s.tm.now - s.fw.stallStart) / 1000) 0xFFFFFFFF)
  bbox 0x08 0 0xFFFF 0xFF (le 1 status ++ le 1 qual ++ List.replicate 6 0 ++ le 8 oldVersion.toNat ++ le 8 new.toNat) s

/-- R35, Table 4.12: an activation is abandoned; its command completes ABORTED_RESET with the others. -/
def abandonActivation (s : Dev) : Dev :=
  match s.fw.activating with
  | none => s
  | some (n, _) =>
    (noteActivation n 0x07 0x01 s.fw.version { s with fw := { s.fw with activating := none } }).setVal Fam.fwActivationState 0 0

/-- A running checkpoint is given up: its pages are due again. -/
def abandonCheckpoint (s : Dev) : Dev :=
  let pages := s.mb.cmds.filterMap fun c => match c.why with
    | .checkpoint v p _ => if c.dead then none else some (v, p)
    | _ => none
  { s with
    mb := { s.mb with cmds := s.mb.cmds.map fun c => match c.why with
      | .checkpoint .. => { c with dead := true }
      | _ => c }
    ms := { s.ms with
      checkpoint := false, unwritten := []
      dirtyPages := s.ms.dirtyPages ++ (pages ++ s.ms.unwritten).eraseDups.filter (!s.ms.dirtyPages.contains ·) }
    arrays := s.arrays.map fun e => (e.1, { e.2 with ckpt := none }) }

/-- Nothing is read from members any more for blocks or for whole beams; sweeps take their work up again from their positions. -/
def dropReads (s : Dev) : Dev :=
  { s with
    mb := { s.mb with jobs := [] }
    arrays := s.arrays.map fun e => (e.1, { e.2 with reads := [], rebuild := none, darkened := [] }) }

/-- R35: a resynchronisation, or the guard of a takeover, is abandoned; its PAIR_START completes ABORTED_RESET with the others (R32). -/
def abandonPairing (s : Dev) : Dev :=
  let st := s.val Fam.pairState
  let s := if s.pr.resync.isSome || s.pr.guarding || st == 5 then s.setVal Fam.pairState 0 0 else s
  { s with pr := { s.pr with resync := none, guarding := false } }

/-- R35: what is abandoned: the transition, an activation, a resynchronisation or takeover guard, and a vault test (R247); and no member is
read any more (R31). The write-data of the pair stays held. -/
def abandonWork (s : Dev) : Dev :=
  abandonActivation <| abandonPairing <| dropReads <| abandonCheckpoint { s with
    pw := { s.pw with trans := none, coreStarting := false, fetchStopped := false, parkPending := false }
    pc := { s.pc with testing := false } }

/-- A severity-4 onset takes the device to ECLIPSE from FOCUS, SOLO, LEAD or MIRROR, and from DARK while the core is
starting (R30). In ECLIPSE already, no further mode action (Table 15.8). A paired LEAD keeps its heads track-following
(R380). -/
def enterEclipse (source : Nat) (s : Dev) : Dev :=
  let from? := s.inMode .focus || s.inMode .solo || s.inMode .lead || s.inMode .mirror
    || (s.inMode .dark && s.pw.coreStarting)
  if from? then
    let pairedLead := s.inMode .lead && s.val Fam.pairState == 3
    let s := abandonWork s
    let s := s.lensUp.foldl (fun s n => lensShutter n s) s
    let s := changeMode .eclipse 1 source 4 s
    let s := s.setVal Fam.deviceEclipseSource 0 source
    if pairedLead then { s with pw := { s.pw with parkPending := true } }
    else s.lensUp.foldl (fun s n => lensPark n s) s
  else s

/-! ### The fault hub (R412 to R420) -/

/-- The severity in force: fixed and reserved sources cannot be programmed (R411, R414). -/
def Dev.severity (s : Dev) (n : Nat) : Nat :=
  if srcReserved n then 0 else if srcFixed n then srcDefault n else s.val Fam.faultSeverity n

/-- R415: the source can signal now. -/
def Dev.canSignal (s : Dev) (n : Nat) : Bool :=
  s.periscope && !srcReserved n && (s.coreUp || (s.inMode .dark && s.pw.coreStarting) || srcPeriscope n)

/-- R414: the severity of the action taken: ISOLATE without an isolation acts as DEGRADE (Table 15.4). -/
def actionTaken (n sev : Nat) : Nat := if sev = 3 ∧ srcScope n = .device then 2 else sev

/-- A record of a source; it says whether records of the source have been suppressed before it (Table 15.6, bit 3). -/
def sourceRecord (kind n sev : Nat) (real : Bool) (payload : List Byte) (s : Dev) : Dev :=
  let x := s.src n
  bbox kind (2 * b2n x.injectedOnset + 4 * b2n real + 8 * b2n x.suppressed) n sev payload (s.setSrc n { x with suppressed := false })

/-- R423: an event that has a kind of its own: its record carries the source and the severity acted on. -/
def ownRecord (kind n : Nat) (payload : List Byte) (s : Dev) : Dev :=
  sourceRecord kind n (actionTaken n (s.severity n)) (s.canSignal n || (s.src n).realOnset) payload s

/-- R423: one FAULT record a second and source; further onsets are counted and flagged on the next one. -/
def recordFault (n sev : Nat) (firstSet : Bool) (s : Dev) : Dev :=
  let x := s.src n
  if x.lastRecord ≠ 0 ∧ s.tm.now + 1 < x.lastRecord + 1000000000 then
    (s.setSrc n { x with suppressed := true }).bump Fam.bboxSuppressed
  else
    let s := sourceRecord 0x01 n sev x.realOnset (le 4 x.detail ++ le 4 x.count ++ le 1 (b2n firstSet)) s
    s.setSrc n { s.src n with lastRecord := s.tm.now + 1 }

/-- Table 15.4: isolation of a host port. -/
def isolatePort (p : Nat) (s : Dev) : Dev :=
  (s.fnsOfPort p).foldl (fun s f => (s.queuesOf f).foldl (fun s q => stopSq f q s) s) s

/-- R413: the registers of an onset. `act` is the severity of the action taken, none when no action is taken (R420). -/
def onsetRegs (n : Nat) (detail : Nat) (real injected : Bool) (act : Option Nat) (s : Dev) : Dev :=
  let x := s.src n
  s.setSrc n { x with
    latched := true
    realOnset := x.realOnset || real
    injectedOnset := x.injectedOnset || injected
    realLive := x.realLive || real
    count := if x.count < 0xFFFFFFFF then x.count + 1 else x.count
    detail := detail % 2 ^ 32
    onset := if x.latched then x.onset else s.tm.device
    cleared := 0
    latchedSev := match act with | none => x.latchedSev | some v => max x.latchedSev v }

/-- R416: the first onset that finds the register empty. -/
def setFirst (n : Nat) (s : Dev) : Dev :=
  let x := s.src n
  match s.fh.first with
  | some _ => s
  | none => { s with fh := { s.fh with first := some (n, x.latchedSev, x.injectedOnset, x.realOnset, x.onset) } }

/-- R414: the cumulative actions of severity `sev`, but for the isolation of a member or Lens channel. `own` says that the
event writes a record of its own kind (R423). -/
def hubActions (n sev : Nat) (own : Bool) (s : Dev) : Dev :=
  let firstSet := s.fh.first.isNone
  let s := setFirst n s
  let x := s.src n
  let s := if 1 ≤ sev then notice 0 (some sev) (noticePayload n sev 0 s.tm.device x.detail x.count) s else s
  let s := if 2 ≤ sev then
      let s := refreshSummary s s.adminFn
      let s := match srcScope n with
        | .hostPort p => (s.fnsOfPort p).foldl refreshSummary s
        | _ => s
      if own then s else recordFault n sev firstSet s
    else s
  let s := if 3 ≤ sev then
      match srcScope n with
      | .hostPort p => isolatePort p s
      | .lens c => lensShutter c s
      | _ => s
    else s
  if 4 ≤ sev then enterEclipse n s else s

/-- One onset (R413, R414): real, injected or both; a real one acts with the programmed severity. -/
def hubOnset (n detail : Nat) (real injected : Bool) (sev : Nat) (own : Bool) (s : Dev) : Dev :=
  hubActions n (actionTaken n sev) own (onsetRegs n detail real injected (some (actionTaken n sev)) s)

/-- A real signal. A condition that is already LIVE gives no onset (R411, R413). No member isolation here. -/
def hubReal (n detail : Nat) (own : Bool) (s : Dev) : Dev :=
  if s.canSignal n && !(srcCondition n && (s.src n).realLive) then
    hubOnset n detail true false (s.severity n) own s
  else s

/-- R413: the real signal falls; live falls unless an injection holds it, and the clearing time is set. -/
def hubFall (n : Nat) (s : Dev) : Dev :=
  let x := s.src n
  if x.realLive then
    s.setSrc n { x with realLive := false, cleared := if x.injLive = 0 then s.tm.device else x.cleared }
  else s

/-- Live is the OR of the real signal and the injection (R419). -/
def FaultSrc.live (x : FaultSrc) : Bool := x.realLive || x.injLive != 0

/-- Bits 7:0 of the status register (Table 15.2). -/
def FaultSrc.status (x : FaultSrc) : Nat :=
  b2n x.live + 2 * b2n x.latched + 4 * b2n x.injectedOnset + 8 * b2n x.realOnset + 16 * (x.latchedSev % 8)
    + 128 * b2n x.clearDenied

/-- "No severity-4 source LATCHED" (R415). -/
def Dev.noSev4 (s : Dev) : Bool := s.fh.src.all fun e => !(e.2.latched && e.2.latchedSev == 4)

/-- R417: a write of 1 to latched by a master (0 admin, 1 side-band, 2 firmware; other masters have no access). -/
def clearLatched (who n : Nat) (s : Dev) : Dev :=
  let x := s.src n
  if x.live then (s.setSrc n { x with clearDenied := true }).bump Fam.faultClearRefused
  else
    let s := if x.latched && decide (2 ≤ x.latchedSev) then
        sourceRecord 0x0B n x.latchedSev x.realOnset (le 1 who ++ le 1 x.latchedSev) s
      else s
    let s := s.setSrc n { s.src n with latched := false, realOnset := false, injectedOnset := false, latchedSev := 0 }
    s.allFns.foldl refreshSummary s

end Sys2Proof.Machine
end

