-- ==== Sys2Proof/Machine/Codec.lean ====
section
/-!
DEFINITION. Pure computations over bytes and geometries: CRC-32C (R179) and CRC-32 (R326), GF(2^8) and the Prism code
(R169 to R173), beam geometry (R162 to R168), the beam header (R175, R176), the summary entry (R177, R178, R180).
-/

namespace Sys2Proof.Machine

/-! ### CRCs -/

/-- One reflected CRC step over one bit. -/
def crcBit (poly c : Word) : Word := if c.getLsbD 0 then (c >>> 1) ^^^ poly else c >>> 1

/-- One reflected CRC step over one byte. -/
def crcByte (poly c : Word) (b : Byte) : Word :=
  let c := c ^^^ b.zeroExtend 32
  crcBit poly (crcBit poly (crcBit poly (crcBit poly (crcBit poly (crcBit poly (crcBit poly (crcBit poly c)))))))

def crcReflected (poly : Word) (b : List Byte) : Word := ~~~ (b.foldl (crcByte poly) 0xFFFFFFFF)

/-- R179: polynomial 0x1EDC_6F41 reflected. -/
def crc32c (b : List Byte) : Word := crcReflected 0x82F63B78 b

/-- R326: polynomial 0x04C1_1DB7 reflected. -/
def crc32 (b : List Byte) : Word := crcReflected 0xEDB88320 b

/-! ### GF(2^8) modulo 0x11D (R169, R170) -/

/-- Multiply by x. -/
def gfX (a : Byte) : Byte := if a.getLsbD 7 then (a <<< 1) ^^^ 0x1D else a <<< 1

/-- The `gf_mul` of R170: `n` remaining bits of `b`. -/
def gfMulAux : Nat → Byte → Byte → Byte → Byte
  | 0, p, _, _ => p
  | n + 1, p, a, b => gfMulAux n (if b.getLsbD 0 then p ^^^ a else p) (gfX a) (b >>> 1)

def gfMul (a b : Byte) : Byte := gfMulAux 8 0 a b

def gfSq (a : Byte) : Byte := gfMul a a

/-- a^254 (R170), as a product of squares: 254 = 2 + 4 + 8 + 16 + 32 + 64 + 128. -/
def gfInv (a : Byte) : Byte :=
  let a2 := gfSq a; let a4 := gfSq a2; let a8 := gfSq a4; let a16 := gfSq a8
  let a32 := gfSq a16; let a64 := gfSq a32; let a128 := gfSq a64
  gfMul a2 (gfMul a4 (gfMul a8 (gfMul a16 (gfMul a32 (gfMul a64 a128)))))

/-- c(j, i) of R170. -/
def coef (j i : Nat) : Byte :=
  let y := BitVec.ofNat 8 (4 + i)
  gfMul y (gfInv (BitVec.ofNat 8 j ^^^ y))

def xorBytes (a b : List Byte) : List Byte := List.zipWith (· ^^^ ·) a b
def scaleBytes (c : Byte) (a : List Byte) : List Byte := a.map (gfMul c)

/-- Parity row `j` of columns `(i, bytes)` over `len` bytes (R169). -/
def parityOf (j len : Nat) (cols : List (Nat × List Byte)) : List Byte :=
  cols.foldl (fun p c => xorBytes p (scaleBytes (coef j c.1) c.2)) (List.replicate len 0)

/-- Solve a square system over GF(2^8): rows of coefficients with byte-string right sides; one byte string per unknown. -/
def gfSolve : Nat → List (List Byte × List Byte) → List (List Byte)
  | 0, _ => []
  | e + 1, rows =>
    match rows.find? (fun r => r.1.headD 0 != 0) with
    | none => List.replicate (e + 1) []
    | some p =>
      let inv := gfInv (p.1.headD 0)
      let pc := p.1.map (gfMul inv)
      let pr := scaleBytes inv p.2
      let rest := (rows.erase p).map fun r =>
        let h := r.1.headD 0
        (xorBytes r.1.tail (scaleBytes h pc.tail), xorBytes r.2 (scaleBytes h pr))
      let xs := gfSolve e rest
      (List.zip pc.tail xs).foldl (fun acc cx => xorBytes acc (scaleBytes cx.1 cx.2)) pr :: xs

/-! ### Geometry (R162 to R168) -/

def Geom.width (g : Geom) : Nat := if g.mirror then g.m else g.k + g.m

/-- Facets that hold the data area: k, or 1 for a mirror. -/
def Geom.dataFacets (g : Geom) : Nat := if g.mirror then 1 else g.k

/-- D of R164: slots in the data area, with facets of 2^shift bytes. -/
def Geom.slots (g : Geom) (shift : Nat) : Nat := g.dataFacets * 2 ^ (shift - 12)

/-- C of R164 for `d` slots. -/
def beamBlocks (d : Nat) : Nat := (d - 1) - ((d - 1) + 256) / 257

/-- S of R164. -/
def summarySlots (c : Nat) : Nat := (c + 255) / 256

/-- C of a geometry. -/
def Geom.blocks (g : Geom) (shift : Nat) : Nat := beamBlocks (g.slots shift)

/-- R265: redundancy, m or copies − 1. -/
def Geom.redundancy (g : Geom) : Nat := if g.mirror then g.m - 1 else g.m

/-- R166: the slot of facet `j` (data, then parity, or copy) in beam `b`. -/
def Geom.slotOf (g : Geom) (b j : Nat) : Nat := (b + j) % g.width

/-- R166: the facet on `slot` in beam `b`. -/
def Geom.facetOn (g : Geom) (b slot : Nat) : Nat := (slot + (g.width - b % g.width)) % g.width

/-- R168: the data facet and byte offset of data-area slot `s`. -/
def Geom.place (shift s : Nat) : Nat × Nat := (s / 2 ^ (shift - 12), s % 2 ^ (shift - 12) * 4096)

/-- R165, R177: data-area slot of data block `n`, and of its summary entry. -/
def blockSlot (n : Nat) : Nat := n + 1
def summarySlot (g : Geom) (shift n : Nat) : Nat :=
  g.slots shift - summarySlots (g.blocks shift) + n / 256

/-- R123: L = min(64, C). -/
def atomicLimitOf (c : Nat) : Nat := min 64 c

/-- R123: L of an array; during a reshape the smaller of the two geometries (Table 4.4). -/
def Arr.beamBlocks (x : Arr) : Nat :=
  match x.prev with
  | some p => min (x.geom.blocks x.shift) (p.blocks x.shift)
  | none => x.geom.blocks x.shift

def Arr.atomicLimit (x : Arr) : Nat := atomicLimitOf x.beamBlocks

/-- The atomic units of a range (R123): cut at every multiple of 64, then into parts of `l`. `fuel` bounds the parts. -/
def atomicUnits : Nat → Nat → Nat → Nat → List (Nat × Nat)
  | 0, _, _, _ => []
  | fuel + 1, l, lba, n =>
    if n = 0 then []
    else
      let piece := min n (64 - lba % 64)
      let rec parts : Nat → Nat → Nat → List (Nat × Nat)
        | 0, _, _ => []
        | f + 1, a, r => if r = 0 ∨ l = 0 then [] else (a, min l r) :: parts f (a + min l r) (r - min l r)
      parts 64 lba piece ++ atomicUnits fuel l (lba + piece) (n - piece)

/-! ### Survivors and reconstruction (R171 to R173) -/

/-- R172: the facets to read, with `erased` facets left out; none when the beam cannot be reconstructed. -/
def survivors (g : Geom) (erased : List Nat) : Option (List Nat) :=
  if g.mirror then ((List.range g.m).find? (fun f => !erased.contains f)).map ([·])
  else
    let live := (List.range g.width).filter (fun f => !erased.contains f)
    if g.k ≤ live.length then some (live.take g.k) else none

/-- R173: the content of facet `f` over a range from the survivors' content of that range. -/
def reconstructFacet (g : Geom) (len f : Nat) (have_ : List (Nat × List Byte)) : List Byte :=
  match have_.find? (fun e => e.1 == f) with
  | some e => e.2
  | none =>
    if g.mirror then (have_.head?.map (·.2)).getD []
    else
      let data := have_.filter (·.1 < g.k)
      let par := have_.filter (g.k ≤ ·.1)
      let lost := (List.range g.k).filter (fun i => !(data.any (·.1 == i)))
      let rows := par.map fun p =>
        (lost.map (fun i => coef (p.1 - g.k) i), xorBytes p.2 (parityOf (p.1 - g.k) len data))
      let sol := gfSolve lost.length (rows.take lost.length)
      let all := data ++ List.zip lost sol
      if f < g.k then ((all.find? (fun e => e.1 == f)).map (·.2)).getD []
      else parityOf (f - g.k) len all

/-! ### Summary entry (R177, Table 6.6) -/

def summaryEntry (kind vol lba : Nat) (crc : Word) (seq : Nat) : List Byte :=
  le 2 (vol % 2 ^ 14 + kind * 2 ^ 14) ++ le 6 lba ++ le 4 crc.toNat ++ le 4 seq

/-- A block as it is placed, with the summary entry made for it: kind 1 for a host block, 2 for a relocated one. -/
def Stored.of (kind vol lba seq : Nat) (data : Block) : Stored := { data := data, entry := summaryEntry kind vol lba (crc32c data) seq }

/-- R180: the check of a block against the 16 bytes of its summary entry. -/
def checkBlock (vol lba : Nat) (data entry : List Byte) : Bool :=
  let tag := unle (entry.take 2)
  let kind := tag / 2 ^ 14
  data.length == 4096 && entry.length == 16 && (kind == 1 || kind == 2) && tag % 2 ^ 14 == vol
    && unle ((entry.drop 2).take 6) == lba && (crc32c data).toNat == unle ((entry.drop 8).take 4)

/-- The entry of data block `n` in the 4 KiB of its summary slot (R177). -/
def entryIn (n : Nat) (slotBytes : List Byte) : List Byte := (slotBytes.drop (n % 256 * 16)).take 16

/-- Fields of a summary entry (Table 6.6): kind, volume, LBA, CRC-32C, seq_low. -/
def entryKind (e : List Byte) : Nat := unle (e.take 2) / 2 ^ 14
def entryVol (e : List Byte) : Nat := unle (e.take 2) % 2 ^ 14
def entryLba (e : List Byte) : Nat := unle ((e.drop 2).take 6)
def entryCrc (e : List Byte) : Word := BitVec.ofNat 32 (unle ((e.drop 8).take 4))
def entrySeqLow (e : List Byte) : Nat := unle ((e.drop 12).take 4)

/-- R178: the full write sequence of a host block. -/
def fullSeq (seqFirst seqLow : Nat) : Nat := seqFirst + (seqLow + 2 ^ 32 - seqFirst % 2 ^ 32) % 2 ^ 32

/-! ### Beam header (R175, Table 6.5) -/

structure Header where
  array : Nat
  mirror : Bool
  k : Nat
  m : Nat
  shift : Nat
  flags : Nat
  epoch : Nat
  inst : Nat
  beam : Nat
  seqFirst : Nat
  seqLast : Nat
  time : Nat
  blocks : Nat
  used : Nat
  slots : Nat
  deriving DecidableEq, Repr

/-- The first 0xFFC bytes. -/
def Header.body (h : Header) : List Byte :=
  fitBytes 0xFFC (le 4 0x4D414542 ++ le 2 1 ++ le 1 h.array ++ le 1 (b2n h.mirror) ++ le 1 h.k ++ le 1 h.m ++ le 1 h.shift
    ++ le 1 h.flags ++ le 4 h.epoch ++ le 8 h.inst ++ le 8 h.beam ++ le 8 h.seqFirst ++ le 8 h.seqLast ++ le 8 h.time
    ++ le 2 h.blocks ++ le 2 h.used ++ le 2 h.slots ++ le 2 0)

def Header.bytes (h : Header) : List Byte := h.body ++ le 4 (crc32c h.body).toNat

/-- A field of `n` bytes at `off`. -/
def fieldAt (b : List Byte) (off n : Nat) : Nat := unle ((b.drop off).take n)

/-- R176: the slot 0 read from beam `beam` of array `a` is valid. -/
def headerValid (a : Nat) (x : Arr) (beam : Nat) (b : List Byte) : Bool :=
  b.length == 4096 && fieldAt b 0 4 == 0x4D414542 && fieldAt b 4 2 == 1 && fieldAt b 0xFFC 4 == (crc32c (b.take 0xFFC)).toNat
    && fieldAt b 6 1 == a && fieldAt b 0x10 8 == x.inst && fieldAt b 0x18 8 == beam && decide (fieldAt b 0xC 4 ≤ x.geom.epoch)

/-! ### The content of a closed beam (R164, R177) -/

/-- Data blocks of a beam: (n, volume, LBA, sequence, bytes, relocated). -/
def Beam.blocks (b : Beam) : List (Nat × Nat × Nat × Nat × Block × Bool) :=
  b.items.filterMap fun i => match i with
    | .block n vol lba seq d src => some (n, vol, lba, seq, d.data, src.isSome)
    | .delta .. => none

/-- Write sequences of the host blocks of a beam. -/
def Beam.hostSeqs (b : Beam) : List Nat :=
  (b.blocks.filter (fun x => !x.2.2.2.2.2)).map (·.2.2.2.1)

def listMin (l : List Nat) : Nat := match l with | [] => 0 | a :: r => r.foldl min a
def listMax (l : List Nat) : Nat := l.foldl max 0

/-- R175: the header of a beam as it closes. -/
def beamHeader (a : Nat) (x : Arr) (g : Geom) (b : Beam) : Header :=
  { array := a, mirror := g.mirror, k := g.dataFacets, m := g.m, shift := x.shift
    flags := b2n b.byTimer + 2 * b2n b.swept
      + 4 * b2n (!b.blocks.isEmpty && b.hostSeqs.isEmpty)
    epoch := b.epoch, inst := x.inst, beam := b.num, seqFirst := listMin b.hostSeqs, seqLast := listMax b.hostSeqs
    time := b.time, blocks := g.blocks x.shift, used := b.blocks.length, slots := summarySlots (g.blocks x.shift) }

/-- The 4 KiB of data-area slot `s` of a beam (R164, R177). -/
def beamSlot (a : Nat) (x : Arr) (g : Geom) (b : Beam) (s : Nat) : Block :=
  let c := g.blocks x.shift
  let d := g.slots x.shift
  let sn := summarySlots c
  if s = 0 then (beamHeader a x g b).bytes
  else if s ≤ c then ((b.blocks.find? (fun e => e.1 + 1 == s)).map (·.2.2.2.2.1)).getD (List.replicate 4096 0)
  else if d - sn ≤ s then
    (List.range 256).flatMap fun i =>
      match b.blocks.find? (fun e => e.1 == (s - (d - sn)) * 256 + i) with
      | some e => summaryEntry (if e.2.2.2.2.2 then 2 else 1) e.2.1 e.2.2.1 (crc32c e.2.2.2.2.1) e.2.2.2.1
      | none => List.replicate 16 0
  else List.replicate 4096 0

/-- The bytes of data facet `i` (or of every mirror copy, `i` = 0). -/
def beamData (a : Nat) (x : Arr) (g : Geom) (b : Beam) (i : Nat) : List Byte :=
  let per := 2 ^ (x.shift - 12)
  (List.range per).flatMap fun j => beamSlot a x g b (i * per + j)

/-- The bytes of facet `f`: data, parity (R169) or copy. -/
def beamFacet (a : Nat) (x : Arr) (g : Geom) (b : Beam) (f : Nat) : List Byte :=
  if g.mirror then beamData a x g b 0
  else if f < g.k then beamData a x g b f
  else parityOf (f - g.k) (2 ^ x.shift) ((List.range g.k).map fun i => (i, beamData a x g b i))

/-- R188: the beam digest. -/
def beamDigest (a : Nat) (x : Arr) (g : Geom) (b : Beam) : List Word :=
  if g.mirror then [crc32c (beamData a x g b 0)] else (List.range g.width).map fun f => crc32c (beamFacet a x g b f)

/-! ### The stream's view of a beam (R381, R383) -/

/-- An item as the stream carries it. -/
def Item.delta_ (i : Item) : MapDelta :=
  match i with
  | .block n vol lba seq d src => .block n vol lba seq (crc32c d.data) (src.map fun l => (l.array, l.beam, l.block))
  | .delta vol lba len zero seq after => .range vol lba len zero seq after

/-- The checksum of a beam's map deltas: CRC-32C over their fields, laid out as below (log entry 60). -/
def deltaChecksum (l : List MapDelta) : Word :=
  crc32c (l.flatMap fun d => match d with
    | .block n vol lba seq crc _ => le 2 vol ++ le 6 lba ++ le 2 n ++ le 8 seq ++ le 4 crc.toNat
    | .range vol lba len zero seq _ => le 2 vol ++ le 6 lba ++ le 4 len ++ le 1 (b2n zero) ++ le 8 seq)

/-! ### Map entries (R208) -/

def mapEntry (l : Loc) : Quad := BitVec.ofNat 64 (l.array % 64 * 2 ^ 58 + l.beam % 2 ^ 36 * 2 ^ 22 + l.block % 2 ^ 14 * 2 ^ 8 + 1)
def entryMapped (e : Quad) : Bool := e.getLsbD 0
def entryZero (e : Quad) : Bool := e.getLsbD 1
def entryDark (e : Quad) : Bool := e.getLsbD 2
def entryLoc (e : Quad) : Loc := ⟨bits e.toNat 63 58, bits e.toNat 57 22, bits e.toNat 21 8⟩

/-! ### Members of an array (R265, R313) -/

/-- R259, R313: platter members are 0x7E8 to 0x7FF, one to a Lens channel. -/
def isPlatter (m : Nat) : Bool := 0x7E8 ≤ m && m ≤ 0x7FF

/-- Slots of a geometry held by FAILED members, and by ABSENT or SLOW ones. -/
def Geom.failedSlots (s : Dev) (g : Geom) : Nat := (g.members.filter fun m => (s.mem m).st == .failed).length
def Geom.awaySlots (s : Dev) (g : Geom) : Nat :=
  (g.members.filter fun m => (s.mem m).st == .absent || (s.mem m).st == .slow).length
def Geom.down (s : Dev) (g : Geom) : Nat := g.failedSlots s + g.awaySlots s

/-- The geometries in use: the current one, and the previous one while a segment of it is not FREE. -/
def Arr.inUse (x : Arr) : List Geom :=
  match x.prev with
  | some p => if x.seg.any fun e => e.2.st != .free && decide (e.2.epoch ≤ p.epoch) then [x.geom, p] else [x.geom]
  | none => [x.geom]

def beyond (s : Dev) (x : Arr) : Bool := decide (x.geom.redundancy < x.geom.down s)

def critical (s : Dev) (x : Arr) : Bool :=
  x.inUse.any fun g => (decide (1 ≤ g.redundancy) && g.down s == g.redundancy) || (g.mirror && g.m - g.down s == 1)

end Sys2Proof.Machine
end

