-- ==== Sys2Proof/Machine/Operands.lean ====
section
/-!
DEFINITION. Operand forms: the fields of a submission entry (Table 3.2), its opcode words, ranges and data descriptor
(R74, R101), and the checks before a command starts (R97 to R100).
-/

namespace Sys2Proof.Machine

/-- Field `[lo, lo + n)` of an entry. -/
def field (raw : BitVec 512) (lo n : Nat) : Nat := (raw.extractLsb' lo n).toNat

/-- Table 14.2: line_length and line_count of a copy descriptor, and the bytes it moves. -/
def dLine (d : BitVec 512) : Nat := field d 128 24
def dLines (d : BitVec 512) : Nat := field d 160 16
def dTotal (d : BitVec 512) : Nat := dLine d * dLines d

def eOpcode (raw : BitVec 512) : Nat := field raw 0 8
def eClass (raw : BitVec 512) : Nat := field raw 8 2
def eFence (raw : BitVec 512) : Bool := raw.getLsbD 10
def eFua (raw : BitVec 512) : Bool := raw.getLsbD 11
def eOrdered (raw : BitVec 512) : Bool := raw.getLsbD 12
def eCid (raw : BitVec 512) : Half := raw.extractLsb' 16 16
def eVolume (raw : BitVec 512) : Nat := field raw 32 14
def eRingIndex (raw : BitVec 512) : Nat := field raw 48 16
def eLba (raw : BitVec 512) : Nat := field raw 64 48
def eNblk (raw : BitVec 512) : Nat := field raw 112 16
def eDdAddr (raw : BitVec 512) : Nat := field raw 128 64
def eDdLen (raw : BitVec 512) : Nat := field raw 192 32
def eDdType (raw : BitVec 512) : Nat := field raw 248 8
/-- Opcode word `i` (R99). -/
def eWord (raw : BitVec 512) (i : Nat) : Nat := field raw (256 + 32 * i) 32
/-- COPY's source (Table 4.2). -/
def eSrcVolume (raw : BitVec 512) : Nat := eWord raw 0 % 2 ^ 14
def eSrcLba (raw : BitVec 512) : Nat := eWord raw 1 + 2 ^ 32 * (eWord raw 2 % 2 ^ 16)

/-- Host opcodes (Table 4.2). -/
def opRead := 0x01
def opWrite := 0x02
def opFlush := 0x03
def opTrim := 0x04
def opZeroes := 0x05
def opCopy := 0x06
def opFence := 0x07
def opAbort := 0x08
def opQuery := 0x09

def isAdminOp (op : Nat) : Bool := 0x80 ≤ op && op ≤ 0x97
def isHostOp (op : Nat) : Bool := 0x01 ≤ op && op ≤ 0x09

/-- Table 4.5, column In MIRROR. -/
def mirrorAllows (op : Nat) : Bool :=
  op == 0x80 || op == 0x81 || (0x90 ≤ op && op ≤ 0x94)

/-- Opcodes that use volume, LBA and NBLK as a range (Table 4.2). -/
def usesRange (raw : BitVec 512) : Bool :=
  let op := eOpcode raw
  op == opRead || op == opWrite || op == opTrim || op == opZeroes || op == opCopy || (op == opQuery && eWord raw 0 % 256 == 1)

/-- Commands that change blocks. -/
def changesBlocks (op : Nat) : Bool := op == opWrite || op == opTrim || op == opZeroes || op == opCopy

/-- Ranges for the hazard check (R111, R113): volume, first block, end. A range above 4,096 blocks covers its volume. -/
def hazardRanges (raw : BitVec 512) : List (Nat × Nat × Nat) :=
  let op := eOpcode raw
  let n := eNblk raw
  let one (v lba : Nat) : Nat × Nat × Nat := if n ≤ 4096 then (v, lba, lba + n) else (v, 0, 2 ^ 49)
  if op == opCopy then [one (eVolume raw) (eLba raw), one (eSrcVolume raw) (eSrcLba raw)]
  else if op == opRead || op == opWrite || op == opTrim || op == opZeroes then [one (eVolume raw) (eLba raw)]
  else []

def rangesOverlap (a b : Nat × Nat × Nat) : Bool := a.1 == b.1 && decide (a.2.1 < b.2.2) && decide (b.2.1 < a.2.2)

/-- R111. -/
def overlaps (a b : BitVec 512) : Bool := (hazardRanges a).any fun x => (hazardRanges b).any fun y => rangesOverlap x y

/-! ### Data descriptor (R74, R101) -/

/-- Segments as (address, length). -/
def segments (raw : BitVec 512) (s : SegRead) : List (Nat × Nat) :=
  if eDdType raw = 1 then
    match s with
    | .list l => l.map fun e => (e.1.toNat, e.2.toNat)
    | _ => []
  else [(eDdAddr raw, eDdLen raw)]

/-- Total descriptor length. -/
def ddTotal (raw : BitVec 512) (s : SegRead) : Nat := ((segments raw s).map (·.2)).sum

/-- The pieces of the buffer that hold bytes `[off, off + len)`, in list order; an entry of length 0 is skipped. -/
def bufferPieces : List (Nat × Nat) → Nat → Nat → List (Nat × Nat)
  | [], _, _ => []
  | (a, l) :: r, off, len =>
    if len = 0 then []
    else if l ≤ off then bufferPieces r (off - l) len
    else
      let n := min (l - off) len
      (a + off, n) :: bufferPieces r 0 (len - n)

/-- Write bytes at an offset of the buffer: one memory write a piece. -/
def bufferWrite (f : Fn) (raw : BitVec 512) (sg : SegRead) (off : Nat) (b : List Byte) (s : Dev) : Dev :=
  ((bufferPieces (segments raw sg) off b.length).foldl (fun (acc : Dev × List Byte) p =>
    (sendData f p.1 (acc.2.take p.2) acc.1, acc.2.drop p.2)) (s, b)).1

/-- Ask for bytes of the buffer: one memory read a piece. -/
def bufferRead (f : Fn) (raw : BitVec 512) (sg : SegRead) (off len : Nat) (s : Dev) : Dev :=
  (bufferPieces (segments raw sg) off len).foldl (fun s p => readData f p.1 p.2 s) s

/-- Opcodes that move data to or from the host buffer. -/
def movesData (op : Nat) : Bool := op == opRead || op == opWrite || op == opQuery

/-- Length a command needs of its buffer; for QUERY the record's (Table 4.3). -/
def neededLength (raw : BitVec 512) : Nat :=
  if eOpcode raw == opQuery then
    (if eWord raw 0 % 256 == 0 then 64 else roundUp (cdiv (eNblk raw) 8) 4)
  else eNblk raw * 4096

/-! ### Check 2 of Table 4.1 (R73, R74, R98 to R100, R103) -/

/-- Flags allowed (Table 4.2), bits: 0 FENCE, 1 FUA, 2 ORDERED. -/
def allowedFlags (op : Nat) : Nat :=
  if op == opRead then 3
  else if op == opWrite || op == opTrim || op == opZeroes || op == opCopy then 7
  else if op == opFlush || op == opFence || op == opQuery then 1
  else 0

/-- The lowest-addressed field found invalid, as its byte offset (R98); none when every field is valid. -/
def badField (raw : BitVec 512) : Option Nat :=
  let op := eOpcode raw
  let admin := isAdminOp op
  let flags := b2n (eFence raw) + 2 * b2n (eFua raw) + 4 * b2n (eOrdered raw)
  let badFlags := !admin && (flags &&& allowedFlags op) != flags
  let lenBad := if eDdType raw == 1 then eDdLen raw == 0 || decide (65535 < eDdLen raw) else eDdLen raw % 4 != 0
  let addrBad := if eDdType raw == 1 then eDdAddr raw % 16 != 0 else eDdAddr raw % 4 != 0
  let wbad (i hi : Nat) : Bool := hi ≤ eWord raw i
  let copyWide := op == opCopy && eVolume raw == eSrcVolume raw && decide (16384 < eNblk raw)
    && rangesOverlap (0, eLba raw, eLba raw + eNblk raw) (0, eSrcLba raw, eSrcLba raw + eNblk raw)
  let checks : List (Bool × Nat) :=
    [ (field raw 13 3 != 0 || eClass raw == 3 || badFlags, 0x01),
      (field raw 46 2 != 0, 0x05),
      (usesRange raw && eNblk raw == 0 || copyWide, 0x0E),
      (movesData op && addrBad && decide (eDdType raw ≤ 1), 0x10),
      (movesData op && lenBad && decide (eDdType raw ≤ 1), 0x18),
      (field raw 224 24 != 0, 0x1C),
      (movesData op && decide (1 < eDdType raw), 0x1F),
      (op == opWrite && wbad 0 2 || op == opFlush && wbad 0 2 || op == opCopy && wbad 0 (2 ^ 14)
        || op == opAbort && wbad 0 1024 || op == opQuery && wbad 0 2, 0x20),
      (op == opAbort && wbad 1 65536, 0x24),
      (op == opCopy && wbad 2 65536, 0x28) ]
  (checks.find? (·.1)).map (·.2)

/-! ### Volumes and arrays in the checks -/

/-- R265 to R267: the array cannot serve: it is OFFLINE, or it has left OFFLINE and recovery steps that waited for it, or the units kept,
are not through. -/
def Dev.arrayOffline (s : Dev) (a : Nat) : Bool :=
  match s.arr? a with
  | some x => x.offline != 0 || (x.recovery.isSome && !s.pw.recovering.contains a) || (x.returning && !x.keptUnits.isEmpty)
  | none => true

/-- Volumes a command names (R97 check 4). -/
def namedVolumes (raw : BitVec 512) : List Nat :=
  let op := eOpcode raw
  if op == opCopy then [eVolume raw, eSrcVolume raw]
  else if op == opRead || op == opWrite || op == opTrim || op == opZeroes || op == opQuery then [eVolume raw]
  else if op == opFlush && eWord raw 0 % 2 == 1 then [eVolume raw]
  else []

/-- R139, R97 check 9: blocks allocated over a tenant's volumes. -/
def Dev.tenantBlocks (s : Dev) (t : Nat) : Nat :=
  ((s.vols.filter fun e => e.2.tenant == t).map fun e => e.2.allocated).sum

/-- R208: the entry counts as allocated. -/
def allocatedEntry (e : Quad) : Bool := entryMapped e || entryZero e

/-- Blocks of a range that are allocated now: a dark block is not (R208). -/
def mappedIn (v : Vol) (lba n : Nat) : Nat :=
  (v.map.filter fun e => decide (lba ≤ e.1) && decide (e.1 < lba + n) && allocatedEntry e.2).length

/-- A failed check: status, qualifier, result word. -/
abbrev Reject := Nat × Nat × Nat

/-- Check 4 (R49, R50, R103). -/
def checkOwner (s : Dev) (f : Fn) (raw : BitVec 512) : Option Reject :=
  let vs := namedVolumes raw
  if s.isAdmin f then
    if vs.any (fun v => (s.vol? v).isNone) then some (0x0B, 0x01, 0)
    else
      match vs with
      | [a, b] => if (s.vol? a).map (·.tenant) != (s.vol? b).map (·.tenant) then some (0x0B, 0x02, 0) else none
      | _ => none
  else
    if vs.any (fun v => (s.vol? v).map (·.tenant) != (s.fnS f).bound || (s.fnS f).bound.isNone) then some (0x0B, 0x00, 0)
    else none

/-- Check 5: isolation, and array, volume and key states. -/
def checkState (s : Dev) (f : Fn) (raw : BitVec 512) : Option Reject :=
  let op := eOpcode raw
  let io := op == opRead || changesBlocks op
  let vs := (namedVolumes raw).filterMap s.vol?
  if !s.isAdmin f && isolatedFn s f then some (0x05, 0x16, 0)
  else if io && vs.any (fun v => s.arrayOffline v.array) then some (0x05, 0x10, 0)
  else if vs.any (fun v => v.st == .deleting) then some (0x05, 0x15, 0)
  else if io && vs.any (fun v => v.key.isNone) then some (0x05, 0x17, 0)
  else none

/-- Bits of a word outside a mask: "bits not given a meaning must be 0" (R97 check 2, R99; log entry 17). -/
def stray (raw : BitVec 512) (i mask : Nat) : Bool := (eWord raw i &&& mask) != eWord raw i

/-- The form of a descriptor that an admin command uses. -/
def adminDescField (raw : BitVec 512) : Option Nat :=
  let list := eDdType raw == 1
  if 1 < eDdType raw then some 0x1F
  else if eDdAddr raw % (if list then 16 else 4) ≠ 0 then some 0x10
  else if (if list then eDdLen raw == 0 || decide (65535 < eDdLen raw) else eDdLen raw % 4 != 0) then some 0x18
  else if field raw 224 24 ≠ 0 then some 0x1C
  else none

/-- A geometry as opcode words give it: scheme, k, m, facet shift; the members come from the table. -/
def wordGeom (mirror : Bool) (k m : Nat) : Geom := { mirror := mirror, k := k, m := m, members := [], epoch := 1 }

/-- R192, qualifier 0x24: the limits of Table 6.1. -/
def geomOk (g : Geom) (shift : Nat) : Bool :=
  (if g.mirror then g.k == 0 && (g.m == 2 || g.m == 3)
   else decide (2 ≤ g.k) && decide (g.k ≤ 64) && decide (1 ≤ g.m) && decide (g.m ≤ 4) && decide (g.k * 2 ^ shift ≤ 64 * 2 ^ 20))
  && decide (g.width ≤ 68) && decide (14 ≤ shift) && decide (shift ≤ 20)

/-- The lowest-addressed field of TENANT_SET found invalid. -/
def tenantField (raw : BitVec 512) : Option Nat :=
  if stray raw 0 0x80000FFF then some 0x20
  else if stray raw 2 0xFFFF || (eWord raw 1 != 0 && eWord raw 2 == 0) then some 0x28
  else if eWord raw 3 != 0 && eWord raw 4 == 0 then some 0x30
  else if stray raw 5 0xFFFF || bits (eWord raw 5) 7 0 == 0 || bits (eWord raw 5) 15 8 == 0 then some 0x34
  else none

/-- Opcode words of the admin opcodes that a MIRROR refuses, with the bits that have a meaning. -/
def adminMasks (op : Nat) : List (Nat × Nat) :=
  match op with
  | 0x82 => [(0, 0x3F3FFF), (1, 0xFFF), (4, 1)]
  | 0x83 | 0x84 => [(0, 0x3FFF)]
  | 0x85 => [(0, 0x101)]
  | 0x86 => [(0, 0x33F), (1, 0x1F07FF)]
  | 0x87 => [(0, 0x3F)]
  | 0x88 => [(0, 0x313F), (1, 0x7FF)]
  | 0x89 => [(0, 0x333F)]
  | 0x8A => [(0, 0xF7FF)]
  | 0x8C => [(0, 0x800007FF)]
  | 0x8D | 0x8E => [(0, 0xFFF)]
  | 0x8F => [(0, 0x33FFF)]
  | 0x95 => [(2, 0xFFFF), (3, 0x800007FF)]
  | 0x96 => [(0, 0x80000FFF)]
  | _ => []

/-- Check 2 for the descriptor and the opcode words of an admin opcode, as far as the entry alone shows: the lowest-addressed field at
fault. -/
def adminBadWord (raw : BitVec 512) : Option Nat :=
  let op := eOpcode raw
  let w (i : Nat) : Nat := eWord raw i
  let cap := w 2 + 2 ^ 32 * w 3
  let bad (i : Nat) : Bool := (adminMasks op).any (fun e => e.1 == i && stray raw i e.2)
  let shift := if bits (w 1) 20 16 = 0 then 17 else bits (w 1) 20 16
  let geom (sh : Nat) : Bool := !geomOk (wordGeom (bit (w 0) 8) (bits (w 1) 7 0) (bits (w 1) 10 8)) sh
  let starts := op == 0x88 && (bits (w 0) 13 12 == 0 || bits (w 0) 13 12 == 3)
  let binds := op == 0x8C && !bit (w 0) 31
  let limit := if bits (w 0) 10 4 = 0 then 1024 else 64
  let checks : List (Bool × Nat) :=
    [ (bad 0 || (op == 0x88 || op == 0x89) && bits (w 0) 13 12 == 3 || op == 0x8A && decide (5 ≤ bits (w 0) 15 12)
        || op == 0x89 && decide (2 ≤ bits (w 0) 9 8) || op == 0x95 && w 0 % 4096 != 0
        || op == 0x8C && decide (64 < bits (w 0) 10 4), 0x20),
      (if op == 0x88 then starts && (bad 1 || geom 17) else bad 1 || op == 0x86 && geom shift || binds && stray raw 1 0xFFF, 0x24),
      (bad 2 || binds && (w 2 == 0 || decide (limit < w 2)) || (op == 0x82 || op == 0x84) && (cap == 0 || decide (2 ^ 48 < cap))
        || op == 0x97 && decide (1000000000 ≤ w 2), 0x28),
      (bad 3, 0x2C), (bad 4, 0x30) ]
  (if op == 0x86 || starts then adminDescField raw else none)
    <|> (if op == 0x8B && !bit (w 0) 31 then tenantField raw else (checks.find? (·.1)).map (·.2))

/-- Check 3: the mode (R110). Where it refuses an admin opcode, the words of that have been checked before (check 2); otherwise they are
checked as the command runs, with what its own rule adds. -/
def checkMode (s : Dev) (raw : BitVec 512) : Option Reject :=
  let op := eOpcode raw
  let vol := op == opRead || changesBlocks op || op == opFlush
  if s.inMode .mirror && isAdminOp op && !mirrorAllows op then
    some (((adminBadWord raw).map fun o => (0x02, o, 0)).getD (0x05, 0x02, 0))
  else if s.inMode .mirror && vol then some (0x05, 0x02, 0)
  else if s.inMode .focus && vol then some (0x05, 0x01, 0)
  else none

/-- Checks 6 to 9. Where both ranges of a COPY exceed their volumes, that of its destination is reported (DESIGN CHOICE, log entry 75). -/
def checkRange (s : Dev) (raw : BitVec 512) : Option Reject :=
  let op := eOpcode raw
  match s.vol? (eVolume raw) with
  | none => none
  | some v =>
    let n := eNblk raw
    let limit := ((s.arr? v.array).map Arr.atomicLimit).getD 0
    if usesRange raw && decide (v.capacity < eLba raw + n) then some (0x04, 0x00, 0)
    else if op == opCopy && decide (((s.vol? (eSrcVolume raw)).map (·.capacity)).getD 0 < eSrcLba raw + n) then
      some (0x04, 0x01, 0)
    else if op == opWrite && eWord raw 0 % 2 == 1
        && (decide (limit < n) || eLba raw / 64 != (eLba raw + n - 1) / 64) then some (0x10, 0x00, limit)
    else if changesBlocks op && v.readOnly then some (0x0C, 0x01, 0)
    else if (op == opWrite || op == opZeroes || op == opCopy) && (s.ten v.tenant).quota != 0
        && decide ((s.ten v.tenant).quota < s.tenantBlocks v.tenant + (n - mappedIn v (eLba raw) n)) then
      some (0x0F, 0x03, 0)
    else none

/-- Check 10 (R101). A segment-list entry whose address or length is no multiple of 4 gives INVALID_FIELD at dd_address, 0x10, before the
length is judged: R74 and R98 give it neither qualifier nor place (DESIGN CHOICE, log entry 75). -/
def checkBuffer (raw : BitVec 512) (sg : SegRead) : Option Reject :=
  if !movesData (eOpcode raw) then none
  else if eDdType raw = 1 ∧ sg = .unreadable then some (0x0E, 0x01, 0)
  else if (segments raw sg).any (fun e => e.1 % 4 != 0 || e.2 % 4 != 0) then some (0x02, 0x10, 0)
  else if ddTotal raw sg < neededLength raw then some (0x03, 0x00, min (ddTotal raw sg) 0xFFFFFFFF)
  else none

/-- Check 1 (R106). -/
def checkOpcode (s : Dev) (f : Fn) (q : Nat) (raw : BitVec 512) : Option Reject :=
  let op := eOpcode raw
  let adminQ := s.isAdmin f && q == 0
  if isAdminOp op then (if adminQ then none else some (0x01, 0x01, 0))
  else if isHostOp op then
    (if adminQ && !(op == opFence || op == opAbort || op == opQuery) then some (0x01, 0x02, 0) else none)
  else some (0x01, 0x00, 0)

/-- R97: the checks of Table 4.1 in order; for admin opcodes only 1 to 3. -/
def checkEntry (s : Dev) (f : Fn) (q : Nat) (raw : BitVec 512) (sg : SegRead) : Option Reject :=
  checkOpcode s f q raw <|> ((badField raw).map fun o => (0x02, o, 0)) <|> checkMode s raw
    <|> (if isAdminOp (eOpcode raw) then none
         else checkOwner s f raw <|> checkState s f raw <|> checkRange s raw <|> checkBuffer raw sg)

end Sys2Proof.Machine
end

