-- ==== Sys2Proof/Machine/Ring.lean ====
section
/-!
DEFINITION. Ring positions (R77), completion writing, coalescing and the overflow store (R80, R81, R87, R88), metering of a
completion (R150), hold-up certification (R243, R245, R246) and durability (R115, R119), consumption of entries (R76, R97), hazards and
fences (R111 to R113, R120 to R122).
-/

namespace Sys2Proof.Machine

/-! ### Positions (R77); `d` is the depth, positions are 17 bits -/

def rPos (d v : Nat) : Nat := v / 65536 * d + v % 65536
def rCount (d h t : Nat) : Nat := (rPos d t + 2 * d - rPos d h) % (2 * d)
def rNext (d v : Nat) : Nat := if v % 65536 = d - 1 then (if v / 65536 % 2 = 0 then 65536 else 0) else v + 1

/-- R78: the doorbell value is acceptable for a ring of depth `d`: bits 31:17 zero, index below d, count within d. -/
def tailOk (d head v : Nat) : Bool := v < 131072 && v % 65536 < d && rCount d head v ≤ d

/-- R79. -/
def headOk (d head tail v : Nat) : Bool := v < 131072 && v % 65536 < d && rCount d v tail ≤ rCount d head tail

def QState.sqDepth (x : QState) : Nat := x.sqDepthM1 + 1
def QState.cqDepth (x : QState) : Nat := x.cqDepthM1 + 1
def QState.sqCount (x : QState) : Nat := rCount x.sqDepth x.sqHead x.sqTail
def QState.cqUsed (x : QState) : Nat := rCount x.cqDepth x.cqHead x.cqTail
def QState.cqFree (x : QState) : Bool := x.cqUsed < x.cqDepth

/-- `q[n]` counters live under the queue's slot (Table 3.8). -/
def bumpQ (f : Fn) (n fam : Nat) (s : Dev) : Dev :=
  match (s.q f n).slot with
  | some k => s.bump fam k
  | none => s

/-! ### Fetch (R82, R86, R88, R113, R128) -/

/-- The CQ an SQ posts to. -/
def Dev.boundCq (s : Dev) (f : Fn) (n : Nat) : QState := s.q f (s.q f n).boundCq

/-- R35, R36: a transition is in progress: a mode change, tie, takeover or its guard, SWAP, resynchronisation, or a firmware activation. -/
def Dev.transiting (s : Dev) : Bool :=
  s.pw.trans.isSome || s.pr.guarding || s.pr.resync.isSome || s.fw.activating.isSome

/-- A transition that stops fetch. -/
def Dev.fetchHeld (s : Dev) : Bool :=
  match s.pw.trans with
  | none => false
  | some (.tie src _) => src == .lead || src == .mirror
  | some (.swapAsked _) => false
  | some _ => true

/-- The mode and the device-wide stops allow fetch. In FOCUS and MIRROR fetch continues and refuses I/O (R110). -/
def Dev.fetchAllowed (s : Dev) : Bool :=
  s.working && !s.pw.fetchStopped && s.fw.activating.isNone && !s.fetchHeld && !s.pr.guarding && !s.pc.quiet

/-- Commands in flight may go on and complete. A dump without entry to ECLIPSE stops them as well (R461). -/
def Dev.executing (s : Dev) : Bool := s.working && !s.contending && !s.pc.quiet

/-- A soft reset is under way (R127). -/
def Dev.softResetting (s : Dev) : Bool := match s.pw.trans with | some (.softReset _) => true | _ => false

/-- R31, R33: host commands in flight may go on; not even during the destage of R33 do they in ECLIPSE, and none does while the
firmware restarts. -/
def Dev.hostRuns (s : Dev) : Bool := s.executing && !s.inMode .eclipse && !s.softResetting

/-- Fetch and inline acceptance run on this SQ. -/
def Dev.sqRuns (s : Dev) (f : Fn) (n : Nat) : Bool :=
  s.fetchAllowed && (s.q f n).sqState == .active && (s.boundCq f n).cqState == .active

/-- Commands of one SQ in flight. -/
def Dev.ctxsOf (s : Dev) (f : Fn) (n : Nat) : List Ctx := s.cm.ctxs.filter fun c => c.fn == f && c.q == n

/-- R113: room for `k` more commands of the SQ. -/
def Dev.room (s : Dev) (f : Fn) (n k : Nat) : Bool :=
  (s.ctxsOf f n).length + k ≤ 256 && s.cm.ctxs.length + k ≤ 65536

/-! ### Completion entries (R75, R80, R81) -/

/-- The 16 bytes of an entry at position `cq.cqTail` (Table 3.3). -/
def cqeBytes (sqHead : Nat) (tail : Nat) (e : Cqe) : List Byte :=
  le 4 e.result ++ le 2 e.cid.toNat ++ le 2 (sqHead % 65536)
    ++ le 4 (e.status % 256 + 256 * (e.qual % 256) + 65536 * (e.sq % 4096) + 2 ^ 28 * (sqHead / 65536 % 2)
        + 2 ^ 31 * (1 - tail / 65536 % 2))
    ++ le 4 0

/-- R81: a message is due when the count or time of coalescing is reached. -/
def signal (f : Fn) (n : Nat) (s : Dev) : Dev :=
  let x := s.q f n
  raiseVector f x.vector (s.setQ f n { x with unsignalled := 0 })

/-- An entry is written: from here on the command has completed. A status other than OK is remembered for fences (R121, R122), a write
is one that a later FLUSH covers (R117), and a FENCE_FAILED is counted. -/
def noteCompletion (f : Fn) (e : Cqe) (s : Dev) : Dev :=
  let l := tget s.cm.failLog (packFn f) [] ++ [(e.stamp, s.cm.nextStamp)]
  let s := if e.status = 0 then s else { s with cm := { s.cm with failLog := tset s.cm.failLog (packFn f) l [] } }
  let s := if e.status = 0x0D then s.bump Fam.cmdFenceFailed else s
  match e.record with
  | some k => { s with cm := { s.cm with writes := s.cm.writes.map fun w => if w.id = k then { w with written := true } else w } }
  | none => s

/-- R80: write one entry at cq_tail. -/
def writeCqe (f : Fn) (n : Nat) (e : Cqe) (s : Dev) : Dev :=
  let s := noteCompletion f e s
  let x := s.q f n
  let s := sendRing f (x.cqBase.toNat + 16 * (x.cqTail % 65536)) (cqeBytes (s.q f e.sq).sqHead x.cqTail e) s
  let u := if x.irqEn then x.unsignalled + 1 else 0
  let s := s.setQ f n { x with cqTail := rNext x.cqDepth x.cqTail, unsignalled := u }
  if x.irqEn && (x.coalTime == 0 || decide (max 1 x.coalCount ≤ u)) then signal f n s else s

/-- R88: the store holds 32 completions. -/
def stallCq (f : Fn) (n : Nat) (s : Dev) : Dev :=
  let x := s.q f n
  bumpQ f n Fam.qCqStalls (s.setQ f n { x with cqState := .stalled })

/-- Drop a command from the contexts. -/
def dropCtx (id : Nat) (s : Dev) : Dev :=
  { s with cm := { s.cm with ctxs := s.cm.ctxs.filter (fun c => c.id != id), irisQ := s.cm.irisQ.filter (· != id) } }

/-- Put an entry into the overflow store (R87), which stalls an ACTIVE CQ at 32 (R88). -/
def storeCqe (f : Fn) (n : Nat) (e : Cqe) (s : Dev) : Dev :=
  let x := s.q f n
  let s := s.setQ f n { x with overflow := x.overflow ++ [e] }
  let k := x.overflow.length + 1
  let s := match x.slot with
    | some j => if s.val Fam.qOverflowPeak j < k then s.setVal Fam.qOverflowPeak j k else s
    | none => s
  if 32 ≤ k ∧ x.cqState = .active then stallCq f n s else s

/-- R81, R87, R88: the completion of command `id` becomes ready on CQ `n`. A command whose completion has entered the overflow store counts
as completed for hazards (R112) and for the limits of R113 (DESIGN CHOICE, log entry 75): R87 writes the store in order before anything
newer, so no overlapping command's entry passes it. -/
def postCqe (f : Fn) (n id : Nat) (e : Cqe) (s : Dev) : Dev :=
  let x := s.q f n
  if x.cqState = .absent then dropCtx id s
  else if x.overflow.isEmpty && x.parked.isEmpty && x.cqFree then dropCtx id (writeCqe f n e s)
  else if x.overflow.length < 32 then dropCtx id (storeCqe f n e s)
  else
    (s.setQ f n { x with parked := x.parked ++ [(id, e)] }).modCtx id (fun c => { c with phase := .ended })

/-- R88: completions that wait in their commands' contexts are taken back: those commands are outstanding, and how they ended is kept
with them. The completion of an entry never fetched stays what it is (R89). -/
def unpark (f : Fn) (n : Nat) (p : Cqe → Bool) (s : Dev) : Dev :=
  let x := s.q f n
  let back (e : Nat × Cqe) : Bool := p e.2 && !((s.ctx? e.1).map (·.unfetched)).getD false
  (x.parked.filter back).foldl (fun s e => s.modCtx e.1 fun c => { c with ended := some (e.2.status, e.2.qual) })
    (s.setQ f n { x with parked := x.parked.filter fun e => !back e })

/-- One step of the drain of R87 and R88; `fuel` bounds the steps. -/
def drainCq : Nat → Fn → Nat → Dev → Dev
  | 0, _, _, s => s
  | k + 1, f, n, s =>
    let x := s.q f n
    match x.overflow with
    | [] => if x.cqState = .stalled ∧ x.parked = [] then s.setQ f n { x with cqState := .active } else s
    | e :: r =>
      if x.cqFree then
        let s := writeCqe f n e (s.setQ f n { x with overflow := r })
        let y := s.q f n
        let s := match y.parked with
          | [] => s
          | (id, e') :: ps => dropCtx id (s.setQ f n { y with overflow := y.overflow ++ [e'], parked := ps })
        drainCq k f n s
      else s

/-! ### Metering (R138, R150) -/

/-- Blocks made new by a command (R150). -/
def newBlocks (c : Ctx) : Nat :=
  ((c.units.filter fun p => match p.st with | .placed .. => true | .committed => true | _ => false).map (·.len)).sum

/-- R150: a command passes the meter stage with its status. -/
def meterCompletion (c : Ctx) (status result : Nat) (s : Dev) : Dev :=
  match c.tenant with
  | none => s
  | some t =>
    let x := s.ten t
    if !x.defined || s.inMode .eclipse then s
    else
      let op := eOpcode c.raw
      let rd := if op == opRead then
          (if status = 0x00 ∨ status = 0x09 ∨ status = 0x0A then eNblk c.raw else if status = 0x0E then result else 0)
        else 0
      let wr := if op == opWrite || op == opZeroes || op == opCopy then newBlocks c else 0
      let w := 2 ^ 64
      s.setTen t { x with
        blocksRead := (x.blocksRead + rd) % w
        blocksWritten := (x.blocksWritten + wr) % w
        commands := (x.commands + b2n (decide (eClass c.raw ≤ 2))) % w
        c0Commands := (x.c0Commands + b2n (c.passed && c.cls == 0 && !c.demoted)) % w }

/-- R150: blocks passed through the AES-256-XTS engine. -/
def meterEnc (t n : Nat) (s : Dev) : Dev :=
  let x := s.ten t
  if x.defined && !s.inMode .eclipse then s.setTen t { x with encBlocks := (x.encBlocks + n) % 2 ^ 64 } else s

/-- R145, R147: the command carries the class-0 bound, and its conditions hold now. -/
def bounded (s : Dev) (c : Ctx) : Bool :=
  let op := eOpcode c.raw
  match (s.vol? (eVolume c.raw)).bind fun v => s.arr? v.array with
  | none => false
  | some x =>
    (op == opRead || op == opWrite) && eNblk c.raw == 1 && c.passed && c.cls == 0 && !c.demoted
      && (s.inMode .solo || s.inMode .lead) && s.fw.activating.isNone && s.pw.sagPct == 100 && s.pw.thermPct == 100
      && x.offline == 0
      && (if op == opRead then !isPlatter (x.geom.members.headD 0) && !critical s x && !beyond s x else !x.writeThrough)

/-- R147: a bounded command that completes OK: whether its latency exceeded the bound, with the conditions holding throughout, is time's
to say (a free value, log entry 10). -/
def noteBound (c : Ctx) (status : Nat) (s : Dev) : Dev :=
  if status = 0 ∧ bounded s c = true then
    (if Config.freeNat s.fresh % 2 = 1 then s.bump Fam.irisC0BoundExcursions else s).draw
  else s

/-! ### Fences (R120 to R122) -/

/-- Nothing a FENCE at stamp `st` of function `f` covers has its entry still unwritten: no command in flight or not yet consumed, and no
entry in an overflow store. -/
def fenceClear (s : Dev) (f : Fn) (st : Nat) : Bool :=
  s.cm.ctxs.all (fun c => c.fn != f || decide (st ≤ c.stamp))
    && s.cm.qs.all fun e => e.1 / 1024 != packFn f
      || (e.2.stamps.all (fun t => decide (st ≤ t)) && e.2.inlineReady.all (fun r => decide (st ≤ r.1))
          && e.2.overflow.all fun c => decide (st ≤ c.stamp))

/-- How many commands it covers completed with another status than OK: submitted before it, their entries written after it was. -/
def fenceFailures (s : Dev) (f : Fn) (st : Nat) : Nat :=
  ((tget s.cm.failLog (packFn f) []).filter fun e => decide (e.1 < st) && decide (st < e.2)).length

/-! ### Hold-up certification (R243, R245, R246) -/

/-- W in bytes. -/
def windowBytes (s : Dev) : Nat := s.pc.windowGib * 2 ^ 30

/-- t_dump in µs, rounded up, from rates in MB/s; none until both are measured. -/
def dumpTimeUs (s : Dev) : Option Nat :=
  let r := min s.pc.r0 s.pc.r1
  if r = 0 then none else some (cdiv (windowBytes s) (2 * r))

/-- R246. -/
def requiredEnergy (s : Dev) : Nat :=
  match dumpTimeUs s with
  | none => 0xFFFF
  | some _ =>
    let r := min s.pc.r0 s.pc.r1
    -- (W / (2 r 10^6) + 0.150) × (88 + P), rounded up
    min 0xFFFF (cdiv ((windowBytes s * 1000 + 150 * (2 * r * 1000000)) * (88 + s.val Fam.pcacheBoardPowerW))
      (2 * r * 1000000 * 1000))

/-- R245: the six conditions. -/
def certified (s : Dev) : Bool :=
  (s.pc.vaults.length == 2 && s.pc.vaults.all fun v => match v with
    | some m => (s.mem m).st == .online
    | none => false)
  && decide (0 < min s.pc.r0 s.pc.r1) && decide (windowBytes s ≤ 2 * min s.pc.r0 s.pc.r1 * 1000000)
  && decide (requiredEnergy s ≤ s.val Fam.pcacheHoldupEnergyJ)
  && s.pc.attested && s.pc.image.isNone && s.val Fam.pcacheDumpState == 0

/-! ### Durability (R115, R119) -/

/-- R115: a completed write is durable. Its record is gone once it has committed. -/
def durableRec (s : Dev) (w : WriteRec) : Bool :=
  w.seqs.isEmpty || (!((s.arr? w.array).map (·.writeThrough)).getD true && certified s)

/-- R119: every earlier ORDERED command of the same SQ is durable or failed. -/
def orderedClear (s : Dev) (c : Ctx) : Bool :=
  !eOrdered c.raw
    || ((s.ctxsOf c.fn c.q).all fun d => !(eOrdered d.raw && changesBlocks (eOpcode d.raw) && decide (d.stamp < c.stamp)
          && (d.phase != .ended || d.waitsOrder))
        && s.cm.writes.all fun w => !(w.fn == c.fn && w.q == c.q && w.ordered) || durableRec s w)

/-! ### Ending a command -/

/-- Free what a command holds: its copy channel (R390). -/
def freeHeld (c : Ctx) (s : Dev) : Dev :=
  match c.chan with
  | some n => s.setChan n Chan.unbound
  | none => s

/-- R115, R117, R119: a write that ends with units placed and not committed, and its record. Later ORDERED commands wait for an ORDERED
one only where it completed OK. -/
def recordWrite (c : Ctx) (status : Nat) (s : Dev) : Dev × Option Nat :=
  let seqs := c.units.filterMap fun p => match p.st with | .placed n => some n | _ => none
  if seqs.isEmpty then (s, none)
  else
    let id := s.cm.nextWrite
    let a := ((s.vol? (eVolume c.raw)).map (·.array)).getD 0
    ({ s with cm := { s.cm with nextWrite := id + 1, writes := s.cm.writes ++
        [{ id := id, fn := c.fn, q := c.q, volume := eVolume c.raw, array := a, ordered := eOrdered c.raw && status == 0
           written := false, seqs := seqs }] } }, some id)

/-- The command passes the meter stage, once (R150), and a write is recorded. -/
def meterEnd (c : Ctx) (status result : Nat) (s : Dev) : Dev × Option Nat :=
  if c.metered then (s, c.record)
  else recordWrite c status (noteBound c status (meterCompletion c status result s))

/-- R130: the outcome of a FIRMWARE_ACTIVATE of the admin queue, one that is refused among them. -/
def noteOutcome (c : Ctx) (status qual : Nat) (s : Dev) : Dev :=
  if eOpcode c.raw = 0x91 ∧ c.fn = s.adminFn ∧ c.q = 0 then s.setVal Fam.fwLastActivation 0 (status + 256 * qual) else s

/-- A command's completion becomes ready: metered, its entry posted (R96). -/
def endCtx0 (id status qual result : Nat) (s : Dev) : Dev :=
  match s.ctx? id with
  | none => s
  | some c =>
    let r := meterEnd c status result (noteOutcome c status qual (freeHeld c s))
    let s := r.1.modCtx id fun c => { c with metered := true, record := r.2, chan := none, waitsOrder := false }
    let s := { s with cm := { s.cm with irisQ := s.cm.irisQ.filter (· != id) } }
    postCqe c.fn (s.q c.fn c.q).boundCq id
      { sq := c.q, cid := eCid c.raw, status := status, qual := qual, result := min result 0xFFFFFFFF
        stamp := c.stamp, opcode := eOpcode c.raw, record := r.2 } s

/-- A command ends. While its SQ is being deleted, how it ended is kept with it, and its ABORTED_QUEUE completion waits for its place in
submission order (R89, R90). An ORDERED command, however it ended, waits for the earlier ones (R119). -/
def endCtx (id status qual result : Nat) (s : Dev) : Dev :=
  match s.ctx? id with
  | none => s
  | some c =>
    let done (c : Ctx) : Ctx := { c with phase := .ended, chan := none, ended := some (status, qual), waitsOrder := false }
    if (s.q c.fn c.q).sqState = .draining then (freeHeld c s).modCtx id done
    else if !orderedClear s c then (freeHeld c s).modCtx id fun c => { done c with waitsOrder := true, answer := result }
    else endCtx0 id status qual result s

/-- R119: how an ORDERED command that has waited ends now, if it does. -/
def orderedEnding (s : Dev) (c : Ctx) : Option (Nat × Nat × Nat) :=
  if c.waitsOrder && orderedClear s c && s.hostRuns then c.ended.map fun e => (e.1, e.2, c.answer) else none

/-- The command a job works for, if it works for one. -/
def JobOwner.ctx? : JobOwner → Option Nat
  | .readBlock id _ | .copyBlock id _ => some id
  | _ => none

/-- Jobs go on only for the owners that are no command, or one that `keep` names. -/
def pruneJobs (keep : Nat → Bool) (s : Dev) : Dev :=
  let jobs := s.mb.jobs.map fun j => { j with owners := j.owners.filter fun o => (o.ctx?.map keep).getD true }
  { s with mb := { s.mb with jobs := jobs.filter (!·.owners.isEmpty) } }

/-- The work of a command is given up: nothing more is read or placed for it. -/
def dropWork (id : Nat) (s : Dev) : Dev :=
  pruneJobs (fun c => c != id) s

/-! ### Hazards (R112) and the way to Iris -/

/-- An earlier uncompleted command of the same SQ overlaps this one. -/
def hazardHeld (s : Dev) (c : Ctx) : Bool :=
  (s.ctxsOf c.fn c.q).any fun d => decide (d.stamp < c.stamp) && overlaps d.raw c.raw

/-- A flagged command whose cover failed (R122). -/
def fenceFailed (s : Dev) (c : Ctx) : Bool :=
  !isAdminOp (eOpcode c.raw) && eFence c.raw && decide (0 < fenceFailures s c.fn c.stamp)

/-- A held command may leave: no hazard, and its FENCE flag (ignored on admin opcodes) satisfied. -/
def mayLeave (s : Dev) (c : Ctx) : Bool :=
  c.phase == .held && !c.stopping && !hazardHeld s c
    && (isAdminOp (eOpcode c.raw) || !eFence c.raw || fenceClear s c.fn c.stamp) && (s.hostRuns || !fenceFailed s c)

/-- ABORT is charged nothing, and an admin opcode that names no volume is charged to no tenant: neither waits in Iris (R104, R137,
R138). -/
def bypassIris (c : Ctx) : Bool := eOpcode c.raw == opAbort || (isAdminOp (eOpcode c.raw) && c.tenant.isNone)

/-- The entry of the command submitted with this stamp has been written. -/
def entryWritten (s : Dev) (stamp : Nat) : Bool :=
  s.cm.ctxs.all (fun d => d.stamp != stamp) && s.cm.qs.all fun e => e.2.overflow.all fun c => c.stamp != stamp

/-- How a FENCE (R121) or an ABORT (R104) that waits for other commands ends now, if it does. -/
def waitEnding (s : Dev) (c : Ctx) : Option (Nat × Nat × Nat) :=
  if c.phase = .admitted ∧ c.stopping = false ∧ s.hostRuns = true then
    match c.waitOn with
    | none => none
    | some t =>
      if eOpcode c.raw = opFence then
        if fenceClear s c.fn c.stamp then
          (if fenceFailures s c.fn c.stamp = 0 then some (0, 0, 0) else some (0x0D, 0, fenceFailures s c.fn c.stamp))
        else none
      else if eOpcode c.raw = opAbort ∧ entryWritten s t = true then some (0, 0, c.answer)
      else none
  else none

/-- Move held commands on, in order of consumption, and end the waits of FENCE, ABORT and ORDERED. A flagged command whose cover failed completes
FENCE_FAILED (R122). Each may free others, so the pass repeats; `fuel` bounds it. -/
def releaseHeld : Nat → Dev → Dev
  | 0, s => s
  | k + 1, s =>
    match s.cm.ctxs.findSome? fun c => (waitEnding s c <|> orderedEnding s c).map (c.id, ·) with
    | some (id, r) => releaseHeld k (endCtx id r.1 r.2.1 r.2.2 s)
    | none =>
    match s.cm.ctxs.find? (mayLeave s) with
    | none => s
    | some c =>
      if fenceFailed s c then
        releaseHeld k (endCtx c.id 0x0D 0 (fenceFailures s c.fn c.stamp) s)
      else if bypassIris c then releaseHeld k (s.modCtx c.id fun c => { c with phase := .admitted, passed := true })
      else
        let s := s.modCtx c.id fun c => { c with phase := .iris }
        releaseHeld k { s with cm := { s.cm with irisQ := s.cm.irisQ ++ [c.id] } }

def settleHeld (s : Dev) : Dev := releaseHeld (2 * s.cm.ctxs.length) s

/-- End a command and let those that waited for it go on. -/
def finish (id status qual result : Nat) (s : Dev) : Dev := settleHeld (endCtx id status qual result s)

/-! ### Consumption (R76, R97, R113) -/

/-- R138: the volumes a command names, admin opcodes among them (VOLUME_DELETE, VOLUME_RESIZE, KEY_LOAD in W0; VOLUME_SET). -/
def chargedVolumes (raw : BitVec 512) : List Nat :=
  let op := eOpcode raw
  if op == 0x83 || op == 0x84 || op == 0x8F then [eWord raw 0 % 2 ^ 14]
  else if op == 0x85 then [eVolume raw]
  else namedVolumes raw

/-- R138: the tenant charged: the function's; on the admin function the owner of the volume named. -/
def chargedTenant (s : Dev) (f : Fn) (raw : BitVec 512) : Option Nat :=
  if s.isAdmin f then
    match chargedVolumes raw with
    | v :: _ => (s.vol? v).map (·.tenant)
    | [] => none
  else (s.fnS f).bound

/-- R117: the undurable writes a FLUSH covers, by record number: those whose completions have been written. -/
def flushCovers (s : Dev) (f : Fn) (q : Nat) (raw : BitVec 512) : List Nat :=
  if eOpcode raw != opFlush then []
  else (s.cm.writes.filter fun w => w.written &&
    if eWord raw 0 % 2 == 1 then w.volume == eVolume raw else w.fn == f && w.q == q).map (·.id)

/-- Take one entry with submission stamp `st`, a FLUSH with the writes it covers: it is checked (R97) and then held, or completes with its
failed check. -/
def consumeEntry (f : Fn) (q st : Nat) (e : Fetched) (covers : List Nat) (s : Dev) : Dev :=
  let id := s.cm.nextCtx
  let c := { Ctx.fresh id f q st e.raw e.segs (chargedTenant s f e.raw) with covers := covers }
  let s := { s with cm := { s.cm with nextCtx := id + 1, ctxs := s.cm.ctxs ++ [c] } }
  match checkEntry s f q e.raw e.segs with
  | some (status, qual, result) => finish id status qual result s
  | none =>
    let whole := !(hazardRanges e.raw).isEmpty && decide (4096 < eNblk e.raw)
    let s := if whole then s.bump Fam.cmdWholeVolumeTracked else s
    settleHeld s

/-- Consume the entry at sq_head: the position advances, its stamp is taken. -/
def consumeNext (f : Fn) (q : Nat) (e : Fetched) (s : Dev) : Dev :=
  let x := s.q f q
  let st := x.stamps.headD 0
  let s := s.setQ f q { x with sqHead := rNext x.sqDepth x.sqHead, stamps := x.stamps.drop 1 }
  consumeEntry f q st e (flushCovers s f q e.raw) s

/-- R76: sq_head passes over the inline entries that stand at it: they are consumed. `fuel` bounds their number. -/
def QState.passInline : Nat → QState → QState
  | 0, x => x
  | k + 1, x =>
    match x.inlineHeld with
    | (p, e) :: r =>
      if p = x.sqHead then
        QState.passInline k { x with
          sqHead := rNext x.sqDepth x.sqHead, stamps := x.stamps.drop 1, inlineHeld := r
          inlineReady := x.inlineReady ++ [(x.stamps.headD 0, e)] }
      else x
    | [] => x

/-- R85, R113: the inline entries consumed go on to the checks as Aperture has room for them. -/
def takeReady : Nat → Fn → Nat → Dev → Dev
  | 0, _, _, s => s
  | k + 1, f, q, s =>
    let x := s.q f q
    match x.inlineReady with
    | (st, e) :: r => if s.room f q 1 then takeReady k f q (consumeEntry f q st e.entry e.covers (s.setQ f q { x with inlineReady := r })) else s
    | [] => s

/-- Consume the inline entries that stand at sq_head. -/
def consumeInline (f : Fn) (q : Nat) (s : Dev) : Dev :=
  let x := s.q f q
  let x := x.passInline x.inlineHeld.length
  takeReady x.inlineReady.length f q (s.setQ f q x)

/-- A command that completes without having started, though nothing of it has been checked; `unfetched` for a ring entry that was never
fetched. -/
def endUnstarted (f : Fn) (q st status : Nat) (raw : BitVec 512) (unfetched : Bool) (s : Dev) : Dev :=
  let id := s.cm.nextCtx
  let c := { Ctx.fresh id f q st raw .single (chargedTenant s f raw) with stopping := true, unfetched := unfetched }
  endCtx0 id status 0 0 { s with cm := { s.cm with nextCtx := id + 1, ctxs := s.cm.ctxs ++ [c] } }

/-- Submit: sq_tail advances over `n` entries, each with its own stamp in ring order (R120). -/
def submit (f : Fn) (q tail n : Nat) (s : Dev) : Dev :=
  let x := s.q f q
  let st := s.cm.nextStamp
  let s := s.setQ f q { x with sqTail := tail, stamps := x.stamps ++ (List.range n).map (st + ·) }
  { s with cm := { s.cm with nextStamp := st + n } }

end Sys2Proof.Machine
end

