-- ==== Sys2Proof/Machine/HostOps.lean ====
section
/-!
DEFINITION. What every host access and every admin command has in common: whether a memory request is accepted (R52, R58,
Table 2.8), and how an admin command is started (R107).
-/

namespace Sys2Proof.Machine

/-- R58: the request arrived on a Secure stream whose association covers its function. -/
def ideArrives (p : HostPort) (r : Req) : Bool :=
  match r.stream with
  | some i => match tfind p.ide i with
    | some x => streamCovers i x r.toFn
    | none => false
  | none => false

/-- A TLP can reach the port at all. -/
def portServes (s : Dev) (n : Nat) : Bool := s.coreUp && n < 16 && (s.port n).linkUp && !(s.port n).perstLow

/-- R58, Table 2.8: a memory request to this function is accepted. -/
def requestAccepted (s : Dev) (r : Req) : Bool :=
  s.fnExists r.toFn && (s.isAdmin r.toFn || s.val Fam.hostIdeRequired == 0 || ideArrives (s.port r.port) r)

/-- AER status bits of PCI Express for the errors of Table 2.8. -/
def linkErrorBit : LinkError → Nat
  | .receiverError => 0 | .badTlp => 6 | .badDllp => 7 | .replayRollover => 8 | .replayTimeout => 12

def fatalErrorBit : FatalError → Nat
  | .surpriseDown => 5 | .flowControl => 13 | .receiverOverflow => 17 | .malformedTlp => 18

/-- A correctable error: its status bit is set, and ERR_COR is sent unless it is masked. -/
def aerCorrectable (f : Fn) (statusBit : Nat) (s : Dev) : Dev :=
  let x := s.fnS f
  let c := { x.cfg with aerCorrStatus := x.cfg.aerCorrStatus ||| (1#32 <<< statusBit) }
  emit (.aer f false statusBit (if c.aerCorrMask.getLsbD statusBit then 0 else 3)) (s.setFn f { x with cfg := c })

/-- What AER shows and sends for an uncorrectable error: its status bit is set; unless it is masked, its header is logged where Table
2.8 says so, and a fatal one sends ERR_FATAL, an advisory one is treated as correctable (bit 13), another sends ERR_NONFATAL. -/
def aerReport (f : Fn) (statusBit : Nat) (advisory : Bool) (header : Option (BitVec 128)) (s : Dev) : Dev :=
  let x := s.fnS f
  let set := x.cfg.aerUncStatus ||| (1#32 <<< statusBit)
  if x.aerMask.getLsbD statusBit then s.setFn f { x with cfg := { x.cfg with aerUncStatus := set } }
  else
    let fatal := x.aerFatal.getLsbD statusBit
    let noted := advisory && !fatal
    let c := { x.cfg with
      aerUncStatus := set, headerLog := header.getD x.cfg.headerLog
      aerCorrStatus := if noted then x.cfg.aerCorrStatus ||| (1#32 <<< 13) else x.cfg.aerCorrStatus }
    let message := if fatal then 2 else if advisory then (if c.aerCorrMask.getLsbD 13 then 0 else 3) else 1
    emit (.aer f true statusBit message) (s.setFn f { x with cfg := c })

/-- R61: an uncorrectable error of a function raises source 0x080 + 4n of its port. -/
def aerError (f : Fn) (statusBit : Nat) (advisory : Bool) (header : Option (BitVec 128)) (s : Dev) : Dev :=
  hubReal (0x080 + 4 * f.port) statusBit false (aerReport f statusBit advisory header s)

/-- The header of a request that is logged: the world's, a free value (log entry 3). -/
def tlpHeader (s : Dev) : BitVec 128 := BitVec.ofNat 128 (Config.freeNat s.fresh)

/-- The function that logs an error of a request to `f`: a disabled VF has no registers, so the PF of its port does, as PCI Express has it
for an error of no function (log entry 73). -/
def Dev.logsFor (s : Dev) (f : Fn) : Fn := if s.fnExists f then f else ⟨f.port, 0⟩

/-- Table 2.8: an Unsupported Request (AER status bit 20), its header logged, counted. -/
def unsupported (f : Fn) (s : Dev) : Dev :=
  aerError (s.logsFor f) 20 true (some (tlpHeader s)) (s.bump Fam.hostPortUrCount f.port).draw

/-- A memory write to a function's BAR: performed, refused as Unsupported Request and discarded, or never arrived. -/
def hostAccess (r : Req) (k : Dev → Dev) (s : Dev) : Dev :=
  if portServes s r.port then (if requestAccepted s r then k s else unsupported r.toFn s) else s

/-- The admin function accepts requests with or without IDE (R58). -/
def Dev.adminReq (s : Dev) : Req := { s.adminFn with stream := none }

/-- R48: a tenant function that is unbound. -/
def unbound (s : Dev) (f : Fn) : Bool := !s.isAdmin f && (s.fnS f).bound.isNone

/-- R48: a write to the mailbox and doorbell page, which an unbound function does not serve. -/
def boundAccess (r : Req) (k : Dev → Dev) (s : Dev) : Dev := hostAccess r (fun s => if unbound s r.toFn then s else k s) s

/-! ### Admin commands (R107) -/

/-- The oldest admin opcode in flight on the admin queue. One whose completion waits for space is still uncompleted (R88), and the next
does not start before it. -/
def Dev.adminHead (s : Dev) : Option Ctx :=
  s.cm.ctxs.find? fun c => c.fn == s.adminFn && c.q == 0 && isAdminOp (eOpcode c.raw)

/-- Run the admin command at the head if it has this opcode and passes `sel`: it starts, check 3 is made again, and `k` gives
its effect. -/
def withAdmin (op : Nat) (sel : BitVec 512 → Bool) (k : Ctx → Dev → Dev) (s : Dev) : Dev :=
  match s.adminHead with
  | some c =>
    if c.phase = .admitted ∧ c.stopping = false ∧ eOpcode c.raw = op ∧ sel c.raw = true ∧ s.hostRuns = true then
      match checkMode s c.raw with
      | some r => finish c.id r.1 r.2.1 r.2.2 s
      | none => k c (s.modCtx c.id fun c => { c with phase := .started })
    else s
  | none => s

/-- INVALID_FIELD at an offset (R98). -/
def badFieldAt (id off : Nat) (s : Dev) : Dev := finish id 0x02 off 0 s

/-- STATE_CONFLICT with a state code (Table 4.8). -/
def conflict (id code : Nat) (s : Dev) : Dev := finish id 0x05 code 0 s

/-- OK with a result word. -/
def okWith (id result : Nat) (s : Dev) : Dev := finish id 0 0 result s

/-- A dictionary write refused (R430). -/
def refuseWrite (s : Dev) : Dev := s.bump Fam.dictRefusedWrites

end Sys2Proof.Machine
end

