-- ==== Sys2Proof/Machine/DictOps.lean ====
section
/-!
DEFINITION. The tests of the dictionary arbiter (R430), made for every access on every path.
-/

namespace Sys2Proof.Machine

/-- Results of Table 16.2. -/
def rOk := 0
def rNoObject := 1
def rNoRight := 2
def rReadOnly := 3
def rBadLength := 4
def rUnavailable := 5
def rClaimed := 6
def rBusy := 7
def rNotSent := 8

/-- The slot's queue belongs to a function of tenant `t` (R95). -/
def slotOfTenant (s : Dev) (n t : Nat) : Bool :=
  match tfind s.cm.slots n with
  | some k => (s.fnS (unpackFn (k / 1024))).bound == some t
  | none => false

/-- R11: the instance is in the scope of a tenant: its own queue slots, its own token entry, meter and volumes, and objects
of one instance. -/
def inScope (s : Dev) (t fam inst : Nat) : Bool :=
  let r := famRow fam
  if r.rule = 0 then true
  else if Fam.qOwner ≤ fam ∧ fam ≤ Fam.qOverflowPeak then slotOfTenant s inst t
  else if fam = Fam.tenantEntry ∨ fam = Fam.meterLast then inst == t
  else if Fam.copyChanFunction ≤ fam ∧ fam ≤ Fam.copyChanRefused then
    (s.fnS (unpackFn (s.val Fam.copyChanFunction inst % 2048))).bound == some t && s.val Fam.copyChanFunction inst != 0xFFFF
  else if fam = Fam.volumeRecord then (s.vol? inst).map (·.tenant) == some t
  else false

/-- Bits of the rights entry: read, write. -/
def rightsOf (who : Master) (rights : Nat) : Nat :=
  match who with
  | .admin => rights % 4
  | .tenant _ => rights / 4 % 4
  | .sideband => rights / 16 % 4
  | .firmware => 3

/-- R437, R438: the write claim bars a write. Tenant and firmware writes are never barred. -/
def claimBars (s : Dev) (who : Master) (exclusive : Bool) : Bool :=
  match who with
  | .admin => s.dc.holder == 2 || (exclusive && s.dc.holder != 1)
  | .sideband => s.dc.holder == 1 || (exclusive && s.dc.holder != 2)
  | _ => false

/-- The path of a master is up (R65, R450): side-band whenever Periscope runs; the admin function while its port is up, a tenant while
the port of one of its functions is; the firmware with the core. -/
def masterUp (s : Dev) (who : Master) : Bool :=
  match who with
  | .sideband => s.periscope
  | .admin => portServes s s.pw.adminPort
  | .tenant t => s.fns.any fun e => (e.2.bound == some t) && portServes s (unpackFn e.1).port && s.fnExists (unpackFn e.1)
  | .firmware => s.coreUp

/-- Tests 1 to 3 of R430 for family `fam`, instance `inst`; none of them depends on the value. -/
def accessTest (s : Dev) (who : Master) (fam inst : Nat) (write : Bool) : Nat :=
  let r := famRow fam
  if r.instances ≤ inst ∨ catalogue.length ≤ fam then rNoObject
  else if (match who with | .tenant t => !inScope s t fam inst | _ => false) then rNoObject
  else if write && r.access == .RO then rReadOnly
  else if !bit (rightsOf who r.rights) (b2n write) then rNoRight
  else rOk

/-- Tests 1 to 5 and the DARK part of test 6 for a write of `len` bytes. -/
def writeTest (s : Dev) (who : Master) (fam inst len : Nat) : Nat :=
  let r := famRow fam
  let a := accessTest s who fam inst true
  if a ≠ 0 then a
  else if claimBars s who r.exclusive && fam != Fam.claimRequest then rClaimed
  else if len ≠ r.length then rBadLength
  else if s.inMode .dark && !r.periscope then rUnavailable
  else rOk

/-- The end of a write: a refusal has no effect and is counted (R430); the result is what the master sees. -/
def writeResult (who : Master) (r : Nat) (s : Dev) : Dev :=
  emit (.dict who r []) (if r = 0 then s else refuseWrite s)

/-- A write whose value is at hand: the tests, then `ok` (the value and the state allow it), then its effect. -/
def guardedWrite (who : Master) (fam inst : Nat) (refusal : Dev → Nat) (effect : Dev → Dev) (s : Dev) : Dev :=
  if masterUp s who then
    let t := writeTest s who fam inst (famRow fam).length
    if t ≠ 0 then writeResult who t s
    else
      let r := refusal s
      if r ≠ 0 then writeResult who r s else writeResult who 0 (effect s)
  else s

/-- No refusal. -/
def always (_ : Dev) : Nat := 0

/-- UNAVAILABLE unless the condition holds. -/
def needs (p : Dev → Bool) (s : Dev) : Nat := if p s then 0 else rUnavailable

end Sys2Proof.Machine
end

