-- ==== Sys2Proof/Machine/Crypto.lean ====
section
/-!
DEFINITION. The published ciphers the spec names: AES-256 (FIPS 197), its XTS mode over a 4 KiB data unit (IEEE 1619, ch. 7
"Volumes and keys") and AES key unwrap (RFC 3394, R230). PRESUMED: the algorithms are those of the standards, which the spec cites
and does not print (log entry 7).
A 16-byte block is a list of bytes in the standards' order; keys are bit vectors whose byte 0 is the lowest-addressed.
-/

namespace Sys2Proof.Machine

/-! ### AES-256 -/

/-- Multiply by x modulo x^8 + x^4 + x^3 + x + 1. -/
def aesX (a : Byte) : Byte := if a.getLsbD 7 then (a <<< 1) ^^^ 0x1B else a <<< 1

def aesMulAux : Nat → Byte → Byte → Byte → Byte
  | 0, p, _, _ => p
  | n + 1, p, a, b => aesMulAux n (if b.getLsbD 0 then p ^^^ a else p) (aesX a) (b >>> 1)

def aesMul (a b : Byte) : Byte := aesMulAux 8 0 a b

/-- The inverse, a^254. -/
def aesInv (a : Byte) : Byte :=
  let sq (x : Byte) := aesMul x x
  let a2 := sq a; let a4 := sq a2; let a8 := sq a4; let a16 := sq a8; let a32 := sq a16; let a64 := sq a32
  aesMul a2 (aesMul a4 (aesMul a8 (aesMul a16 (aesMul a32 (aesMul a64 (sq a64))))))

def aesSbox (a : Byte) : Byte :=
  let b := aesInv a
  b ^^^ b.rotateLeft 1 ^^^ b.rotateLeft 2 ^^^ b.rotateLeft 3 ^^^ b.rotateLeft 4 ^^^ 0x63

def aesInvSbox (a : Byte) : Byte := aesInv (a.rotateLeft 1 ^^^ a.rotateLeft 3 ^^^ a.rotateLeft 6 ^^^ 0x05)

/-- Round constant `i`, from 1. -/
def aesRcon : Nat → Byte
  | 0 | 1 => 1
  | n + 2 => aesX (aesRcon (n + 1))

/-- Key-schedule words, newest first, until 60 are made. -/
def aesWords : Nat → List (List Byte) → List (List Byte)
  | 0, w => w
  | n + 1, w =>
    let i := w.length
    let t := w.headD []
    let t := if i % 8 = 0 then
        match (t.drop 1 ++ t.take 1).map aesSbox with
        | b :: r => (b ^^^ aesRcon (i / 8)) :: r
        | [] => []
      else if i % 8 = 4 then t.map aesSbox else t
    aesWords n (xorBytes (w.getD 7 []) t :: w)

/-- The 15 round keys of a 32-byte key. -/
def aesKeys (key : List Byte) : List (List Byte) :=
  let first := (List.range 8).map fun i => (key.drop (4 * i)).take 4
  let w := (aesWords 52 first.reverse).reverse
  (List.range 15).map fun r => ((w.drop (4 * r)).take 4).flatten

/-- The state byte that ShiftRows (`left`) or its inverse puts at position `i`. -/
def shiftIndex (left : Bool) (i : Nat) : Nat :=
  let row := i % 4
  let col := i / 4
  (if left then (col + row) % 4 else (col + 4 - row) % 4) * 4 + row

def shiftRows (left : Bool) (b : List Byte) : List Byte := (List.range 16).map fun i => b.getD (shiftIndex left i) 0

/-- Multiply each column by the circulant matrix whose first row is `m`. -/
def mixColumns (m : List Byte) (b : List Byte) : List Byte :=
  (List.range 16).map fun i =>
    (List.range 4).foldl (fun acc j => acc ^^^ aesMul (m.getD ((j + 4 - i % 4) % 4) 0) (b.getD (i / 4 * 4 + j) 0)) 0

def aesRound (b k : List Byte) : List Byte :=
  xorBytes (mixColumns [2, 3, 1, 1] (shiftRows true (b.map aesSbox))) k

def aesInvRound (b k : List Byte) : List Byte :=
  mixColumns [14, 11, 13, 9] (xorBytes ((shiftRows false b).map aesInvSbox) k)

/-- Encrypt a 16-byte block. -/
def aesEncrypt (key b : List Byte) : List Byte :=
  let ks := aesKeys key
  let b := ((ks.drop 1).take 13).foldl aesRound (xorBytes b (ks.getD 0 []))
  xorBytes (shiftRows true (b.map aesSbox)) (ks.getD 14 [])

/-- Decrypt a 16-byte block. -/
def aesDecrypt (key b : List Byte) : List Byte :=
  let ks := aesKeys key
  let b := (((ks.drop 1).take 13).reverse).foldl aesInvRound (xorBytes b (ks.getD 14 []))
  xorBytes ((shiftRows false b).map aesInvSbox) (ks.getD 0 [])

/-! ### XTS over one data unit -/

/-- Multiply a tweak by α: little-endian, modulo x^128 + x^7 + x^2 + x + 1. -/
def xtsNext (t : BitVec 128) : BitVec 128 := if t.getLsbD 127 then (t <<< 1) ^^^ 0x87 else t <<< 1

/-- `n` blocks of a unit from tweak `t`. -/
def xtsBlocks (f : List Byte → List Byte) : Nat → BitVec 128 → List Byte → List Byte
  | 0, _, _ => []
  | n + 1, t, b =>
    let tb := le 16 t.toNat
    xorBytes (f (xorBytes (b.take 16) tb)) tb ++ xtsBlocks f n (xtsNext t) (b.drop 16)

/-- The halves of an XTS key pair: the data key first (R230: "the first key half"), then the tweak key. -/
def keyHalves (k : BitVec 512) : List Byte × List Byte :=
  let b := le 64 k.toNat
  (b.take 32, b.drop 32)

/-- The first tweak of block `lba` ("Volumes and keys": the LBA, zero-extended, little-endian). -/
def xtsTweak (k : BitVec 512) (lba : Nat) : BitVec 128 :=
  BitVec.ofNat 128 (unle (aesEncrypt (keyHalves k).2 (le 16 lba)))

def xtsEncrypt (k : BitVec 512) (lba : Nat) (b : Block) : Block :=
  xtsBlocks (aesEncrypt (keyHalves k).1) 256 (xtsTweak k lba) b

def xtsDecrypt (k : BitVec 512) (lba : Nat) (b : Block) : Block :=
  xtsBlocks (aesDecrypt (keyHalves k).1) 256 (xtsTweak k lba) b

/-- R230: the key check value. -/
def keyCheckValue (k : BitVec 512) : Word :=
  BitVec.ofNat 32 (unle ((aesEncrypt (keyHalves k).1 (List.replicate 16 0)).take 4))

/-! ### Key wrap (RFC 3394); a wrapped key is n + 1 semiblocks of 8 bytes -/


/-- One unwrap step `t`: from (A, R) with semiblock `i`. -/
def unwrapStep (kek : List Byte) (n : Nat) (acc : List Byte × List (List Byte)) (t : Nat) : List Byte × List (List Byte) :=
  let i := (t - 1) % n
  let b := aesDecrypt kek (xorBytes acc.1 (be8 t) ++ acc.2.getD i [])
  (b.take 8, acc.2.set i (b.drop 8))

/-- The key, or none when the integrity check fails. -/
def keyUnwrap (kek wrapped : List Byte) : Option (List Byte) :=
  let n := wrapped.length / 8 - 1
  let r := (List.range n).map fun i => (wrapped.drop (8 * (i + 1))).take 8
  let (a, r) := ((List.range (6 * n)).map (6 * n - ·)).foldl (unwrapStep kek n) (wrapped.take 8, r)
  if a = List.replicate 8 0xA6 then some r.flatten else none

end Sys2Proof.Machine
end

