-- ==== Sys2Proof/Machine/MemberIo.lean ====
section
/-!
DEFINITION. Commands to members and what is written on them: member commands (R261, R301), labels (R213), map-region extents
(R214), the journal (R214 to R218), and where a block stands (R171, R201, R208, R268).
-/

namespace Sys2Proof.Machine

/-! ### Members -/

def mib : Nat := 2 ^ 20

/-- R213: the end of a member's map share: A0, and on a vault member the start of its vault area. -/
def Member.a0 (x : Member) : Nat := 0x02000000 + ((x.label.map (·.mapShare)).getD 0) * (64 * mib)

/-- R244: bytes of a vault area. -/
def vaultArea (windowGib : Nat) : Nat := mib + windowGib * 2 ^ 30 / 2

/-- R213: A0 as the label gives it: on a vault member after the vault area. -/
def labelA0 (windowGib : Nat) (l : Label) : Nat :=
  0x02000000 + l.mapShare * (64 * mib) + (if l.role = 3 then vaultArea windowGib else 0)

/-- Table 9.1: reads and new facet writes are issued. -/
def memberServes (s : Dev) (m : Nat) : Bool := let x := s.mem m; x.st == .online || x.st == .target

/-- The array whose current or previous geometry gives the member a slot, and the slot. -/
def slotHeld (s : Dev) (m : Nat) : Option (Nat × Nat) :=
  s.arrays.findSome? fun e =>
    match e.2.geom.members.findIdx? (· == m) with
    | some i => some (e.1, i)
    | none =>
      match e.2.prev with
      | some g => (g.members.findIdx? (· == m)).map fun i => (e.1, i)
      | none => none

def holdsSlot (s : Dev) (m : Nat) : Bool := (slotHeld s m).isSome

/-- Role of a member's label; 0 when blank. -/
def roleOf (s : Dev) (m : Nat) : Nat := ((s.mem m).label.map (·.role)).getD 0

def domainOf (s : Dev) (m : Nat) : Nat := ((s.mem m).label.map (·.domain)).getD 0

/-- The members that are not ABSENT. -/
def Dev.present (s : Dev) : List Nat := (s.mb.tbl.filter fun e => e.2.st != .absent).map (·.1)

/-- R261: the command timeout of a member, ns. -/
def timeoutNs (s : Dev) (m : Nat) : Nat :=
  1000000 * s.val (if isPlatter m then Fam.memberTimeoutPlatterMs else Fam.memberTimeoutSolidMs)

/-- R146: a command that a job reads for is of class 0 and was not demoted. -/
def jobClassZero (s : Dev) (j : Job) : Bool :=
  j.owners.any fun o => match o.ctx?.bind s.ctx? with
    | some c => c.cls == 0 && !c.demoted
    | none => false

/-- Table 10.4: the queues that a command takes: 1 for queues 1 and 2, 2 for 3 to 5, 3 for 6 and 7, 4 for queue 8. -/
def queuesFor (s : Dev) (why : Purpose) : Nat :=
  match why with
  | .job id _ _ =>
    match s.mb.jobs.find? (·.id == id) with
    | none => 3
    | some j =>
      if jobClassZero s j then 1
      else if j.owners.any fun o => match o.ctx?.bind s.ctx? with | some c => decide (c.cls < 3) | none => false then 2
      else 3
  | .facet a num _ => if ((s.arr? a).map fun x => x.beams.any fun b => b.num == num && b.internal).getD false then 3 else 2
  | .beamRead .. | .rebuilt .. | .relation => 3
  | .label | .area | .probe | .journal .. | .checkpoint .. | .page .. | .pageAgain .. | .reload | .tie | .fence => 4

/-- A member command goes out. Every Write to a solid member sets FUA (R203, R301). -/
def sendMember (t m : Nat) (write : Bool) (off len : Nat) (bytes : List Byte) (queue : Nat) (s : Dev) : Dev :=
  emit (.member t m write off len bytes (write && !isPlatter m) queue) s

/-- The I/O queues of a traffic class of Table 10.4. -/
def groupQueues (group : Nat) : List Nat :=
  match group with
  | 1 => [1, 2]
  | 2 => [3, 4, 5]
  | 3 => [6, 7]
  | _ => [8]

/-- Commands that stand in a queue of a member. -/
def queueLoad (s : Dev) (m q : Nat) : Nat := (s.mb.cmds.filter fun c => c.member == m && !c.waiting && c.queue == q).length

/-- The queue that the next command of a class takes: the one with the fewest commands, the lowest first (DESIGN CHOICE, log entry 86). -/
def pickQueue (s : Dev) (m group : Nat) : Nat :=
  (groupQueues group).tail.foldl (fun best q => if queueLoad s m q < queueLoad s m best then q else best) ((groupQueues group).headD 8)

/-- A tracked command goes out: a reservation command of a tie or fence (step 0 registers with Replace, step 1 acquires with Preempt and
Abort, R308, R373), or a Read or Write. -/
def sendCmd (c : MCmd) (s : Dev) : Dev :=
  match c.why with
  | .tie | .fence =>
    emit (.reservation c.member c.queue (if c.offset = 0 then "Register, Replace" else "Acquire, Preempt and Abort") 2 c.key c.preempts) s
  | _ => sendMember c.tag c.member c.write c.offset c.length c.bytes c.queue s

/-- R300: the command as its member takes it now: in a queue of 256 entries, which holds at most 255, or waiting for one. -/
def queued (s : Dev) (c : MCmd) : MCmd :=
  if isPlatter c.member then { c with queue := 0, waiting := false, issued := s.tm.now }
  else
    let q := pickQueue s c.member (queuesFor s c.why)
    { c with queue := q, waiting := decide (255 ≤ queueLoad s c.member q), issued := s.tm.now }

/-- Track a command, and issue it when its queue has room; where no command goes to members none is. -/
def issueCmd (c : MCmd) (s : Dev) : Dev :=
  if s.memberIo || (s.unstopped && !s.pr.fenced && (c.why == .tie || c.why == .fence)) then
    let c := queued s { c with tag := s.mb.nextTag }
    let s := { s with mb := { s.mb with nextTag := s.mb.nextTag + 1, cmds := s.mb.cmds ++ [c] } }
    if c.waiting then s else sendCmd c s
  else s

/-- Room has come in a queue of the member: the oldest command that waits for it is issued. -/
def pump (m : Nat) (s : Dev) : Dev :=
  let s := { s with mb := { s.mb with cmds := s.mb.cmds.filter fun c => !(c.waiting && c.dead) } }
  match s.mb.cmds.find? fun c => c.member == m && c.waiting && !(queued s c).waiting with
  | some c =>
    let d := queued s c
    sendCmd d { s with mb := { s.mb with cmds := s.mb.cmds.map fun e => if e.tag = c.tag then d else e } }
  | none => s

/-- Issue one Read or Write. -/
def issue (m : Nat) (write : Bool) (off len : Nat) (bytes : List Byte) (why : Purpose) (s : Dev) : Dev :=
  issueCmd { tag := 0, member := m, write := write, offset := off, length := len, bytes := bytes, why := why, dead := false
             aborted := false, issued := 0 } s

/-- R301: the most one command of this member moves. -/
def maxTransfer (x : Member) : Nat := if x.mdtsKib = 0 then mib else min (x.mdtsKib * 1024) mib

/-- R301: the consecutive commands of a transfer, as (offset, length). -/
def splits (unit off len : Nat) : List (Nat × Nat) :=
  (List.range (cdiv len unit)).map fun i => (off + i * unit, min unit (len - i * unit))

/-- The commands of a write: a facet on a platter member is one command (R350). -/
def writeParts (s : Dev) (m off len : Nat) : List (Nat × Nat) :=
  if isPlatter m then [(off, len)] else splits (maxTransfer (s.mem m)) off len

/-- A write in consecutive commands. -/
def issueWrite (m off : Nat) (bytes : List Byte) (why : Purpose) (s : Dev) : Dev :=
  (writeParts s m off bytes.length).foldl (fun s p =>
    issue m true p.1 p.2 ((bytes.drop (p.1 - off)).take p.2) why s) s

/-- A write of a label, of the catalogue or of a sweep's position, whose end nothing waits for (log entry 21). -/
def memberWrite (m off : Nat) (bytes : List Byte) (s : Dev) : Dev := issueWrite m off bytes .area s

/-- A write to a vault area, in ECLIPSE too (Table 8.7); how the vaults fare is told by rows of its own (R249). -/
def vaultWrite (m off : Nat) (bytes : List Byte) (s : Dev) : Dev :=
  (splits (maxTransfer (s.mem m)) off bytes.length).foldl (fun s p =>
    let t := s.mb.nextTag
    sendMember t m true p.1 p.2 ((bytes.drop (p.1 - off)).take p.2) 8 { s with mb := { s.mb with nextTag := t + 1 } }) s

/-- An NVMe admin action. -/
def memberCtl (m : Nat) (what : String) (arg : Nat) (s : Dev) : Dev := emit (.memberCtl m what arg) s

/-- Table 7.6, with the window's size in GiB. -/
def labelBytes (windowGib : Nat) (l : Label) : List Byte :=
  let b := fitBytes 0xFFC (le 4 0x4C424C47 ++ le 2 1 ++ le 1 l.role ++ le 1 l.array ++ le 8 l.owner.toNat
    ++ le 8 l.inst.toNat ++ le 1 l.slot ++ le 1 l.domain ++ le 2 0 ++ le 4 l.mapShare
    ++ le 8 (labelA0 windowGib l))
  b ++ le 4 (crc32c b).toNat

/-- Write a member's label; on a SLOW member, which takes only probes (R262), it is written when the member has left SLOW. -/
def writeLabel (m : Nat) (l : Label) (s : Dev) : Dev :=
  let slow := (s.mem m).st == .slow
  let s := s.setMem m { s.mem m with label := some l, labelDue := (s.mem m).labelDue || slow }
  if slow then s else memberWrite m 0 (labelBytes s.pc.windowGib l) s

/-- R213: the map share of a solid member of this capacity, in extents. -/
def mapShareOf (capacityMib : Nat) : Nat := cdiv capacityMib (128 * 64)

/-- The label of a member that has none: unassigned, with the map share a solid member carries. -/
def Member.labelOr (x : Member) (m : Nat) (serial : Quad) : Label :=
  x.label.getD { role := 0, array := 0, owner := serial, inst := 0, slot := 0, domain := 0
                 mapShare := if isPlatter m then 0 else mapShareOf x.capacityMib }

/-- Give a member role 0 (R288, R289). -/
def unassignLabel (m : Nat) (s : Dev) : Dev :=
  writeLabel m { (s.mem m).labelOr m s.ident.serial with role := 0, array := 0, inst := 0, slot := 0 } s

/-! ### Map-region extents (R214, R215, R269) -/

/-- ONLINE solid members with a map share. -/
def mapMembers (s : Dev) : List Nat :=
  (s.mb.tbl.filter fun e => e.2.st == .online && !isPlatter e.1
    && (match e.2.label with | some l => decide (0 < l.mapShare) | none => false)).map (·.1)

/-- The lowest extent of a member's share that no extent uses. -/
def freeShare (s : Dev) (m : Nat) : Option Nat :=
  let used := s.ms.extents.flatMap fun e => (e.copies.filter (·.1 == m)).map (·.2)
  let n := ((s.mem m).label.map (·.mapShare)).getD 0
  (List.range (min n (used.length + 1))).find? fun i => !used.contains i

/-- R214: `n` members in turn, in different failure domains while there are such, lowest index first (log entry 22). -/
def pickSpread (s : Dev) (cands : List Nat) : Nat → List Nat → List Nat
  | 0, have_ => have_
  | n + 1, have_ =>
    let free := cands.filter (!have_.contains ·)
    let fresh := free.filter fun m => !(have_.any fun h => domainOf s h == domainOf s m)
    match fresh.head? <|> free.head? with
    | some m => pickSpread s cands n (have_ ++ [m])
    | none => have_

/-- Assign one extent to an owner. -/
def addExtent (owner : Nat) (s : Dev) : Option Dev :=
  let ms := pickSpread s ((mapMembers s).filter fun m => (freeShare s m).isSome) 3 []
  if ms.length = 3 then
    let e : Extent := { owner := owner, copies := ms.map fun m => (m, (freeShare s m).getD 0) }
    some { s with ms := { s.ms with extents := s.ms.extents ++ [e] } }
  else none

def addExtents (owner : Nat) : Nat → Dev → Option Dev
  | 0, s => some s
  | n + 1, s => (addExtent owner s).bind (addExtents owner n)

/-- The owner number of an array's extents. -/
def arrayOwner (a : Nat) : Nat := 16384 + a

def dropExtents (owner : Nat) (s : Dev) : Dev :=
  { s with ms := { s.ms with extents := s.ms.extents.filter (·.owner != owner) } }

/-- Keep the first `n` extents of an owner. -/
def keepExtents (owner n : Nat) (s : Dev) : Dev :=
  let mine := (s.ms.extents.filter (·.owner == owner)).take n
  { s with ms := { s.ms with extents := s.ms.extents.filter (fun e => e.owner != owner || mine.contains e) } }

def extentsOf (s : Dev) (owner : Nat) : List Extent := s.ms.extents.filter (·.owner == owner)

/-- `map.extents_free`: extents of the map shares in use that no copy is assigned to. -/
def extentsFree (s : Dev) : Nat :=
  ((s.mb.tbl.map fun e => ((e.2.label.map (·.mapShare)).getD 0)).sum) - 3 * s.ms.extents.length

/-- R209: pages of a volume. -/
def pagesOf (capacity : Nat) : Nat := cdiv capacity 512

def mapPages (s : Dev) : Nat := (s.vols.map fun e => pagesOf e.2.capacity).sum

/-- R269: extents of an array's segment records. -/
def arrayExtents (segs : Nat) : Nat := cdiv (segs * 16 + 4096) (64 * mib)

/-- R214: a new generation of the catalogue, with the volume records, wrapped keys, extent assignments and journal holders, goes to the
holders of map extent 0, in the slot of its parity; a torn write leaves the other slot valid. -/
def writeCatalogue (s : Dev) : Dev :=
  let s := { s with ms := { s.ms with catGen := s.ms.catGen + 1 } }
  let off := 0x00900000 + s.ms.catGen % 2 * (4 * mib)
  (((s.ms.extents.head?.map (·.copies)).getD []).filter fun c => (s.mem c.1).st == .online).foldl (fun s c =>
    memberWrite c.1 off (fitBytes (4 * mib) (Config.catalogueSlot s.ms.catGen)) s) s

/-- The copies share a failure domain (R214). -/
def domainShort (s : Dev) (ms : List Nat) : Bool :=
  decide ((ms.map (domainOf s)).eraseDups.length < 3)

/-- The committed entry of a block. -/
def mapGet (s : Dev) (v lba : Nat) : Quad :=
  match s.vol? v with
  | some x => tget x.map lba 0
  | none => 0

/-- Table 7.5, R209: the 4 KiB of map page `p` of a volume. -/
def pageBytes (s : Dev) (v p : Nat) : List Byte := (List.range 512).flatMap fun i => le 8 (mapGet s v (512 * p + i)).toNat

/-- R269: a segment record, as geometry epoch and mask bits, and its 16 B. -/
def Segment.record (v : Segment) : Nat × Nat := (v.epoch, (v.mask.eraseDups.map (2 ^ ·)).sum)
def segmentRecordBytes (r : Nat × Nat) : List Byte := le 4 r.1 ++ le 12 r.2

/-- 4 KiB of an array's segment records; the records stand first in its extents, in segment order (log entry 78). -/
def recordPage (s : Dev) (a p : Nat) : List Byte :=
  match s.arr? a with
  | some x => (List.range 256).flatMap fun i => segmentRecordBytes (tget x.seg (256 * p + i) Segment.free).record
  | none => []

/-- What a checkpoint writes for a page of an owner: a map page of a volume, or segment records of an array. -/
def ownerPage (s : Dev) (owner p : Nat) : List Byte := if owner < 16384 then pageBytes s owner p else recordPage s (owner - 16384) p

/-- The pages of segment records that differ from what the map region holds. -/
def Arr.recordsDue (x : Arr) : List Nat :=
  (((x.seg.filter fun e => e.2.record != tget x.records e.1 (0, 0)).map (·.1)
    ++ (x.records.filter fun e => (tget x.seg e.1 Segment.free).record != e.2).map (·.1)).map (· / 256)).eraseDups

/-- R209, R214: member and byte offset of copy `i` of a page. -/
def pageCopy (s : Dev) (v p i : Nat) : Option (Nat × Nat) :=
  match (extentsOf s v)[p / 16384]? with
  | some e => (e.copies[i]?).map fun c => (c.1, 0x02000000 + c.2 * (64 * mib) + p % 16384 * 4096)
  | none => none

/-! ### The stream to the MIRROR (R381) -/

/-- A LEAD whose partner is MIRROR. -/
def pairedLead (s : Dev) : Bool := s.inMode .lead && s.val Fam.pairState == 3

def streaming (s : Dev) : Bool := pairedLead s || (s.serving && s.pr.partnerReady)

/-- Send one packet of the stream; it stands until it is acknowledged. -/
def streamSend (i : StreamItem) (s : Dev) : Dev :=
  if streaming s then
    let n := s.pr.streamSent + 1
    emit (.stream n i) { s with pr := { s.pr with streamSent := n, unacked := s.pr.unacked ++ [(n, i)] } }
  else s

/-! ### Sweep checkpoints (R274, R287) -/

def Geom.sent (g : Geom) : StreamGeom := { mirror := g.mirror, k := g.k, m := g.m, epoch := g.epoch, members := g.members }

/-- A sweep as the stream names it: kind (0 none, 1 facet rebuild, 2 catch-up, 3 relocation, 4 reshape), slot and target. -/
def sweepCode (x : Option Sweep) : Nat × Nat × Nat :=
  match x with
  | none => (0, 0, 0)
  | some (.facet slot m false) => (1, slot, m)
  | some (.facet slot m true) => (2, slot, m)
  | some .relocation => (3, 0, 0)
  | some .reshape => (4, 0, 0)

/-- The geometries and the sweep of an array, with its checkpoint, go to the MIRROR (Table 13.5; R287). -/
def sendSweep (a : Nat) (s : Dev) : Dev :=
  match s.arr? a with
  | some x =>
    let k := sweepCode x.sweep
    streamSend (.sweep a x.geom.sent (x.prev.map Geom.sent) k.1 k.2.1 k.2.2 (s.val Fam.arrayMeridian a) (s.val Fam.arraySweepRemaining a)
      x.meridianSeq) s
  | none => s

/-- R287: a meridian checkpoint, or the position of a facet sweep (R274), goes to the copies of the array's extents, after its segment
records; the MRAM record is the object of the state itself. -/
def writeMeridian (a : Nat) (s : Dev) : Dev :=
  match s.arr? a with
  | none => s
  | some x =>
    let x := { x with meridianSeq := x.meridianSeq + 1 }
    let bytes := fitBytes 4096 (Config.meridianBytes x.inst x.geom.epoch ((x.prev.map (·.epoch)).getD 0) (s.val Fam.arrayMeridian a)
      (s.val Fam.arraySweepRemaining a) x.meridianSeq)
    sendSweep a (([0, 1, 2].filterMap fun k => pageCopy s (arrayOwner a) (cdiv (16 * x.segs) 4096) k).foldl (fun s c =>
      if (s.mem c.1).st = .online then memberWrite c.1 c.2 bytes s else s) (s.setArr a x))

/-! ### The journal (R214 to R218) -/

/-- R217: a journal write of the array is outstanding: some holder that is ONLINE has not completed it. -/
def journalBusy (s : Dev) (a : Nat) : Bool := s.mb.cmds.any fun c => !c.dead && (s.mem c.member).st == .online && (match c.why with
  | .journal a' _ => a' == a
  | _ => false)

/-- An entry of `jdirty` that is no beam: the journal as a whole is due. -/
def journalItself : Nat := 2 ^ 36

/-- Table 7.8. -/
def deltaBytes (d : Nat × Item) : List Byte :=
  match d.2 with
  | .delta v lba len zero seq after =>
    le 2 (v + 2 ^ 14 * b2n zero) ++ le 6 lba ++ le 8 seq ++ le 8 d.1 ++ le 2 (min len 65535) ++ le 2 after ++ le 4 0
  | .block .. => []

/-- Table 7.7. -/
def journalBytes (a : Nat) (x : Arr) (mapGen : Nat) : List Byte :=
  let head := fitBytes 0x40 (le 4 0x4C4E524A ++ le 2 1 ++ le 1 a ++ le 1 x.openList.length ++ le 8 x.inst ++ le 8 x.journalGen
    ++ le 4 x.geom.epoch ++ le 2 x.deltas.length ++ le 2 0 ++ le 8 x.nextSeq ++ le 4 mapGen ++ le 1 x.horizon)
  let b := fitBytes 0xFFFC (head ++ fitBytes 0xC0 (x.openList.flatMap (le 4)) ++ x.deltas.flatMap deltaBytes)
  b ++ le 4 (crc32c b).toNat

/-- The beams that no newer journal write has to hold are journalled. -/
def journalDone (a : Nat) (s : Dev) : Dev :=
  match s.arr? a with
  | none => s
  | some x => s.setArr a { x with
      beams := x.beams.map (fun b => if x.jdirty.contains b.num then b else { b with journalled := true })
      rehoming := false }

/-- The journal of an array as a write to one holder carries it. -/
def Arr.journalCopy (x : Arr) (m : Nat) : JournalCopy :=
  { member := m, slot := x.journalGen % 2, gen := x.journalGen, openList := x.openList, horizon := x.horizon, deltas := x.deltas
    nextSeq := x.nextSeq, epoch := x.geom.epoch, whole := false }

/-- Table 7.5: where a slot of an array's journal stands on a holder. -/
def journalOffset (a slot : Nat) : Nat := 0x00100000 + (2 * a + slot) * 65536

/-- R216, R217: the next generation to every holder that is ONLINE, in the slot of its parity, whose older content is gone. Where
no member command is issued (R31, R309), the write stays due. -/
def issueJournal (a : Nat) (s : Dev) : Dev :=
  match s.arr? a with
  | none => s
  | some x =>
    if !s.memberIo then s.setArr a { x with jdirty := if x.jdirty.contains journalItself then x.jdirty else x.jdirty ++ [journalItself] }
    else
      let dest := x.holders.filter fun m => (s.mem m).st == .online
      let x := { x with journalGen := x.journalGen + 1, jdirty := [] }
      let old := x.copies.filter fun c => x.holders.contains c.member && !(dest.contains c.member && c.slot == x.journalGen % 2)
      let x := { x with copies := old ++ dest.map x.journalCopy }
      let bytes := journalBytes a x s.ms.mapGen
      let s := streamSend (.journal a x.journalGen x.nextSeq x.horizon x.openList x.holders x.outage) (s.setArr a x)
      let s := dest.foldl (fun s m =>
        issueWrite m (journalOffset a (x.journalGen % 2)) bytes (.journal a x.journalGen) s) s
      if journalBusy s a then s else journalDone a s

/-- A journal write is due; while one is outstanding the next follows it. -/
def writeJournal (a : Nat) (s : Dev) : Dev := if journalBusy s a then s else issueJournal a s

/-- A holder has completed the journal write of a generation: its copy is whole (R216). -/
def journalWritten (a m gen : Nat) (s : Dev) : Dev :=
  match s.arr? a with
  | none => s
  | some x => s.setArr a { x with copies := x.copies.map fun c => if c.member = m ∧ c.gen = gen then { c with whole := true } else c }

/-- The last command of a journal write has ended. -/
def journalEnded (a : Nat) (s : Dev) : Dev :=
  if journalBusy s a then s
  else
    let s := journalDone a s
    match s.arr? a with
    | some x => if x.jdirty.isEmpty then s else issueJournal a s
    | none => s

/-- R218: the holders that are not ONLINE are replaced at once, the catalogue names the new ones, and the present journal is written. In
ECLIPSE this waits until the device leaves it (R31). -/
def rehome (a : Nat) (s : Dev) : Dev :=
  match s.arr? a with
  | none => s
  | some x =>
    let live := x.holders.filter fun m => (s.mem m).st == .online
    let fresh := pickSpread s (mapMembers s) (3 - live.length) live
    if live.length < x.holders.length ∧ live.length < fresh.length ∧ s.working = true then
      let s := s.addVal Fam.journalRehomes 0 (fresh.length - live.length)
      issueJournal a (writeCatalogue (s.setArr a { x with holders := fresh, rehoming := true }))
    else s

/-! ### Where a block stands (R171, R201, R268) -/

/-- R268, R276: the geometry in which a segment's beams were written. -/
def Arr.geomOf (x : Arr) (seg : Nat) : Geom :=
  match x.prev with
  | some p => if (tget x.seg seg Segment.free).epoch ≤ p.epoch then p else x.geom
  | none => x.geom

/-- R171, R268: the facets of a beam that cannot supply any range now. -/
def erasedFacets (s : Dev) (x : Arr) (beam : Nat) : List Nat :=
  let g := x.geomOf (beam / 64)
  let mask := (tget x.seg (beam / 64) Segment.free).mask
  (List.range g.width).filter fun f =>
    let slot := g.slotOf beam f
    mask.contains slot || !memberServes s (g.members.getD slot 0x800)

/-- The holder of a slot is FAILED, or the slot has lost its holder (`vacate`). -/
def slotGone (s : Dev) (m : Nat) : Bool := (s.mem m).st == .failed || decide (2048 ≤ m)

/-- R280: the facets whose members are FAILED. What a missing mask or a member that is away keeps from being read is lost for the moment. -/
def permanentFacets (s : Dev) (x : Arr) (beam : Nat) : List Nat :=
  let g := x.geomOf (beam / 64)
  (List.range g.width).filter fun f =>
    let slot := g.slotOf beam f
    slotGone s (g.members.getD slot 0x800)

/-- Where the newest data of a block is. -/
inductive Found where
  | clear
  | zero
  | dark
  /-- In a beam not committed: its bytes, and the summary entry held with it. -/
  | held (data entry : Block)
  | stored (l : Loc)
  deriving DecidableEq, Repr

/-- The item gives the block its state; relocations change nothing (R201, R131). -/
def itemFor (v lba : Nat) (i : Item) : Option Found :=
  match i with
  | .block _ v' l' _ d none => if v' = v ∧ l' = lba then some (.held d.data d.entry) else none
  | .block .. => none
  | .delta v' l' n z _ _ => if v' = v ∧ l' ≤ lba ∧ lba < l' + n then some (if z then .zero else .clear) else none

/-- The open-beam index (R201): the newest item that gives the block its state. -/
def openIndex (s : Dev) (v lba : Nat) : Option Found :=
  let a := ((s.vol? v).map (·.array)).getD 64
  let openItems := match s.arr? a with
    | some x => x.beams.flatMap Beam.items ++ x.keptUnits
    | none => []
  openItems.reverse.findSome? (itemFor v lba)

/-- What a committed entry says of its block. -/
def entryFound (e : Quad) : Found :=
  if entryDark e then .dark
  else if entryMapped e then .stored (entryLoc e)
  else if entryZero e then .zero
  else .clear

/-- R201: the open-beam index first, then the committed map. -/
def lookup (s : Dev) (v lba : Nat) : Found := (openIndex s v lba).getD (entryFound (mapGet s v lba))

/-- Table 8.4: the condenser's partitions, in MiB: assembly, hot map, Lens soft buffers, queue state. -/
def condenserMib : List Nat := [48, 8, 4, 4]

/-- R210: pages of the hot tier. -/
def hotPages : Nat := condenserMib.getD 1 0 * mib / 4096

/-- R210: a lookup that the map serves uses the block's page: it is counted where the hot tier has the page, which is then the latest
used of the 2,048 that it keeps. -/
def touchPage (v lba : Nat) (s : Dev) : Dev :=
  if (openIndex s v lba).isSome then s
  else
    let p := (v, lba / 512)
    let s := if s.ms.hot.contains p then s.bump Fam.mapHotHits else s
    { s with ms := { s.ms with hot := (p :: s.ms.hot.filter (· != p)).take hotPages } }

end Sys2Proof.Machine
end

