-- ==== Sys2Proof/Machine/Queues.lean ====
section
/-!
DEFINITION. Queue rings, doorbells and inline push (chapter 3), and the admin queue commands (R108).
-/

namespace Sys2Proof.Machine

/-! ### Doorbells -/

/-- R78, R480: a write to sq_tail. -/
def ringTail (f : Fn) (q : Nat) (v : Nat) (s : Dev) : Dev :=
  let x := s.q f q
  match x.sqState with
  | .absent => bumpQ f q Fam.qDoorbellErrors s
  | .draining => s
  | _ =>
    let d := x.sqDepth
    if tailOk d x.sqHead v then
      let old := rCount d x.sqHead x.sqTail
      let new := rCount d x.sqHead v
      if old ≤ new then submit f q v (new - old) s else s
    else bumpQ f q Fam.qDoorbellErrors s

/-- R79, R480: a write to cq_head. -/
def ringHead (f : Fn) (q : Nat) (v : Nat) (s : Dev) : Dev :=
  let x := s.q f q
  if x.cqState = .absent then bumpQ f q Fam.qDoorbellErrors s
  else if headOk x.cqDepth x.cqHead x.cqTail v then s.setQ f q { x with cqHead := v }
  else bumpQ f q Fam.qDoorbellErrors s

/-- SQ_TAIL_DOORBELL (R78). -/
def tailDoorbell (r : Req) (q : Nat) (v : Word) (s : Dev) : Dev :=
  if q < queueLimit r.toFn then hostAccess r (ringTail r.toFn q v.toNat) s else s

/-- CQ_HEAD_DOORBELL (R79). -/
def headDoorbell (r : Req) (q : Nat) (v : Word) (s : Dev) : Dev :=
  if q < queueLimit r.toFn then hostAccess r (ringHead r.toFn q v.toNat) s else s

def execSqTailDoorbell (r : Req) (q : Nat) (v : Word) (s : State) : Host.Outcome State Fault Refusal :=
  onDev s (fun s => tailDoorbell r q v s)

def execCqHeadDoorbell (r : Req) (q : Nat) (v : Word) (s : State) : Host.Outcome State Fault Refusal :=
  onDev s (fun s => headDoorbell r q v s)

/-! ### Slots (R67, R95) -/

/-- The lowest free device queue slot (log entry 14). -/
def freeSlot (s : Dev) : Option Nat := (List.range 4096).find? fun k => (tfind s.cm.slots k).isNone

/-- Slots a function holds. -/
def slotsHeld (s : Dev) (f : Fn) : Nat := (s.cm.slots.filter fun e => e.2 / 1024 == packFn f).length

/-- R67: the limit, if any, that a new slot of this function would break: its quota 0x01, the device's 4,096 0x02. -/
def slotRefusal (s : Dev) (f : Fn) : Option Nat :=
  if (if s.isAdmin f then 1024 else (s.fnS f).quota) ≤ slotsHeld s f then some 0x01
  else if 4096 ≤ s.cm.slots.length then some 0x02
  else none

/-- Give the queue number a slot if it holds none; the slot's counters restart from 0 (R95). -/
def takeSlot (f : Fn) (q : Nat) (s : Dev) : Dev :=
  match (s.q f q).slot with
  | some _ => s
  | none =>
    match freeSlot s with
    | none => s
    | some k =>
      let s := { s with cm := { s.cm with slots := tput s.cm.slots k (qKey f q) } }
      let x := s.q f q
      let s := s.setQ f q { x with slot := some k }
      [Fam.qCqStalls, Fam.qDoorbellErrors, Fam.qInlineAccepted, Fam.qInlineRejected, Fam.qOverflowPeak].foldl
        (fun s fam => s.setVal fam k 0) s

/-- Release the slot when neither ring exists. -/
def dropSlot (f : Fn) (q : Nat) (s : Dev) : Dev :=
  let x := s.q f q
  match x.slot with
  | some k =>
    if x.sqState = .absent ∧ x.cqState = .absent then
      let s := s.setQ f q { x with slot := none }
      { s with cm := { s.cm with slots := tdel s.cm.slots k } }
    else s
  | none => s

/-! ### Creation and deletion (R70, R93), shared by the doorbell page and the admin commands -/

/-- The checks of Create CQ on the registers of the page `x`: status, qualifier. Which of several that fail is reported, and that a vector
out of range is INVALID_FIELD at 0x34, are the model's (DESIGN CHOICE, log entry 75). -/
def createCqCheck (s : Dev) (f : Fn) (q : Nat) (x : QState) : Option (Nat × Nat) :=
  if unbound s f then some (0x05, 0x20)
  else if x.cqState ≠ .absent then some (0x05, 0x21)
  else if x.cqBase.toNat % 4096 ≠ 0 then some (0x02, 0x28)
  else if x.cqDepthM1 = 0 then some (0x02, 0x30)
  else if vectorCount f ≤ x.vector then some (0x02, 0x34)
  else if (s.q f q).slot.isNone then (slotRefusal s f).map (0x0F, ·)
  else none

/-- Create CQ once its checks have passed. -/
def makeCq (f : Fn) (q : Nat) (x : QState) (s : Dev) : Dev :=
  let s := takeSlot f q (s.setQ f q { x with
    cqState := .active, cqHead := 0, cqTail := 0, overflow := [], parked := [], unsignalled := 0 })
  match (s.q f q).slot with
  | some k => (s.setVal Fam.qCqStalls k 0).setVal Fam.qOverflowPeak k 0
  | none => s

/-- The checks of Create SQ, in the same order (DESIGN CHOICE, log entry 75). -/
def createSqCheck (s : Dev) (f : Fn) (q : Nat) (x : QState) : Option (Nat × Nat) :=
  if unbound s f then some (0x05, 0x20)
  else if x.sqState ≠ .absent then some (0x05, 0x21)
  else if x.sqBase.toNat % 4096 ≠ 0 then some (0x02, 0x28)
  else if x.sqDepthM1 = 0 then some (0x02, 0x30)
  else if queueLimit f ≤ x.boundCq then some (0x02, 0x34)
  else if (s.q f x.boundCq).cqState = .absent ∧ ¬(x.boundCq = q ∧ x.cqState ≠ .absent) then some (0x05, 0x26)
  else if (s.q f q).slot.isNone then (slotRefusal s f).map (0x0F, ·)
  else none

def makeSq (f : Fn) (q : Nat) (x : QState) (s : Dev) : Dev :=
  takeSlot f q (s.setQ f q { x with
    sqState := .active, sqHead := 0, sqTail := 0, stamps := [], inlineHeld := [], inlineReady := [], fetching := 0, drained := false
    deleter := none })

/-- Ring positions from `h` on. -/
def ringFrom (d : Nat) : Nat → Nat → List Nat
  | 0, _ => []
  | k + 1, h => h :: ringFrom d k (rNext d h)

/-- Positions as ring reads: first index and number of entries, up to eight in a read (R86). -/
def ringReads : List Nat → List (Nat × Nat)
  | [] => []
  | p :: r =>
    match ringReads r with
    | (i, n) :: t => if i = p % 65536 + 1 ∧ n < 8 then (p % 65536, n + 1) :: t else (p % 65536, 1) :: (i, n) :: t
    | [] => [(p % 65536, 1)]

/-- The entries between sq_head and sq_tail that are still in the ring alone. -/
def QState.unfetched (x : QState) : List Nat :=
  (ringFrom x.sqDepth x.sqCount x.sqHead).filter fun p => x.inlineHeld.all (·.1 != p)

/-- R89 steps 1 to 3: the SQ is DRAINING; commands not started leave the hazard and Iris queues; completions that wait in contexts are
outstanding and taken back; entries not fetched are read from the ring for their command ids. -/
def startShutdown (f : Fn) (q : Nat) (by_ : Option Nat) (s : Dev) : Dev :=
  let x := s.q f q
  let s := unpark f x.boundCq (·.sq == q) s
  let x := s.q f q
  let s := s.setQ f q { x with sqState := .draining, setupResult := 0xFF, drained := false, deleter := by_, fetching := 0 }
  let s := (ringReads x.unfetched).foldl (fun s r => readRing f (x.sqBase.toNat + 64 * r.1) (64 * r.2) s) s
  let mine := (s.ctxsOf f q).map (·.id)
  let ctxs := s.cm.ctxs.map fun c => if mine.contains c.id then { c with stopping := true } else c
  { s with cm := { s.cm with ctxs := ctxs, irisQ := s.cm.irisQ.filter fun i => !mine.contains i } }

def deleteSqCheck (s : Dev) (f : Fn) (q : Nat) : Option (Nat × Nat) :=
  if (s.q f q).sqState = .absent then some (0x05, 0x25) else none

/-- An SQ of the function is bound to the CQ. -/
def cqBound (s : Dev) (f : Fn) (q : Nat) : Bool :=
  s.cm.qs.any fun e => e.1 / 1024 == packFn f && e.2.sqState != .absent && e.2.boundCq == q

def deleteCqCheck (s : Dev) (f : Fn) (q : Nat) : Option (Nat × Nat) :=
  if (s.q f q).cqState = .absent then some (0x05, 0x25)
  else if cqBound s f q then some (0x05, 0x22)
  else none

/-- R93: the CQ becomes ABSENT; its overflow store is discarded. -/
def removeCq (f : Fn) (q : Nat) (s : Dev) : Dev :=
  let x := s.q f q
  let s := x.parked.foldl (fun s p => dropCtx p.1 s) s
  dropSlot f q (s.setQ f q { x with cqState := .absent, overflow := [], parked := [], unsignalled := 0 })

/-- setup_result (Table 3.1). -/
def setupResult (f : Fn) (q : Nat) (status : Nat) (s : Dev) : Dev :=
  let x := s.q f q
  s.setQ f q { x with setupResult := status }

/-- Table 3.7: the previous op of this queue number is in progress. -/
def opBusy (s : Dev) (f : Fn) (q : Nat) : Bool :=
  let x := s.q f q
  x.heldOp.isSome || x.sqState == .draining

/-- A firmware-activation stall holds queue ops (Table 3.7). -/
def opsHeld (s : Dev) : Bool := s.fw.activating.isSome

/-- An op through the doorbell page, performed now. -/
def pageOp (op : Nat) (f : Fn) (q : Nat) (s : Dev) : Dev :=
  let x := s.q f q
  match op with
  | 1 => match createCqCheck s f q x with
    | some e => setupResult f q e.1 s
    | none => setupResult f q 0 (makeCq f q x s)
  | 2 => match createSqCheck s f q x with
    | some e => setupResult f q e.1 s
    | none => setupResult f q 0 (makeSq f q x s)
  | 3 => match deleteSqCheck s f q with
    | some e => setupResult f q e.1 s
    | none => startShutdown f q none s
  | 4 => match deleteCqCheck s f q with
    | some e => setupResult f q e.1 s
    | none => setupResult f q 0 (removeCq f q s)
  | _ => setupResult f q 0x02 s

/-- A write to op: ignored while the previous op runs, held during an activation stall (Table 3.7). -/
def pageWrite (op : Nat) (f : Fn) (q : Nat) (s : Dev) : Dev :=
  if opBusy s f q then s
  else if opsHeld s then
    let x := s.q f q
    s.setQ f q { x with heldOp := some (op, none), setupResult := 0xFF }
  else pageOp op f q s

def writeOp (op : Nat) (r : Req) (q : Nat) (s : Dev) : Dev :=
  if queueLimit r.toFn ≤ q then s else hostAccess r (pageWrite op r.toFn q) s

def execCreateCq (r : Req) (q : Nat) (s : State) : Host.Outcome State Fault Refusal := onDev s (fun s => writeOp 1 r q s)
def execCreateSq (r : Req) (q : Nat) (s : State) : Host.Outcome State Fault Refusal := onDev s (fun s => writeOp 2 r q s)
def execDeleteSq (r : Req) (q : Nat) (s : State) : Host.Outcome State Fault Refusal := onDev s (fun s => writeOp 3 r q s)
def execDeleteCq (r : Req) (q : Nat) (s : State) : Host.Outcome State Fault Refusal := onDev s (fun s => writeOp 4 r q s)

/-- The held ops of Table 3.7 are performed when fetch resumes. -/
def performHeldOps (s : Dev) : Dev :=
  (s.cm.qs.filterMap fun e => e.2.heldOp.map fun h => (e.1, h.1)).foldl (fun s e =>
    let f := unpackFn (e.1 / 1024)
    let q := e.1 % 1024
    let x := s.q f q
    pageOp e.2 f q (s.setQ f q { x with heldOp := none })) s

/-! ### Shutdown (R89 to R92) -/

/-- R89 step 4: the started commands of the SQ have stopped at an atomic-unit boundary or run to their end; nothing more is
transferred for it. -/
def shutdownDrained (f : Fn) (q : Nat) (s : Dev) : Dev :=
  let x := s.q f q
  if x.sqState = .draining ∧ s.hostRuns = true then
    let mine := (s.ctxsOf f q).map (·.id)
    let s := pruneJobs (fun c => !mine.contains c) s
    s.setQ f q { x with drained := true }
  else s

/-- R90: how far a command went, by where it stands or by how it ended: unstarted, part-way, or to its end. A failed check leaves nothing
changed; a command that changes blocks and fails leaves part of them (Table 4.7). -/
def abortQualifier (c : Ctx) : Nat :=
  match c.phase with
  | .started => 0x01
  | .ended =>
    match c.ended with
    | none => 0x02
    | some (status, qual) =>
      if status = 0x00 then 0x02
      else if status = 0x06 ∨ status = 0x07 ∨ status = 0x08 then qual
      else if status = 0x09 ∨ status = 0x0A ∨ (status = 0x0E ∧ qual ≠ 1) then
        (if changesBlocks (eOpcode c.raw) then 0x01 else 0x02)
      else 0x00
  | _ => 0x00

/-- The entry of an SQ whose command id alone is known; 0xFFFF where the ring read failed (R91). -/
def cidEntry (cid : Option Half) : BitVec 512 := ((cid.getD 0xFFFF).zeroExtend 512) <<< 16

/-- One ABORTED_QUEUE completion of the entry at sq_head, never executed: an inline entry has its own command id, another the next of
those read from the ring. -/
def abortUnfetched (f : Fn) (q : Nat) : List (Option Half) → Dev → List Nat → List (Option Half) × Dev
  | cids, s, [] => (cids, s)
  | cids, s, p :: r =>
    let x := s.q f q
    let st := x.stamps.headD 0
    let held := x.inlineHeld.find? (·.1 == p)
    let raw := match held with | some e => e.2.entry.raw | none => cidEntry (cids.headD none)
    let rest := if held.isSome then cids else cids.drop 1
    let s := s.setQ f q { x with
      sqHead := rNext x.sqDepth x.sqHead, stamps := x.stamps.drop 1, inlineHeld := x.inlineHeld.filter (·.1 != p) }
    abortUnfetched f q rest (endUnstarted f q st 0x08 raw held.isNone s) r

/-- The inline entries of an SQ that are consumed and wait for room complete without having started. -/
def abortReady (f : Fn) (q status : Nat) (s : Dev) : Dev :=
  let x := s.q f q
  x.inlineReady.foldl (fun s r => endUnstarted f q r.1 status r.2.entry.raw false s) (s.setQ f q { x with inlineReady := [] })

/-- Nothing of the SQ waits in the overflow store or a context of its CQ. -/
def cqClear (s : Dev) (f : Fn) (q : Nat) : Bool :=
  let y := s.boundCq f q
  y.overflow.all (·.sq != q) && y.parked.all (·.2.sq != q)

/-- R89 step 6: the SQ is freed, and the admin command that deleted it completes. -/
def freeSq (f : Fn) (q : Nat) (s : Dev) : Dev :=
  let x := s.q f q
  let s := dropSlot f q (s.setQ f q { x with
    sqState := .absent, setupResult := 0, stamps := [], inlineHeld := [], inlineReady := [], drained := false, deleter := none })
  match x.deleter with
  | some id => finish id 0 0 0 s
  | none => settleHeld s

/-- R89 steps 5 and 6. `cids` are the command ids read from the ring for the entries not fetched, in ring order. A QUEUE_DELETE of the very
SQ that carried it is one of the outstanding commands: it completes ABORTED_QUEUE in step 5, and no second time in step 6, where R89 says
neither (DESIGN CHOICE, log entry 75). -/
def shutdownFinish (f : Fn) (q : Nat) (cids : List (Option Half)) (s : Dev) : Dev :=
  let x := s.q f q
  if x.sqState = .draining ∧ x.drained = true ∧ s.hostRuns = true then
    let parked := (s.boundCq f q).parked.map (·.1)
    let s := ((s.ctxsOf f q).filter fun c => !parked.contains c.id).foldl
      (fun s c => endCtx0 c.id 0x08 (abortQualifier c) 0 s) s
    let s := (abortUnfetched f q cids (abortReady f q 0x08 s) (ringFrom x.sqDepth x.sqCount x.sqHead)).2
    if cqClear s f q then freeSq f q s else s
  else s

def execSqShutdownDrained (f : Fn) (q : Nat) (s : State) : Host.Outcome State Fault Refusal :=
  onDev s (fun s => shutdownDrained f q s)

def execSqShutdownFinish (f : Fn) (q : Nat) (cids : List (Option Half)) (s : State) : Host.Outcome State Fault Refusal :=
  onDev s (fun s => shutdownFinish f q cids s)

/-! ### Inline push (R82, R83, R85) -/

/-- Table 3.5. -/
def inlineOk (s : Dev) (f : Fn) (q slot : Nat) (whole : Bool) (raw : BitVec 512) : Bool :=
  let x := s.q f q
  x.inlineEn && s.sqRuns f q && whole && slot == eRingIndex raw % 8 && eRingIndex raw == x.sqTail % 65536
    && decide (x.sqCount < x.sqDepth)

/-- R82, R83. -/
def pushInline (f : Fn) (q slot : Nat) (whole : Bool) (e : Fetched) (s : Dev) : Dev :=
  if inlineOk s f q slot whole e.raw then
    let x := s.q f q
    let s := submit f q (rNext x.sqDepth x.sqTail) 1 s
    let y := s.q f q
    let s := bumpQ f q Fam.qInlineAccepted (s.setQ f q { y with
      inlineHeld := y.inlineHeld ++ [(x.sqTail, { entry := e, covers := flushCovers s f q e.raw })] })
    consumeInline f q s
  else bumpQ f q Fam.qInlineRejected s

def execInlinePush (r : Req) (q slot : Nat) (whole : Bool) (e : Fetched) (s : State) : Host.Outcome State Fault Refusal :=
  onDev s (fun s => if q < queueLimit r.toFn then hostAccess r (pushInline r.toFn q slot whole e) s else s)

/-! ### Fetch (R86) -/

/-- Entries one read may cover: up to eight, up to the next inline entry, up to the end of the ring, and within R113. -/
def fetchCount (s : Dev) (f : Fn) (q : Nat) : Nat :=
  let x := s.q f q
  let upTo := match x.inlineHeld with
    | (p, _) :: _ => rCount x.sqDepth x.sqHead p
    | [] => x.sqCount
  min (min 8 upTo) (min (x.sqDepth - x.sqHead % 65536)
    (min (256 - (s.ctxsOf f q).length) (65536 - s.cm.ctxs.length)))

/-- SQ_FETCH (R86): one read request from sq_head towards sq_tail, once every inline entry consumed before has gone on to the checks
(R85). -/
def fetchRing (f : Fn) (q : Nat) (s : Dev) : Dev :=
  let s := if s.sqRuns f q = true ∧ (s.q f q).fetching = 0 then consumeInline f q s else s
  let x := s.q f q
  let n := fetchCount s f q
  if s.sqRuns f q = true ∧ x.fetching = 0 ∧ x.inlineReady = [] ∧ 0 < n then
    readRing f (x.sqBase.toNat + 64 * (x.sqHead % 65536)) (64 * n) (s.setQ f q { x with fetching := n })
  else s

/-- SQ_FETCH_COMPLETE (R76, R86): the entries are consumed in ring order; a failed read stops the SQ. A read that returns when
fetch has stopped consumes nothing, and its entries are read again later. -/
def fetchDone (f : Fn) (q : Nat) (entries : Option (List Fetched)) (s : Dev) : Dev :=
  let x := s.q f q
  if x.fetching = 0 then s
  else
    let s := s.setQ f q { x with fetching := 0 }
    match entries with
    | none => stopSq f q s
    | some es =>
      if s.sqRuns f q then
        consumeInline f q ((es.take x.fetching).foldl (fun s e => if s.room f q 1 then consumeNext f q e s else s) s)
      else s

def execSqFetch (f : Fn) (q : Nat) (s : State) : Host.Outcome State Fault Refusal := onDev s (fun s => fetchRing f q s)

def execSqFetchComplete (f : Fn) (q : Nat) (entries : Option (List Fetched)) (s : State) :
    Host.Outcome State Fault Refusal :=
  onDev s (fun s => fetchDone f q entries s)

/-! ### Overflow and coalescing (R87, R88, R81) -/

/-- OVERFLOW_DRAIN: stored completions are written while the CQ has space; then the commands they release go on. -/
def drainOverflow (f : Fn) (q : Nat) (s : Dev) : Dev :=
  if s.hostRuns then
    let x := s.q f q
    settleHeld (drainCq (x.overflow.length + x.parked.length + 1) f q s)
  else s

def coalesceExpire (f : Fn) (q : Nat) (s : Dev) : Dev :=
  let x := s.q f q
  if x.cqState ≠ .absent ∧ x.irqEn = true ∧ 0 < x.unsignalled then signal f q s else s

def execOverflowDrain (f : Fn) (q : Nat) (s : State) : Host.Outcome State Fault Refusal := onDev s (fun s => drainOverflow f q s)
def execCoalesceTimerExpire (f : Fn) (q : Nat) (s : State) : Host.Outcome State Fault Refusal := onDev s (fun s => coalesceExpire f q s)

/-! ### QUEUE_CREATE and QUEUE_DELETE (R108, Table 4.6) -/

/-- The function and queue number that W0 names. -/
def namedQueue (raw : BitVec 512) : Fn × Nat :=
  let w := eWord raw 0
  (⟨w % 16, w / 16 % 128⟩, w / 2048 % 1024)

/-- Fields of QUEUE_CREATE and QUEUE_DELETE found invalid: W0, W1 (an op of the other command), then the unused bits of W4 and W6, unless a
lower-addressed field is invalid too (R98): the base, the depth, or what W5 gives (R70). -/
def queueField (raw : BitVec 512) (ops : List Nat) : Option Nat :=
  let w0 := eWord raw 0
  let (f, q) := namedQueue raw
  let w5 := if eWord raw 1 = 1 then decide (vectorCount f ≤ bits (eWord raw 5) 18 8) else decide (queueLimit f ≤ bits (eWord raw 5) 29 20)
  if 2 ^ 21 ≤ w0 ∨ 64 < f.fn ∨ queueLimit f ≤ q then some 0x20
  else if !ops.contains (eWord raw 1) then some 0x24
  else if eOpcode raw == 0x80 && (decide (65536 ≤ eWord raw 4) || decide (65536 ≤ eWord raw 6)) then
    if eWord raw 2 % 4096 ≠ 0 then some 0x28
    else if 65536 ≤ eWord raw 4 ∨ eWord raw 4 = 0 then some 0x30
    else if w5 then some 0x34
    else some 0x38
  else none

/-- The page as QUEUE_CREATE would have software write it. -/
def createPage (raw : BitVec 512) (cq : Bool) (x : QState) : QState :=
  let base := BitVec.ofNat 64 (eWord raw 2 + 2 ^ 32 * eWord raw 3)
  let w5 := eWord raw 5
  if cq then { x with cqBase := base, cqDepthM1 := eWord raw 4, irqEn := bit w5 30, vector := bits w5 18 8
                      coalTime := bits (eWord raw 6) 15 8, coalCount := bits (eWord raw 6) 7 0 }
  else { x with sqBase := base, sqDepthM1 := eWord raw 4, inlineEn := bit w5 31, boundCq := bits w5 29 20 }

/-- R68: a check that fails leaves its status in setup_result, as the op of the doorbell page does. -/
def adminCreate (cq : Bool) (c : Ctx) (s : Dev) : Dev :=
  let (f, q) := namedQueue c.raw
  match queueField c.raw [1, 2] with
  | some o => badFieldAt c.id o s
  | none =>
    if opBusy s f q then conflict c.id 0x23 s
    else
      let x := createPage c.raw cq (s.q f q)
      match (if cq then createCqCheck s f q x else createSqCheck s f q x) with
      | some e => finish c.id e.1 e.2 0 (setupResult f q e.1 s)
      | none => okWith c.id 0 (setupResult f q 0 (if cq then makeCq f q x s else makeSq f q x s))

def adminDeleteSq (c : Ctx) (s : Dev) : Dev :=
  let (f, q) := namedQueue c.raw
  match queueField c.raw [3, 4] with
  | some o => badFieldAt c.id o s
  | none =>
    if opBusy s f q then conflict c.id 0x23 s
    else match deleteSqCheck s f q with
      | some e => finish c.id e.1 e.2 0 (setupResult f q e.1 s)
      | none => startShutdown f q (some c.id) s

def adminDeleteCq (c : Ctx) (s : Dev) : Dev :=
  let (f, q) := namedQueue c.raw
  match queueField c.raw [3, 4] with
  | some o => badFieldAt c.id o s
  | none =>
    if opBusy s f q then conflict c.id 0x23 s
    else match deleteCqCheck s f q with
      | some e => finish c.id e.1 e.2 0 (setupResult f q e.1 s)
      | none => okWith c.id 0 (setupResult f q 0 (removeCq f q s))

/-- QUEUE_CREATE with op 1; an op that is no create op is refused here. -/
def execQueueCreateCq (s : State) : Host.Outcome State Fault Refusal :=
  onDev s (fun s => withAdmin 0x80 (fun r => eWord r 1 != 2) (adminCreate true) s)

def execQueueCreateSq (s : State) : Host.Outcome State Fault Refusal :=
  onDev s (fun s => withAdmin 0x80 (fun r => eWord r 1 == 2) (adminCreate false) s)

def execQueueDeleteSq (s : State) : Host.Outcome State Fault Refusal :=
  onDev s (fun s => withAdmin 0x81 (fun r => eWord r 1 == 3) adminDeleteSq s)

/-- QUEUE_DELETE with op 4; an op that is no delete op is refused here. -/
def execQueueDeleteCq (s : State) : Host.Outcome State Fault Refusal :=
  onDev s (fun s => withAdmin 0x81 (fun r => eWord r 1 != 3) adminDeleteCq s)

end Sys2Proof.Machine
end

