-- ==== Sys2Proof/Machine/Iris.lean ====
section
/-!
DEFINITION. Iris admission (R135 to R142), tenants and functions (R47, R139, R148, R149), meters and device time
(R150 to R159). Bucket levels are kept × 10^9, so that a refill over nanoseconds is exact.
-/

namespace Sys2Proof.Machine

/-! ### Buckets (R137, R141) -/

/-- R137: `x = min(b, x + r * dt)`. -/
def refill (level : Int) (rate depth dt : Nat) : Int := min (depth * 1000000000 : Int) (level + rate * dt)

/-- A tenant's byte rate in B/s and byte depth in B (Table 5.2). -/
def Tenant.byteRateB (x : Tenant) : Nat := x.byteRate * 1000000
def Tenant.byteDepthB (x : Tenant) : Nat := x.byteDepth * 1024

/-- Both levels brought up to `now`. -/
def Tenant.refilled (x : Tenant) (now : Nat) : Tenant :=
  let dt := now - x.last
  { x with
    opLevel := if x.opRate = 0 then 0 else refill x.opLevel x.opRate x.opDepth dt
    byteLevel := if x.byteRate = 0 then 0 else refill x.byteLevel x.byteRateB x.byteDepthB dt
    last := now }

/-- R21: the level of a bucket (× 10^9) under a new rate and depth: none at rate 0, full where there was none, else the old one clamped. -/
def newLevel (oldRate : Nat) (level : Int) (rate depth : Nat) : Int :=
  if rate = 0 then 0 else if oldRate = 0 then depth * 1000000000 else min level (depth * 1000000000)

/-- An entry of Table 5.2 over the old one, whole (R21): by TENANT_SET, from the settings at a start, or from the LEAD. -/
def Tenant.withEntry (x : Tenant) (opRate opDepth byteRate byteDepth w1 w2 quota now : Nat) : Tenant :=
  let x := x.refilled now
  { x with
    defined := true, opRate := opRate, opDepth := opDepth, byteRate := byteRate, byteDepth := byteDepth, w1 := w1, w2 := w2
    quota := quota
    opLevel := newLevel x.opRate x.opLevel opRate opDepth
    byteLevel := newLevel x.byteRate x.byteLevel byteRate (byteDepth * 1024) }

/-- R151: a tenant's entry with the counters of another, which nothing but METER_ROLLOVER resets. -/
def Tenant.withCounters (e x : Tenant) : Tenant :=
  { e with
    blocksRead := x.blocksRead, blocksWritten := x.blocksWritten, commands := x.commands, c0Commands := x.c0Commands, busyUs := x.busyUs
    capSeconds := x.capSeconds, encBlocks := x.encBlocks, rollover := x.rollover, rolloverFlag := x.rolloverFlag
    lastRecord := x.lastRecord, deleting := x.deleting }

/-- R137: byte cost of a command. -/
def byteCost (raw : BitVec 512) : Nat :=
  let op := eOpcode raw
  if op == opRead || op == opWrite || op == opZeroes || op == opCopy then eNblk raw * 4096 else 0

/-- R137: the two conditions of a tenant's buckets (levels refilled). -/
def Tenant.admits (x : Tenant) (bytes : Nat) : Bool :=
  (x.opRate == 0 || decide (1000000000 ≤ x.opLevel))
    && (x.byteRate == 0 || decide ((min bytes x.byteDepthB : Nat) * 1000000000 ≤ x.byteLevel))

/-- Both costs are subtracted. -/
def Tenant.charge (x : Tenant) (bytes : Nat) : Tenant :=
  { x with
    opLevel := if x.opRate = 0 then x.opLevel else x.opLevel - 1000000000
    byteLevel := if x.byteRate = 0 then x.byteLevel else x.byteLevel - bytes * 1000000000 }

/-- R141: payload capacity in B/s by speed (1 to 5) and width. -/
def portCapacity (speed width : Nat) : Nat :=
  [0, 900000000, 1800000000, 3600000000, 7250000000, 14500000000].getD speed 0 * width / 4

/-- R141: the reservation's rate in B/s. -/
def reserveRate (s : Dev) (n : Nat) : Nat :=
  portCapacity (s.port n).speed (s.port n).width * s.val Fam.irisPortC0Reserve n / 100

/-- R141: a reservation's level now, × 10^9, from what it was at the last update; its depth is 256 KiB; at 0 percent it stays 0. -/
def reserveLevel (s : Dev) (n : Nat) (l : Lane) : Int :=
  if s.val Fam.irisPortC0Reserve n = 0 then 0
  else refill l.c0Level (reserveRate s n) 262144 (s.tm.now - (s.port n).c0Last)

/-- Both levels of a port brought up to now, as before each draw and each change of the percentage or of the link's capacity. -/
def settleReserve (n : Nat) (s : Dev) : Dev :=
  let x := s.port n
  s.setPort n { x with
    toHost := { x.toHost with c0Level := reserveLevel s n x.toHost }
    fromHost := { x.fromHost with c0Level := reserveLevel s n x.fromHost }
    c0Last := s.tm.now }

/-- A command whose bytes travel towards the host; the byte cost of every other is taken as travelling from it (DESIGN CHOICE, log
entry 76). -/
def towardsHost (raw : BitVec 512) : Bool := eOpcode raw == opRead

def HostPort.lane (x : HostPort) (up : Bool) : Lane := if up then x.toHost else x.fromHost
def HostPort.setLane (x : HostPort) (up : Bool) (l : Lane) : HostPort := if up then { x with toHost := l } else { x with fromHost := l }

/-- R142: draw a class-0 command's cost; none when the reservation of its direction cannot serve it at once. -/
def drawReserve (s : Dev) (n : Nat) (up : Bool) (bytes : Nat) : Option Dev :=
  if bytes = 0 then some s
  else
    let s := settleReserve n s
    let l := (s.port n).lane up
    if (min bytes 262144 : Nat) * 1000000000 ≤ l.c0Level then
      some (s.setPort n ((s.port n).setLane up { l with c0Level := l.c0Level - bytes * 1000000000 }))
    else none

/-! ### Lane 2 (R140) -/

/-- A command that lane 2 carries with data of a host port: a READ or WRITE of class 1 or 2. The others take no share of a port
(DESIGN CHOICE, log entry 76). -/
def sharesPort (c : Ctx) : Bool := c.cls != 0 && (eOpcode c.raw == opRead || eOpcode c.raw == opWrite)

/-- R140: a flow's quantum, w × 4 KiB. -/
def quantum (s : Dev) (fl : Flow) : Nat :=
  let x := match fl.tenant with | some t => s.ten t | none => Tenant.undefined
  4096 * (if fl.cls = 1 then x.w1 else x.w2)

/-- The flow at the head of the round has its turn and receives its quantum. -/
def takeTurn (s : Dev) : List Flow → List Flow
  | [] => []
  | fl :: r => { fl with deficit := fl.deficit + quantum s fl } :: r

/-- R140: deficit round robin: the command served next, and the flows after it. A flow with nothing waiting leaves the round with its
deficit; one whose first command exceeds its deficit goes to the end of the round. `fuel` bounds the turns. -/
def serveLane (s : Dev) : Nat → List Flow → Option (Nat × List Flow)
  | 0, _ => none
  | _, [] => none
  | k + 1, fl :: r =>
    match fl.waiting with
    | [] => serveLane s k (takeTurn s r)
    | id :: w =>
      let cost := ((s.ctx? id).map fun c => byteCost c.raw).getD 0
      if cost ≤ fl.deficit then some (id, { fl with deficit := if w.isEmpty then 0 else fl.deficit - cost, waiting := w } :: r)
      else serveLane s k (takeTurn s (r ++ [fl]))

/-- A lane with the commands alone that still wait in it. -/
def Lane.live (s : Dev) (l : Lane) : Lane :=
  let waits (i : Nat) : Bool := ((s.ctx? i).map fun c => c.phase == .admitted && !c.stopping).getD false
  { l with flows := l.flows.map fun fl => { fl with waiting := fl.waiting.filter waits } }

/-- The turns that serve the largest command (65,535 blocks) at the smallest quantum, for each flow. -/
def laneTurns (l : Lane) : Nat := 65537 * (l.flows.length + 1)

/-- A command is admitted to lane 2: its flow has it last. -/
def joinLane (c : Ctx) (s : Dev) : Dev :=
  let x := s.port c.fn.port
  let up := towardsHost c.raw
  let l := x.lane up
  let mine (fl : Flow) : Bool := fl.tenant == c.tenant && fl.cls == c.cls
  let flows := if l.flows.any mine then l.flows.map fun fl => if mine fl then { fl with waiting := fl.waiting ++ [c.id] } else fl
    else l.flows ++ [{ tenant := c.tenant, cls := c.cls, deficit := 0, waiting := [c.id] }]
  s.setPort c.fn.port (x.setLane up { l with flows := flows })

/-- The command may enter its port now: not of lane 2, or the one that lane 2 serves next. -/
def laneTurn (c : Ctx) (s : Dev) : Option Dev :=
  if sharesPort c then
    let x := s.port c.fn.port
    let up := towardsHost c.raw
    let l := (x.lane up).live s
    match serveLane s (laneTurns l) l.flows with
    | some (id, flows) => if id = c.id then some (s.setPort c.fn.port (x.setLane up { l with flows := flows })) else none
    | none => none
  else some s

/-! ### Admission (R136, R137, R142) -/

/-- The head of the list of a tenant and class. -/
def irisHead (s : Dev) (tenant : Option Nat) (cls : Nat) : Option Ctx :=
  (s.cm.irisQ.filterMap s.ctx?).find? fun c => c.tenant == tenant && eClass c.raw == cls

/-- The command leaves Iris; a demoted one travels as class 1. -/
def admitted (id cls : Nat) (demoted : Bool) (s : Dev) : Dev :=
  let s := s.modCtx id fun c => { c with phase := .admitted, passed := true, cls := cls, demoted := demoted }
  let s := { s with cm := { s.cm with irisQ := s.cm.irisQ.filter (· != id) } }
  match s.ctx? id with
  | some c => if sharesPort c then joinLane c s else s
  | none => s

/-- R142, once the tenant's buckets have admitted the command. -/
def admitClass (c : Ctx) (s : Dev) : Dev :=
  if eClass c.raw = 0 then
    match drawReserve s c.fn.port (towardsHost c.raw) (byteCost c.raw) with
    | some s' => admitted c.id 0 false s'
    | none => admitted c.id 1 true (s.bump Fam.irisPortC0Demoted c.fn.port)
  else admitted c.id (eClass c.raw) false s

/-- IRIS_ADMIT (R137): the head of a tenant's list of a class is admitted if its buckets allow, and else stays. -/
def irisAdmit (tenant : Option Nat) (cls : Nat) (s : Dev) : Dev :=
  match irisHead s tenant cls with
  | none => s
  | some c =>
    if !s.hostRuns then s
    else
      match tenant with
      | none => admitClass c s
      | some t =>
        if isolatedFn s c.fn && !s.isAdmin c.fn then s
        else
          let x := (s.ten t).refilled s.tm.now
          if x.admits (byteCost c.raw) then admitClass c (s.setTen t (x.charge (byteCost c.raw))) else s

def execIrisAdmit (tenant : Option Nat) (cls : Nat) (s : State) : Host.Outcome State Fault Refusal :=
  onDev s (fun s => irisAdmit tenant cls s)

/-! ### Tenants (R139, R21) -/

/-- The entry of Table 5.2 over the old one: R21's rules for the levels. -/
def Tenant.replace (x : Tenant) (raw : BitVec 512) (now : Nat) : Tenant :=
  x.withEntry (eWord raw 1) (eWord raw 2) (eWord raw 3) (eWord raw 4) (bits (eWord raw 5) 7 0) (bits (eWord raw 5) 15 8)
    (eWord raw 6 + 2 ^ 32 * eWord raw 7) now

def definedTenants (s : Dev) : List Nat := (s.tenants.filter (·.2.defined)).map (·.1)

def adminTenantSet (c : Ctx) (s : Dev) : Dev :=
  let t := eWord c.raw 0 % 4096
  match tenantField c.raw with
  | some o => badFieldAt c.id o s
  | none =>
    if s.mt.enabled && !(s.ten t).defined && decide (s.mt.depth ≤ (definedTenants s).length) then conflict c.id 0x19 s
    else okWith c.id 0 (s.setTen t ((s.ten t).replace c.raw s.tm.now))

/-- A tenant owns functions or volumes. -/
def ownsAny (s : Dev) (t : Nat) : Bool :=
  s.fns.any (fun e => e.2.bound == some t) || s.vols.any (fun e => e.2.tenant == t)

/-- R139, R160: the counters go with the next snapshot. The entry is that of a tenant never set, and a later TENANT_SET finds every bucket
without a level (DESIGN CHOICE, log entry 81). -/
def adminTenantDelete (c : Ctx) (s : Dev) : Dev :=
  let t := eWord c.raw 0 % 4096
  if stray c.raw 0 0x80000FFF then badFieldAt c.id 0x20 s
  else if !(s.ten t).defined then okWith c.id 0 s
  else if ownsAny s t then conflict c.id 0x14 s
  else okWith c.id 0 (s.setTen t { Tenant.undefined.withCounters (s.ten t) with deleting := true })

def execTenantSet (s : State) : Host.Outcome State Fault Refusal :=
  onDev s (fun s => withAdmin 0x8B (fun r => !bit (eWord r 0) 31) adminTenantSet s)
def execTenantDelete (s : State) : Host.Outcome State Fault Refusal :=
  onDev s (fun s => withAdmin 0x8B (fun r => bit (eWord r 0) 31) adminTenantDelete s)

/-! ### Binding (R46, R47) -/

def bindFn (raw : BitVec 512) : Fn := ⟨eWord raw 0 % 16, eWord raw 0 / 16 % 128⟩

/-- Qualifier 0x20 of R47. -/
def bindTarget (s : Dev) (raw : BitVec 512) : Bool :=
  stray raw 0 0x800007FF || decide (64 < (bindFn raw).fn) || s.isAdmin (bindFn raw)

def adminBind (c : Ctx) (s : Dev) : Dev :=
  let f := bindFn c.raw
  let t := eWord c.raw 1 % 4096
  let quota := eWord c.raw 2
  if bindTarget s c.raw then badFieldAt c.id 0x20 s
  else if stray c.raw 1 0xFFF || !(s.ten t).defined then badFieldAt c.id 0x24 s
  else if quota = 0 ∨ queueLimit f < quota ∨ quota < slotsHeld s f then badFieldAt c.id 0x28 s
  else if (s.fnS f).bound ≠ some t ∧ 0 < slotsHeld s f then conflict c.id 0x24 s
  else
    let s := s.setFn f { s.fnS f with bound := some t, quota := quota }
    okWith c.id 0 (if s.fnExists f then setSummary 1 (isolatedFn s f) s f else s)

def adminUnbind (c : Ctx) (s : Dev) : Dev :=
  let f := bindFn c.raw
  if bindTarget s c.raw then badFieldAt c.id 0x20 s
  else if 0 < slotsHeld s f then conflict c.id 0x24 s
  else
    let s := s.setFn f { s.fnS f with bound := none, quota := 0 }
    okWith c.id 0 (if s.fnExists f then setSummary 1 false s f else s)

def execFunctionBind (s : State) : Host.Outcome State Fault Refusal :=
  onDev s (fun s => withAdmin 0x8C (fun r => !bit (eWord r 0) 31) adminBind s)
def execFunctionUnbind (s : State) : Host.Outcome State Fault Refusal :=
  onDev s (fun s => withAdmin 0x8C (fun r => bit (eWord r 0) 31) adminUnbind s)

/-! ### Isolation (R148, R149) -/

/-- Commands of the tenant's own functions in flight. -/
def tenantCtxs (s : Dev) (t : Nat) : List Ctx :=
  s.cm.ctxs.filter fun c => !s.isAdmin c.fn && (s.fnS c.fn).bound == some t && c.phase != .ended

def notStarted (c : Ctx) : Bool := c.phase == .held || c.phase == .iris || c.phase == .admitted

/-- Table 5.3 steps 1 to 3. -/
def adminIsolate (c : Ctx) (s : Dev) : Dev :=
  let t := eWord c.raw 0 % 4096
  if stray c.raw 0 0xFFF || !(s.ten t).defined then badFieldAt c.id 0x20 s
  else if (s.ten t).isolated then okWith c.id 0 s
  else
    let s := s.setTen t { s.ten t with isolated := true }
    let all := tenantCtxs s t
    let idle := (all.filter notStarted).map (·.id)
    let live := (all.filter (!notStarted ·)).map (·.id)
    let s := live.foldl (fun s i => s.modCtx i fun c => { c with stopping := true }) s
    let s := idle.foldl (fun s i => endCtx i 0x06 0x00 0 s) s
    { s with cm := { s.cm with isolating := some (t, c.id, idle.length) } }

/-- Table 5.3 steps 4 and 5: what had started and has not finished stops at its atomic-unit boundary. -/
def isolationComplete (s : Dev) : Dev :=
  match s.cm.isolating with
  | none => s
  | some (t, id, n) =>
    if s.hostRuns then
      let live := ((tenantCtxs s t).filter (·.stopping)).map (·.id)
      let s := live.foldl (fun s i => endCtx i 0x06 0x01 0 (dropWork i s)) s
      let s := { s with cm := { s.cm with isolating := none } }
      let s := s.allFns.foldl (fun s f => if (s.fnS f).bound = some t then setSummary 1 true s f else s) s
      okWith id (n + live.length) s
    else s

def adminRelease (c : Ctx) (s : Dev) : Dev :=
  let t := eWord c.raw 0 % 4096
  if stray c.raw 0 0xFFF || !(s.ten t).defined then badFieldAt c.id 0x20 s
  else
    let s := s.setTen t { s.ten t with isolated := false }
    okWith c.id 0 (s.allFns.foldl (fun s f => if (s.fnS f).bound = some t then setSummary 1 false s f else s) s)

def execTenantIsolate (s : State) : Host.Outcome State Fault Refusal :=
  onDev s (fun s => withAdmin 0x8D (fun _ => true) adminIsolate s)
def execTenantRelease (s : State) : Host.Outcome State Fault Refusal :=
  onDev s (fun s => withAdmin 0x8E (fun _ => true) adminRelease s)

/-! ### Device time (R157) -/

/-- Step device time; a step across a minute edge marks the next snapshot (R155, R158). -/
def stepTime (t : Nat) (s : Dev) : Dev :=
  let t := if t < 2 ^ 64 then t else Config.freeNat s.fresh % 2 ^ 64
  let crossed := t / 60000000000 != s.tm.device / 60000000000
  let s := { s with tm := { s.tm with device := t }, mt := { s.mt with stepped := s.mt.stepped || crossed } }
  s.draw.bump Fam.timeSteps

/-- TIME_SET. -/
def adminTimeSet (c : Ctx) (s : Dev) : Dev :=
  let ns := eWord c.raw 2
  if 1000000000 ≤ ns then badFieldAt c.id 0x28 s
  else if s.val Fam.timeSource = 2 then okWith c.id 1 s
  else
    let secs := eWord c.raw 0 + 2 ^ 32 * eWord c.raw 1
    okWith c.id 0 ((stepTime (secs * 1000000000 + ns) s).setVal Fam.timeSource 0 1)

def execTimeSet (s : State) : Host.Outcome State Fault Refusal := onDev s (fun s => withAdmin 0x97 (fun _ => true) adminTimeSet s)

/-! ### The meter ring (R153, R154) -/

def adminMeterRing (c : Ctx) (s : Dev) : Dev :=
  let base := eWord c.raw 0 + 2 ^ 32 * eWord c.raw 1
  let depth := eWord c.raw 2 + 1
  if base % 4096 ≠ 0 then badFieldAt c.id 0x20 s
  else if stray c.raw 2 0xFFFF || decide (depth < 2) || decide (depth < (definedTenants s).length) then badFieldAt c.id 0x28 s
  else if stray c.raw 3 0x800007FF then badFieldAt c.id 0x2C s
  else
    let s := { s with mt := { s.mt with base := BitVec.ofNat 64 base, depth := depth, enabled := bit (eWord c.raw 3) 31
                                        vector := bits (eWord c.raw 3) 10 0 } }
    okWith c.id 0 ((s.setVal Fam.meterRingHead 0 0).setVal Fam.meterRingTail 0 0)

/-- R156. An undefined tenant is named without effect (DESIGN CHOICE, log entry 76). -/
def adminRollover (c : Ctx) (s : Dev) : Dev :=
  if stray c.raw 0 0x80000FFF then badFieldAt c.id 0x20 s
  else
    let ts := if bit (eWord c.raw 0) 31 then definedTenants s else [eWord c.raw 0 % 4096]
    okWith c.id 0 (ts.foldl (fun s t => if (s.ten t).defined then s.setTen t { s.ten t with rollover := true } else s) s)

def execMeterRingSet (s : State) : Host.Outcome State Fault Refusal :=
  onDev s (fun s => withAdmin 0x95 (fun _ => true) adminMeterRing s)
def execMeterRollover (s : State) : Host.Outcome State Fault Refusal :=
  onDev s (fun s => withAdmin 0x96 (fun _ => true) adminRollover s)

/-- Records are written: in these modes (Table 1.6), and not while the device contends (Table 13.3). -/
def metersWritten (s : Dev) : Bool := (s.inMode .focus || s.inMode .solo || s.inMode .lead) && !s.contending

/-- R155: unlocked at the edge, and for 60 s before it. -/
def meterUnsynced (s : Dev) : Bool :=
  s.unsynced && (match s.tm.lastLocked with | none => true | some t => decide (t + 60000000000 ≤ s.tm.now))

/-- Table 5.4; the phase, and the gap flag of a lost snapshot, are added as the record is written. -/
def meterRecord (s : Dev) (seq t : Nat) (x : Tenant) : List Byte :=
  let flags := 2 * b2n (meterUnsynced s) + 4 * b2n x.rolloverFlag + 8 * b2n s.mt.stepped + 16 * b2n s.mt.eclipsed
    + 32 * b2n s.mt.takeover
  le 1 seq ++ le 1 flags ++ le 2 t ++ le 4 (s.tm.device / 60000000000) ++ le 8 x.blocksRead ++ le 8 x.blocksWritten
    ++ le 8 x.commands ++ le 8 x.c0Commands ++ le 8 x.busyUs ++ le 8 x.capSeconds ++ le 8 x.encBlocks

/-- After its record is taken: a deleted tenant is discarded, and so are the counters of one deleted and set again since (R160); a
rollover resets the counters (R156). -/
def Tenant.afterSnapshot (x : Tenant) (rec : List Byte) : Tenant :=
  if x.deleting && !x.defined then Tenant.undefined
  else if x.rollover || x.deleting then
    { x with blocksRead := 0, blocksWritten := 0, commands := 0, c0Commands := 0, busyUs := 0, capSeconds := 0
             encBlocks := 0, rollover := false, rolloverFlag := true, lastRecord := rec, deleting := false }
  else { x with rolloverFlag := false, lastRecord := rec, deleting := false }

/-- R154: a snapshot enters the backlog of 60; a full backlog loses its oldest. It does so too while no ring is enabled (DESIGN CHOICE,
log entry 76). -/
def enterBacklog (seq : Nat) (recs : List (List Byte)) (s : Dev) : Dev :=
  if s.mt.backlog.length < 60 then { s with mt := { s.mt with backlog := s.mt.backlog ++ [(seq, recs)] } }
  else
    let s := s.bump Fam.meterLostSnapshots
    { s with mt := { s.mt with backlog := s.mt.backlog.drop 1 ++ [(seq, recs)], gap := true } }

/-- METER_SNAPSHOT (R152, R158): stamps strictly rise. In MIRROR and ECLIPSE none is taken, and the first after ECLIPSE carries
the gap flag (R159). A LEAD passes its snapshot to the MIRROR. -/
def meterSnapshot (s : Dev) : Dev :=
  let minute := s.tm.device / 60000000000
  if !metersWritten s then s
  else if minute ≤ s.mt.lastMinute then s
  else
    let s := s.bump Fam.meterSequence
    let seq := s.val Fam.meterSequence
    let live := s.tenants.filter fun e => e.2.defined || e.2.deleting
    let recs := live.map fun e => (e.1, e.2, meterRecord s seq e.1 e.2)
    let s1 := recs.foldl (fun s r => s.setTen r.1 (r.2.1.afterSnapshot r.2.2)) s
    let s1 := enterBacklog seq (recs.map (·.2.2)) s1
    let s1 := { s1 with mt := { s1.mt with lastMinute := minute, stepped := false, takeover := false, eclipsed := false } }
    let s1 := notice 2 none (noticePayload 0xFFFF 0 2 s.tm.device (seq % 2 ^ 32) (seq / 2 ^ 32)) s1
    streamSend (.snapshot seq (recs.map fun r => (r.1, r.2.2))) s1

def execMeterSnapshot (s : State) : Host.Outcome State Fault Refusal := onDev s (fun s => meterSnapshot s)

/-- CAPACITY_TICK (R151). A MIRROR's counters are its LEAD's (R159). -/
def capacityTick (s : Dev) : Dev :=
  if s.coreUp && !s.inMode .eclipse && !s.inMode .mirror then
    (definedTenants s).foldl (fun s t =>
      let x := s.ten t
      s.setTen t { x with capSeconds := (x.capSeconds + s.tenantBlocks t) % 2 ^ 64 }) s
  else s

def execCapacityTick (s : State) : Host.Outcome State Fault Refusal := onDev s (fun s => capacityTick s)

/-- One record at the ring's tail, with its phase (R80) and the gap flag; where it is the tenant's latest, `meter[t].last` shows it as
written (R155). -/
def writeMeterRecord (s : Dev) (rec : List Byte) : Dev :=
  let tail := s.val Fam.meterRingTail
  let flags := unle ((rec.drop 1).take 1)
  let flags := flags + (1 - tail / 65536 % 2) + (if flags / 16 % 2 = 0 then 16 * b2n s.mt.gap else 0)
  let written := rec.take 1 ++ le 1 flags ++ rec.drop 2
  let t := unle ((rec.drop 2).take 2)
  let s := sendRing s.adminFn (s.mt.base.toNat + 64 * (tail % 65536)) written s
  let s := if (s.ten t).lastRecord = rec then s.setTen t { s.ten t with lastRecord := written } else s
  ({ s with mt := { s.mt with gap := false } }).setVal Fam.meterRingTail 0 (rNext s.mt.depth tail)

/-- METER_RING_WRITE (R154): only when the ring has room for all the records of the oldest waiting snapshot. -/
def meterRingWrite (s : Dev) : Dev :=
  match s.mt.backlog with
  | [] => s
  | (_, recs) :: r =>
    let used := rCount s.mt.depth (s.val Fam.meterRingHead) (s.val Fam.meterRingTail)
    if s.mt.enabled && metersWritten s && decide (used + recs.length ≤ s.mt.depth) then
      let s := recs.foldl writeMeterRecord { s with mt := { s.mt with backlog := r } }
      raiseVector s.adminFn s.mt.vector s
    else s

def execMeterRingWrite (s : State) : Host.Outcome State Fault Refusal := onDev s (fun s => meterRingWrite s)

/-- R153: the check of a written head. -/
def meterHeadOk (v : Nat) (s : Dev) : Bool :=
  decide (0 < s.mt.depth) && headOk s.mt.depth (s.val Fam.meterRingHead) (s.val Fam.meterRingTail) v

def execMeterRingHead (who : Master) (v : Word) (s : State) : Host.Outcome State Fault Refusal :=
  onDev s (fun s => guardedWrite who Fam.meterRingHead 0 (needs (meterHeadOk v.toNat)) (·.setVal Fam.meterRingHead 0 v.toNat) s)

end Sys2Proof.Machine
end

