-- ==== Sys2Proof/Machine/Storage.lean ====
section
/-!
DEFINITION. The write path (chapter 7): placing units and range deltas, opening, closing, committing and abandoning beams,
the stream to the MIRROR that goes with it (R381), and the end of commands that wait for it (R115 to R122, R219).
-/

namespace Sys2Proof.Machine

/-! ### The map (R205, R208, R223) -/

/-- Count a mapped entry in or out of its segment's live count. -/
def moveLive (e : Quad) (up : Bool) (s : Dev) : Dev :=
  if entryMapped e then
    let l := entryLoc e
    match s.arr? l.array with
    | some x =>
      let g := tget x.seg (l.beam / 64) Segment.free
      let g := { g with live := if up then g.live + 1 else g.live - 1 }
      s.setArr l.array { x with seg := tset x.seg (l.beam / 64) g Segment.free }
    | none => s
  else s

/-- Commit a new entry for a block: counts follow, and its page has changed (R211). -/
def setEntry (v lba : Nat) (e : Quad) (s : Dev) : Dev :=
  match s.vol? v with
  | none => s
  | some x =>
    let old := tget x.map lba 0
    let s := s.setVol v { x with
      map := tset x.map lba e 0
      allocated := x.allocated + b2n (allocatedEntry e) - b2n (allocatedEntry old)
      dark := x.dark + b2n (entryDark e) - b2n (entryDark old) }
    let s := s.setVal Fam.arrayDarkBlocks x.array
      (s.val Fam.arrayDarkBlocks x.array + b2n (entryDark e) - b2n (entryDark old))
    let s := moveLive e true (moveLive old false s)
    let p := (v, lba / 512)
    if s.ms.dirtyPages.contains p then s else { s with ms := { s.ms with dirtyPages := s.ms.dirtyPages ++ [p] } }

/-- The blocks of a range that have an entry. -/
def entriesIn (s : Dev) (v lba n : Nat) : List Nat :=
  match s.vol? v with
  | some x => (x.map.filter fun e => decide (lba ≤ e.1) && decide (e.1 < lba + n)).map (·.1)
  | none => []

def volReady (s : Dev) (v : Nat) : Bool := (s.vol? v).map (·.st) == some .ready

/-- A repair of the block is no longer outstanding; `done` when it committed (R183). -/
def repairEnds (a v lba : Nat) (done : Bool) (s : Dev) : Dev :=
  match s.arr? a with
  | some x =>
    if x.repairs.contains (v, lba) then
      let s := s.setArr a { x with repairs := x.repairs.filter (· != (v, lba)) }
      if done then s.bump Fam.arrayRepairs a else s
    else s
  | none => s

/-- A relocation from this location is no longer outstanding for a sweep. -/
def sweepEnds (a : Nat) (src : Loc) (s : Dev) : Dev :=
  match s.arr? a with
  | some x => s.setArr a { x with swept := x.swept.filter (· != src) }
  | none => s

/-- R225: a beam holds a committed relocation from the segment of `src`. -/
def noteInto (a : Nat) (src : Loc) (beam : Nat) (s : Dev) : Dev :=
  match s.arr? a with
  | some x =>
    let g := tget x.seg (src.beam / 64) Segment.free
    if g.into.contains beam then s
    else s.setArr a { x with seg := tset x.seg (src.beam / 64) { g with into := g.into ++ [beam] } Segment.free }
  | none => s

/-- R205: one item of a committing beam. A relocation applies only where the map still names its source (R131); the deltas
of a volume being deleted are dropped (R228). -/
def applyItem (a beam : Nat) (s : Dev) (i : Item) : Dev :=
  match i with
  | .block n v lba _ _ none => if volReady s v then setEntry v lba (mapEntry ⟨a, beam, n⟩) s else s
  | .block n v lba _ _ (some src) =>
    let s := sweepEnds a src s
    if volReady s v && mapGet s v lba == mapEntry src then
      repairEnds a v lba true (noteInto a src beam (setEntry v lba (mapEntry ⟨a, beam, n⟩) s))
    else repairEnds a v lba false s
  | .delta v lba n zero _ _ =>
    if volReady s v then
      if zero then (List.range n).foldl (fun s i => setEntry v (lba + i) 2 s) s
      else (entriesIn s v lba n).foldl (fun s b => setEntry v b 0 s) s
    else s

/-! ### Segments (R200, R223, R226) -/

def Arr.segment (x : Arr) (g : Nat) : Segment := tget x.seg g Segment.free
def Arr.setSegment (x : Arr) (g : Nat) (v : Segment) : Arr := { x with seg := tset x.seg g v Segment.free }

def Arr.freeSegments (x : Arr) : Nat := x.segs - (x.seg.filter fun e => e.2.st != .free).length

/-- The lowest FREE segment that may take beams (R200, R377). -/
def Arr.lowestFree (x : Arr) : Option Nat :=
  (List.range (x.seg.length + x.embargo.length + 1)).find? fun g =>
    decide (g < x.segs) && (x.segment g).st == .free && !x.embargo.contains g

/-- R223: a segment that is not active and has no beam open or uncommitted is SEALED. -/
def Arr.sealSegments (x : Arr) : Arr :=
  { x with seg := x.seg.map fun e =>
      if e.2.st = .opened ∧ (x.active.map (·.1)) ≠ some e.1 ∧ (x.beams.all fun b => b.num / 64 != e.1) = true
      then (e.1, { e.2 with st := .sealed }) else e }

/-- A beam as it opens. -/
def newBeam (num epoch : Nat) (internal journalled : Bool) : Beam :=
  { num := num, internal := internal, swept := false, epoch := epoch, items := [], closed := false, byTimer := false
    facets := [], journalled := journalled, mirror := 0, mismatch := false, time := 0 }

/-- R200, R226: open a beam, in the active segment or in the lowest FREE one; with `true` when a segment opened. A segment
does not open while a re-homing is incomplete (R218), nor when the open-segment list is full: R216 gives the list 32 entries and does not
say what happens then, and the unit waits as for placement (DESIGN CHOICE, log entry 75). -/
def openBeam (s : Dev) (a : Nat) (x : Arr) (internal : Bool) : Option (Arr × Nat × Bool) :=
  if x.barrier.isSome then none
  else
    let ready := !journalBusy s a && x.jdirty.isEmpty
    match x.active with
    | some (g, off) =>
      if off < 64 then
        let n := 64 * g + off
        some ({ x with active := some (g, off + 1), beams := x.beams ++ [newBeam n x.geom.epoch internal ready] }, n, false)
      else fresh x
    | none => fresh x
where
  fresh (x : Arr) : Option (Arr × Nat × Bool) :=
    let least := if internal then 1 else s.val Fam.cleanerReserveSegments + 1
    if x.rehoming || decide (x.freeSegments < least) || decide (32 ≤ x.openList.length) then none
    else
      match x.lowestFree with
      | none => none
      | some g =>
        let y := x.setSegment g { st := .opened, live := 0, epoch := x.geom.epoch, mask := [], beams := [], into := [] }
        some (({ y with active := some (g, 1), openList := y.openList ++ [g]
                        beams := y.beams ++ [newBeam (64 * g) x.geom.epoch internal false]
                        jdirty := y.jdirty ++ [64 * g] }).sealSegments, 64 * g, true)

/-! ### Placement (R197 to R199) -/

def Beam.used (b : Beam) : Nat := b.blocks.length

/-- The item concerns a block of the range. -/
def itemTouches (v lba n : Nat) (i : Item) : Bool :=
  match i with
  | .block _ v' l' _ _ none => v' == v && decide (lba ≤ l') && decide (l' < lba + n)
  | .block .. => false
  | .delta v' l' n' _ _ _ => v' == v && decide (lba < l' + n') && decide (l' < lba + n)

/-- The beams opened after beam `num`. -/
def Arr.later (x : Arr) (num : Nat) : List Beam := (x.beams.dropWhile (·.num != num)).drop 1

/-- R198: the open host beams a unit may go to: none earlier than a beam, open or closed, that holds an overlapping item. -/
def hostCandidates (x : Arr) (v lba n : Nat) : List Beam :=
  x.beams.filter fun b => !b.closed && !b.internal && !(x.later b.num).any fun c => c.items.any (itemTouches v lba n)

/-- R198: the beam that receives a unit of `need` data blocks, opened if it has to be. -/
def hostBeam (s : Dev) (a : Nat) (x : Arr) (v lba n need : Nat) : Option (Arr × Nat × Bool) :=
  let c := x.geom.blocks x.shift
  match (hostCandidates x v lba n).find? fun b => decide (b.used + need ≤ c) with
  | some b => some (x, b.num, false)
  | none =>
    if (x.beams.filter fun b => !b.closed && !b.internal).length < 2 ∧ need ≤ c then openBeam s a x false else none

/-- R199: the internal beam. -/
def internalBeam (s : Dev) (a : Nat) (x : Arr) : Option (Arr × Nat × Bool) :=
  match x.beams.find? fun b => b.internal && !b.closed with
  | some b => if b.used < x.geom.blocks x.shift then some (x, b.num, false) else none
  | none => openBeam s a x true

/-- Number an item as it enters a beam that holds `k` data blocks. -/
def numberItem (k : Nat) (i : Item) : Item :=
  match i with
  | .block _ v l q d src => .block k v l q d src
  | .delta v l n z q _ => .delta v l n z q k

/-- Append items to a beam. -/
def Beam.push (b : Beam) (items : List Item) : Beam :=
  items.foldl (fun b i => { b with items := b.items ++ [numberItem b.used i] }) b

def isDelta (i : Item) : Bool := match i with | .delta .. => true | .block .. => false

/-- Put items into beam `num` of the array; range deltas also into the journal (R217). -/
def Arr.attach (x : Arr) (num : Nat) (items : List Item) (swept : Bool) : Arr :=
  let before := ((x.beams.find? (·.num == num)).map (·.items.length)).getD 0
  let x := { x with beams := x.beams.map fun b =>
    if b.num = num then
      let b := b.push items
      { b with swept := b.swept || swept, journalled := b.journalled && !items.any isDelta }
    else b }
  let new := (((x.beams.find? (·.num == num)).map (·.items)).getD []).drop before
  if items.any isDelta then
    { x with deltas := x.deltas ++ (new.filter isDelta).map (num, ·)
             jdirty := if x.jdirty.contains num then x.jdirty else x.jdirty ++ [num] }
  else x

/-! ### Closing (R202, R203) -/

/-- The bytes of one facet are issued to its member, or the facet is an erasure (R204). -/
def issueFacet (a : Nat) (x : Arr) (b : Beam) (acc : Dev × List FacetState) (slot : Nat) : Dev × List FacetState :=
  let s := acc.1
  let m := x.geom.members.getD slot 0x800
  if memberServes s m then
    let bytes := beamFacet a x x.geom b (x.geom.facetOn b.num slot)
    let n := (writeParts s m 0 (2 ^ x.shift)).length
    (issueWrite m ((s.mem m).a0 + b.num * 2 ^ x.shift) bytes (.facet a b.num slot) s, acc.2 ++ [.pending n])
  else (s, acc.2 ++ [.erased])

/-- The packet of a beam for the MIRROR (R381, R383). -/
def beamPacket (a : Nat) (x : Arr) (b : Beam) : StreamItem :=
  let l := b.items.map Item.delta_
  .beam a b.num b.byTimer b.swept b.time l (deltaChecksum l) (beamDigest a x x.geom b)

/-- Send the packets of closed beams in open order: a beam's follows those of all earlier ones. -/
def streamBeams (a : Nat) (s : Dev) : Dev :=
  if streaming s then
    match s.arr? a with
    | none => s
    | some x =>
      let due := (x.beams.takeWhile (·.closed)).filter (·.mirror == 0)
      let s := due.foldl (fun s b => streamSend (beamPacket a x b) s) s
      s.setArr a { x with beams := x.beams.map fun b => if due.any (·.num == b.num) then { b with mirror := 1 } else b }
  else s

/-- R203: the header is fixed, Prism encodes the beam, and its facets are issued; where no command goes to members it stays open. -/
def closeBeam (a num : Nat) (byTimer : Bool) (s : Dev) : Dev :=
  match s.arr? a with
  | none => s
  | some x =>
    match x.beams.find? (fun b => b.num == num && !b.closed) with
    | none => s
    | some b =>
      if !s.memberIo then s else
      let b := { b with closed := true, byTimer := byTimer, time := s.tm.device }
      let s := if byTimer then s.bump Fam.arrayTimerCloses a else s
      let s := s.addVal Fam.prismEncodedBytes 0 (x.geom.slots x.shift * 4096)
      let r := (List.range x.geom.width).foldl (issueFacet a x b) (s, [])
      streamBeams a (r.1.setArr a { x with beams := x.beams.map fun c =>
        if c.num = num then { b with facets := r.2 } else c })

/-- Close the open beams of an array that hold something and satisfy `p` (forced close of Table 7.1). -/
def forceClose (a : Nat) (p : Beam → Bool) (s : Dev) : Dev :=
  match s.arr? a with
  | none => s
  | some x => (x.beams.filter fun b => !b.closed && !b.items.isEmpty && p b).foldl (fun s b => closeBeam a b.num true s) s

/-! ### Checkpoints (R211) -/

/-- The horizon that a checkpoint started now leaves: the segments it passes, its place, which is the first beam in open order that is
not settled, and the beams whose deltas it covers. -/
def horizonOf (x : Arr) : List Nat × Nat × Nat × List Nat :=
  let live := x.beams.map (·.num)
  let settled := (x.log.map (·.1) ++ (x.deltas.map (·.1)).filter (!live.contains ·)).eraseDups
  let at_ (g off : Nat) := (if x.openList.contains g then x.openList.takeWhile (· != g) else x.openList, g, off, settled)
  match x.beams.head? with
  | some b => at_ (b.num / 64) (b.num % 64)
  | none =>
    match x.active with
    | some (g, off) => if off < 64 then at_ g off else (x.openList, 0, 0, settled)
    | none => (x.openList, 0, 0, settled)

/-- Open-segment list, horizon, deltas and delta log once the horizon stands there. -/
def Arr.passHorizon (x : Arr) (mark : List Nat × Nat × Nat × List Nat) : Arr :=
  let list := x.openList.filter (!mark.1.contains ·)
  { x with openList := list, horizon := if list.head? = some mark.2.1 then mark.2.2.1 else 0
           deltas := x.deltas.filter (fun d => !mark.2.2.2.contains d.1), log := x.log.filter (fun e => !mark.2.2.2.contains e.1)
           ckpt := none }

/-- Write a changed page to its copy `i`, or to the first one after it whose member is ONLINE. -/
def writePage (v p i : Nat) (bytes : List Byte) (s : Dev) : Dev :=
  let up (k : Nat) : Option (Nat × Nat × Nat) := match pageCopy s v p k with
    | some (m, off) => if i ≤ k ∧ (s.mem m).st = .online then some (k, m, off) else none
    | none => none
  match [0, 1, 2].findSome? up with
  | some (k, m, off) => issueWrite m off bytes (.checkpoint v p k) s
  | none => s

/-- Table 8.8: read a map page from its copy `i`, or from the first one after it whose member serves. With the deltas after the horizon it
is the page as it was. -/
def reloadPage (v p i : Nat) (s : Dev) : Dev :=
  let up (k : Nat) : Option (Nat × Nat × Nat) := match pageCopy s v p k with
    | some (m, off) => if i ≤ k ∧ memberServes s m = true then some (k, m, off) else none
    | none => none
  match [0, 1, 2].findSome? up with
  | some (k, m, off) => issue m false off 4096 [] (.pageAgain v p k) s
  | none => s

/-- The map region holds a page as it was written (R210, R269). -/
def setRegion (v p : Nat) (bytes : List Byte) (s : Dev) : Dev :=
  if 16384 ≤ v then
    match s.arr? (v - 16384) with
    | some x => s.setArr (v - 16384) { x with records := (List.range 256).foldl (fun t i =>
        tset t (256 * p + i) (fieldAt bytes (16 * i) 4, fieldAt bytes (16 * i + 4) 12) (0, 0)) x.records }
    | none => s
  else match s.vol? v with
  | some x => s.setVol v { x with region := (List.range 512).foldl (fun t i =>
      tset t (512 * p + i) (BitVec.ofNat 64 (fieldAt bytes (8 * i) 8)) 0) x.region }
  | none => s

/-- The write of one copy of a page has ended: the next copy follows it. -/
def pageWritten (v p i : Nat) (bytes : List Byte) (ok : Bool) (s : Dev) : Dev :=
  let s := if ok then setRegion v p bytes { s with ms := { s.ms with unwritten := s.ms.unwritten.filter (· != (v, p)) } } else s
  writePage v p (i + 1) bytes s

/-- A checkpoint starts: the changed pages and segment records are read, and each goes to its copies, copy 0 first; each array notes the
horizon it will reach. -/
def startCheckpoint (s : Dev) : Dev :=
  if s.ms.checkpoint || !s.working || !s.memberIo then s
  else
    let recs := s.arrays.flatMap fun e => e.2.recordsDue.map (arrayOwner e.1, ·)
    let pages := s.ms.dirtyPages ++ recs.filter (!s.ms.dirtyPages.contains ·)
    let arrays := s.arrays.map fun e => (e.1, { e.2 with ckpt := some (horizonOf e.2) })
    let s := { s with arrays := arrays, ms := { s.ms with checkpoint := true, dirtyPages := [], unwritten := pages } }
    pages.foldl (fun s p => writePage p.1 p.2 0 (ownerPage s p.1 p.2) s) s

/-- R242: the delta log beyond the horizon takes 75 % of its ring of 32 B deltas (Table 8.5). -/
def logFull (s : Dev) : Bool :=
  decide (256 * mib / 32 * 75 ≤ 100 * (s.arrays.map fun e => (e.2.log.map fun l => l.2.2.length).sum).sum)

/-- The deltas of a beam go to the tail of the delta log (R241). -/
def logDeltas (a num : Nat) (l : List MapDelta) (s : Dev) : Dev :=
  match s.arr? a with
  | some x =>
    let at_ := s.ms.logTail
    ({ s with ms := { s.ms with logTail := at_ + l.length } }).setArr a { x with log := x.log ++ [(num, at_, l)] }
  | none => s

/-- The deltas of a beam go to the delta log as it commits (R205); a checkpoint starts where the ring fills (R242). -/
def appendLog (a : Nat) (b : Beam) (s : Dev) : Dev :=
  match s.arr? a with
  | some _ =>
    let s := logDeltas a b.num (b.items.map Item.delta_) s
    if logFull s then startCheckpoint s else s
  | none => s

/-- Put items into the beam found for them; a segment that opened is journalled, with a checkpoint where the open-segment list has reached
24 entries (R211), and a full beam closes. -/
def placeIn (a : Nat) (r : Arr × Nat × Bool) (items : List Item) (swept : Bool) (s : Dev) : Dev :=
  let x := r.1.attach r.2.1 items swept
  let s := s.setArr a x
  let s := if r.2.2 then writeJournal a s else s
  let s := if r.2.2 && decide (24 ≤ x.openList.length) then startCheckpoint s else s
  match x.beams.find? (·.num == r.2.1) with
  | some b => if x.geom.blocks x.shift ≤ b.used then closeBeam a r.2.1 false s else s
  | none => s

/-! ### Room for a unit (R217, R226, R239, R242) -/

/-- Table 8.5: the areas of a window of `w` bytes, as (offset, size): header, journal working copies (array `a` at a × 64 KiB of it),
delta log, and data slots with their directory. -/
def windowLayout (w : Nat) : List (Nat × Nat) :=
  [(0, 65536), (0x10000, 4 * mib), (0x410000, 256 * mib), (0x10410000, w - 260 * mib - 65536)]

/-- R242: data slots of the window; 128 directory entries take one more (Table 8.5). -/
def windowSlots (s : Dev) : Nat :=
  let area := ((windowLayout (windowBytes s)).getD 3 (0, 0)).2 / 4096
  area - cdiv area 129

def hostBlocks (items : List Item) : Nat :=
  (items.filter fun i => match i with | .block _ _ _ _ _ none => true | _ => false).length

/-- R240, R242: data slots in use. -/
def windowUsed (s : Dev) : Nat :=
  (s.arrays.map fun e =>
    if e.2.writeThrough then 0 else (e.2.beams.map fun b => hostBlocks b.items).sum + hostBlocks e.2.keptUnits).sum
  + (s.pr.held.filter fun e => !isDelta e.2).length

/-- R239: the open beams, arrays in rising order and each array's beams in open order (which beams come first the spec does not say, DESIGN
CHOICE, log entry 83), as array, beam, data facets and facet size. -/
def openAreas (s : Dev) : List (Nat × Nat × Nat × Nat) :=
  s.arrays.flatMap fun e => (e.2.beams.filter (!·.closed)).map fun b =>
    (e.1, b.num, (if e.2.geom.mirror then 1 else e.2.geom.k), 2 ^ e.2.shift)

/-- R239: where the data facets of open beams stand: of each beam the first so many in the assembly partition, as far as `room` bytes of it
go, and the others in the assembly spill area, as array, beam, facets kept and facets spilled, and the facet size. -/
def assemblySplit : Nat → List (Nat × Nat × Nat × Nat) → List (Nat × Nat × Nat × Nat × Nat)
  | _, [] => []
  | room, (a, b, k, f) :: r =>
    let kept := min k (room / f)
    (a, b, kept, k - kept, f) :: assemblySplit (room - kept * f) r

/-- R398: bytes of the staging buffer, in chunks of 1 MiB: the first 8 MiB stand in the assembly partition, the others in the spill area. -/
def stagedBytes (s : Dev) : Nat :=
  match s.staging with
  | some c => roundUp (dTotal (s.chan c).desc) mib
  | none => 0

/-- R239, R398: bytes of these open data areas and of the staging buffer in the assembly spill area. -/
def spilled (s : Dev) (l : List (Nat × Nat × Nat × Nat)) : Nat :=
  let staged := stagedBytes s
  let kept := min staged (8 * mib)
  ((assemblySplit (condenserMib.getD 0 0 * mib - kept) l).map fun e => e.2.2.2.1 * e.2.2.2.2).sum + (staged - kept)

/-- R239: one more open beam of the array would overfill the spill area (Table 8.3). -/
def spillFull (s : Dev) (x : Arr) : Bool :=
  decide (2048 * mib < spilled s (openAreas s ++ [(64, 0, (if x.geom.mirror then 1 else x.geom.k), 2 ^ x.shift)]))

/-- A beam found for internal work or for kept items, where it needs no room that is not there (R239). -/
def spillGate (s : Dev) (x : Arr) (r : Option (Arr × Nat × Bool)) : Option (Arr × Nat × Bool) :=
  match r with
  | some r => if r.1.beams.length ≠ x.beams.length ∧ spillFull s x = true then none else some r
  | none => none

/-- Why no beam takes a unit of `need` data blocks now (R198, R226, R239): bit number of the wait's counter, or 3 for a wait that none
counts. -/
def beamWait (s : Dev) (a : Nat) (x : Arr) (v lba n need : Nat) : Option Nat :=
  match hostBeam s a x v lba n need with
  | some r => if r.1.beams.length ≠ x.beams.length ∧ spillFull s x = true then some 1 else none
  | none =>
    let two := 2 ≤ (x.beams.filter fun b => !b.closed && !b.internal).length
    if x.barrier.isSome then some 0 else if two ∨ x.rehoming = true then some 3 else some 0

/-- Why a unit of `need` data blocks with `deltas` range deltas cannot be placed now, as `beamWait` says it. -/
def placeWait (s : Dev) (a : Nat) (x : Arr) (v lba n need deltas : Nat) : Option Nat :=
  if x.barrier.isSome then some 0
  else if !x.keptUnits.isEmpty || x.offline != 0 || x.recovery.isSome then some 3
  else if 0 < deltas ∧ 2032 < x.deltas.length + deltas then some 0
  else if !x.writeThrough && decide (windowSlots s < windowUsed s + need) then some 2
  else beamWait s a x v lba n need

/-- The counter of a wait. -/
def waitCounter (w : Nat) (s : Dev) : Dev :=
  match w with
  | 0 => s.bump Fam.cleanerPlacementWaits
  | 1 => s.bump Fam.condenserSpillWaits
  | 2 => s.bump Fam.pcacheFullWaits
  | _ => s

/-! ### Units of commands -/

/-- R123, R197: the items of a unit: its data blocks, and a range delta for each run of blocks without data. -/
def unitItems (v seq : Nat) : Nat → List (Sum Block Bool) → List Item
  | _, [] => []
  | lba, .inl d :: r => .block 0 v lba seq (Stored.of 1 v lba seq d) none :: unitItems v seq (lba + 1) r
  | lba, .inr z :: r =>
    match unitItems v seq (lba + 1) r with
    | .delta v' l n z' q a :: t =>
      if l = lba + 1 ∧ z' = z then .delta v' lba (n + 1) z q a :: t
      else .delta v lba 1 z seq 0 :: .delta v' l n z' q a :: t
    | t => .delta v lba 1 z seq 0 :: t

/-- The items of a piece of a command. -/
def pieceItems (raw : BitVec 512) (seq : Nat) (p : Piece) : List Item :=
  let op := eOpcode raw
  if op == opTrim || op == opZeroes then [.delta (eVolume raw) p.lba p.len (op == opZeroes) seq 0]
  else match p.st with
    | .ready blocks _ => unitItems (eVolume raw) seq p.lba blocks
    | _ => []

/-- Change piece `k` of a command. -/
def modPiece (id k : Nat) (st : UnitState) (s : Dev) : Dev :=
  s.modCtx id fun c =>
    match c.units[k]? with
    | some p => { c with units := c.units.set k { p with st := st } }
    | none => c

/-- Table 8.8: the data of a placed unit is being read again from the host buffer, or is not any more. -/
def markAgain (id k : Nat) (on : Bool) (s : Dev) : Dev :=
  s.modCtx id fun c =>
    match c.units[k]? with
    | some p => { c with units := c.units.set k { p with again := on } }
    | none => c

/-- R382: the data of a mirrored write-back unit goes to the MIRROR. -/
def sendUnit (a : Nat) (c : Ctx) (seq : Nat) (p : Piece) (s : Dev) : Dev :=
  let wb := ((s.vol? (eVolume c.raw)).map (·.writeBack)).getD false
  let op := eOpcode c.raw
  match p.st with
  | .ready blocks _ =>
    let blocks := if op == opTrim || op == opZeroes then List.replicate p.len (.inr (op == opZeroes)) else blocks
    if wb then streamSend (.wbUnit a (eVolume c.raw) p.lba seq blocks) s else s
  | _ => s

/-- R366, R382: a unit placed in a pair is acknowledged only when the MIRROR holds it. -/
def unitHeldByPartner (s : Dev) (a seq : Nat) : Bool :=
  s.pr.unacked.all fun e => match e.2 with
    | .wbUnit a' _ _ q _ => !(a' == a && q == seq)
    | _ => true

/-- R196 to R198: place piece `k` of a command, or count its wait once. -/
def placePiece (id k : Nat) (s : Dev) : Dev :=
  match s.ctx? id with
  | none => s
  | some c =>
    match c.units[k]?, s.vol? (eVolume c.raw) with
    | some p, some v =>
      match p.st, s.arr? v.array with
      | .ready blocks waits, some x =>
        let items := pieceItems c.raw x.nextSeq p
        let need := (items.filter (!isDelta ·)).length
        let deltas := (items.filter isDelta).length
        match placeWait s v.array x (eVolume c.raw) p.lba p.len need deltas with
        | some w =>
          if w < 3 ∧ bit waits w = false then
            waitCounter w (modPiece id k (.ready blocks (waits + 2 ^ w)) s)
          else s
        | none =>
          match hostBeam s v.array x (eVolume c.raw) p.lba p.len need with
          | none => s
          | some r =>
            let s := sendUnit v.array c x.nextSeq p s
            let r : Arr × Nat × Bool := ({ r.1 with nextSeq := x.nextSeq + 1 }, r.2.1, r.2.2)
            let s := placeIn v.array r items false s
            let s := modPiece id k (.placed x.nextSeq) s
            if eFua c.raw then forceClose v.array (fun b => b.num == r.2.1) s else s
      | _, _ => s
    | _, _ => s

/-! ### Durability and the end of commands (R115 to R122, R219) -/

/-- R219, R382: the volume's writes complete at commit. -/
def ackAtCommit (s : Dev) (v : Nat) : Bool :=
  match s.vol? v with
  | some x => ((s.arr? x.array).map (·.writeThrough)).getD true || (pairedLead s && !x.writeBack)
  | none => true

/-- Table 4.12: the array went OFFLINE during the command, and a unit of it was not written. -/
def cutOff (s : Dev) (c : Ctx) : Bool :=
  ((s.vol? (eVolume c.raw)).map fun v => s.arrayOffline v.array).getD false && c.units.any fun p => p.st == .failed 0x0A 2

/-- The piece has come to its end under Table 7.9. -/
def pieceAcked (s : Dev) (c : Ctx) (p : Piece) : Bool :=
  match p.st with
  | .committed | .failed .. => true
  | .placed n =>
    cutOff s c || !eFua c.raw && !ackAtCommit s (eVolume c.raw)
      && unitHeldByPartner s (((s.vol? (eVolume c.raw)).map (·.array)).getD 64) n
  | _ => false

/-- The first piece that failed, in block order: status, qualifier and result. -/
def pieceFailure (c : Ctx) : Option (Nat × Nat × Nat) :=
  c.units.findSome? fun p => match p.st with
    | .failed st q =>
      let off := if eOpcode c.raw == opCopy && (st == 0x09 || st == 0x0A && q == 1) then
          (c.blocks.findIdx? fun b => match b with | .dark => true | .unrecovered _ => true | _ => false).getD (p.lba - eLba c.raw)
        else p.lba - eLba c.raw
      some (st, q, off)
    | _ => none

/-- First failing block of a READ (R102). -/
def readFailure (c : Ctx) : Option (Nat × Nat × Nat) :=
  ((List.range c.blocks.length).zip c.blocks).findSome? fun e => match e.2 with
    | .dark => some (0x09, 0x00, e.1)
    | .unrecovered q => some (0x0A, q, e.1)
    | .undelivered => some (0x0E, 0x03, e.1)
    | _ => none

/-- How a command in flight ends now, if it does; FENCE and ABORT as `waitEnding` says. -/
def ending (s : Dev) (c : Ctx) : Option (Nat × Nat × Nat) :=
  let op := eOpcode c.raw
  if c.phase = .started ∧ changesBlocks op = true then
    if c.units.all (pieceAcked s c) && orderedClear s c then
      some ((pieceFailure c).getD (0, 0, 0))
    else none
  else if c.phase = .started ∧ op = opRead then
    if c.blocks.all (fun b => b != .reading) then some ((readFailure c).getD (0, 0, 0)) else none
  else if c.phase = .admitted ∧ c.waitOn.isSome = true ∧ c.stopping = false ∧ op = opFlush then
    if s.cm.writes.all (fun w => !c.covers.contains w.id || durableRec s w) then some (0, 0, 0) else none
  else orderedEnding s c

/-- R228: a volume being deleted with nothing outstanding on it. -/
def volDrained (s : Dev) (v : Nat) (x : Vol) : Bool :=
  let other (i : Item) : Bool := match i with
    | .block _ v' _ _ _ _ => v' != v
    | .delta v' .. => v' != v
  (s.cm.ctxs.all fun c => isAdminOp (eOpcode c.raw) || !(namedVolumes c.raw).contains v || c.phase == .ended)
    && ((s.arr? x.array).map fun r => (r.beams.all fun b => b.items.all other) && r.keptUnits.all other).getD true

/-- R228: the entries, extents and keys of a deleted volume go, and the volume. -/
def volGone (v : Nat) (x : Vol) (s : Dev) : Dev :=
  let s := (x.map.map (·.1)).foldl (fun s b => setEntry v b 0 s) s
  let s := dropExtents v s
  let s := writeCatalogue { s with
    vols := tdel s.vols v
    ms := { s.ms with
      dirtyPages := s.ms.dirtyPages.filter (·.1 != v), unwritten := s.ms.unwritten.filter (·.1 != v), hot := s.ms.hot.filter (·.1 != v) } }
  match x.deleter with
  | some id => finish id 0 0 0 s
  | none => s

/-- Let every command, and every deletion, that can end now end; `fuel` bounds the passes. -/
def settleAll : Nat → Dev → Dev
  | 0, s => s
  | k + 1, s =>
    if s.hostRuns then
      match s.cm.ctxs.findSome? fun c => (ending s c).map (c.id, ·) with
      | some (id, r) => settleAll k (finish id r.1 r.2.1 r.2.2 s)
      | none =>
        match s.vols.find? fun e => e.2.st == .deleting && volDrained s e.1 e.2 with
        | some (v, x) => settleAll k (volGone v x s)
        | none => s
    else s

def settle (s : Dev) : Dev := settleAll (s.cm.ctxs.length + s.vols.length + 1) s

/-- R116: writes whose durability now needs their commit are destaged: open beams of CACHE_REPLAY arrays close. -/
def destageIfUncertified (was : Bool) (s : Dev) : Dev :=
  if was && !certified s && s.executing then
    (s.arrays.filter fun e => !e.2.writeThrough).foldl (fun s e => forceClose e.1 (fun b => !b.internal) s) s
  else s

/-- After anything that may change hold-up certification: destage on its loss, and let the waits end (R116). -/
def afterHoldup (was : Bool) (s : Dev) : Dev := settle (destageIfUncertified was s)

/-- R116: the beams that hold a covered, undurable write of a FLUSH or an ORDERED wait are closed at once. -/
def forceCovered (ids : List Nat) (s : Dev) : Dev :=
  (s.cm.writes.filter fun w => ids.contains w.id && !durableRec s w).foldl (fun s w =>
    forceClose w.array (fun b => !b.internal && b.items.any fun i => match i with
      | .block _ _ _ q _ none => w.seqs.contains q
      | .delta _ _ _ _ q _ => w.seqs.contains q
      | _ => false) s) s

/-- The ORDERED commands that wait for earlier ones need those to commit. -/
def forceOrdered (s : Dev) : Dev :=
  (s.cm.ctxs.filter fun c => eOrdered c.raw && (c.waitsOrder || c.phase == .started && (c.units.all (pieceAcked s c)))
    && !orderedClear s c).foldl
    (fun s c => forceCovered ((s.cm.writes.filter fun w => w.fn == c.fn && w.q == c.q && w.ordered).map (·.id)) s) s

/-! ### Commit (R204, R205) -/

/-- The facets of a beam that are erasures. -/
def Beam.erasures (g : Geom) (b : Beam) : List Nat :=
  ((List.range b.facets.length).zip b.facets).filterMap fun e => match e.2 with
    | .erased => some (g.facetOn b.num e.1)
    | _ => none

/-- R204: the closed beam may commit. -/
def commitReady (s : Dev) (x : Arr) (b : Beam) : Bool :=
  b.closed && b.facets.all (fun f => match f with | .pending _ => false | _ => true)
    && (survivors x.geom (b.erasures x.geom)).isSome && b.journalled
    && (x.beams.head?.map (·.num)) == some b.num && (!pairedLead s || (b.mirror == 2 && !b.mismatch))
    && x.offline == 0 && s.executing

/-- The write sequences a beam carries. -/
def Beam.seqs (b : Beam) : List Nat :=
  b.items.filterMap fun i => match i with
    | .block _ _ _ q _ none => some q
    | .block .. => none
    | .delta _ _ _ _ q _ => some q

/-- Units and records of the array with these sequences have committed. -/
def markCommitted (a : Nat) (seqs : List Nat) (s : Dev) : Dev :=
  let mine (c : Ctx) : Bool := ((s.vol? (eVolume c.raw)).map (·.array)) == some a
  let ctxs := s.cm.ctxs.map fun c =>
    if mine c then
      { c with units := c.units.map fun p => match p.st with
          | .placed n => if seqs.contains n then { p with st := .committed } else p
          | _ => p }
    else c
  let writes := (s.cm.writes.map fun w =>
    if w.array = a then { w with seqs := w.seqs.filter (!seqs.contains ·) } else w).filter (!·.seqs.isEmpty)
  { s with cm := { s.cm with ctxs := ctxs, writes := writes } }

/-- A segment record for the MIRROR (R381). -/
def sendSegment (a g : Nat) (s : Dev) : Dev :=
  match s.arr? a with
  | some x =>
    let v := x.segment g
    let st := match v.st with | .free => 0 | .opened => 1 | .sealed => 2 | .cleaning => 3
    streamSend (.segment a g st v.epoch v.mask) s
  | none => s

/-- R205, R268: the beam commits. -/
def commitBeam (a : Nat) (b : Beam) (s : Dev) : Dev :=
  let s := b.items.foldl (applyItem a b.num) s
  let s := appendLog a b s
  match s.arr? a with
  | none => s
  | some x =>
    let slots := ((List.range b.facets.length).zip b.facets).filterMap fun e => match e.2 with
      | .written => none
      | _ => some e.1
    let g := x.segment (b.num / 64)
    let x := x.setSegment (b.num / 64) { g with mask := g.mask ++ slots.filter (!g.mask.contains ·), beams := g.beams ++ [b.num % 64] }
    let x := ({ x with beams := x.beams.filter (·.num != b.num) }).sealSegments
    let s := s.setArr a x
    let s := if slots.isEmpty then s else sendSegment a (b.num / 64) s
    settle (forceOrdered (markCommitted a b.seqs s))

/-! ### Abandonment (R206) and placing again -/

/-- The items of one kept unit: those at the front with one write sequence. -/
def keptUnit (l : List Item) : List Item × List Item :=
  match l with
  | [] => ([], [])
  | .block n v lba q d (some src) :: r => ([.block n v lba q d (some src)], r)
  | i :: r =>
    let q := match i with | .block _ _ _ q _ _ => q | .delta _ _ _ _ q _ => q
    let same (j : Item) : Bool := match j with
      | .block _ _ _ q' _ none => q' == q
      | .block .. => false
      | .delta _ _ _ _ q' _ => q' == q
    (i :: r.takeWhile same, r.dropWhile same)

/-- The range an item list covers: volume, first block, length. -/
def itemsRange (l : List Item) : Nat × Nat × Nat :=
  let ends := l.map fun i => match i with
    | .block _ v lba _ _ _ => (v, lba, lba + 1)
    | .delta v lba n _ _ _ => (v, lba, lba + n)
  let lo := listMin (ends.map (·.2.1))
  ((ends.head?.map (·.1)).getD 0, lo, listMax (ends.map (·.2.2)) - lo)

/-- Kept items in the order they were placed in: host items by write sequence, then relocations. -/
def keptOrder (l : List Item) : List Item :=
  let seq (i : Item) : Nat := match i with | .block _ _ _ q _ _ => q | .delta _ _ _ _ q _ => q
  let reloc (i : Item) : Bool := match i with | .block _ _ _ _ _ (some _) => true | _ => false
  sortBy seq (l.filter (!reloc ·)) ++ l.filter reloc

/-- A relocation of a sweep (R175, bit 1). -/
def Arr.sweptItem (x : Arr) (i : Item) : Bool := match i with
  | .block _ _ _ _ _ (some l) => x.swept.contains l
  | _ => false

/-- Place kept items again, in order and with their sequences, as far as there is room (R206, R220); the first unit's wait is counted once
(R226, R239). -/
def replaceKept : Nat → Nat → Dev → Dev
  | 0, _, s => s
  | k + 1, a, s =>
    match s.arr? a with
    | none => s
    | some x =>
      if x.offline ≠ 0 ∨ x.keptUnits = [] ∨ s.executing = false then s
      else
        let (u, rest) := keptUnit x.keptUnits
        let reloc := u.any fun i => match i with | .block _ _ _ _ _ (some _) => true | _ => false
        let (v, lba, n) := itemsRange u
        let need := (u.filter (!isDelta ·)).length
        let r := if reloc then internalBeam s a x else hostBeam s a x v lba n need
        match spillGate s x r with
        | none =>
          match (if reloc then none else beamWait s a x v lba n need) with
          | some w =>
            if w < 3 ∧ bit x.keptWaits w = false then waitCounter w (s.setArr a { x with keptWaits := x.keptWaits + 2 ^ w }) else s
          | none => s
        | some r => replaceKept k a (placeIn a ({ r.1 with keptUnits := rest, keptWaits := 0 }, r.2.1, r.2.2) u (u.any x.sweptItem) s)

def replaceAll (a : Nat) (s : Dev) : Dev :=
  match s.arr? a with
  | some x =>
    let s := replaceKept x.keptUnits.length a s
    match s.arr? a with
    | some y => if y.returning && y.keptUnits.isEmpty then s.setArr a { y with returning := false } else s
    | none => s
  | none => s

/-- Results of these facet writes are discarded. -/
def killFacets (a : Nat) (nums : List Nat) (s : Dev) : Dev :=
  { s with mb := { s.mb with cmds := s.mb.cmds.map fun c => match c.why with
      | .facet a' n _ => if a' = a ∧ nums.contains n = true then { c with dead := true } else c
      | _ => c } }

/-- R206: a beam and every later one in open order are abandoned; their items are kept for placing again. -/
def abandonFrom (a num : Nat) (s : Dev) : Dev :=
  match s.arr? a with
  | none => s
  | some x =>
    let gone := x.beams.dropWhile (·.num != num)
    let s := s.addVal Fam.arrayAbandonedBeams a gone.length
    let nums := gone.map (·.num)
    let x := ({ x with beams := x.beams.takeWhile (·.num != num), keptUnits := keptOrder (x.keptUnits ++ gone.flatMap Beam.items)
                       deltas := x.deltas.filter (fun d => !nums.contains d.1) }).sealSegments
    killFacets a nums (s.setArr a x)

/-- A closed beam whose erasures exceed R171 is abandoned with the later ones, and all is placed again. -/
def checkErasures (a : Nat) (s : Dev) : Dev :=
  match s.arr? a with
  | none => s
  | some x =>
    match x.beams.find? fun b => b.closed && (survivors x.geom (b.erasures x.geom)).isNone with
    | some b => replaceAll a (abandonFrom a b.num s)
    | none => s

/-- Set the state of one facet of an uncommitted beam. -/
def setFacet (a num slot : Nat) (f : FacetState) (s : Dev) : Dev :=
  match s.arr? a with
  | none => s
  | some x => s.setArr a { x with beams := x.beams.map fun b =>
      if b.num = num ∧ slot < b.facets.length then { b with facets := b.facets.set slot f } else b }

/-- One command of a facet write has succeeded. -/
def facetPart (a num slot : Nat) (s : Dev) : Dev :=
  match s.arr? a with
  | none => s
  | some x =>
    match (x.beams.find? (·.num == num)).bind (·.facets[slot]?) with
    | some (.pending n) => setFacet a num slot (if n ≤ 1 then .written else .pending (n - 1)) s
    | _ => s

/-- A facet write has failed (R268). -/
def facetFails (a num slot : Nat) (s : Dev) : Dev :=
  match s.arr? a with
  | none => s
  | some x =>
    match (x.beams.find? (·.num == num)).bind (·.facets[slot]?) with
    | some (.pending _) => checkErasures a (setFacet a num slot .erased s)
    | _ => s

end Sys2Proof.Machine
end

