-- ==== Sys2Proof/Machine/ReadOps.lean ====
section
/-!
DEFINITION. Obtaining one block from the members (chapter 6): which ranges are read (R168, R172), the check (R180), the
candidates after a failed check (R181), read-around (R270, R271), repair (R183), and delivery to the command that waits.
-/

namespace Sys2Proof.Machine

/-! ### The ranges of a job -/

/-- The geometry of the beam a job reads. -/
def Job.geom (x : Arr) (j : Job) : Geom := x.geomOf (j.loc.beam / 64)

/-- Data-area slot of the block, or of its summary entry. -/
def Job.slot (x : Arr) (j : Job) (summary : Bool) : Nat :=
  if summary then summarySlot (j.geom x) x.shift j.loc.block else blockSlot j.loc.block

/-- Offset within a facet of a range. -/
def Job.offset (x : Arr) (j : Job) (summary : Bool) : Nat := (Geom.place x.shift (j.slot x summary)).2

/-- Bytes that have arrived for a facet's range; `some []` marks a failed read. -/
def Job.have_ (x : Arr) (j : Job) (f : Nat) (summary : Bool) : Option (List Byte) :=
  (j.got.find? fun e => e.1 == (j.geom x).slotOf j.loc.beam f && e.2.1 == summary).map (·.2.2)

/-- R171: the erasure set of a range: the beam's, those routed around, and failed reads. -/
def Job.erased (s : Dev) (x : Arr) (j : Job) (summary : Bool) : List Nat :=
  let failed := (j.got.filter fun e => e.2.1 == summary && e.2.2.isEmpty).map fun e => (j.geom x).facetOn j.loc.beam e.1
  erasedFacets s x j.loc.beam ++ failed ++ (j.extra.filter (·.2 == summary)).map (·.1)

/-- A range, with more facets erased: the facets to read and, when all have arrived, its bytes. -/
inductive RangeGot where
  | impossible
  | missing (facets : List Nat)
  | bytes (b : List Byte) (rebuilt : Bool)
  deriving DecidableEq, Repr

/-- R168, R172, R173: obtain a range with `more` added to its erasure set. -/
def Job.range (s : Dev) (x : Arr) (j : Job) (summary : Bool) (more : List Nat) : RangeGot :=
  let g := j.geom x
  let er := j.erased s x summary ++ more
  let own := (Geom.place x.shift (j.slot x summary)).1
  let direct := !g.mirror && !er.contains own
  match (if direct then some [own] else survivors g er) with
  | none => .impossible
  | some fs =>
    match fs.filter fun f => (j.have_ x f summary).isNone with
    | [] =>
      let parts := fs.map fun f => (f, (j.have_ x f summary).getD [])
      if direct || g.mirror then .bytes ((parts.head?.map (·.2)).getD []) false
      else .bytes (reconstructFacet g 4096 own parts) true
    | l => .missing l

/-- The facet that a range is read from first. -/
def Job.own (s : Dev) (x : Arr) (j : Job) (summary : Bool) : Nat :=
  let g := j.geom x
  if g.mirror then ((survivors g (j.erased s x summary)).bind (·.head?)).getD 0
  else (Geom.place x.shift (j.slot x summary)).1

/-- Table 6.7: facets erased more for the data and for the summary entry, and the ranges then found faulty: facet, and summary range or
not; first the plain read. -/
def Job.candidates (s : Dev) (x : Arr) (j : Job) : List (List Nat × List Nat × List (Nat × Bool)) :=
  let g := j.geom x
  let fb := j.own s x false
  let fs := j.own s x true
  let more := ((survivors g (j.erased s x false ++ [fb])).getD []).mergeSort
    (fun a b => decide (g.slotOf j.loc.beam a ≤ g.slotOf j.loc.beam b))
  let both (v : Nat) : List (Nat × Bool) := [(fb, false), (v, false)]
  [([], [], []), ([fb], [], [(fb, false)]), ([], [fs], [(fs, true)]), ([fb], [fs], [(fb, false), (fs, true)])]
    ++ more.flatMap fun v => [([fb, v], [], both v), ([fb, v], [fs], both v)]

/-- How far a job has come. -/
inductive Verdict where
  /-- These ranges are needed: (facet, summary?), for the candidate numbered. -/
  | need (l : List (Nat × Bool)) (cand : Nat)
  /-- The candidate's data passed the check, with this summary entry; the ranges found faulty. -/
  | good (data entry : List Byte) (cand : Nat) (faulty : List (Nat × Bool))
  /-- None passed: none when no candidate could be checked, else whether each that was failed on its tag alone (R212). -/
  | bad (tested : Option Bool)
  deriving DecidableEq, Repr

/-- Only the tag part of the check fails. -/
def tagOnlyFails (vol lba : Nat) (data entry : List Byte) : Bool :=
  !checkBlock vol lba data entry && data.length == 4096 && (crc32c data).toNat == unle ((entry.drop 8).take 4)

/-- Evaluate the candidates in order; `n` numbers them, `tested` says how those checked so far failed. -/
def Job.judge (s : Dev) (x : Arr) (j : Job) : Nat → Option Bool → List (List Nat × List Nat × List (Nat × Bool)) → Verdict
  | _, tested, [] => .bad tested
  | n, tested, c :: r =>
    match j.range s x false c.1, j.range s x true c.2.1 with
    | .impossible, _ => j.judge s x (n + 1) tested r
    | _, .impossible => j.judge s x (n + 1) tested r
    | .missing a, .missing b => .need (a.map (·, false) ++ b.map (·, true)) n
    | .missing a, .bytes .. => .need (a.map (·, false)) n
    | .bytes .., .missing b => .need (b.map (·, true)) n
    | .bytes d _, .bytes e _ =>
      let entry := entryIn j.loc.block e
      if checkBlock j.vol j.lba d entry then .good d entry n c.2.2
      else j.judge s x (n + 1) (some (tested.getD true && tagOnlyFails j.vol j.lba d entry)) r

/-- R221: the source of a relocated block, of which the summary entry alone is looked at. -/
def Job.sourceOnly (j : Job) : Bool := j.owners.all fun o => o matches .source _

def Job.verdict (s : Dev) (x : Arr) (j : Job) : Verdict :=
  if j.sourceOnly then
    match j.range s x true [] with
    | .impossible => .bad none
    | .missing l => .need (l.map (·, true)) 0
    | .bytes e _ => .good [] (entryIn j.loc.block e) 0 []
  else j.judge s x 0 none (j.candidates s x)

/-- The block has failed its check. -/
def Verdict.failed : Verdict → Bool
  | .need _ c => decide (0 < c)
  | .good _ _ c _ => decide (0 < c)
  | .bad t => t.isSome

/-- The candidates that a verdict has looked at. -/
def Verdict.tried : Verdict → Nat → Nat
  | .need _ c, _ => c + 1
  | .good _ _ c _, _ => c + 1
  | .bad _, n => n

/-- The survivors whose bytes of a range have been decoded to give it. -/
def Job.decoded (s : Dev) (x : Arr) (j : Job) (r : Bool × List Nat) : Option (Bool × List Nat) :=
  match j.range s x r.1 r.2 with
  | .bytes _ true => (survivors (j.geom x) (j.erased s x r.1 ++ r.2)).map (r.1, ·)
  | _ => none

/-- R195: the reconstructions made for the first `n` candidates, and of the summary entry (R181), that are not yet counted. -/
def Job.newDecodes (s : Dev) (x : Arr) (j : Job) (n : Nat) : List (Bool × List Nat) :=
  let l := ((j.candidates s x).take n).flatMap fun c => [(false, c.1), (true, c.2.1)]
  let l := if 1 < n then l ++ [(true, [j.own s x true])] else l
  ((l.filterMap (j.decoded s x)).eraseDups).filter (!j.decodes.contains ·)

/-! ### Jobs in the state -/

def Dev.job? (s : Dev) (id : Nat) : Option Job := s.mb.jobs.find? (·.id == id)

def Dev.modJob (s : Dev) (id : Nat) (g : Job → Job) : Dev :=
  { s with mb := { s.mb with jobs := s.mb.jobs.map fun j => if j.id = id then g j else j } }

def dropJob (id : Nat) (s : Dev) : Dev := { s with mb := { s.mb with jobs := s.mb.jobs.filter (·.id != id) } }

/-- Read one facet's range for a job unless that read is outstanding. -/
def askRange (x : Arr) (j : Job) (s : Dev) (n : Nat × Bool) : Dev :=
  let slot := (j.geom x).slotOf j.loc.beam n.1
  let why : Purpose := .job j.id slot n.2
  if s.mb.cmds.any fun c => !c.dead && c.why == why then s
  else
    let m := (j.geom x).members.getD slot 0x800
    issue m false ((s.mem m).a0 + j.loc.beam * 2 ^ x.shift + j.offset x n.2) 4096 [] why s

/-! ### Delivery -/

/-- Set the state of one block of a command. -/
def setBlock (id off : Nat) (b : BlockState) (s : Dev) : Dev :=
  s.modCtx id fun c => { c with blocks := c.blocks.set off b }

/-- Bytes of block `off` of a command are written to its host buffer, and the block stands as `b`. Where the function's Bus Master Enable
is clear no write can be made, and the block is not delivered (R109; DEDUCED, log entry 75). -/
def toBuffer (c : Ctx) (off : Nat) (bytes : List Byte) (b : BlockState) (s : Dev) : Dev :=
  if (s.fnS c.fn).busMaster then bufferWrite c.fn c.raw c.segs (4096 * off) bytes (setBlock c.id off b s)
  else setBlock c.id off .undelivered s

/-- A verified stored block of a READ: decrypted and written to the host buffer (R102, R182). -/
def deliver (id off : Nat) (data : Block) (s : Dev) : Dev :=
  match s.ctx? id with
  | none => s
  | some c =>
    let plain := xtsDecrypt (c.keys.headD 0) (eLba c.raw + off) data
    let s := match c.tenant with | some t => meterEnc t 1 s | none => s
    toBuffer c off plain (.done []) s

/-- A block that reads as zeros (R102). -/
def deliverZeros (id off : Nat) (b : BlockState) (s : Dev) : Dev :=
  match s.ctx? id with
  | none => s
  | some c => toBuffer c off (List.replicate 4096 0) b s

/-- A verified source block of a COPY, decrypted under the source volume's key (R103). -/
def deliverCopy (id off : Nat) (data : Block) (s : Dev) : Dev :=
  match s.ctx? id with
  | none => s
  | some c =>
    let s := match c.tenant with | some t => meterEnc t 1 s | none => s
    setBlock id off (.done (xtsDecrypt (c.keys.getD 1 0) (eSrcLba c.raw + off) data)) s

/-- R103: the source of a COPY and its destination overlap in one volume: no unit may be written before the whole source
has been read. -/
def copySelf (raw : BitVec 512) : Bool :=
  rangesOverlap (eVolume raw, eLba raw, eLba raw + eNblk raw) (eSrcVolume raw, eSrcLba raw, eSrcLba raw + eNblk raw)

/-- The blocks of a COPY unit, re-encrypted; none while one is still being read. -/
def copyUnit (c : Ctx) (p : Piece) : Option (List (Sum Block Bool)) :=
  (List.range p.len).mapM fun i =>
    let off := p.lba - eLba c.raw + i
    match c.blocks.getD off .reading with
    | .done b => some (.inl (xtsEncrypt (c.keys.headD 0) (p.lba + i) b))
    | .clear => some (.inr false)
    | .zero => some (.inr true)
    | _ => none

/-- R103: the first source block that cannot be read, with its status and qualifier. -/
def copyBad (c : Ctx) : Option (Nat × Nat × Nat) := readFailure c

/-- Make ready the units whose source blocks, and all earlier ones, have arrived; the unit that holds the first bad block, and every later one,
is left unchanged (R103). -/
def copyProgress (id : Nat) (s : Dev) : Dev :=
  match s.ctx? id with
  | none => s
  | some c =>
    let waiting := copySelf c.raw && c.blocks.any (· == .reading)
    let earlier (off : Nat) : Bool := (c.blocks.take off).all (· != .reading)
    let units := c.units.map fun p =>
      if p.st ≠ .reading then p
      else
        let stop := match copyBad c with
          | some (st, q, off) => if off < p.lba - eLba c.raw + p.len ∧ earlier off = true then some (st, q) else none
          | none => none
        match stop with
        | some (st, q) => { p with st := .failed st q }
        | none =>
          if waiting ∨ earlier (p.lba - eLba c.raw) = false then p
          else match copyUnit c p with
            | some b => { p with st := .ready b 0 }
            | none => p
    let data := (units.zip c.units).map fun e => match e.1.st, e.2.st with
      | .ready b _, .reading => (b.filter fun d => match d with | .inl _ => true | .inr _ => false).length
      | _, _ => 0
    let s := match c.tenant with | some t => meterEnc t data.sum s | none => s
    s.modCtx id fun c => { c with units := units }

/-- A live block becomes a relocation in the internal beam (R183, R199), `swept` for a sweep (R175); without room it waits with the kept
items. -/
def relocate (a : Nat) (i : Item) (swept : Bool) (s : Dev) : Dev :=
  match s.arr? a with
  | none => s
  | some x =>
    let src := match i with | .block _ _ _ _ _ (some l) => [l] | _ => []
    let x := if swept then { x with swept := x.swept ++ src } else x
    match (if x.keptUnits.isEmpty then spillGate s x (internalBeam s a x) else none) with
    | some r => placeIn a r [i] swept s
    | none => s.setArr a { x with keptUnits := x.keptUnits ++ [i] }

/-- A relocation of the block is already placed, or waits. -/
def relocating (x : Arr) (l : Loc) : Bool :=
  (x.beams.flatMap Beam.items ++ x.keptUnits).any fun i => match i with
    | .block _ _ _ _ _ (some l') => l' == l
    | _ => false

/-- R183: repair a verified block, unless a relocation of it is under way already (R194). -/
def repairBlock (j : Job) (seqLow : Nat) (data : Block) (s : Dev) : Dev :=
  match s.arr? j.loc.array with
  | none => s
  | some x =>
    if x.repairs.contains (j.vol, j.lba) || relocating x j.loc || x.offline != 0 || mapGet s j.vol j.lba != mapEntry j.loc then s
    else
      relocate j.loc.array (.block 0 j.vol j.lba seqLow (Stored.of 2 j.vol j.lba seqLow data) (some j.loc)) false
        (s.setArr j.loc.array { x with repairs := x.repairs ++ [(j.vol, j.lba)] })

/-- The live blocks of a beam: volume, LBA, block number. -/
def liveBlocks (s : Dev) (a beam : Nat) : List (Nat × Nat × Nat) :=
  s.vols.flatMap fun e => e.2.map.filterMap fun m =>
    if entryMapped m.2 ∧ (entryLoc m.2).array = a ∧ (entryLoc m.2).beam = beam then
      some (e.1, m.1, (entryLoc m.2).block) else none

/-- Create a job; its reads are issued when it is advanced. `got` gives ranges that have been read already. -/
def newJob (o : JobOwner) (v lba : Nat) (l : Loc) (got : List (Nat × Bool × List Byte)) (s : Dev) : Dev × Nat :=
  let id := s.mb.nextJob
  let j : Job := { id := id, owners := [o], vol := v, lba := lba, loc := l, extra := [], got := got, wide := false
                   unreadable := [], decodes := [], around := false, pages := none }
  ({ s with mb := { s.mb with nextJob := id + 1, jobs := s.mb.jobs ++ [j] } }, id)

/-! ### What owners do with a block -/

/-- A block of a READ as a lookup found it, but for one that has to be read (R102, R180, R201). -/
def readFound (id off v lba : Nat) (f : Found) (s : Dev) : Dev :=
  match f with
  | .clear => deliverZeros id off .clear s
  | .zero => deliverZeros id off .zero s
  | .dark => deliverZeros id off .dark s
  | .held d e =>
    if checkBlock v lba d e then deliver id off d s
    else deliverZeros id off (.unrecovered 1) (s.bump Fam.arrayUnrecovered (((s.vol? v).map (·.array)).getD 64))
  | .stored _ => s

/-- The same for a source block of a COPY (R103). -/
def copyFound (id off v lba : Nat) (f : Found) (s : Dev) : Dev :=
  match f with
  | .clear => setBlock id off .clear s
  | .zero => setBlock id off .zero s
  | .dark => setBlock id off .dark s
  | .held d e =>
    if checkBlock v lba d e then deliverCopy id off d s
    else setBlock id off (.unrecovered 1) (s.bump Fam.arrayUnrecovered (((s.vol? v).map (·.array)).getD 64))
  | .stored _ => s

/-- R131, R224: the cleaner or a sweep relocates a block that the map still holds there. -/
def cleanGood (j : Job) (swept : Bool) (seqLow : Nat) (data : Block) (s : Dev) : Dev :=
  match s.arr? j.loc.array with
  | none => s
  | some x =>
    if mapGet s j.vol j.lba ≠ mapEntry j.loc ∨ relocating x j.loc = true ∨ x.offline ≠ 0 then s
    else
      let s := if swept then s else s.bump Fam.cleanerRelocatedBlocks
      relocate j.loc.array (.block 0 j.vol j.lba seqLow (Stored.of 2 j.vol j.lba seqLow data) (some j.loc)) swept s

/-- R274: the candidate that passed takes the place of a block that failed the check. -/
def checkGood (j : Job) (cand : Nat) (data : Block) (s : Dev) : Dev :=
  match s.arr? j.loc.array with
  | some x =>
    match x.rebuild with
    | some r => if cand = 0 then s else s.setArr j.loc.array { x with rebuild := some { r with fixes := r.fixes ++ [(j.loc.block, data)] } }
    | none => s
  | none => s

/-- A relocated block of roll-forward has its source, or has none. -/
def sourceDone (a n : Nat) (s : Dev) : Dev :=
  match s.arr? a with
  | some x =>
    match x.recovery with
    | some r => s.setArr a { x with recovery := some { r with moved := r.moved.filter (·.1 != n) } }
    | none => s
  | none => s

/-- R221: a relocation applies where the map's source has the same seq_low and crc. -/
def sourceGood (j : Job) (n : Nat) (entry : List Byte) (s : Dev) : Dev :=
  let a := j.loc.array
  match ((s.arr? a).bind (·.recovery)).bind fun r => (r.moved.find? (·.1 == n)).map (r, ·) with
  | some (r, m) =>
    if m.2.2.2.1 = entryCrc entry ∧ m.2.2.2.2 = entrySeqLow entry then
      sourceDone a n (setEntry j.vol j.lba (mapEntry ⟨a, r.scan.headD 0, n⟩) s)
    else sourceDone a n s
  | none => s

/-- Give an owner its block, with the summary entry that it passed against. -/
def handOver (j : Job) (data entry : Block) (cand : Nat) (s : Dev) (o : JobOwner) : Dev :=
  match o with
  | .readBlock id off => deliver id off data s
  | .copyBlock id off => copyProgress id (deliverCopy id off data s)
  | .clean swept => cleanGood j swept (entrySeqLow entry) data s
  | .check => checkGood j cand data s
  | .source n => sourceGood j n entry s
  | .repair | .scrub => s

/-- R281: a permanently lost block is declared dark; its entry keeps its location. -/
def declareDark (v lba : Nat) (s : Dev) : Dev :=
  setEntry v lba ((mapGet s v lba &&& ~~~3#64) ||| 4#64) s

/-- R280: what is lost of the block is lost permanently: its members are FAILED or have reported it unreadable. -/
def Job.lostForGood (s : Dev) (x : Arr) (j : Job) : Bool :=
  let gone (summary : Bool) : List Nat := permanentFacets s x j.loc.beam
    ++ (j.unreadable.filter (·.2 == summary)).map fun e => (j.geom x).facetOn j.loc.beam e.1
  (survivors (j.geom x) (gone false)).isNone || (survivors (j.geom x) (gone true)).isNone

/-- R281: internal work meets a block that it cannot obtain: dark when that is for good, else the work holds. -/
def workLost (j : Job) (cleaner : Bool) (s : Dev) : Dev :=
  match s.arr? j.loc.array with
  | none => s
  | some x =>
    if mapGet s j.vol j.lba ≠ mapEntry j.loc ∨ x.offline ≠ 0 then s
    else if j.lostForGood s x then
      declareDark j.vol j.lba (s.setArr j.loc.array { x with darkened := x.darkened ++ [j.loc.beam] })
    else s.setArr j.loc.array (if cleaner then { x with cleanerHold := true } else { x with onHold := true })

/-- Tell an owner that its block is unrecovered, with its qualifier. -/
def handOverLost (j : Job) (qual : Nat) (s : Dev) (o : JobOwner) : Dev :=
  match o with
  | .readBlock id off => deliverZeros id off (.unrecovered qual) s
  | .copyBlock id off => copyProgress id (setBlock id off (.unrecovered qual) s)
  | .clean swept => workLost j (!swept) s
  | .check => workLost j false s
  | .source n => sourceDone j.loc.array n s
  | .repair | .scrub => s

/-- R212: after a page repair the lookup finds the block elsewhere than on members. -/
def handFound (j : Job) (f : Found) (s : Dev) (o : JobOwner) : Dev :=
  match o with
  | .readBlock id off => readFound id off j.vol j.lba f s
  | .copyBlock id off => copyProgress id (copyFound id off j.vol j.lba f s)
  | .source n => sourceDone j.loc.array n s
  | _ => s

/-- Internal work of R281 on a beam. -/
def JobOwner.sweeps : JobOwner → Bool
  | .clean _ | .check => true
  | _ => false

/-- R281: the last block of internal work on a beam has ended: where some were declared dark, the beam is counted, recorded and
reported. -/
def reportDark (a beam : Nat) (s : Dev) : Dev :=
  match s.arr? a with
  | none => s
  | some x =>
    if !x.darkened.contains beam || s.mb.jobs.any (fun j => j.loc.array == a && j.loc.beam == beam && j.owners.any (·.sweeps)) then s
    else
      let src := 0x102 + 4 * a
      let n := x.darkened.count beam
      let s := (s.setArr a { x with darkened := x.darkened.filter (· != beam) }).bump Fam.arrayDarkBeams a
      let s := ownRecord 0x06 src (le 1 a ++ List.replicate 7 0 ++ le 8 (beam % 2 ^ 36) ++ le 4 n) s
      hubReal src (beam % 2 ^ 32) true s

/-- R304: an Abort on a solid member of a command that none names yet, while fewer than ACL + 1 are outstanding. -/
def sendAbort (m tag : Nat) (s : Dev) : Dev :=
  let x := s.mem m
  if isPlatter m ∨ x.acl + 1 ≤ x.aborts ∨ (s.mb.cmds.any fun c => c.tag == tag && (c.aborted || c.waiting)) = true then s
  else
    let s := s.setMem m { x with aborts := x.aborts + 1 }
    memberCtl m "Abort" tag { s with mb := { s.mb with cmds := s.mb.cmds.map fun c =>
      if c.tag = tag then { c with aborted := true } else c } }

/-- R270 step 6: the late member reads of a read-around that the survivors won are cancelled. -/
def cancelLate (x : Arr) (j : Job) (s : Dev) : Dev :=
  let late (c : MCmd) : Bool := !c.dead && (match c.why with
    | .job id slot summary => id == j.id && j.extra.contains ((j.geom x).facetOn j.loc.beam slot, summary)
    | _ => false)
  (s.mb.cmds.filter late).foldl (fun s c => sendAbort c.member c.tag s) s

/-- R272: read-arounds of the array outstanding. -/
def readArounds (s : Dev) (a : Nat) : Nat := (s.mb.jobs.filter fun j => j.around && j.loc.array == a).length

/-- R183: a range found faulty on a platter member is reported for reallocation (R359), with its content where it is known. -/
def reportSector (x : Arr) (j : Job) (facet : Nat) (summary : Bool) (content : Option Block) (s : Dev) : Dev :=
  let m := (j.geom x).members.getD ((j.geom x).slotOf j.loc.beam facet) 0x800
  if isPlatter m then
    let pba := ((s.mem m).a0 + j.loc.beam * 2 ^ x.shift + j.offset x summary) / 4096
    let l := s.lens (m - 0x7E8)
    s.setLens (m - 0x7E8) { l with reported := l.reported.filter (·.1 != pba) ++ [(pba, content)] }
  else s

/-- The faulty ranges that a candidate names: the block's, its summary's, and that of one more survivor (Table 6.7). -/
def reportFaulty (x : Arr) (j : Job) (data : Block) (faulty : List (Nat × Bool)) (s : Dev) : Dev :=
  let fb := j.own s x false
  faulty.foldl (fun s f =>
    reportSector x j f.1 f.2 (if f.2 then (match j.range s x true [f.1] with | .bytes b _ => some b | _ => none)
      else if f.1 = fb then some data else none) s) s

/-- R182, R183: a verified block is released, and repaired when its check had failed or its range is unreadable; a relocation that it was
read for stands in for the repair (R194). -/
def jobGood (x : Arr) (j : Job) (data entry : Block) (cand : Nat) (faulty : List (Nat × Bool)) (s : Dev) : Dev :=
  let a := j.loc.array
  let s := if j.around && !j.extra.isEmpty then cancelLate x j (s.bump Fam.arrayReadaroundWins a) else s
  let s := j.owners.foldl (handOver j data entry cand) (dropJob j.id s)
  let s := if 0 < cand then reportFaulty x j data faulty (hubReal (0x100 + 4 * a) (j.loc.beam % 2 ^ 32) false s) else s
  let s := if 0 < cand ∨ j.unreadable ≠ [] ∨ j.owners.contains .repair = true then repairBlock j (entrySeqLow entry) data s else s
  -- another facet is at fault: every live block of the beam is relocated
  let s := if 0 < cand ∧ (faulty.any (·.1 != j.own s x false)) = true then
      (liveBlocks s a j.loc.beam).foldl (fun s b =>
        if b.2.2 = j.loc.block then s
        else (newJob .repair b.1 b.2.1 ⟨a, j.loc.beam, b.2.2⟩ [] s).1) s
    else s
  reportDark a j.loc.beam s

/-- R184: no candidate passed. A block that internal work alone could not obtain, without a check that failed, is R281's. -/
def jobBad (j : Job) (tested : Bool) (s : Dev) : Dev :=
  let a := j.loc.array
  let lost := j.owners.any fun o => match o with
    | .source _ => false
    | o => tested || !o.sweeps
  let s := if lost then hubReal (0x101 + 4 * a) (j.loc.beam % 2 ^ 32) false (s.bump Fam.arrayUnrecovered a) else s
  reportDark a j.loc.beam (j.owners.foldl (handOverLost j 1) (dropJob j.id s))

/-- R212: ask for the other two copies of the block's map page. -/
def askPages (j : Job) (s : Dev) : Dev :=
  let s := s.modJob j.id fun j => { j with pages := some [] }
  [1, 2].foldl (fun s i =>
    match pageCopy s j.vol (j.lba / 512) i with
    | some (m, off) =>
      if memberServes s m then issue m false off 4096 [] (.page j.id i) s
      else s.modJob j.id fun j => { j with pages := j.pages.map (· ++ [(i, [])]) }
    | none => s.modJob j.id fun j => { j with pages := j.pages.map (· ++ [(i, [])]) }) s

/-- The pages that R212 compares have arrived: two that agree and differ from the page in use replace it. -/
def pagesAgree (s : Dev) (j : Job) : Option (List Byte) :=
  match j.pages with
  | some [(_, a), (_, b)] => if a = b ∧ a.length = 4096 ∧ a ≠ pageBytes s j.vol (j.lba / 512) then some a else none
  | _ => none

/-- Put a page's 512 entries into the map, in every tier (R212). -/
def replacePage (v p : Nat) (b : List Byte) (s : Dev) : Dev :=
  setRegion v p b ((List.range 512).foldl (fun s i => setEntry v (512 * p + i) (BitVec.ofNat 64 (unle ((b.drop (8 * i)).take 8))) s) s)

/-- R212: a page in use has been replaced, and the read starts again from its lookup. -/
def restartJob (j : Job) (s : Dev) : Dev :=
  match lookup s j.vol j.lba with
  | .stored l => s.modJob j.id fun j =>
      { j with loc := l, extra := [], got := [], wide := false, unreadable := [], decodes := [], around := false, pages := none }
  | f => j.owners.foldl (handFound j f) (dropJob j.id s)

/-- Another read of the block that has failed the check: one candidate sequence serves both (R194). -/
def sameBlock (s : Dev) (j : Job) : Option Job :=
  s.mb.jobs.find? fun k => k.id != j.id && k.wide && k.vol == j.vol && k.lba == j.lba && k.loc == j.loc

/-- The reconstructions that a verdict took are counted (R195). -/
def countDecodes (x : Arr) (j : Job) (v : Verdict) (s : Dev) : Dev :=
  match j.newDecodes s x (v.tried (j.candidates s x).length) with
  | [] => s
  | l => (s.modJob j.id fun j => { j with decodes := j.decodes ++ l }).addVal Fam.prismDecodedBytes 0 (l.length * (j.geom x).k * 4096)

/-- Act on how far a job has come: issue what its next candidate needs, or end it. -/
def actOn (x : Arr) (j : Job) (v : Verdict) (s : Dev) : Dev :=
  match v with
  | .need l cand =>
    -- R181: at the first mismatch the summary entry is reconstructed as well
    let more := if 0 < cand then (match j.range s x true [j.own s x true] with | .missing b => b.map (·, true) | _ => []) else []
    (l ++ more.filter (!l.contains ·)).foldl (askRange x j) s
  | .good data entry cand faulty => jobGood x j data entry cand faulty s
  | .bad tested =>
    -- R271: with the survivors gone, the read waits for the late member alone
    if j.around && !j.extra.isEmpty then s.modJob j.id fun j => { j with extra := [] }
    else if tested = some true then
      match j.pages with
      | none => askPages j s
      | some l =>
        if l.length < 2 then s
        else match pagesAgree s j with
          | some b => restartJob j ((replacePage j.vol (j.lba / 512) b s).bump Fam.mapPageRepairs)
          | none => jobBad j true s
    else jobBad j tested.isSome s

/-- Take a job one step. A block that fails its check joins the candidate sequence that another read of it has begun (R194), or begins
one, and counts (R182). -/
def advanceJob (id : Nat) (s : Dev) : Dev :=
  match s.job? id with
  | none => s
  | some j =>
    match s.arr? j.loc.array with
    | none => s
    | some x =>
      let v := j.verdict s x
      let s := countDecodes x j v s
      if v.failed && !j.wide then
        match sameBlock s j with
        | some k => (dropJob id s).modJob k.id fun k => { k with owners := k.owners ++ j.owners }
        | none =>
          actOn x { j with wide := true } v
            ((s.modJob id fun j => { j with wide := true }).bump Fam.arrayCrcMismatches j.loc.array)
      else actOn x j v s

/-- Every job is looked at again, as after a member transition (R194, R204); new ones are started. -/
def advanceAll (s : Dev) : Dev :=
  (s.mb.jobs.map (·.id)).foldl (fun s id => advanceJob id (advanceJob id s)) s

/-- Start obtaining a stored block. -/
def startJob (o : JobOwner) (v lba : Nat) (l : Loc) (s : Dev) : Dev :=
  let r := newJob o v lba l [] s
  advanceJob r.2 r.1

/-- Begin block `off` of a READ where it stands (R102, R201). -/
def readBlockAt (id off : Nat) (s : Dev) : Dev :=
  match s.ctx? id with
  | none => s
  | some c =>
    let v := eVolume c.raw
    let lba := eLba c.raw + off
    let f := lookup s v lba
    let s := touchPage v lba s
    match f with
    | .stored l => startJob (.readBlock id off) v lba l s
    | f => readFound id off v lba f s

/-- Begin source block `off` of a COPY (R103). -/
def copyBlockAt (id off : Nat) (s : Dev) : Dev :=
  match s.ctx? id with
  | none => s
  | some c =>
    let v := eSrcVolume c.raw
    let lba := eSrcLba c.raw + off
    let f := lookup s v lba
    let s := touchPage v lba s
    match f with
    | .stored l => startJob (.copyBlock id off) v lba l s
    | f => copyFound id off v lba f s

/-- A member read of a job has ended: its bytes, or none; `unreadable` when the member reported the range lost (R280). -/
def jobRead (id slot : Nat) (summary : Bool) (data : Option (List Byte)) (unreadable : Bool) (s : Dev) : Dev :=
  match s.job? id with
  | none => s
  | some j =>
    match s.arr? j.loc.array with
    | none => s
    | some x =>
      let f := (j.geom x).facetOn j.loc.beam slot
      let s := s.modJob id fun j => { j with
        got := j.got ++ [(slot, summary, fitBytes (if data.isSome then 4096 else 0) (data.getD []))]
        unreadable := if unreadable then j.unreadable ++ [(slot, summary)] else j.unreadable
        -- R271: the late member's own result takes part again
        extra := j.extra.filter (· != (f, summary)) }
      settle (advanceAll (advanceJob id s))

/-- A map-page copy has arrived (R212). -/
def pageRead (id copy : Nat) (data : Option (List Byte)) (s : Dev) : Dev :=
  settle (advanceAll (advanceJob id (s.modJob id fun j => { j with pages := j.pages.map (· ++ [(copy, data.getD [])]) })))

end Sys2Proof.Machine
end

