-- ==== Sys2Proof/Machine/BeamRead.lean ====
section
/-!
DEFINITION. Beams read whole: facet rebuild and catch-up (R274, R275), scrub (R185), and recovery (R220 to R222) with its
roll-forward; and the live blocks that the cleaner and the sweeps obtain (R224, R281).
-/

namespace Sys2Proof.Machine

/-! ### Live blocks obtained for internal work (R281) -/

/-- R281, R287: sweeps and the cleaner run in a serving mode on an array that is not OFFLINE and whose recovery has finished. -/
def sweepsRun (s : Dev) (x : Arr) : Bool :=
  s.serving && s.executing && x.offline == 0 && x.recovery.isNone && s.pw.trans.isNone

/-- The live blocks of a segment: volume, LBA, location. -/
def liveInSegment (s : Dev) (a seg : Nat) : List (Nat × Nat × Loc) :=
  s.vols.flatMap fun e => e.2.map.filterMap fun m =>
    let l := entryLoc m.2
    if entryMapped m.2 ∧ l.array = a ∧ l.beam / 64 = seg then some (e.1, m.1, l) else none

/-- A job of internal work obtains the block. -/
def sweeping (s : Dev) (l : Loc) : Bool := s.mb.jobs.any fun j => j.loc == l && j.owners.any (·.sweeps)

/-- The live blocks of a segment that are neither being obtained nor relocated are asked for (R224). -/
def cleanSegment (a seg : Nat) (swept : Bool) (s : Dev) : Dev :=
  match s.arr? a with
  | none => s
  | some x =>
    let todo := (liveInSegment s a seg).filter fun b => !relocating x b.2.2 && !sweeping s b.2.2
    todo.foldl (fun s b => startJob (.clean swept) b.1 b.2.1 b.2.2 s) s

/-! ### Ranges of a beam -/

def BeamRead.geom (x : Arr) (b : BeamRead) : Geom := x.geomOf (b.beam / 64)

/-- The most that a command may move of every facet (R301); a platter member reads sector by sector (R325). -/
def readUnit (s : Dev) (x : Arr) (g : Geom) : Nat :=
  (g.members.map fun m => if isPlatter m then 4096 else maxTransfer (s.mem m)).foldl min (2 ^ x.shift)

def BeamRead.ranges (x : Arr) (b : BeamRead) : List (Nat × Nat) := splits b.unit 0 (2 ^ x.shift)

/-- What has arrived of a facet's range; no bytes mark a failed read. -/
def BeamRead.part (x : Arr) (b : BeamRead) (f off : Nat) : Option (List Byte) :=
  (b.got.find? fun e => e.1 == (b.geom x).slotOf b.beam f && e.2.1 == off).map (·.2.2)

/-- R171: the facets that cannot supply a range. -/
def BeamRead.erased (s : Dev) (x : Arr) (b : BeamRead) (off : Nat) : List Nat :=
  erasedFacets s x b.beam ++ (List.range (b.geom x).width).filter fun f => b.part x f off == some []

/-- The facets read of a range: the survivors of R172 for a rebuild, else every one there is; none when a rebuild cannot have it. -/
def BeamRead.wanted (s : Dev) (x : Arr) (b : BeamRead) (off : Nat) : Option (List Nat) :=
  let er := b.erased s x off
  match b.use with
  | .rebuild => survivors (b.geom x) er
  | _ => some ((List.range (b.geom x).width).filter (!er.contains ·))

/-- Every range wanted has arrived. -/
def BeamRead.ready (s : Dev) (x : Arr) (b : BeamRead) : Bool :=
  (b.ranges x).all fun r => ((b.wanted s x r.1).getD []).all fun f => (b.part x f r.1).isSome

/-- The facets of a range that have arrived, with their bytes. -/
def BeamRead.parts (s : Dev) (x : Arr) (b : BeamRead) (off : Nat) : List (Nat × List Byte) :=
  ((b.wanted s x off).getD []).filterMap fun f => (b.part x f off).bind fun d => if d = [] then none else some (f, d)

/-- Start reading a beam. -/
def beginRead (a : Nat) (use : BeamUse) (beam : Nat) (s : Dev) : Dev :=
  match s.arr? a with
  | none => s
  | some x => s.setArr a { x with reads := x.reads.filter (·.use != use)
      ++ [{ use := use, beam := beam, unit := readUnit s x (x.geomOf (beam / 64)), got := [] }] }

/-- Reading of a beam ends. -/
def endRead (a : Nat) (use : BeamUse) (s : Dev) : Dev :=
  match s.arr? a with
  | none => s
  | some x => s.setArr a { x with reads := x.reads.filter (·.use != use) }

/-- Read one facet's range unless that read is outstanding. -/
def askFacet (a : Nat) (x : Arr) (b : BeamRead) (r : Nat × Nat) (s : Dev) (f : Nat) : Dev :=
  let slot := (b.geom x).slotOf b.beam f
  let m := (b.geom x).members.getD slot 0x800
  let off := (s.mem m).a0 + b.beam * 2 ^ x.shift + r.1
  let why : Purpose := .beamRead a b.use slot
  if s.mb.cmds.any fun c => !c.dead && c.why == why && c.offset == off then s
  else issue m false off r.2 [] why s

/-- Ask for every range wanted that has not arrived. -/
def askBeam (a : Nat) (x : Arr) (b : BeamRead) (s : Dev) : Dev :=
  (b.ranges x).foldl (fun s r =>
    (((b.wanted s x r.1).getD []).filter fun f => (b.part x f r.1).isNone).foldl (askFacet a x b r) s) s

/-- A range has come back, or its read has failed. -/
def beamReadEnded (c : MCmd) (a : Nat) (use : BeamUse) (slot : Nat) (data : Option (List Byte)) (s : Dev) : Dev :=
  match s.arr? a with
  | none => s
  | some x => s.setArr a { x with reads := x.reads.map fun b =>
      let start := (s.mem c.member).a0 + b.beam * 2 ^ x.shift
      if b.use = use ∧ start ≤ c.offset ∧ c.offset < start + 2 ^ x.shift then
        { b with got := b.got ++ [(slot, c.offset - start, fitBytes (if data.isSome then c.length else 0) (data.getD []))] }
      else b }

/-! ### The content of a beam that has been read -/

/-- A data facet, range by range; a range that cannot be had is of bytes that the spec does not state (R274). -/
def BeamRead.dataFacet (s : Dev) (x : Arr) (b : BeamRead) (i : Nat) : List Byte :=
  (b.ranges x).flatMap fun r =>
    match b.parts s x r.1 with
    | [] => (List.range r.2).map fun k => Config.freeByte s.fresh (r.1 + k)
    | l => fitBytes r.2 (reconstructFacet (b.geom x) r.2 i l)

/-- The facets that have arrived agree under the code, range by range (R185, R221). -/
def BeamRead.consistent (s : Dev) (x : Arr) (b : BeamRead) : Bool :=
  let g := b.geom x
  (b.ranges x).all fun r =>
    let l := b.parts s x r.1
    match l with
    | [] => true
    | (_, d) :: _ =>
      if g.mirror then l.all fun e => e.2 == d
      else decide (l.length < g.k) || (l.drop g.k).all fun e => reconstructFacet g r.2 e.1 (l.take g.k) == e.2

/-- The readings of data-area slot `n` in the order of Table 6.7: as stored, where its facet has been read, then as the survivors give it,
all of them and with one more left out at a time; of a mirror, copy by copy. Each with what it decodes, in bytes (R195). -/
def BeamRead.readings (s : Dev) (x : Arr) (b : BeamRead) (n : Nat) : List (List Byte × Nat) :=
  let g := b.geom x
  let p := Geom.place x.shift n
  match (b.ranges x).find? fun r => decide (r.1 ≤ p.2) && decide (p.2 < r.1 + r.2) with
  | none => []
  | some r =>
    let all := b.parts s x r.1
    let cut (d : List Byte) : List Byte := (d.drop (p.2 - r.1)).take 4096
    if g.mirror then all.map fun e => (cut e.2, 0)
    else
      let l := all.filter (·.1 != p.1)
      let rebuilt (l : List (Nat × List Byte)) : List (List Byte × Nat) :=
        if g.k ≤ l.length then [(cut (reconstructFacet g r.2 p.1 (l.take g.k)), g.k * 4096)] else []
      ((all.filter (·.1 == p.1)).map fun e => (cut e.2, 0)) ++ rebuilt l ++ (l.take g.k).flatMap fun e => rebuilt (l.filter (·.1 != e.1))

/-- Data-area slot `n` as a plain read gives it: from its facet, or where that is an erasure from the survivors (R171). -/
def BeamRead.slotAt (s : Dev) (x : Arr) (b : BeamRead) (n : Nat) : Option (List Byte) := ((b.readings s x n).head?).map (·.1)

/-- R195: the survivor bytes that plain readings of these slots decode. -/
def countSlots (x : Arr) (b : BeamRead) (l : List Nat) (s : Dev) : Dev :=
  s.addVal Fam.prismDecodedBytes 0 (l.map fun n => (((b.readings s x n).head?).map (·.2)).getD 0).sum

/-- R195: what the comparison of a beam's facets takes of Prism: where every data facet has been read, parity is encoded afresh; else the
survivors are decoded. -/
def countCompared (x : Arr) (b : BeamRead) (s : Dev) : Dev :=
  let g := b.geom x
  let surplus (r : Nat × Nat) : Bool := decide (g.k < (b.parts s x r.1).length)
  let whole (r : Nat × Nat) : Bool := (List.range g.k).all fun f => (b.parts s x r.1).any (·.1 == f)
  if g.mirror then s
  else
    let l := (b.ranges x).filter surplus
    let s' := s.addVal Fam.prismEncodedBytes 0 (((l.filter whole).map fun r => g.k * r.2).sum)
    s'.addVal Fam.prismDecodedBytes 0 (((l.filter (!whole ·)).map fun r => g.k * r.2).sum)

/-! ### Facet rebuild and catch-up (R274, R275) -/

/-- The live blocks of a beam that R274 checks before the facet of `slot` is written: those of the facet, or every one where the facet
there is parity; of a mirror all. -/
def facetBlocks (s : Dev) (a : Nat) (x : Arr) (beam slot : Nat) : List (Nat × Nat × Nat) :=
  let g := x.geomOf (beam / 64)
  let f := g.facetOn beam slot
  (liveBlocks s a beam).filter fun b => g.mirror || decide (g.k ≤ f) || (Geom.place x.shift (blockSlot b.2.2)).1 == f

/-- Put the contents that passed the check in place of blocks of data facet `i` that had not. -/
def patchFacet (x : Arr) (mirror : Bool) (fixes : List (Nat × Block)) (i : Nat) (d : List Byte) : List Byte :=
  fixes.foldl (fun d f =>
    let p := Geom.place x.shift (blockSlot f.1)
    if mirror || p.1 == i then d.take p.2 ++ f.2 ++ d.drop (p.2 + 4096) else d) d

/-- The facet of `slot` as R274 step 4 writes it. -/
def rebuiltFacet (s : Dev) (x : Arr) (b : BeamRead) (slot : Nat) (fixes : List (Nat × Block)) : List Byte :=
  let g := b.geom x
  let f := g.facetOn b.beam slot
  let col (i : Nat) : List Byte := patchFacet x g.mirror fixes i (b.dataFacet s x i)
  if g.mirror then col 0
  else if f < g.k then col f
  else parityOf (f - g.k) (2 ^ x.shift) ((List.range g.k).map fun i => (i, col i))

/-- Prism's work for it (R195): what it decodes, and what it encodes for a parity facet. -/
def countRebuilt (x : Arr) (b : BeamRead) (slot : Nat) (s : Dev) : Dev :=
  let g := b.geom x
  if g.mirror then s
  else
    let used := (b.ranges x).filter fun r => (b.parts s x r.1).any fun e => decide (g.k ≤ e.1)
    let s := s.addVal Fam.prismDecodedBytes 0 ((used.map fun r => g.k * r.2).sum)
    if g.k ≤ g.facetOn b.beam slot then s.addVal Fam.prismEncodedBytes 0 (g.slots x.shift * 4096) else s

/-- Segments whose mask has a slot's bit (R274, R275). -/
def Arr.lacking (x : Arr) (slot : Nat) : List Nat :=
  (x.seg.filter fun e => e.2.st != .free && e.2.mask.contains slot).map (·.1)

def setRebuild (a : Nat) (x : Arr) (r : Option Rebuild) (s : Dev) : Dev := s.setArr a { x with rebuild := r }

/-- Every facet of the slot in the segment is written: its bit is cleared, and the position is kept (R274 step 5). -/
def segmentRebuilt (a : Nat) (x : Arr) (r : Rebuild) (s : Dev) : Dev :=
  let v := x.segment r.seg
  let y := ({ x with rebuild := none }).setSegment r.seg { v with mask := v.mask.filter (· != r.slot) }
  let s := (s.setArr a y).setVal Fam.arraySweepRemaining a (y.lacking r.slot).length
  advanceAll (sendSegment a r.seg (writeMeridian a s))

/-- One step of a rebuild: check the live blocks of the next beam, read its survivors, write its facet; none when it has to wait. -/
def rebuildStep (a : Nat) (s : Dev) : Option Dev :=
  match s.arr? a with
  | none => none
  | some x =>
    match x.rebuild with
    | none => none
    | some r =>
      let mine := match x.sweep with | some (.facet slot m _) => slot == r.slot && m == r.target | _ => false
      if !mine then some (setRebuild a { x with reads := x.reads.filter (·.use != .rebuild) } none s)
      else if !(sweepsRun s x) || x.paused || x.onHold || (s.mem r.target).st != .target then none
      else
        match ((x.segment r.seg).beams.map (64 * r.seg + ·)).find? (!r.done.contains ·) with
        | none => some (segmentRebuilt a x r s)
        | some beam =>
          if r.writing then
            if s.mb.cmds.any fun c => !c.dead && c.why == .rebuilt a beam then none
            else some (setRebuild a x (some { r with done := r.done ++ [beam], checked := false, fixes := [], writing := false }) s)
          else if !r.checked then
            let todo := (facetBlocks s a x beam r.slot).filter fun b => !sweeping s ⟨a, beam, b.2.2⟩
            some (todo.foldl (fun s b => startJob .check b.1 b.2.1 ⟨a, beam, b.2.2⟩ s)
              (setRebuild a x (some { r with checked := true }) s))
          else if s.mb.jobs.any fun j => j.loc.array == a && j.owners.contains .check then none
          else
            match x.reads.find? (·.use == .rebuild) with
            | none => some (beginRead a .rebuild beam s)
            | some b =>
              if b.ready s x then
                let bytes := rebuiltFacet s x b r.slot r.fixes
                let s := countRebuilt x b r.slot (setRebuild a { x with reads := x.reads.filter (·.use != .rebuild) }
                  (some { r with writing := true }) s.draw)
                some (issueWrite r.target ((s.mem r.target).a0 + beam * 2 ^ x.shift) bytes (.rebuilt a beam) s)
              else some (askBeam a x b s)

/-- A rebuild goes on as far as it can. -/
def advanceRebuild (a : Nat) : Nat → Dev → Dev
  | 0, s => s
  | k + 1, s =>
    match rebuildStep a s with
    | some t => if t = s then s else advanceRebuild a k t
    | none => s

/-- A facet of the target was not written: the segment is begun again with the next step of the sweep. -/
def rebuildFails (a : Nat) (s : Dev) : Dev :=
  match s.arr? a with
  | none => s
  | some x => setRebuild a x none { s with mb := { s.mb with cmds := s.mb.cmds.map fun c => match c.why with
      | .rebuilt a' _ => if a' = a then { c with dead := true } else c
      | _ => c } }

/-! ### Scrub (R185) -/

/-- The ranges of a block and of its summary entry that have been read, as a job takes them. -/
def BeamRead.jobRanges (s : Dev) (x : Arr) (b : BeamRead) (n : Nat) : List (Nat × Bool × List Byte) :=
  let g := b.geom x
  let of (summary : Bool) (sl : Nat) : List (Nat × Bool × List Byte) :=
    let p := Geom.place x.shift sl
    match (b.ranges x).find? fun r => decide (r.1 ≤ p.2) && decide (p.2 < r.1 + r.2) with
    | none => []
    | some r => ((b.parts s x r.1).filter fun e => g.mirror || e.1 == p.1).map fun e =>
        (g.slotOf b.beam e.1, summary, (e.2.drop (p.2 - r.1)).take 4096)
  of false (blockSlot n) ++ of true (summarySlot g x.shift n)

/-- The slots of a beam's header and of a block with its summary entry. -/
def BeamRead.slotsOf (x : Arr) (b : BeamRead) (n : Nat) : List Nat := [blockSlot n, summarySlot (b.geom x) x.shift n]

/-- The block as it was read, or reconstructed where its facet is an erasure, passes the check (R180). -/
def BeamRead.blockOk (s : Dev) (x : Arr) (b : BeamRead) (l : Nat × Nat × Nat) : Bool :=
  match b.slotAt s x (blockSlot l.2.2), b.slotAt s x (summarySlot (b.geom x) x.shift l.2.2) with
  | some d, some e => checkBlock l.1 l.2.1 d (entryIn l.2.2 e)
  | _, _ => false

/-- R176, Table 6.7: which reading of the header is the first valid one: 0 the plain read, `i` a later candidate; none. -/
def BeamRead.header (a : Nat) (s : Dev) (x : Arr) (b : BeamRead) : Option Nat :=
  (b.readings s x 0).findIdx? fun e => headerValid a x b.beam e.1

/-- A beam has been read: its header, every live block and its redundancy are checked. -/
def scrubJudge (a : Nat) (x : Arr) (b : BeamRead) (s : Dev) : Dev :=
  let live := liveBlocks s a b.beam
  let bad := live.filter fun l => !b.blockOk s x l
  let odd := bad.isEmpty && !b.consistent s x
  let tried := b.readings s x 0
  -- 0 valid as read, 1 a candidate is, 2 none; a header that cannot be read at all shows no fault
  let head := if live.isEmpty || tried.isEmpty then 0 else match b.header a s x with | some 0 => 0 | some _ => 1 | none => 2
  let start (o : JobOwner) (s : Dev) (l : Nat × Nat × Nat) : Dev :=
    (newJob o l.1 l.2.1 ⟨a, b.beam, l.2.2⟩ (b.jobRanges s x l.2.2) s).1
  let s' := s
  let s := countCompared x b (countSlots x b (live.flatMap fun l => b.slotsOf x l.2.2) s)
  let s := s.addVal Fam.prismDecodedBytes 0 ((tried.take (((b.header a s x).map (· + 1)).getD tried.length)).map (·.2)).sum
  let s := if odd then s.bump Fam.arrayParityMismatches a else s
  let s := if head = 0 then s else s.bump Fam.arrayCrcMismatches a
  let s := if head = 1 then hubReal (0x100 + 4 * a) (b.beam % 2 ^ 32) false s
    else if head = 2 then hubReal (0x101 + 4 * a) (b.beam % 2 ^ 32) false (s.bump Fam.arrayUnrecovered a) else s
  let s := bad.foldl (start .scrub) s
  let s := if odd || head == 1 then (live.filter fun l => b.blockOk s' x l).foldl (start .repair) s else s
  advanceAll (endRead a .scrub s)

/-- A beam under scrub goes on. -/
def advanceScrub (a : Nat) (s : Dev) : Dev :=
  match s.arr? a with
  | none => s
  | some x =>
    match x.reads.find? (·.use == .scrub) with
    | none => s
    | some b =>
      if !(sweepsRun s x) then s
      else if b.ready s x then scrubJudge a x b s else askBeam a x b s

/-! ### Recovery (R220 to R222) -/

/-- Write sequence of an item that stands for host data; a relocation has none to recover. -/
def hostSeq (i : Item) : Option Nat :=
  match i with
  | .block _ _ _ q _ none => some q
  | .block _ _ _ _ _ (some _) => none
  | .delta _ _ _ _ q _ => some q

/-- Step 1: the map pages of the array's volumes are loaded from the map region, and what is counted from them follows. -/
def loadPages (a : Nat) (s : Dev) : Dev :=
  let mine := s.vols.filter fun e => e.2.array == a
  let vols : Tbl Vol := s.vols.map fun e => if e.2.array = a then (e.1, { e.2 with
      map := e.2.region, allocated := (e.2.region.filter fun m => allocatedEntry m.2).length
      dark := (e.2.region.filter fun m => entryDark m.2).length }) else e
  let s := { s with vols := vols, ms := { s.ms with
    dirtyPages := s.ms.dirtyPages.filter fun p => !mine.any fun e => e.1 == p.1
    hot := s.ms.hot.filter fun p => !mine.any fun e => e.1 == p.1 } }
  let s := s.setVal Fam.arrayDarkBlocks a (((s.vols.filter fun e => e.2.array == a).map (·.2.dark)).sum)
  match s.arr? a with
  | none => s
  | some x => s.setArr a { x with seg := x.seg.map fun e => (e.1, { e.2 with live := (liveInSegment s a e.1).length }) }

/-- One delta of a committed beam applied to the map (R205): a relocation where the map still names its source (R131). -/
def applyDelta (a beam : Nat) (s : Dev) (d : MapDelta) : Dev :=
  match d with
  | .block n v lba q _ src => applyItem a beam s (.block n v lba q ⟨[], []⟩ (src.map fun t => ⟨t.1, t.2.1, t.2.2⟩))
  | .range v lba n zero q k => applyItem a beam s (.delta v lba n zero q k)

/-- Step 2 with a valid image: its delta log, in order, from the horizon of its journal. -/
def applyLog (a : Nat) (s : Dev) : Dev :=
  match s.arr? a with
  | none => s
  | some x => x.log.foldl (fun s e => e.2.2.foldl (applyDelta a e.1) s) s

/-- R216: the whole copy of the highest generation, among the slots of the holders that can be read. -/
def bestJournal (s : Dev) (x : Arr) : Option JournalCopy :=
  (x.copies.filter fun c => c.whole && x.holders.contains c.member && memberServes s c.member).foldl (fun best c =>
    match best with
    | none => some c
    | some b => if b.gen < c.gen then some c else some b) none

/-- R221: the beams of the open segments in open order, from the horizon. -/
def scanOrder (openList : List Nat) (horizon : Nat) : List Nat :=
  match openList with
  | [] => []
  | g :: r => ((List.range 64).drop horizon).map (64 * g + ·) ++ r.flatMap fun g => (List.range 64).map (64 * g + ·)

/-- R269: the slots of the outage record join the mask of every segment on the open list, before any read of them. -/
def Arr.maskOutage (x : Arr) : Arr :=
  x.openList.foldl (fun y g =>
    let v := y.segment g
    if v.st = .free then y else y.setSegment g { v with mask := v.mask ++ x.outage.filter (!v.mask.contains ·) }) x

/-- The journal that roll-forward takes: the newest copy on the holders, or where those are lost the working copy in the window, if a valid
image has brought it back (R218, R240). -/
def usedJournal (s : Dev) (x : Arr) (window : Bool) : Option JournalCopy :=
  bestJournal s x <|> (if window then some (x.journalCopy 0) else none)

/-- Step 2 without the image's delta log: the journal is read, and the beams to scan follow from it. With no copy left the array goes OFFLINE
(R218). -/
def readJournal (a : Nat) (s : Dev) : Dev :=
  match s.arr? a with
  | none => s
  | some x =>
    match x.recovery, x.recovery.bind (·.unread) with
    | some r, some window =>
      let x := { x with deltas := [], log := [] }
      match usedJournal s ((s.arr? a).getD x) window with
      | none => s.setArr a ({ x with offline := 2, recovery := some { r with unread := none } }).sealSegments
      | some j =>
        let x := { x with openList := j.openList, horizon := j.horizon, nextSeq := max x.nextSeq j.nextSeq
                          recovery := some { r with
                            unread := none, scan := scanOrder j.openList j.horizon, epoch := j.epoch, deltas := j.deltas } }
        s.setArr a x.sealSegments.maskOutage
    | _, _ => s

/-- Steps 1 and 2 of an array's recovery as far as they need no beam. `valid`: a valid protected-cache image exists. What the window held of
uncommitted beams waits to be placed again, less the units with a poisoned slot (R252); without an image it is lost. An array that its
members keep OFFLINE has its journal read when it leaves OFFLINE (R220). -/
def prepareRecovery (valid : Bool) (s : Dev) (a : Nat) : Dev :=
  let s := loadPages a s
  match s.arr? a with
  | none => s
  | some x =>
    let old := x.recovery
    let image := valid && !x.writeThrough
    let units := (x.keptUnits ++ x.beams.flatMap Beam.items).filter fun i => (hostSeq i).isSome
    let bad (i : Item) : Bool := (hostSeq i).any fun q => s.pc.poisoned.any fun p => p.1 == a && p.2.1 == q
    let acked (b : Beam) : Bool := !x.writeThrough && !image && b.items.any fun i => (hostSeq i).isSome
    let opened := ((old.map (·.opened)).getD []) ++ x.beams.map (fun b => (b.num, acked b))
      ++ (if image then [] else x.log.map fun e => (e.1, !x.writeThrough && !e.2.2.isEmpty))
    let wasLost := (old.map (·.lost)).getD false
    let r : Recovery := { begun := false, scan := [], epoch := x.geom.epoch, deltas := [], moved := [], applying := false
                          opened := opened.eraseDups, lost := wasLost || (image && units.any bad), unread := none }
    let x := { x with beams := [], active := none, reads := x.reads.filter (·.use != .roll) }
    if image then
      let x := ({ x with keptUnits := keptOrder (units.filter (!bad ·)), deltas := [], recovery := some r }).sealSegments
      applyLog a (s.setArr a x.maskOutage)
    else
      let r := { r with lost := r.lost || (!x.writeThrough && x.keptUnits.any fun i => (hostSeq i).isSome), unread := some valid }
      let s := s.setArr a { x with keptUnits := [], recovery := some r }
      if beyond s x then s else readJournal a s

/-- A slot of the beam's geometry whose facet R221 asks for. -/
def rollSlot (s : Dev) (x : Arr) (beam slot : Nat) : Bool :=
  let st := (s.mem ((x.geomOf (beam / 64)).members.getD slot 0x800)).st
  st != .failed && st != .absent && !(x.segment (beam / 64)).mask.contains slot

/-- The summary entry and bytes of data block `n`, as the beam gives them. -/
def BeamRead.block (s : Dev) (x : Arr) (b : BeamRead) (n : Nat) : List Byte × List Byte :=
  let at_ (sl : Nat) : List Byte := (b.slotAt s x sl).getD []
  (entryIn n (at_ (summarySlot (b.geom x) x.shift n)), at_ (blockSlot n))

/-- R221: the beam is complete. -/
def rollsForward (a : Nat) (s : Dev) (x : Arr) (epoch : Nat) (b : BeamRead) : Bool :=
  let g := b.geom x
  let facets := (List.range g.width).filter fun f => rollSlot s x b.beam (g.slotOf b.beam f)
  let head := (b.slotAt s x 0).getD []
  (b.ranges x).all (fun r => facets.all fun f => ((b.part x f r.1).map fun d => !d.isEmpty).getD false)
    && decide ((if g.mirror then 1 else g.k) ≤ facets.length)
    && headerValid a x b.beam head && fieldAt head 0xC 4 == epoch && b.consistent s x
    && (List.range (g.blocks x.shift)).all fun n =>
      let e := (b.block s x n).1
      e.all (· == 0) || checkBlock (entryVol e) (entryLba e) (b.block s x n).2 e

/-- One data block or range delta of a beam that rolls forward, in placement order; a relocated block waits for its source. -/
def rollItem (a beam : Nat) (x : Arr) (b : BeamRead) (s : Dev) (n : Nat) : Dev :=
  let r := (s.arr? a).bind (·.recovery)
  let due := ((r.map (·.deltas)).getD []).filter fun d => d.1 == beam && (match d.2 with | .delta _ _ _ _ _ k => k == n | _ => false)
  let s' := s
  let s := due.foldl (fun s d => applyItem a beam s d.2) s
  let e := (b.block s' x n).1
  if (x.geomOf (beam / 64)).blocks x.shift ≤ n then s
  else if entryKind e = 1 then (if volReady s (entryVol e) then setEntry (entryVol e) (entryLba e) (mapEntry ⟨a, beam, n⟩) s else s)
  else if entryKind e = 2 ∧ volReady s (entryVol e) = true ∧ entryMapped (mapGet s (entryVol e) (entryLba e)) = true then
    match s.arr? a with
    | some y => match y.recovery with
      | some r => s.setArr a { y with recovery := some { r with
          moved := r.moved ++ [(n, entryVol e, entryLba e, entryCrc e, entrySeqLow e)] } }
      | none => s
    | none => s
  else s

/-- The highest write sequence that a beam carries: of its host blocks (R178) and of its range deltas. -/
def BeamRead.lastSeq (s : Dev) (x : Arr) (b : BeamRead) (deltas : List (Nat × Item)) : Nat :=
  let first := fieldAt ((b.slotAt s x 0).getD []) 0x18 8
  let host := (List.range ((b.geom x).blocks x.shift)).filterMap fun n =>
    let e := (b.block s x n).1
    if entryKind e = 1 then some (fullSeq first (entrySeqLow e)) else none
  listMax (host ++ deltas.filterMap fun d => if d.1 = b.beam then hostSeq d.2 else none)

/-- The summary entries of the sources of relocated blocks are read (R221). -/
def readSources (l : List (Nat × Nat × Nat × Word × Nat)) (s : Dev) : Dev :=
  l.foldl (fun s m => startJob (.source m.1) m.2.1 m.2.2.1 (entryLoc (mapGet s m.2.1 m.2.2.1)) s) s

/-- A complete beam is applied (R221); slots that it was not read from join the segment's mask (R268). -/
def rollApply (a : Nat) (x : Arr) (r : Recovery) (b : BeamRead) (s : Dev) : Dev :=
  let g := b.geom x
  let v := x.segment (b.beam / 64)
  let unread := (List.range g.width).filter fun sl => !rollSlot s x b.beam sl && !v.mask.contains sl
  let y := x.setSegment (b.beam / 64) { v with
    st := if v.st = .free then .sealed else v.st, epoch := if v.st = .free then r.epoch else v.epoch
    mask := v.mask ++ unread, beams := if v.beams.contains (b.beam % 64) then v.beams else v.beams ++ [b.beam % 64] }
  let y := { y with
    nextSeq := max y.nextSeq (b.lastSeq s x r.deltas + 1), reads := y.reads.filter (·.use != .roll)
    recovery := some { r with applying := true, opened := r.opened.filter (·.1 != b.beam) } }
  let s := (List.range (g.blocks x.shift + 1)).foldl (rollItem a b.beam x b) (s.setArr a y)
  match ((s.arr? a).bind (·.recovery)).map (·.moved) with
  | some l => readSources l s
  | none => s

/-- One step of roll-forward; none when it has to wait. The first beam that is not complete ends it. -/
def rollStep (a : Nat) (s : Dev) : Option Dev :=
  match s.arr? a with
  | none => none
  | some x =>
    match x.recovery with
    | none => none
    | some r =>
      if !r.begun || !s.executing || x.offline != 0 then none
      else match r.scan with
        | [] => none
        | beam :: rest =>
          if r.applying then
            if r.moved.isEmpty then some (s.setArr a { x with recovery := some { r with scan := rest, applying := false } })
            else if s.mb.jobs.any fun j => j.loc.array == a && j.owners.any (fun o => o matches .source _) then none
            else some (readSources r.moved s)
          else
            match x.reads.find? (·.use == .roll) with
            | none => some (beginRead a .roll beam s)
            | some b =>
              -- a SLOW member's facet is still to be read
              let slow := (List.range (b.geom x).width).any fun sl =>
                rollSlot s x beam sl && (s.mem ((b.geom x).members.getD sl 0x800)).st == .slow
              if slow then none
              else if !b.ready s x then some (askBeam a x b s)
              else
                -- what Prism does for the judgement (R195)
                let t := countCompared x b (countSlots x b (0 :: (List.range ((b.geom x).blocks x.shift)).flatMap (b.slotsOf x)) s)
                if rollsForward a s x r.epoch b then some (rollApply a x r b t)
                else some (t.setArr a { x with reads := x.reads.filter (·.use != .roll), recovery := some { r with scan := [] } })

def advanceRoll (a : Nat) : Nat → Dev → Dev
  | 0, s => s
  | k + 1, s =>
    match rollStep a s with
    | some t => if t = s then s else advanceRoll a k t
    | none => s

/-- Steps 2 and 3 of an array that is not OFFLINE: roll-forward begins, and what waits of an image is placed again (R220). -/
def beginRecovery (a : Nat) (s : Dev) : Dev :=
  match s.arr? a with
  | none => s
  | some x =>
    match x.recovery with
    | none => s
    | some r =>
      if r.begun || x.offline != 0 then s
      else
        let s := readJournal a s
        match s.arr? a with
        | none => s
        | some x =>
          match x.recovery with
          | some r =>
            if x.offline != 0 then s
            else
              let s := replaceAll a (s.setArr a { x with recovery := some { r with begun := true } })
              advanceRoll a (16 * r.scan.length + 16) s
          | none => s

/-- What recovery of the array still has to do has been done. -/
def Arr.recovered (x : Arr) : Bool :=
  match x.recovery with
  | some r => r.begun && r.scan.isEmpty && r.moved.isEmpty && x.beams.isEmpty && x.keptUnits.isEmpty
  | none => true

/-- R206, R222: the beams that recovery did not find complete are abandoned, and where acknowledged units are lost that is told. -/
def settleLoss (a : Nat) (s : Dev) : Dev :=
  match (s.arr? a).bind (·.recovery) with
  | none => s
  | some r =>
    let s := s.addVal Fam.arrayAbandonedBeams a r.opened.length
    if r.lost || r.opened.any (·.2) then hubReal (0x103 + 4 * a) 0 false (s.setVal Fam.arrayReplayLost a 1) else s

/-! ### All of it -/

/-- Everything that reads whole beams goes on, as after a member command or a transition. -/
def advanceReads (s : Dev) : Dev :=
  (tkeys s.arrays).foldl (fun s a => advanceRoll a 4096 (advanceScrub a (advanceRebuild a 4096 s))) s

/-- Jobs and beams being read are looked at again. -/
def advanceWork (s : Dev) : Dev := advanceReads (advanceAll s)

end Sys2Proof.Machine
end

