-- ==== Sys2Proof/Machine/MemberOps.lean ====
section
/-!
DEFINITION. Member transitions (R259 to R264) and what follows from them: erasures of waiting beams (R204), re-homing (R218),
the array state (R265), OFFLINE (R266, R267), catch-up (R275) and automatic rebuild (R273); and the isolation of a member by the
fault hub (Table 15.4).
-/

namespace Sys2Proof.Machine

/-! ### Array state (R265, Table 9.3) -/

def MemberState.code : MemberState → Nat
  | .absent => 0 | .online => 1 | .slow => 2 | .failed => 3 | .target => 4 | .spare => 5

def arrayState (s : Dev) (x : Arr) : Nat :=
  if x.offline ≠ 0 ∨ beyond s x = true then 5
  else if critical s x then 4
  else match x.sweep with
    | some .reshape => 3
    | some _ => 2
    | none =>
      if x.geom.members.any (fun m => !memberServes s m) || x.seg.any (fun e => e.2.st != .free && !e.2.mask.isEmpty) then 1
      else 0

/-- `array[n].activity` (Table 9.10). -/
def arrayActivity (x : Arr) : Nat :=
  (match x.sweep with
    | some (.facet _ _ false) => 1
    | some (.facet _ _ true) => 2
    | some .relocation => 4
    | some .reshape => 8
    | none => 0)
  + 16 * b2n (x.sweep.isSome && x.paused) + 32 * b2n (x.onHold || x.cleanerHold) + 64 * b2n x.barrier.isSome

/-! ### OFFLINE (R266, R267) -/

/-- Table 4.12: the units of a command whose array went OFFLINE. Those placed in a CACHE_REPLAY array stay in the protected cache
(R266); the others are not written. Where all are kept and one still had to commit for the command, that one is not written. -/
def offlineUnits (s : Dev) (x : Arr) (c : Ctx) : List Piece :=
  let gone (p : Piece) : Piece := { p with st := .failed 0x0A 2 }
  let units := c.units.map fun p => match p.st with
    | .committed | .failed .. => p
    | .placed _ => if x.writeThrough then gone p else p
    | _ => gone p
  if units.any (fun p => p.st == .failed 0x0A 2) || units.all (pieceAcked s c) then units
  else match units.findIdx? fun p => !pieceAcked s c p with
    | some i => (units[i]?.map fun p => units.set i (gone p)).getD units
    | none => units

/-- Started commands on the array's volumes end as Table 4.12 gives: a READ's blocks that had not arrived are delivered as zeros
(R102). -/
def stopCommands (a : Nat) (s : Dev) : Dev :=
  let on (v : Nat) : Bool := ((s.vol? v).map (·.array)) == some a
  let s := { s with mb := { s.mb with jobs := s.mb.jobs.filter (·.loc.array != a) } }
  let ctxs := s.cm.ctxs.map fun c =>
    if c.phase ≠ .started then c
    else
      let src := if eOpcode c.raw = opCopy then eSrcVolume c.raw else eVolume c.raw
      let blocks := if on src then c.blocks.map fun b => if b = .reading then .unrecovered 2 else b else c.blocks
      let units := if changesBlocks (eOpcode c.raw) && on (eVolume c.raw) then (match s.arr? a with
          | some x => offlineUnits s x c
          | none => c.units)
        else c.units
      { c with blocks := blocks, units := units }
  let s := s.cm.ctxs.foldl (fun s c =>
    if c.phase = .started ∧ eOpcode c.raw = opRead ∧ on (eVolume c.raw) = true then
      ((List.range c.blocks.length).filter fun i => c.blocks.getD i .clear == .reading).foldl
        (fun s i => deliverZeros c.id i (.unrecovered 2) s) s
    else s) { s with cm := { s.cm with ctxs := ctxs } }
  (s.cm.ctxs.filter fun c => eOpcode c.raw == opCopy && c.phase == .started).foldl (fun s c => copyProgress c.id s) s

/-- R266: an array enters OFFLINE. The placed units of a CACHE_REPLAY array stay in the protected cache; those of a
WRITE_THROUGH array, and relocations, are given up. -/
def enterOffline (a reason : Nat) (s : Dev) : Dev :=
  match s.arr? a with
  | none => s
  | some x =>
    if x.offline ≠ 0 then s
    else
      let s := match x.beams with
        | b :: _ => abandonFrom a b.num s
        | [] => s
      match s.arr? a with
      | none => s
      | some x =>
        let keep (i : Item) : Bool := match i with
          | .block _ _ _ _ _ (some _) => false
          | _ => !x.writeThrough
        let waiting := match x.barrier with | some (_, c) => c | none => none
        let s := s.setArr a { x with
          offline := reason, keptUnits := x.keptUnits.filter keep, barrier := none, repairs := [], swept := [], darkened := []
          reads := [], rebuild := none, returning := false, cadenceTo := none
          recovery := x.recovery.map fun r => { r with begun := false, applying := false, moved := [] } }
        let s := match waiting with | some c => conflict c 0x10 s | none => s
        settle (stopCommands a s)

/-- The slots of a geometry whose holders are away now. -/
def awayNow (s : Dev) (g : Geom) : List Nat :=
  (List.range g.members.length).filter fun i => !memberServes s (g.members.getD i 0x800)

/-- R269: an array that comes into service records the holders that are away already. -/
def Arr.noteAway (x : Arr) (s : Dev) : Arr := { x with outage := (x.outage ++ awayNow s x.geom).eraseDups }

/-- R267: enough members have returned: the recovery steps that waited for the array run, and the kept units are placed again, before it
serves. -/
def leaveOffline (a : Nat) (s : Dev) : Dev :=
  match s.arr? a with
  | none => s
  | some x =>
    if x.offline = 1 ∧ beyond s x = false then
      let s := s.setArr a { x.noteAway s with offline := 0, returning := !x.keptUnits.isEmpty }
      settle (if x.recovery.isSome then beginRecovery a s else replaceAll a s)
    else s

/-- R265, R266: the array state is derived again. -/
def deriveArray (s : Dev) (a : Nat) : Dev :=
  match s.arr? a with
  | none => s
  | some x => if beyond s x then enterOffline a 1 s else leaveOffline a s

/-! ### Transitions (R260) -/

/-- The source a transition raises. -/
def memberSource : MemberState → Nat
  | .slow => 0x230
  | .failed => 0x231
  | .absent => 0x232
  | _ => 0x233

/-- Results of the member's outstanding commands of these kinds are discarded. -/
def killCmds (m : Nat) (p : MCmd → Bool) (s : Dev) : Dev :=
  { s with mb := { s.mb with cmds := s.mb.cmds.map fun c => if c.member = m ∧ p c = true then { c with dead := true } else c } }

/-- The facets a member has not written are erasures from now on (R204, R259). -/
def eraseFacets (m : Nat) (s : Dev) : Dev :=
  (s.mb.cmds.filter fun c => c.member == m && !c.dead).foldl (fun s c => match c.why with
    | .facet a n slot => facetFails a n slot (killCmds m (fun d => d.why == c.why) s)
    | _ => s) s

/-- The writes of page copies that a member has not completed go on with the next copy (R211). -/
def passPages (m : Nat) (s : Dev) : Dev :=
  (s.mb.cmds.filter fun c => c.member == m && !c.dead).foldl (fun s c => match c.why with
    | .checkpoint v p i => pageWritten v p i c.bytes false (killCmds m (·.tag == c.tag) s)
    | _ => s) s

/-- R269: the outage record. -/
def recordOutage (m : Nat) (s : Dev) : Dev :=
  match slotHeld s m with
  | some (a, slot) =>
    match s.arr? a with
    | some x =>
      if x.geom.members[slot]? = some m ∧ x.outage.contains slot = false then
        s.setArr a { x with outage := x.outage ++ [slot] } else s
    | none => s
  | none => s

/-- R373: the LEAD names a new arbiter when the present one leaves ONLINE; the MIRROR has to acknowledge it. -/
def arbiterOf (s : Dev) : Nat :=
  let cands := ((s.ms.extents.head?.map (·.copies)).getD []).map (·.1)
  let up := cands.filter fun m => (s.mem m).st == .online && !isPlatter m
  if up.isEmpty then 0x7FF else up.foldl min 0x7FF

def nameArbiter (s : Dev) : Dev :=
  let n := arbiterOf s
  if s.inMode .lead && (s.mem (s.val Fam.pairArbiter)).st != .online && n != s.val Fam.pairArbiter then
    if streaming s then streamSend (.arbiter n) { s with pr := { s.pr with arbiterNext := some n } }
    else s.setVal Fam.pairArbiter 0 n
  else s

/-- R275: the sweep onto a target that is gone is abandoned; onto a SLOW one it holds. -/
def sweepTarget (m : Nat) (dest : MemberState) (s : Dev) : Dev :=
  s.arrays.foldl (fun s e => match e.2.sweep with
    | some (.facet _ t _) =>
      if t ≠ m then s
      else match s.arr? e.1 with
        | none => s
        | some x =>
          if dest = .failed ∨ dest = .absent then
            (s.setArr e.1 { x with
              sweep := none, paused := false, onHold := false, rebuild := none, reads := x.reads.filter (·.use != .rebuild) }).setVal
              Fam.arraySweepRemaining e.1 0
          else s.setArr e.1 { x with onHold := dest == .slow }
    | _ => s) s

/-- A FAILED member that holds a slot starts the rebuild delay of its slot (R273). -/
def startDelay (m : Nat) (s : Dev) : Dev :=
  match slotHeld s m with
  | some (a, slot) =>
    match s.arr? a with
    | some x =>
      if x.geom.members[slot]? = some m ∧ x.rebuildDue.contains slot = false then
        s.setArr a { x with rebuildDue := x.rebuildDue ++ [slot] } else s
    | none => s
  | none => s

/-- What leaving ONLINE or REBUILD_TARGET brings with it. -/
def memberLost (m : Nat) (dest : MemberState) (s : Dev) : Dev :=
  let s := recordOutage m s
  let s := eraseFacets m s
  let s := if dest = .slow then s else killCmds m (fun _ => true) (passPages m s)
  let s := sweepTarget m dest s
  let s := (s.arrays.filter fun e => e.2.holders.contains m).foldl (fun s e => journalEnded e.1 (rehome e.1 s)) s
  let s := nameArbiter s
  if dest = .failed then startDelay m s else s

/-- R260: one transition, with its record and fault where the member holds a slot or is a spare. -/
def memberMove0 (m : Nat) (dest : MemberState) (cause : Nat) (s : Dev) : Dev :=
  let x := s.mem m
  let from_ := x.st
  if from_ = dest then s
  else
    let was := certified s
    let noted := holdsSlot s m || from_ == .spare || dest == .spare
    let due := x.labelDue && dest != .slow
    let s := s.setMem m { x with
      st := dest, was := if dest = .slow then from_ else x.was, probes := 0, releasing := x.releasing && dest == .failed
      labelDue := x.labelDue && !due
      barred := (x.barred || (dest == .failed && holdsSlot s m)) && !(dest == .online || dest == .target || dest == .spare) }
    let s := if due && dest != .absent then memberWrite m 0 (labelBytes s.pc.windowGib (x.labelOr m s.ident.serial)) s else s
    let src := memberSource dest
    let s := if noted then
        hubReal src m true (ownRecord 0x05 src (le 2 m ++ le 1 from_.code ++ le 1 dest.code ++ le 1 cause) s)
      else s
    let s := if dest = .online ∨ dest = .target then s
      else if dest = .spare then s else memberLost m dest s
    let s := (s.arrays.map (·.1)).foldl deriveArray s
    afterHoldup was (advanceWork s)

/-! ### Spares and rebuild starts (R273, R277) -/

/-- B × F of an array. -/
def Arr.areaBytes (x : Arr) : Nat := x.segs * 64 * 2 ^ x.shift

/-- R273: the spares available to an array: dedicated ones first, lowest index first. -/
def sparesFor (s : Dev) (a : Nat) (x : Arr) : List Nat :=
  let platter := isPlatter (x.geom.members.headD 0)
  let ok := (s.mb.tbl.filter fun e => e.2.st == .spare && isPlatter e.1 == platter && decide (x.areaBytes ≤ e.2.areaBytes))
  ((ok.filter fun e => e.2.dedicated == some a) ++ (ok.filter fun e => e.2.dedicated.isNone)).map (·.1)

/-- Slots of the current geometry held by FAILED members, or that have lost their holder. -/
def Arr.failed (s : Dev) (x : Arr) : List Nat :=
  (List.range x.geom.members.length).filter fun i => slotGone s (x.geom.members.getD i 0x800)

/-- R276 step 2: the geometry without these slots. -/
def narrower (g : Geom) (gone : List Nat) : Geom :=
  { g with k := if g.mirror then g.k else g.k - gone.length, m := if g.mirror then g.m - gone.length else g.m
           members := ((List.range g.members.length).filter (!gone.contains ·)).map fun i => g.members.getD i 0x800 }

/-- Blocks allocated over an array's volumes. -/
def arrayAllocated (s : Dev) (a : Nat) : Nat := ((s.vols.filter fun e => e.2.array == a).map fun e => e.2.allocated).sum

/-- The capacity test of R277 for a new C. -/
def capacityFits (s : Dev) (a : Nat) (x : Arr) (c : Nat) : Bool :=
  decide (arrayAllocated s a + (s.val Fam.cleanerReserveSegments + 1) * 64 * c ≤ x.segs * 64 * c)

/-- R277 checks 1 and 2 for removing `gone`. -/
def relocationFits (s : Dev) (a : Nat) (x : Arr) (gone : List Nat) : Bool :=
  let g := narrower x.geom gone
  decide (2 ≤ (if g.mirror then g.m else g.k)) && decide (gone.length ≤ x.geom.width) && capacityFits s a x (g.blocks x.shift)

/-- R278 step 1: the barrier is taken: no unit is placed, and every open beam is closed. -/
def takeBarrier (a : Nat) (b : Barrier) (ctx : Option Nat) (s : Dev) : Dev :=
  match s.arr? a with
  | none => s
  | some x => forceClose a (fun _ => true) (s.setArr a { x with barrier := some (b, ctx) })

/-- R273: what a FAILED slot whose delay is over starts by itself, when nothing runs on the array. -/
def autoRebuild (a : Nat) (s : Dev) : Dev :=
  match s.arr? a with
  | none => s
  | some x =>
    let gone := x.failed s
    let ready := gone.filter (!x.rebuildDue.contains ·)
    if ready.isEmpty || x.sweep.isSome || x.barrier.isSome || x.prev.isSome || x.offline != 0 || !s.serving then s
    else
      let reloc (_ : Unit) : Option Dev :=
        if relocationFits s a x gone then some (takeBarrier a .relocation none (s.setArr a { x with rebuildDue := [] })) else none
      let facet (_ : Unit) : Option Dev :=
        (sparesFor s a x).head?.map fun sp => takeBarrier a (.facet (ready.headD 0) sp) none s
      let r := match s.val Fam.arrayRebuildPolicy a with
        | 1 => reloc () <|> facet ()
        | 2 => facet () <|> reloc ()
        | 3 => facet ()
        | _ => none
      r.getD s

/-- R275: catch-up starts on a returned holder whose bit some segment has; outside SOLO and LEAD rebuilds are stopped (Table 1.6). -/
def startCatchUp (a slot m : Nat) (s : Dev) : Dev :=
  match s.arr? a with
  | none => s
  | some x =>
    if s.serving && x.sweep.isNone && x.barrier.isNone && x.offline == 0 && (s.mem m).st == .online && !(x.lacking slot).isEmpty
        && x.geom.members[slot]? == some m then
      let s := s.setArr a { x with sweep := some (.facet slot m true), paused := false, onHold := false }
      memberMove0 m .target 5 (s.setVal Fam.arraySweepRemaining a (x.lacking slot).length)
    else s

/-- Catch-up for the first holder of the array that needs it. -/
def catchUps (a : Nat) (s : Dev) : Dev :=
  match s.arr? a with
  | none => s
  | some x => ((List.range x.geom.members.length).zip x.geom.members).foldl (fun s e => startCatchUp a e.1 e.2 s) s

/-- The rebuild delay of a slot is over, or there is none (R273). -/
def dropDelay (a slot : Nat) (s : Dev) : Dev :=
  match s.arr? a with
  | some x => s.setArr a { x with rebuildDue := x.rebuildDue.filter (· != slot) }
  | none => s

/-- A member is made FAILED by the hub, as MEMBER_SET FAIL would (Table 15.4). -/
def isolateMember (m : Nat) (s : Dev) : Dev :=
  match slotHeld s m with
  | some (a, slot) => if (s.mem m).st = .failed then s else autoRebuild a (dropDelay a slot (memberMove0 m .failed 6 s))
  | none => s

/-! ### Entry to a serving mode (R273, R275, R287, Table 9.9) -/

/-- A facet sweep that a stop left goes on where its target is back: the member is REBUILD_TARGET again. It holds while the target is
SLOW, and is abandoned when the target is gone. -/
def resumeFacet (a : Nat) (s : Dev) : Dev :=
  match (s.arr? a).bind (·.sweep) with
  | some (.facet _ m _) =>
    match (s.mem m).st with
    | .online => memberMove0 m .target 5 s
    | .target => s
    | .slow => sweepTarget m .slow s
    | _ => sweepTarget m .absent s
  | _ => s

/-- The rebuild delay of every FAILED slot starts. -/
def restartDelays (a : Nat) (s : Dev) : Dev :=
  match s.arr? a with
  | some x => s.setArr a { x with rebuildDue := x.failed s }
  | none => s

/-- What rebuilds and sweeps do as the device comes to serve: sweeps resume, catch-ups start, and rebuild delays run. -/
def beginService (s : Dev) : Dev :=
  (tkeys s.arrays).foldl (fun s a => restartDelays a (catchUps a (resumeFacet a s))) s

/-! ### The cadence of a platter member (R356) -/

/-- The channel of a member, if it is a platter member. -/
def chanOf_ (m : Nat) : Option Nat := if isPlatter m then some (m - 0x7E8) else none

/-- R356: the cadence of the array that the member serves, or of a member without a slot. -/
def cadenceOf (s : Dev) (m : Nat) : Nat :=
  match slotHeld s m with
  | some (a, _) => ((s.arr? a).map (·.cadence)).getD 4800
  | none => 4800

/-- SPINDLE with a cadence (R357, R358). -/
def sendSpindle (n rpm : Nat) (s : Dev) : Dev :=
  let s := lensCmd n 0x09 (BitVec.ofNat 44 (rpm + 65536 * s.val Fam.lensCadenceAccel)) s
  (s.setLens n { s.lens n with spinning := true, atSpeed := false }).setVal Fam.lensCadenceRpm n rpm

/-- A platter member that has taken a slot turns at its array's cadence, one that has lost it at 4,800 rpm. -/
def slotCadence (m : Nat) (s : Dev) : Dev :=
  match chanOf_ m with
  | some n => if (s.lens n).up && s.val Fam.lensCadenceRpm n != cadenceOf s m then sendSpindle n (cadenceOf s m) s else s
  | none => s

/-! ### Transitions with all that follows -/

/-- A transition with all that follows: a return starts catch-up; severity ISOLATE or above of its source isolates. -/
def memberMove (m : Nat) (dest : MemberState) (cause : Nat) (s : Dev) : Dev :=
  let before := (s.mem m).st
  if before = dest then s
  else
    let noted := holdsSlot s m || before == .spare || dest == .spare
    let s := memberMove0 m dest cause s
    let s := match slotHeld s m with
      | some (a, _) => if dest = .online then
          (match s.arr? a with
            | some x =>
              let s := s.setArr a { x with rebuildDue := x.rebuildDue.filter fun i => x.geom.members[i]? != some m }
              catchUps a (if s.serving then resumeFacet a s else s)
            | none => s) else s
      | none => s
    if noted && decide (3 ≤ s.severity (memberSource dest)) && s.canSignal (memberSource dest) then isolateMember m s else s

/-- Raise a real fault with its isolation (R414, Table 15.4): member scope by its detail word, Lens scope by its channel. -/
def raise (n detail : Nat) (own : Bool) (s : Dev) : Dev :=
  let acts := s.canSignal n && !(srcCondition n && (s.src n).realLive) && decide (3 ≤ s.severity n)
  let s := hubReal n detail own s
  if acts then
    match srcScope n with
    | .member => isolateMember (detail % 2048) s
    | .lens c => isolateMember (0x7E8 + c) s
    | _ => s
  else s

end Sys2Proof.Machine
end

