-- ==== Sys2Proof/Machine/WritePath.lean ====
section
/-!
DEFINITION. Host commands (Table 4.2) and the steps of the write path: the meanings of READ to QUERY, and of host data reads,
placement, close timer, commit, checkpoints, journal batches, cleaner and segment release.
-/

namespace Sys2Proof.Machine

/-! ### Starting a command -/

/-- Check 5 of Table 4.1 looked at once more as a command starts, since READ and the changing commands that start after an array went OFFLINE
are refused (R266); the deletion of a volume lets those finish that were outstanding (R228). -/
def recheck (s : Dev) (c : Ctx) : Option Reject :=
  if eOpcode c.raw == opRead || changesBlocks (eOpcode c.raw) then (checkState s c.fn c.raw).filter (· != (0x05, 0x15, 0)) else none

/-- Start command `id` if it is admitted, has the opcode and passes `sel`, and check 5 does not refuse it now. Of the
commands that share a port in lane 2, the one that deficit round robin serves next starts (R140). -/
def withCmd (id op : Nat) (sel : BitVec 512 → Bool) (k : Ctx → Dev → Dev) (s : Dev) : Dev :=
  match s.ctx? id with
  | some c =>
    if c.phase = .admitted ∧ c.waitOn = none ∧ c.stopping = false ∧ eOpcode c.raw = op ∧ sel c.raw = true
        ∧ s.hostRuns = true then
      match recheck s c with
      | some r => finish id r.1 r.2.1 r.2.2 s
      | none =>
        match laneTurn c s with
        | none => s
        | some s =>
          let keys := (namedVolumes c.raw).filterMap fun v => (s.vol? v).bind (·.key)
          k { c with phase := .started, keys := keys } (s.modCtx id fun c => { c with phase := .started, keys := keys })
    else s
  | none => s

/-! ### READ (R102) -/

/-- Every block of the range is begun where it stands; the command ends when the last one has been delivered. -/
def startRead (c : Ctx) (s : Dev) : Dev :=
  let n := eNblk c.raw
  let s := s.modCtx c.id fun c => { c with blocks := List.replicate n .reading }
  settle ((List.range n).foldl (fun s i => readBlockAt c.id i s) s)

def execRead (id : Nat) (s : State) : Host.Outcome State Fault Refusal := onDev s (fun s => withCmd id opRead (fun _ => true) startRead s)

/-! ### WRITE, TRIM, WRITE_ZEROES (R99, R103, R123) -/

/-- R123: the atomic units of a command. -/
def commandUnits (s : Dev) (raw : BitVec 512) : List (Nat × Nat) :=
  let l := (((s.vol? (eVolume raw)).bind fun v => s.arr? v.array).map Arr.atomicLimit).getD 64
  atomicUnits (eNblk raw / 64 + 2) l (eLba raw) (eNblk raw)

/-- The host buffer is read unit by unit. -/
def startWrite_ (c : Ctx) (s : Dev) : Dev :=
  let us := commandUnits s c.raw
  let s := s.modCtx c.id fun c => { c with units := us.map fun u => { lba := u.1, len := u.2, st := .reading } }
  us.foldl (fun s u => bufferRead c.fn c.raw c.segs (4096 * (u.1 - eLba c.raw)) (4096 * u.2) s) s

def execWrite (id : Nat) (s : State) : Host.Outcome State Fault Refusal := onDev s (fun s => withCmd id opWrite (fun _ => true) startWrite_ s)

/-- R196: the command is placed as one range delta, at once when it can be. -/
def startDelta (c : Ctx) (s : Dev) : Dev :=
  let p : Piece := { lba := eLba c.raw, len := eNblk c.raw, st := .ready [] 0 }
  settle (placePiece c.id 0 (s.modCtx c.id fun c => { c with units := [p] }))

def execTrim (id : Nat) (s : State) : Host.Outcome State Fault Refusal := onDev s (fun s => withCmd id opTrim (fun _ => true) startDelta s)
def execWriteZeroes (id : Nat) (s : State) : Host.Outcome State Fault Refusal :=
  onDev s (fun s => withCmd id opZeroes (fun _ => true) startDelta s)

/-- The stored blocks of a unit's data, encrypted under the volume's key (R197). -/
def encryptUnit (c : Ctx) (p : Piece) (b : List Byte) : List Block :=
  (List.range p.len).map fun i => xtsEncrypt (c.keys.headD 0) (p.lba + i) (fitBytes 4096 (b.drop (4096 * i)))

/-- Table 8.8: the data of a placed unit has been read again. It takes the place of what the assembly partition held; with a failed read the
unit goes as one never placed, and its beam is abandoned, to be placed again without it. -/
def readAgain (a seq id k : Nat) (c : Ctx) (p : Piece) (d : HostData) (s : Dev) : Dev :=
  let s := markAgain id k false s
  let mine (i : Item) : Bool := match i with
    | .block _ _ _ q _ none => q == seq
    | .block .. => false
    | .delta _ _ _ _ q _ => q == seq
  match s.arr? a with
  | none => s
  | some x =>
    match x.beams.find? fun b => b.seqs.contains seq with
    | none => s
    | some b =>
      match d with
      | .fail =>
        let s := abandonFrom a b.num s
        let s := match s.arr? a with
          | some x => s.setArr a { x with keptUnits := x.keptUnits.filter (!mine ·) }
          | none => s
        replaceAll a (modPiece id k (.failed 0x0E 2) s)
      | .bytes data =>
        let blocks := encryptUnit c p data
        let fresh (i : Item) : Item := match i with
          | .block n v lba q _ none =>
            if q = seq then .block n v lba q (Stored.of 1 v lba q (blocks.getD (lba - p.lba) [])) none else i
          | i => i
        s.setArr a { x with beams := x.beams.map fun e => if e.num = b.num then { e with items := e.items.map fresh } else e }

/-- HOST_DATA_READ_COMPLETE: the unit's data has come back and is encrypted, or its read failed (TRANSFER_ERROR, qualifier 0x02). -/
def hostDataRead (id k : Nat) (d : HostData) (s : Dev) : Dev :=
  match s.ctx? id with
  | none => s
  | some c =>
    match c.units[k]? with
    | some p =>
      if c.phase = .started ∧ eOpcode c.raw = opWrite ∧ p.st = .reading ∧ s.hostRuns = true then
        match d with
        | .fail => settle (modPiece id k (.failed 0x0E 2) s)
        | .bytes b =>
          let blocks := (encryptUnit c p b).map fun e => (.inl e : Sum Block Bool)
          let s := match c.tenant with | some t => meterEnc t p.len s | none => s
          modPiece id k (.ready blocks 0) s
      else
        match p.st, s.vol? (eVolume c.raw) with
        | .placed seq, some v => if p.again && s.hostRuns then settle (readAgain v.array seq id k c p d s) else s
        | _, _ => s
    | none => s

def execHostDataReadComplete (id k : Nat) (d : HostData) (s : State) : Host.Outcome State Fault Refusal :=
  onDev s (fun s => hostDataRead id k d s)

/-- UNIT_PLACE (R197, R198, R219). -/
def unitPlace (id k : Nat) (s : Dev) : Dev :=
  match s.ctx? id with
  | some c =>
    if c.phase = .started ∧ c.stopping = false ∧ s.hostRuns = true then
      -- what was kept goes first
      let s := match s.vol? (eVolume c.raw) with | some v => replaceAll v.array s | none => s
      settle (forceOrdered (placePiece id k s))
    else s
  | none => s

/-! ### COPY (R103) -/

/-- A copy-engine channel free for a COPY command (R390). -/
def freeCopyChannel (s : Dev) : Option Nat := [12, 13, 14, 15].find? fun n => (s.chan n).ctx.isNone

/-- COPY takes a channel and reads its whole source; without a free channel it has not started (R390). -/
def startCopy (c : Ctx) (s : Dev) : Dev :=
  match freeCopyChannel s with
  | none => s.modCtx c.id fun c => { c with phase := .admitted, keys := [] }
  | some n =>
    let us := commandUnits s c.raw
    let s := s.setChan n { s.chan n with st := 2, ctx := some c.id }
    let s := s.modCtx c.id fun c => { c with
      chan := some n, blocks := List.replicate (eNblk c.raw) .reading
      units := us.map fun u => { lba := u.1, len := u.2, st := .reading } }
    let s := (List.range (eNblk c.raw)).foldl (fun s i => copyBlockAt c.id i s) s
    settle (copyProgress c.id s)

def execCopy (id : Nat) (s : State) : Host.Outcome State Fault Refusal := onDev s (fun s => withCmd id opCopy (fun _ => true) startCopy s)

/-! ### FLUSH, FENCE, ABORT, QUERY -/

/-- A command that waits without being started. -/
def beginWait (id target : Nat) (s : Dev) : Dev := s.modCtx id fun c => { c with phase := .admitted, waitOn := some target }

/-- FLUSH (R117): beams that hold a covered write which is not durable close at once (R202). -/
def startFlush (c : Ctx) (s : Dev) : Dev := settle (forceCovered c.covers (beginWait c.id c.id s))

def execFlush (id : Nat) (s : State) : Host.Outcome State Fault Refusal := onDev s (fun s => withCmd id opFlush (fun _ => true) startFlush s)

/-- FENCE (R121). -/
def startFence (c : Ctx) (s : Dev) : Dev := settleHeld (beginWait c.id c.id s)

def execFence (id : Nat) (s : State) : Host.Outcome State Fault Refusal := onDev s (fun s => withCmd id opFence (fun _ => true) startFence s)

/-- The fetched, uncompleted commands of an SQ with a command id, ABORT apart: stamp, and the context while it has one. -/
def abortTargets (s : Dev) (f : Fn) (q cid : Nat) : List (Nat × Option Ctx) :=
  ((s.ctxsOf f q).filter fun d => (eCid d.raw).toNat == cid && eOpcode d.raw != opAbort).map (fun d => (d.stamp, some d))
    ++ ((s.boundCq f q).overflow.filter fun e => e.sq == q && e.cid.toNat == cid && e.opcode != opAbort).map fun e => (e.stamp, none)

/-- The ABORT completes with this result once its target's entry has been written. -/
def abortAnswer (id stamp answer : Nat) (s : Dev) : Dev :=
  settle (settleHeld ((beginWait id stamp s).modCtx id fun c => { c with answer := answer }))

/-- ABORT (R104): it acts on the oldest target. One that has finished, or an admin command that has started, runs to its end. -/
def startAbort (c : Ctx) (s : Dev) : Dev :=
  let l := abortTargets s c.fn (eWord c.raw 0 % 1024) (eWord c.raw 1 % 65536)
  match l.find? fun e => l.all fun d => decide (e.1 ≤ d.1) with
  | none => okWith c.id 1 s
  | some (st, none) => abortAnswer c.id st 2 s
  | some (st, some d) =>
    if d.phase = .ended ∨ (d.phase = .started ∧ isAdminOp (eOpcode d.raw) = true) then abortAnswer c.id st 2 s
    else if d.phase = .started then abortAnswer c.id st 0 (finish d.id 0x06 1 0 (dropWork d.id s))
    else abortAnswer c.id st 0 (finish d.id 0x06 0 0 s)

def execAbort (id : Nat) (s : State) : Host.Outcome State Fault Refusal := onDev s (fun s => withCmd id opAbort (fun _ => true) startAbort s)

/-- Table 4.4. -/
def volumeRecordQuery (s : Dev) (v : Vol) : List Byte :=
  let x := s.arr? v.array
  fitBytes 64 (le 8 v.capacity ++ le 8 v.allocated ++ le 8 v.dark ++ le 2 v.array
    ++ le 1 ((x.map (arrayState s)).getD 0)
    ++ le 1 (b2n v.readOnly + 2 * b2n v.writeBack + 4 * b2n (pairedLead s))
    ++ le 2 ((x.map Arr.atomicLimit).getD 0) ++ le 2 ((x.map Arr.beamBlocks).getD 0)
    ++ le 1 (b2n ((x.map (·.writeThrough)).getD false)))

/-- A QUERY's record goes to its buffer, and it completes; where no write can be made (R109) it ends TRANSFER_ERROR. -/
def answerQuery (c : Ctx) (result : Nat) (b : List Byte) (s : Dev) : Dev :=
  if (s.fnS c.fn).busMaster then okWith c.id result (bufferWrite c.fn c.raw c.segs 0 b s) else finish c.id 0x0E 0x03 0 s

def startQueryVolume (c : Ctx) (s : Dev) : Dev :=
  match s.vol? (eVolume c.raw) with
  | some v => answerQuery c 64 (volumeRecordQuery s v) s
  | none => finish c.id 0x0B 1 0 s

def execQueryVolume (id : Nat) (s : State) : Host.Outcome State Fault Refusal :=
  onDev s (fun s => withCmd id opQuery (fun r => eWord r 0 % 256 == 0) startQueryVolume s)

/-- Table 4.3, code 0x01. -/
def darkMap (s : Dev) (v lba n : Nat) : List Byte :=
  let d (i : Nat) : Nat := if i < n then b2n (entryDark (mapGet s v (lba + i))) else 0
  (List.range (roundUp (cdiv n 8) 4)).map fun j =>
    BitVec.ofNat 8 (((List.range 8).map fun i => d (8 * j + i) * 2 ^ i).sum)

def startQueryDark (c : Ctx) (s : Dev) : Dev :=
  let v := eVolume c.raw
  let n := eNblk c.raw
  let count := ((List.range n).filter fun i => entryDark (mapGet s v (eLba c.raw + i))).length
  answerQuery c count (darkMap s v (eLba c.raw) n) s

def execQueryDarkMap (id : Nat) (s : State) : Host.Outcome State Fault Refusal :=
  onDev s (fun s => withCmd id opQuery (fun r => eWord r 0 % 256 == 1) startQueryDark s)

/-! ### Read-around (R146, R270 to R272) -/

/-- The reads of a job that are outstanding: facet, and summary range or not. -/
def Job.reading (s : Dev) (x : Arr) (j : Job) : List (Nat × Bool) :=
  s.mb.cmds.filterMap fun c => match c.why with
    | .job id slot summary => if id = j.id ∧ c.dead = false then some ((j.geom x).facetOn j.loc.beam slot, summary) else none
    | _ => none

/-- The reads of the job that are late are routed around: the block's and the summary's first ones, those of a candidate sequence, or
survivors of a read-around that has begun (R146). -/
def readAround (id : Nat) (s : Dev) : Dev :=
  match s.job? id with
  | none => s
  | some j =>
    match s.arr? j.loc.array with
    | none => s
    | some x =>
      let late := (j.reading s x).filter (!j.extra.contains ·)
      let can (summary : Bool) : Bool :=
        (survivors (j.geom x) (j.erased s x summary ++ (late.filter (·.2 == summary)).map (·.1))).isSome
      if jobClassZero s j && !late.isEmpty && can false && can true && !isPlatter (x.geom.members.headD 0)
          && s.executing then
        if s.val Fam.arrayReadaroundMax j.loc.array ≤ readArounds s j.loc.array then s.bump Fam.arrayReadaroundSkipped j.loc.array
        else
          settle (advanceWork (advanceJob id ((s.bump Fam.arrayReadarounds j.loc.array).modJob id fun j =>
            { j with around := true, extra := j.extra ++ late })))
      else s

def execReadAroundTrigger (id : Nat) (s : State) : Host.Outcome State Fault Refusal := onDev s (fun s => readAround id s)

/-! ### Beams -/

/-- BEAM_CLOSE_TIMER (R202): the timer runs from the first item placed. -/
def execBeamCloseTimer (a num : Nat) (s : State) : Host.Outcome State Fault Refusal :=
  onDev s (fun s => if s.executing then settle (forceClose a (fun b => b.num == num) s) else s)

/-- BEAM_COMMIT (R204, R205). -/
def beamCommit (a num : Nat) (s : Dev) : Dev :=
  match s.arr? a with
  | none => s
  | some x =>
    match x.beams.find? (·.num == num) with
    | some b => if commitReady s x b then replaceAll a (commitBeam a b s) else s
    | none => s

def execBeamCommit (a num : Nat) (s : State) : Host.Outcome State Fault Refusal := onDev s (fun s => beamCommit a num s)

/-! ### Checkpoints (R211) and journal batches (R217) -/

/-- CHECKPOINT_TIMER: at least every `map.checkpoint_ms` while something has changed, and at once when an open-segment list
reaches 24 entries (R211). -/
def execCheckpointTimer (s : State) : Host.Outcome State Fault Refusal :=
  onDev s (fun s => if s.executing && !s.inMode .mirror then startCheckpoint s else s)

/-- A write of a page copy is outstanding. -/
def pagesBusy (s : Dev) : Bool := s.mb.cmds.any fun c => !c.dead && (match c.why with | .checkpoint .. => true | _ => false)

/-- The horizon moves where its checkpoint set it, and the journal goes out with it (R211 step 2, R217); slots of the outage record whose
holders serve again leave it (R269). -/
def moveHorizon (s : Dev) (a : Nat) : Dev :=
  match s.arr? a with
  | none => s
  | some x =>
    match x.ckpt with
    | none => s
    | some mark =>
      let y := x.passHorizon mark
      let away := y.outage.filter fun i => !memberServes s (y.geom.members.getD i 0x800)
      writeJournal a (s.setArr a { y with outage := away, jdirty := if journalBusy s a then y.jdirty ++ [journalItself] else y.jdirty })

/-- The array to which a page of the map region belongs. -/
def ownerArray (s : Dev) (owner : Nat) : Nat := if owner < 16384 then ((s.vol? owner).map (·.array)).getD 64 else owner - 16384

/-- CHECKPOINT_COMPLETE: every changed page is in its copies. A page that no copy could take is due again, and the horizon of its array
stays (R211). -/
def checkpointComplete (s : Dev) : Dev :=
  if s.ms.checkpoint && s.executing && !pagesBusy s then
    let left := s.ms.unwritten
    let held := left.map fun p => ownerArray s p.1
    let due := left.filter fun p => decide (p.1 < 16384) && !s.ms.dirtyPages.contains p
    let arrays : Tbl Arr := s.arrays.map fun e => (e.1, if held.contains e.1 then { e.2 with ckpt := none } else e.2)
    let s := { s with
      ms := { s.ms with
        checkpoint := false, mapGen := s.ms.mapGen + 1, unwritten := [], dirtyPages := s.ms.dirtyPages ++ due }
      arrays := arrays }
    (s.arrays.map (·.1)).foldl moveHorizon s
  else s

def execCheckpointComplete (s : State) : Host.Outcome State Fault Refusal := onDev s (fun s => checkpointComplete s)

/-- JOURNAL_BATCH_TIMER (R217). -/
def journalBatch (a : Nat) (s : Dev) : Dev :=
  match s.arr? a with
  | some x => if x.jdirty.isEmpty || !s.executing then s else writeJournal a s
  | none => s

def execJournalBatchTimer (a : Nat) (s : State) : Host.Outcome State Fault Refusal := onDev s (fun s => journalBatch a s)

/-! ### The cleaner (R224 to R226) and dark blocks (R281) -/

/-- R224: the segment lies wholly before the horizon: it is no longer listed in the journal. -/
def Arr.beforeHorizon (x : Arr) (g : Nat) : Bool := !x.openList.contains g

/-- R224: the SEALED segment with the lowest live count, lowest number first. -/
def cleanerChoice (x : Arr) : Option Nat :=
  let c := (x.seg.filter fun e => e.2.st == .sealed && x.beforeHorizon e.1).map fun e => (e.2.live, e.1)
  (c.foldl (fun best e => match best with
    | none => some e
    | some b => if e.1 < b.1 then some e else some b) none).map (·.2)

/-- The segment is one that a meridian sweep cleans (R285). -/
def sweptSegment (s : Dev) (a : Nat) (x : Arr) (g : Nat) : Bool :=
  (match x.sweep with | some .relocation => true | some .reshape => true | _ => false) && s.val Fam.arrayMeridian a == g

/-- The segments being cleaned go on: their live blocks are obtained and relocated (R224). -/
def cleanAll (a : Nat) (s : Dev) : Dev :=
  match s.arr? a with
  | none => s
  | some x => x.cleaning.foldl (fun s g => cleanSegment a g (sweptSegment s a x g) s) s

/-- CLEANER_SELECT (R224): the segment, which is the cleaner's choice, becomes CLEANING and its live blocks are obtained, to be placed in
the internal beam; with none to choose the cleaner goes on with those it has. -/
def cleanerSelect (a seg : Nat) (s : Dev) : Dev :=
  match s.arr? a with
  | none => s
  | some x =>
    if sweepsRun s x && !x.cleanerHold && decide (x.freeSegments * 100 < s.val Fam.cleanerStartFreePct * x.segs) then
      match cleanerChoice x with
      | none => settle (cleanAll a s)
      | some g =>
        if g = seg then settle (cleanAll a (s.setArr a { x with
          seg := tset x.seg g { x.segment g with st := .cleaning } Segment.free, cleaning := x.cleaning ++ [g] }))
        else s
    else s

def execCleanerSelect (a seg : Nat) (s : State) : Host.Outcome State Fault Refusal := onDev s (fun s => cleanerSelect a seg s)

/-- R225: the horizon has passed a beam. -/
def Arr.passed (x : Arr) (beam : Nat) : Bool :=
  !x.openList.contains (beam / 64) || (x.openList.head? == some (beam / 64) && decide (beam % 64 < x.horizon))

/-- R225: nothing of the segment is live, every relocation from it has committed or been dropped, the horizon has passed the beams that hold
them, and no read of it is in flight. -/
def segmentReleasable (s : Dev) (a : Nat) (x : Arr) (g : Nat) : Bool :=
  let from_ (i : Item) : Bool := match i with
    | .block _ _ _ _ _ (some l) => l.array == a && l.beam / 64 == g
    | _ => false
  (x.segment g).st == .cleaning && (x.segment g).live == 0
    && x.beams.all (fun b => !b.items.any from_) && !x.keptUnits.any from_
    && x.beforeHorizon g && (x.segment g).into.all x.passed
    && s.mb.jobs.all (fun j => !(j.loc.array == a && j.loc.beam / 64 == g)) && x.reads.all (fun b => b.beam / 64 != g)

/-- SEGMENT_FREE (R225, R268, Table 10.3): every mask bit goes, and the facets of its beams are deallocated. -/
def segmentFree (a g : Nat) (s : Dev) : Dev :=
  match s.arr? a with
  | none => s
  | some x =>
    if segmentReleasable s a x g && s.serving && s.executing then
      let geo := x.geomOf g
      let s := geo.members.foldl (fun s m =>
        if memberServes s m && !isPlatter m then memberCtl m "Deallocate" ((s.mem m).a0 + g * 64 * 2 ^ x.shift) s else s) s
      settle (replaceAll a (sendSegment a g (s.setArr a { x with seg := tdel x.seg g, cleaning := x.cleaning.filter (· != g) })))
    else s

def execSegmentFree (a g : Nat) (s : State) : Host.Outcome State Fault Refusal := onDev s (fun s => segmentFree a g s)

end Sys2Proof.Machine
end

