-- ==== Sys2Proof/Machine/Arrays.lean ====
section
/-!
DEFINITION. Arrays: creation and deletion (R191 to R193), rebuild and reshape (R268 to R288), scrub (R185), and MEMBER_SET (R289).
-/

namespace Sys2Proof.Machine

/-! ### Descriptors of admin commands (R74, R101) -/

/-- The first `need` bytes the descriptor names, or how the command ends. -/
def adminData (c : Ctx) (need : Nat) (d : HostData) : Sum (List Byte) (Nat × Nat × Nat) :=
  if eDdType c.raw = 1 ∧ c.segs = .unreadable then .inr (0x0E, 1, 0)
  else if (segments c.raw c.segs).any (fun e => e.1 % 4 != 0 || e.2 % 4 != 0) then .inr (0x02, 0x10, 0)
  else if ddTotal c.raw c.segs < need then .inr (0x03, 0, min (ddTotal c.raw c.segs) 0xFFFFFFFF)
  else match d with
    | .bytes b => .inl (fitBytes need b)
    | .fail => .inr (0x0E, 2, 0)

/-! ### ARRAY_CREATE and ARRAY_DELETE -/

/-- The entries of a member table of `w` members. -/
def tableEntries (w : Nat) (b : List Byte) : List Nat := (List.range w).map fun i => unle ((b.drop (2 * i)).take 2)

/-- Unassigned: a label of role 0, or blank, and no slot. -/
def unassigned (s : Dev) (m : Nat) : Bool := roleOf s m == 0 && !holdsSlot s m

/-- R192, qualifier 0x10: the member table is at fault. -/
def tableBad (s : Dev) (shift : Nat) (l : List Nat) : Bool :=
  l.any (fun e => decide (2048 ≤ e)) || !l.Nodup
    || l.any (fun m => (s.mem m).st != .online || !unassigned s m || m == s.val Fam.pcacheVault0 || m == s.val Fam.pcacheVault1
        || isPlatter m != isPlatter (l.headD 0) || decide ((s.mem m).areaBytes < 64 * 2 ^ shift))

/-- R167: B / 64. -/
def segmentsOf (s : Dev) (shift : Nat) (l : List Nat) : Nat := listMin (l.map fun m => (s.mem m).areaBytes) / 2 ^ shift / 64

/-- The counters of an array restart when its number is used again (R195, R291). -/
def arrayCounters : List Nat :=
  [Fam.arrayCrcMismatches, Fam.arrayRepairs, Fam.arrayUnrecovered, Fam.arrayParityMismatches, Fam.arrayAbandonedBeams,
   Fam.arrayReplayLost, Fam.arrayTimerCloses, Fam.arrayMeridian, Fam.arraySweepRemaining, Fam.arrayDarkBlocks,
   Fam.arrayDarkBeams, Fam.arrayReadarounds, Fam.arrayReadaroundWins, Fam.arrayReadaroundSkipped]

/-- The label of an array member. -/
def slotLabel (s : Dev) (a m slot : Nat) (inst : Nat) : Label :=
  { (s.mem m).labelOr m s.ident.serial with role := 1, array := a, inst := BitVec.ofNat 64 inst, slot := slot }

/-- A new array. -/
def newArr (g : Geom) (shift inst segs : Nat) (through : Bool) (holders : List Nat) : Arr :=
  { geom := g, prev := none, shift := shift, writeThrough := through, inst := inst, segs := segs, nextSeq := 1, active := none
    beams := [], seg := [], holders := holders, rehoming := false, journalGen := 0, openList := [], horizon := 0, deltas := []
    jdirty := [], ckpt := none, repairs := [], keptUnits := [], keptWaits := 0, sweep := none, paused := false, onHold := false, barrier := none
    rebuildDue := [], outage := [], offline := 0, cleaning := [], embargo := [], cleanerHold := false, cadence := 4800
    cadenceTo := none, cadenceAt := 0, log := [], copies := [], rebuild := none, reads := [], swept := [], darkened := []
    recovery := none, returning := false, records := [], meridianSeq := 0 }

/-- R191, R192. Of several faults the lowest-addressed field is named (R98); the table is judged when W1 gives its length. -/
def adminArrayCreate (d : HostData) (c : Ctx) (s : Dev) : Dev :=
  let w0 := eWord c.raw 0
  let w1 := eWord c.raw 1
  let a := w0 % 64
  let shift := if bits w1 20 16 = 0 then 17 else bits w1 20 16
  let g := wordGeom (bit w0 8) (bits w1 7 0) (bits w1 10 8)
  let ok24 := geomOk g shift && !stray c.raw 1 0x1F07FF
  let bad20 := stray c.raw 0 0x33F || (s.arr? a).isSome
  match adminDescField c.raw with
  | some o => badFieldAt c.id o s
  | none =>
    if !ok24 then badFieldAt c.id (if bad20 then 0x20 else 0x24) s
    else match adminData c (2 * g.width) d with
      | .inr r => if bad20 then badFieldAt c.id 0x20 s else finish c.id r.1 r.2.1 r.2.2 s
      | .inl b =>
        let l := tableEntries g.width b
        if tableBad s shift l then badFieldAt c.id 0x10 s
        else if bad20 then badFieldAt c.id 0x20 s
        else if (mapMembers s).length < 3 then conflict c.id 0x18 s
        else
          let segs := segmentsOf s shift l
          match addExtents (arrayOwner a) (arrayExtents segs) s with
          | none => conflict c.id 0x1A s
          | some s' =>
            let inst := Config.randomDraw s'.fresh % (2 ^ 64 - 1) + 1
            let s := s'.draw
            let g := { g with k := if g.mirror then 1 else g.k, members := l }
            let x := newArr g shift inst segs (bit w0 9) (pickSpread s (mapMembers s) 3 [])
            let s := arrayCounters.foldl (fun s f => s.setVal f a 0) (s.setArr a x)
            let s := ((List.range l.length).zip l).foldl (fun s e => slotCadence e.2 (writeLabel e.2 (slotLabel s a e.2 e.1 inst) s)) s
            okWith c.id segs (issueJournal a (writeCatalogue s))

def execArrayCreate (d : HostData) (s : State) : Host.Outcome State Fault Refusal :=
  onDev s (fun s => withAdmin 0x86 (fun _ => true) (adminArrayCreate d) s)

/-- Members that hold a slot of either geometry. -/
def Arr.allMembers (x : Arr) : List Nat :=
  ((x.geom.members ++ ((x.prev.map (·.members)).getD [])).filter (· < 2048)).eraseDups

/-- A member that has lost its slot: its label is role 0, and it becomes ONLINE and unassigned, or stays FAILED or ABSENT (R288). -/
def releaseMember (m : Nat) (s : Dev) : Dev :=
  let s := if (s.mem m).st = .target ∨ (s.mem m).st = .slow then memberMove m .online 5 s else s
  slotCadence m (if (s.mem m).st = .absent then s else unassignLabel m s)

/-- R193. An ARRAY_REBUILD or ARRAY_RESHAPE that still waits at the epoch barrier of the array completes STATE_CONFLICT, qualifier 0x10, as
one that an OFFLINE array ends; R193 gives it no status (DESIGN CHOICE, log entry 75). -/
def adminArrayDelete (c : Ctx) (s : Dev) : Dev :=
  let a := eWord c.raw 0 % 64
  match s.arr? a with
  | none => badFieldAt c.id 0x20 s
  | some x =>
    if stray c.raw 0 0x3F then badFieldAt c.id 0x20 s
    else if s.vols.any fun e => e.2.array == a then conflict c.id 0x14 s
    else
      let s := { s with arrays := tdel s.arrays a, mb := { s.mb with
        jobs := s.mb.jobs.filter (·.loc.array != a)
        cmds := s.mb.cmds.map fun q => match q.why with
          | .facet a' _ _ => if a' = a then { q with dead := true } else q
          | .beamRead a' _ _ => if a' = a then { q with dead := true } else q
          | .rebuilt a' _ => if a' = a then { q with dead := true } else q
          | .journal a' _ => if a' = a then { q with dead := true } else q
          | _ => q } }
      let s := writeCatalogue (dropExtents (arrayOwner a) s)
      let s := x.allMembers.foldl (fun s m => releaseMember m s) s
      let waiting := match x.barrier with | some (_, w) => w | none => none
      let s := match waiting with | some w => conflict w 0x10 s | none => s
      okWith c.id 0 s

def execArrayDelete (s : State) : Host.Outcome State Fault Refusal := onDev s (fun s => withAdmin 0x87 (fun _ => true) adminArrayDelete s)

/-! ### ARRAY_REBUILD (R279) -/

/-- A rebuild runs, is held, or waits for its barrier. -/
def Arr.rebuilding (x : Arr) : Bool :=
  (match x.sweep with | some .reshape => false | some _ => true | none => false)
  || (match x.barrier with | some (.reshape _, _) => false | some _ => true | none => false)

def Arr.reshaping (x : Arr) : Bool :=
  x.sweep == some .reshape || (match x.barrier with | some (.reshape _, _) => true | _ => false)

/-- W0 is at fault for any action. -/
def rebuildField (s : Dev) (raw : BitVec 512) : Bool :=
  stray raw 0 0x333F || (s.arr? (eWord raw 0 % 64)).isNone || decide (2 ≤ bits (eWord raw 0) 9 8)
    || bits (eWord raw 0) 13 12 == 3

/-- R279: the start of a rebuild. -/
def adminRebuildStart (c : Ctx) (s : Dev) : Dev :=
  let w0 := eWord c.raw 0
  let w1 := eWord c.raw 1
  let a := w0 % 64
  let form := bits w0 9 8
  match s.arr? a with
  | none => badFieldAt c.id 0x20 s
  | some x =>
    let gone := x.failed s
    let slot := if bits w1 23 16 = 0xFF then gone.headD 0 else bits w1 23 16
    let spares := sparesFor s a x
    let named := bits w1 10 0
    if rebuildField s c.raw || (form == 0 && !relocationFits s a x gone) then badFieldAt c.id 0x20 s
    else if form == 1 && (stray c.raw 1 0xFF07FF || (named != 0x7FF && !spares.contains named)
        || (bits w1 23 16 != 0xFF && !gone.contains slot)) then badFieldAt c.id 0x24 s
    else if x.offline ≠ 0 then conflict c.id 0x10 s
    else if x.reshaping then conflict c.id 0x12 s
    else if x.rebuilding then conflict c.id 0x14 s
    else if gone.isEmpty then okWith c.id 0 s
    else if form = 1 then
      if named = 0x7FF then
        match spares with
        | [] => conflict c.id 0x1B s
        | sp :: _ => takeBarrier a (.facet slot sp) (some c.id) s
      else takeBarrier a (.facet slot named) (some c.id) s
    else takeBarrier a .relocation (some c.id) s

/-- Pause or resume a rebuild, or a reshape. -/
def adminHoldSweep (reshape pause : Bool) (c : Ctx) (s : Dev) : Dev :=
  let a := eWord c.raw 0 % 64
  match s.arr? a with
  | none => badFieldAt c.id 0x20 s
  | some x =>
    if (if reshape then stray c.raw 0 0x313F else rebuildField s c.raw) then badFieldAt c.id 0x20 s
    else if x.offline ≠ 0 then conflict c.id 0x10 s
    else if !reshape && x.reshaping then conflict c.id 0x12 s
    else
      let mine := if reshape then x.sweep == some .reshape else x.rebuilding && x.sweep.isSome
      okWith c.id 0 (if mine then s.setArr a { x with paused := pause } else s)

def execArrayRebuildStart (s : State) : Host.Outcome State Fault Refusal :=
  onDev s (fun s => withAdmin 0x89 (fun r => bits (eWord r 0) 13 12 == 0 || bits (eWord r 0) 13 12 == 3) adminRebuildStart s)
def execArrayRebuildPause (s : State) : Host.Outcome State Fault Refusal :=
  onDev s (fun s => withAdmin 0x89 (fun r => bits (eWord r 0) 13 12 == 1) (adminHoldSweep false true) s)
def execArrayRebuildResume (s : State) : Host.Outcome State Fault Refusal :=
  onDev s (fun s => withAdmin 0x89 (fun r => bits (eWord r 0) 13 12 == 2) (adminHoldSweep false false) s)

/-! ### ARRAY_RESHAPE (R283, R284) -/

/-- R284 check 7. -/
def reshapeTableBad (s : Dev) (x : Arr) (l : List Nat) : Bool :=
  l.any (fun e => decide (2048 ≤ e)) || !l.Nodup
    || l.any (fun m => (s.mem m).st != .online || isPlatter m != isPlatter (x.geom.members.headD 0)
        || !(x.geom.members.contains m || unassigned s m) || decide ((s.mem m).areaBytes < x.areaBytes))

def adminReshapeStart (d : HostData) (c : Ctx) (s : Dev) : Dev :=
  let w0 := eWord c.raw 0
  let w1 := eWord c.raw 1
  let a := w0 % 64
  match s.arr? a with
  | none => badFieldAt c.id 0x20 s
  | some x =>
    let g := wordGeom (bit w0 8) (bits w1 7 0) (bits w1 10 8)
    if stray c.raw 0 0x313F ∨ bits w0 13 12 = 3 then badFieldAt c.id 0x20 s
    else if x.offline ≠ 0 then conflict c.id 0x10 s
    else if x.reshaping then conflict c.id 0x12 s
    else if x.rebuilding then conflict c.id 0x11 s
    else if arrayState s x = 4 then conflict c.id 0x13 s
    else if geomOk g x.shift = false ∨ stray c.raw 1 0x7FF = true then badFieldAt c.id 0x24 s
    else
      match adminDescField c.raw with
      | some o => badFieldAt c.id o s
      | none =>
        match adminData c (2 * g.width) d with
        | .inr r => finish c.id r.1 r.2.1 r.2.2 s
        | .inl b =>
          let l := tableEntries g.width b
          let g := { g with k := if g.mirror then 1 else g.k, members := l }
          if reshapeTableBad s x l then badFieldAt c.id 0x10 s
          else if !capacityFits s a x (g.blocks x.shift) then badFieldAt c.id 0x24 s
          else takeBarrier a (.reshape g) (some c.id) s

def execArrayReshapeStart (d : HostData) (s : State) : Host.Outcome State Fault Refusal :=
  onDev s (fun s => withAdmin 0x88 (fun r => bits (eWord r 0) 13 12 == 0 || bits (eWord r 0) 13 12 == 3) (adminReshapeStart d) s)
def execArrayReshapePause (s : State) : Host.Outcome State Fault Refusal :=
  onDev s (fun s => withAdmin 0x88 (fun r => bits (eWord r 0) 13 12 == 1) (adminHoldSweep true true) s)
def execArrayReshapeResume (s : State) : Host.Outcome State Fault Refusal :=
  onDev s (fun s => withAdmin 0x88 (fun r => bits (eWord r 0) 13 12 == 2) (adminHoldSweep true false) s)

/-! ### The epoch barrier (R278) -/

/-- Step 2: a checkpoint has passed the horizon over every beam of the array. -/
def Arr.allPassed (x : Arr) : Bool := x.log.isEmpty && x.deltas.isEmpty && x.ckpt.isNone

/-- Step 3: the active segment is sealed, and the journal lists no segment. -/
def sealBarrier (a : Nat) (s : Dev) : Dev :=
  match s.arr? a with
  | none => s
  | some x => s.setArr a (({ x with active := none, openList := [], horizon := 0 }).sealSegments)

/-- Labels of a geometry's members. -/
def labelMembers (a : Nat) (g : Geom) (inst : Nat) (s : Dev) : Dev :=
  ((List.range g.members.length).zip g.members).foldl (fun s e =>
    if (s.mem e.2).st = .absent ∨ 2048 ≤ e.2 then s else slotCadence e.2 (writeLabel e.2 (slotLabel s a e.2 e.1 inst) s)) s

/-- The sweep of a slot has no segment left to visit: the target becomes ONLINE, and what waited for it starts (R274). -/
def endFacetSweep (a m : Nat) (s : Dev) : Dev :=
  match s.arr? a with
  | none => s
  | some x =>
    let s := (s.setArr a { x with sweep := none, paused := false, onHold := false, rebuild := none }).setVal
      Fam.arraySweepRemaining a 0
    sendSweep a (catchUps a (autoRebuild a (memberMove m .online 5 s)))

/-- R274 steps 1 and 2. -/
def beginFacet (a slot spare : Nat) (s : Dev) : Dev × Nat :=
  match s.arr? a with
  | none => (s, 0)
  | some x =>
    let old := x.geom.members.getD slot spare
    let g := { x.geom with members := x.geom.members.set slot spare, epoch := x.geom.epoch + 1 }
    let seg := x.seg.map fun e =>
      if e.2.st = .free ∨ e.2.mask.contains slot = true then e else (e.1, { e.2 with mask := e.2.mask ++ [slot] })
    let x := { x with geom := g, seg := seg, sweep := some (.facet slot spare false), paused := false, onHold := false
                      barrier := none, outage := x.outage.filter (· != slot), rebuildDue := x.rebuildDue.filter (· != slot) }
    let n := (x.lacking slot).length
    let s := slotCadence old (slotCadence spare ((s.setArr a x).setVal Fam.arraySweepRemaining a n))
    let s := memberMove spare .target 5 (writeLabel spare (slotLabel s a spare slot x.inst) s)
    (if n = 0 then endFacetSweep a spare s else s, n)

/-- R276 step 2, or R284: a new current geometry, with the old one in use until the meridian sweep ends. -/
def beginMeridian (a : Nat) (g : Geom) (sw : Sweep) (s : Dev) : Dev × Nat :=
  match s.arr? a with
  | none => (s, 0)
  | some x =>
    let g := { g with epoch := x.geom.epoch + 1 }
    let s := s.setArr a { x with geom := g, prev := some x.geom, sweep := some sw, paused := false, onHold := false
                                 barrier := none, outage := awayNow s g, rebuildDue := ({ x with geom := g }).failed s }
    let s := (s.setVal Fam.arrayMeridian a 0).setVal Fam.arraySweepRemaining a x.segs
    (labelMembers a g x.inst s, x.segs)

/-- What a barrier was taken for, if it can still be done: a spare that is none any more gives way to another, and a relocation is checked
again, as another slot may have become FAILED meanwhile (R277). -/
def barrierPlan (s : Dev) (a : Nat) (x : Arr) (b : Barrier) : Option Barrier :=
  match b with
  | .facet slot spare =>
    if (s.mem spare).st = .spare then some b else (sparesFor s a x).head?.map fun sp => .facet slot sp
  | .relocation => if relocationFits s a x (x.failed s) then some b else none
  | .reshape _ => some b

/-- It cannot: the geometry stays. The command ends as one that found it so at its start (R279), and an automatic start is made anew
(R273). -/
def barrierFails (a : Nat) (b : Barrier) (ctx : Option Nat) (s : Dev) : Dev :=
  match s.arr? a with
  | none => s
  | some x =>
    let s := s.setArr a { x with barrier := none }
    let s := match ctx with
      | none => autoRebuild a s
      | some id => match b with
        | .relocation => badFieldAt id 0x20 s
        | _ => conflict id 0x1B s
    settle (replaceAll a s)

/-- EPOCH_BARRIER_COMPLETE: every beam has committed or been abandoned, and a checkpoint has run; until it has, one is started. -/
def barrierComplete (a : Nat) (s : Dev) : Dev :=
  match s.arr? a with
  | none => s
  | some x =>
    match x.barrier with
    | none => s
    | some (b, ctx) =>
      if !x.beams.isEmpty || !s.executing || x.offline != 0 then s
      else if !x.allPassed then startCheckpoint s
      else match barrierPlan s a x b with
      | none => barrierFails a b ctx s
      | some b =>
        let s := sealBarrier a s
        let r := match b with
          | .facet slot spare => beginFacet a slot spare s
          | .relocation => beginMeridian a (narrower x.geom (x.failed s)) .relocation s
          | .reshape g => beginMeridian a g .reshape s
        let s := sendSweep a (writeJournal a (match ctx with | some id => okWith id r.2 r.1 | none => r.1))
        settle (replaceAll a ((s.arrays.map (·.1)).foldl deriveArray s))

def execEpochBarrierComplete (a : Nat) (s : State) : Host.Outcome State Fault Refusal := onDev s (fun s => barrierComplete a s)

/-! ### Sweeps (R274, R275, R281, R285) -/

/-- FACET_REBUILD_STEP of a segment, the lowest that lacks the slot's facet: its live blocks are checked and its facets written on the
target. With no segment left the sweep ends. -/
def facetStep (a seg : Nat) (s : Dev) : Dev :=
  match s.arr? a with
  | none => s
  | some x =>
    match x.sweep with
    | some (.facet slot m _) =>
      if sweepsRun s x && !x.paused && !x.onHold && (s.mem m).st == .target then
        match x.rebuild, x.lacking slot with
        | some _, _ => settle (advanceWork s)
        | none, [] => settle (endFacetSweep a m s)
        | none, g :: _ =>
          let r : Rebuild := { seg := g, slot := slot, target := m, done := [], checked := false, fixes := [], writing := false }
          if g = seg then settle (advanceWork (setRebuild a x (some r) s)) else s
      else s
    | _ => s

def execFacetRebuildStep (a seg : Nat) (s : State) : Host.Outcome State Fault Refusal := onDev s (fun s => facetStep a seg s)

/-- R288: the sweep ends; its checkpoint is cleared, and members of the previous geometry alone are released. -/
def sweepEnd (a : Nat) (s : Dev) : Dev :=
  match s.arr? a with
  | none => s
  | some x =>
    let old := ((x.prev.map (·.members)).getD []).filter fun m => !x.geom.members.contains m && decide (m < 2048)
    let s := s.setArr a { x with prev := none, sweep := none, paused := false, onHold := false }
    let s := writeMeridian a ((s.setVal Fam.arrayMeridian a 0).setVal Fam.arraySweepRemaining a 0)
    let s := old.foldl (fun s m => releaseMember m s) s
    catchUps a (autoRebuild a (deriveArray s a))

/-- The meridian passes a segment (R285). -/
def passMeridian (a : Nat) (x : Arr) (s : Dev) : Dev :=
  let g := s.val Fam.arrayMeridian a + 1
  let s := (s.setVal Fam.arrayMeridian a g).setVal Fam.arraySweepRemaining a (x.segs - g)
  let s := writeMeridian a s
  if x.segs ≤ g then sweepEnd a s else s

/-- MERIDIAN_SWEEP_STEP of the segment at the meridian: one that is FREE or of the current geometry is passed, another is cleaned and
waited for. -/
def meridianStep (a seg : Nat) (s : Dev) : Dev :=
  match s.arr? a with
  | none => s
  | some x =>
    let runs := match x.sweep with | some .relocation => true | some .reshape => true | _ => false
    let g := s.val Fam.arrayMeridian a
    if runs && sweepsRun s x && !x.paused && !x.onHold && x.barrier.isNone && g == seg then
      let v := x.segment g
      if v.st = .free ∨ v.epoch = x.geom.epoch then settle (passMeridian a x s)
      else if v.st = .opened then s
      else
        let s := s.setArr a (({ x with cleaning := if x.cleaning.contains g then x.cleaning else x.cleaning ++ [g] }).setSegment g
          { v with st := .cleaning })
        settle (cleanSegment a g true s)
    else s

def execMeridianSweepStep (a seg : Nat) (s : State) : Host.Outcome State Fault Refusal := onDev s (fun s => meridianStep a seg s)

/-- HOLD_RETRY_TIMER (R281): held work is tried again; a sweep whose target is SLOW still holds (R275). -/
def holdRetry (a : Nat) (s : Dev) : Dev :=
  match s.arr? a with
  | none => s
  | some x =>
    let slow := match x.sweep with | some (.facet _ m _) => (s.mem m).st == .slow | _ => false
    let y := { x with onHold := x.onHold && slow, cleanerHold := false
                      rebuild := x.rebuild.map fun r => if r.writing then r else { r with checked := false } }
    let s := s.setArr a y
    if (x.cleanerHold || x.onHold) && sweepsRun s y then settle (advanceWork (cleanAll a s)) else s

def execHoldRetryTimer (a : Nat) (s : State) : Host.Outcome State Fault Refusal := onDev s (fun s => holdRetry a s)

/-- REBUILD_DELAY_EXPIRE (R273). -/
def rebuildDelay (a slot : Nat) (s : Dev) : Dev :=
  match s.arr? a with
  | none => s
  | some x =>
    if x.rebuildDue.contains slot && (x.failed s).contains slot && s.serving then autoRebuild a (dropDelay a slot s) else s

def execRebuildDelayExpire (a slot : Nat) (s : State) : Host.Outcome State Fault Refusal := onDev s (fun s => rebuildDelay a slot s)

/-! ### Scrub (R185) -/

/-- SCRUB_BEAM: a committed beam, named as its header names it (R176: array, instance, geometry epoch, beam), is read whole and checked. -/
def scrubBeam (a inst epoch seg off : Nat) (s : Dev) : Dev :=
  match s.arr? a with
  | none => s
  | some x =>
    let v := x.segment seg
    if sweepsRun s x && s.val Fam.arrayScrubIntervalH a != 0 && x.inst == inst && v.epoch == epoch && decide (off < 64)
        && v.beams.contains off && x.reads.all (·.use != .scrub) then
      settle (advanceScrub a (advanceScrub a (beginRead a .scrub (64 * seg + off) s)))
    else s

def execScrubBeam (a inst epoch seg off : Nat) (s : State) : Host.Outcome State Fault Refusal :=
  onDev s (fun s => scrubBeam a inst epoch seg off s)

/-! ### MEMBER_SET (R289) -/

/-- The index and W1 of a MEMBER_SET, or the field at fault. -/
def memberSet (mask1 : Nat) (k : Nat → Nat → Ctx → Dev → Dev) (c : Ctx) (s : Dev) : Dev :=
  if stray c.raw 0 0xF7FF || decide (5 ≤ bits (eWord c.raw 0) 15 12) then badFieldAt c.id 0x20 s
  else if stray c.raw 1 mask1 then badFieldAt c.id 0x24 s
  else k (bits (eWord c.raw 0) 10 0) (eWord c.raw 1) c s

def setDomain (m w1 : Nat) (c : Ctx) (s : Dev) : Dev :=
  if (s.mem m).st = .absent then conflict c.id 0x14 s
  else okWith c.id 0 (writeLabel m { (s.mem m).labelOr m s.ident.serial with domain := w1 % 256 } s)

def setSpare (m w1 : Nat) (c : Ctx) (s : Dev) : Dev :=
  if (s.mem m).st = .online ∧ unassigned s m = true then
    let s := writeLabel m { (s.mem m).labelOr m s.ident.serial with role := 2 } s
    let s := s.setMem m { s.mem m with dedicated := if bit w1 8 then some (w1 % 64) else none }
    okWith c.id 0 (memberMove m .spare 3 s)
  else conflict c.id 0x14 s

def setRelease (m _w1 : Nat) (c : Ctx) (s : Dev) : Dev :=
  let x := s.mem m
  if x.st = .spare ∨ (x.st = .online ∧ holdsSlot s m = false) then
    okWith c.id 0 (memberMove m .online 3 (unassignLabel m (s.setMem m { x with dedicated := none })))
  else if x.st = .failed ∧ holdsSlot s m = false then okWith c.id 0 (s.setMem m { x with releasing := true, probes := 0 })
  else conflict c.id 0x14 s

/-- FAIL: an automatic rebuild starts without its delay. -/
def setFail (m _w1 : Nat) (c : Ctx) (s : Dev) : Dev :=
  match slotHeld s m with
  | some (a, slot) =>
    if (s.mem m).st = .failed then conflict c.id 0x14 s
    else okWith c.id 0 (autoRebuild a (dropDelay a slot (memberMove m .failed 3 s)))
  | none => conflict c.id 0x14 s

def setVault (m _w1 : Nat) (c : Ctx) (s : Dev) : Dev :=
  if (s.mem m).st = .online ∧ unassigned s m = true ∧ isPlatter m = false then
    okWith c.id 0 (writeLabel m { (s.mem m).labelOr m s.ident.serial with role := 3 } s)
  else conflict c.id 0x14 s

/-- DOMAIN; an action that Table 9.8 does not list is refused here. -/
def execDomain (s : State) : Host.Outcome State Fault Refusal :=
  onDev s (fun s => withAdmin 0x8A (fun r => bits (eWord r 0) 15 12 == 0 || decide (5 ≤ bits (eWord r 0) 15 12)) (memberSet 0xFF setDomain) s)
def execSpare (s : State) : Host.Outcome State Fault Refusal :=
  onDev s (fun s => withAdmin 0x8A (fun r => bits (eWord r 0) 15 12 == 1) (memberSet 0x13F setSpare) s)
def execRelease (s : State) : Host.Outcome State Fault Refusal :=
  onDev s (fun s => withAdmin 0x8A (fun r => bits (eWord r 0) 15 12 == 2) (memberSet 0xFFFFFFFF setRelease) s)
def execFail (s : State) : Host.Outcome State Fault Refusal :=
  onDev s (fun s => withAdmin 0x8A (fun r => bits (eWord r 0) 15 12 == 3) (memberSet 0xFFFFFFFF setFail) s)
def execVault (s : State) : Host.Outcome State Fault Refusal :=
  onDev s (fun s => withAdmin 0x8A (fun r => bits (eWord r 0) 15 12 == 4) (memberSet 0xFFFFFFFF setVault) s)

end Sys2Proof.Machine
end

