-- ==== Sys2Proof/Machine/PairOps.lean ====
section
/-!
DEFINITION. Reservations, owner epochs, the tie on the arbiter and fencing (R308 to R310, R370 to R376), as the commands of the
pair and the member completions share them.
-/

namespace Sys2Proof.Machine

/-! ### Keys and epochs (R308, R370) -/

def leaseKey (epoch : Nat) (strap : Bool) : Nat := 0x4750 * 2 ^ 48 + epoch % 2 ^ 47 * 2 + b2n strap

def ownEpoch (s : Dev) : Nat := s.val Fam.pairLeaseEpoch

/-- R371, R373: the epoch a contender claims. -/
def nextEpoch (s : Dev) : Nat := max (ownEpoch s) s.pr.partnerEpoch + 1

/-- R370: the owner epoch this device sends, kept where the rule gives the mode none (log entry 62). -/
def sendOwnerEpoch (s : Dev) : Dev :=
  if s.serving then s.setVal Fam.lensOwnerEpoch 0 (ownEpoch s % 2 ^ 16)
  else if s.inMode .mirror then s.setVal Fam.lensOwnerEpoch 0 ((ownEpoch s + 2 ^ 16 - 1) % 2 ^ 16)
  else s

/-- R307: a vault member of this device carries no reservation. -/
def ownVault (s : Dev) (m : Nat) : Bool := m == s.val Fam.pcacheVault0 || m == s.val Fam.pcacheVault1

/-- Solid members that are present and take part in reservations. -/
def reservable (s : Dev) : List Nat := s.present.filter fun m => !isPlatter m && !ownVault s m

/-- Register a key with Replace, or remove the registration. -/
def registerKey (m : Nat) (key : Option Nat) (s : Dev) : Dev :=
  let s := s.setMem m { s.mem m with regKey := key.map (BitVec.ofNat 64) }
  match key with
  | some k => emit (.reservation m 8 "Register, Replace" 2 k 0) s
  | none => emit (.reservation m 8 "Register, Unregister" 2 0 0) (s.setMem m { s.mem m with reserved := false })

/-- The solid members on which this device holds a registration. -/
def registered (s : Dev) : List Nat := (reservable s).filter fun m => (s.mem m).regKey.isSome

def unregisterAll (s : Dev) : Dev := (registered s).foldl (fun s m => registerKey m none s) s

def reregisterAll (key : Nat) (s : Dev) : Dev := (registered s).foldl (fun s m => registerKey m (some key) s) s

/-- R370: entry to SOLO, from FOCUS or from LEAD. -/
def enterSolo (trigger : Nat) (s : Dev) : Dev :=
  let e := nextEpoch s
  let s := { s with pr := { s.pr with fenced := false } }
  let s := reregisterAll (leaseKey e s.pw.pairId) (s.setVal Fam.pairLeaseEpoch 0 e)
  beginService (sendOwnerEpoch (changeMode .solo trigger 0xFFFF 0xFF s))

/-! ### Reservation commands of ties and fences -/

/-- Issue one (`sendCmd`): step 0 registers the key with Replace, step 1 acquires with it and preempts the previous holder's. -/
def resvCmd (m step key preempts : Nat) (why : Purpose) (s : Dev) : Dev :=
  issueCmd { tag := 0, member := m, write := false, offset := step, length := 0, bytes := [], why := why, dead := false
             aborted := false, issued := 0, key := key, preempts := preempts } s

/-- The key the Preempt names: the partner's, of the epoch that stands (R373); in FOCUS the last one known (R368). -/
def preemptKey (s : Dev) (fromFocus : Bool) : Nat :=
  leaseKey (if fromFocus then s.pr.partnerEpoch else ownEpoch s) (!s.pw.pairId)

/-- R373: contend on the arbiter with epoch e + 1, which is in MRAM first. An arbiter that cannot be reached leaves the tie to
its time limit (R374). -/
def startTie (source : Mode) (ctx : Option Nat) (s : Dev) : Dev :=
  let e := nextEpoch s
  let s := { s with pr := { s.pr with claim := e, guarding := false, fenced := false, fenceKey := preemptKey s (source == Mode.focus) } }
  let s := (s.setVal Fam.pairState 0 5).setTrans (some (.tie source ctx))
  let m := s.val Fam.pairArbiter
  if (s.mem m).st = .absent ∨ isPlatter m = true then s else resvCmd m 0 (leaseKey e s.pw.pairId) 0 .tie s

/-- R376: every other solid member is fenced. -/
def fenceOthers (s : Dev) : Dev :=
  ((reservable s).filter (· != s.val Fam.pairArbiter)).foldl (fun s m =>
    resvCmd m 0 (leaseKey (ownEpoch s) s.pw.pairId) 0 .fence (s.setMem m { s.mem m with unfenced := true })) s

/-- Payload of a PAIR record (Table 15.7). -/
def pairPayload (event epoch gapUs : Nat) : List Byte := le 1 event ++ List.replicate 7 0 ++ le 8 epoch ++ le 4 gapUs

/-- A PAIR record; that of a takeover, SWAP or lost tie carries the source of that event (R423). -/
def pairRecord (event epoch gapUs : Nat) (s : Dev) : Dev :=
  if event = 3 then bbox 0x09 0 0xFFFF 0xFF (pairPayload event epoch gapUs) s
  else ownRecord 0x09 (if event = 2 then 0x241 else 0x244) (pairPayload event epoch gapUs) s

/-! ### A deposed LEAD (R132, R309, R372) -/

/-- Completions not yet written are never written (R132); a CQ that they had stalled takes new ones. -/
def QState.dropWaiting (x : QState) : QState :=
  { x with overflow := [], parked := [], cqState := if x.cqState = .stalled then .active else x.cqState }

/-- Nothing more is read, written or completed for the commands in flight but `keep`; their contexts go without completion, and so do the
completions that wait for CQ space. -/
def dropCommands (keep : Option Nat) (s : Dev) : Dev :=
  let gone := s.cm.ctxs.filter fun c => some c.id != keep
  let s := { s with cm := { s.cm with qs := (s.cm.qs.map fun e => (e.1, e.2.dropWaiting)).filter fun e => e.2 != QState.absent } }
  let s := abandonCheckpoint (gone.foldl (fun s c => freeHeld c s) s)
  { s with
    cm := { s.cm with ctxs := s.cm.ctxs.filter (fun c => some c.id == keep), irisQ := [], writes := [], isolating := none }
    mb := { s.mb with jobs := [], cmds := s.mb.cmds.map fun c => { c with dead := true } }
    arrays := s.arrays.map fun e => (e.1, { e.2 with barrier := none, repairs := [], swept := [], darkened := [], reads := [],
                                                        rebuild := none }) }

/-- Every beam of every array is abandoned; items of CACHE_REPLAY arrays stay in the protected cache. -/
def abandonAll (s : Dev) : Dev :=
  (s.arrays.map (·.1)).foldl (fun s a =>
    match s.arr? a with
    | none => s
    | some x =>
      let s := match x.beams with
        | b :: _ => abandonFrom a b.num s
        | [] => s
      match s.arr? a with
      | some x => if x.writeThrough then s.setArr a { x with keptUnits := [] } else s
      | none => s) s

/-- R243: a vault is in use when its member is ONLINE and solid, its label says vault, and it holds no slot. -/
def vaultUse (s : Dev) (m : Nat) : Option Nat :=
  if (s.mem m).st = .online ∧ isPlatter m = false ∧ roleOf s m = 3 ∧ holdsSlot s m = false then some m else none

/-- What every transition to FOCUS takes up: the vaults named (R243) and the keys of the catalogue (R230). A key that was loaded without
persist over a stored one stays: R230 says that it is lost at CORE_RST_N or with core power, and not which of the two then stands
(DESIGN CHOICE, log entry 77). -/
def focusEntry (s : Dev) : Dev :=
  let was := certified s
  let vols : Tbl Vol := s.vols.map fun e => (e.1, { e.2 with key := e.2.key.orElse fun _ => e.2.stored })
  let s := { s with
    vols := vols
    pc := { s.pc with vaults := [vaultUse s (s.val Fam.pcacheVault0), vaultUse s (s.val Fam.pcacheVault1)] } }
  afterHoldup was s

/-- Messages held while the device contended leave. -/
def flushHeld (s : Dev) : Dev := s.allFns.foldl (fun s f => flushPba f s) s

/-- The device is fenced: it enters FOCUS (Table 1.7) and holds the lease no more. -/
def enterFenced (keep : Option Nat) (s : Dev) : Dev :=
  let s := abandonAll (dropCommands keep s)
  let s := s.lensUp.foldl (fun s n => lensShutter n s) s
  let s := { s with pr := { s.pr with lease := false, guarding := false, partnerReady := false, unacked := [], verdict := none
                                      caughtUp := false, arbiterNext := none, fenced := true } }
  focusEntry (flushHeld (changeMode .focus 5 0xFFFF 0xFF ((s.setTrans none).setVal Fam.pairState 0 0)))

/-- R309: a Reservation Conflict on a LEAD, or on a device that is taking over (R311). -/
def reservationConflict (s : Dev) : Dev :=
  match s.pw.trans with
  | some (.takeover ctx) =>
    let s := enterFenced ctx s
    match ctx with | some id => conflict id 0x32 s | none => s
  | _ => if s.inMode .lead then enterFenced none s else s

/-! ### The end of a tie (R372 to R375) -/

/-- A LEAD resumes alone. -/
def aloneLead (s : Dev) : Dev :=
  let s := { s with pr := { s.pr with partnerReady := false, unacked := [], arbiterNext := none, verdict := none } }
  settle (pairRecord 3 (ownEpoch s) 0 (s.setVal Fam.pairState 0 4))

/-- Every command of a tie has completed on the arbiter. -/
def tieWon (source : Mode) (ctx : Option Nat) (s : Dev) : Dev :=
  let e := s.pr.claim
  let m := s.val Fam.pairArbiter
  let s := (s.bump Fam.pairTiesWon).setVal Fam.pairLeaseEpoch 0 e
  let s := { s with pr := { s.pr with lease := true } }
  let s := s.setMem m { s.mem m with reserved := true, regKey := some (BitVec.ofNat 64 (leaseKey e s.pw.pairId)) }
  match source with
  | .lead =>
    let s := flushHeld (sendOwnerEpoch (s.setTrans none))
    settle (advanceWork (aloneLead (reregisterAll (leaseKey e s.pw.pairId) s)))
  | .mirror =>
    let s := s.setTrans (some (.takeover ctx))
    fenceOthers (s.setVal Fam.lensOwnerEpoch 0 (e % 2 ^ 16))
  | _ =>
    let s := fenceOthers (sendOwnerEpoch (changeMode .lead 3 0xFFFF 0xFF (s.setTrans none)))
    let s := beginService (s.setVal Fam.pairState 0 (if s.pr.partnerReady then 3 else 4))
    match ctx with | some id => okWith id 0 s | none => s

/-- The tie completed with Reservation Conflict, or not in time. -/
def tieLost (source : Mode) (ctx : Option Nat) (s : Dev) : Dev :=
  let s := pairRecord 2 (ownEpoch s) 0 (s.bump Fam.pairTiesLost)
  let s := { s with mb := { s.mb with cmds := s.mb.cmds.map fun c => if c.why = .tie then { c with dead := true } else c } }
  let s := if source = .focus then (s.setTrans none).setVal Fam.pairState 0 0 else enterFenced ctx s
  let s := match ctx with | some id => conflict id 0x32 s | none => s
  raise 0x241 (ownEpoch s % 2 ^ 32) true s

/-- A command of the tie has completed on the arbiter. -/
def tieStep (step : Nat) (ok : Bool) (s : Dev) : Dev :=
  match s.pw.trans with
  | some (.tie source ctx) =>
    if !ok then tieLost source ctx s
    else if step = 0 then resvCmd (s.val Fam.pairArbiter) 1 (leaseKey s.pr.claim s.pw.pairId) s.pr.fenceKey .tie s
    else tieWon source ctx s
  | _ => s

/-- A command of a fence has completed on a member. -/
def fenceStep (m step : Nat) (s : Dev) : Dev :=
  if step = 0 then
    resvCmd m 1 (leaseKey (ownEpoch s) s.pw.pairId) s.pr.fenceKey .fence
      (s.setMem m { s.mem m with regKey := some (BitVec.ofNat 64 (leaseKey (ownEpoch s) s.pw.pairId)) })
  else s.setMem m { s.mem m with unfenced := false, reserved := true }

end Sys2Proof.Machine
end

