-- ==== Sys2Proof/Machine/Members.lean ====
section
/-!
DEFINITION. Solid members and their ports (chapter 10), and the transitions that member commands bring about (R259 to R264):
completions, timeouts and their escalation, admission, path errors and the SMART log.
-/

namespace Sys2Proof.Machine

/-! ### Probes (R262, R289) -/

/-- A write of an unassigned label whose end is awaited (R289). -/
def issueLabel (m : Nat) (s : Dev) : Dev :=
  let l := { (s.mem m).labelOr m s.ident.serial with role := 0, array := 0, inst := 0, slot := 0 }
  issueWrite m 0 (labelBytes s.pc.windowGib l) .label s

/-- A probe has ended; good when it completed within a tenth of the timeout. -/
def probeEnded (m : Nat) (good : Bool) (s : Dev) : Dev :=
  let x := s.mem m
  let n := if good then x.probes + 1 else 0
  let s := s.setMem m { x with probes := n }
  if x.st = .slow then
    if s.val Fam.memberSlowProbes ≤ n then memberMove m x.was 4 s else s
  else if x.st = .failed ∧ x.releasing = true then
    if !good then s.setMem m { x with releasing := false, probes := 0 }
    else if s.val Fam.memberSlowProbes ≤ n then issueLabel m s else s
  else s

/-- The label write of a RELEASE has ended. -/
def labelEnded (m : Nat) (ok : Bool) (s : Dev) : Dev :=
  let x := s.mem m
  if x.st = .failed ∧ x.releasing = true then
    let s := s.setMem m { x with releasing := false, probes := 0 }
    if ok then
      let l := { x.labelOr m s.ident.serial with role := 0, array := 0, inst := 0, slot := 0 }
      memberMove m .online 4 (s.setMem m { s.mem m with label := some l })
    else s
  else s

/-! ### What a member command leaves when it ends -/

/-- It ended without data; `permanent` when the member reported the range lost (R280). -/
def cmdWithout (c : MCmd) (permanent : Bool) (s : Dev) : Dev :=
  match c.why with
  | .job id slot sum => advanceReads (jobRead id slot sum none permanent s)
  | .page id copy => pageRead id copy none s
  | .facet a n slot => facetFails a n slot s
  | .journal a _ => journalEnded a s
  | .checkpoint v p i => pageWritten v p i c.bytes false s
  | .beamRead a use slot => advanceReads (beamReadEnded c a use slot none s)
  | .rebuilt a _ => rebuildFails a s
  | .label => labelEnded c.member false s
  | .pageAgain v p i => reloadPage v p (i + 1) s
  | .area | .reload | .relation => s
  | .probe => probeEnded c.member false s
  | .tie => tieStep c.offset false s
  | .fence => s

/-- It succeeded. -/
def cmdDone (c : MCmd) (data : List Byte) (s : Dev) : Dev :=
  match c.why with
  | .job id slot sum => advanceReads (jobRead id slot sum (some data) false s)
  | .page id copy => pageRead id copy (some data) s
  | .facet a n slot => facetPart a n slot s
  | .journal a gen => journalEnded a (journalWritten a c.member gen s)
  | .checkpoint v p i => pageWritten v p i c.bytes true s
  | .beamRead a use slot => advanceReads (beamReadEnded c a use slot (some data) s)
  | .rebuilt .. => advanceReads s
  | .label => labelEnded c.member true s
  | .area | .pageAgain .. | .reload | .relation => s
  | .probe => probeEnded c.member (decide ((s.tm.now - c.issued) * 10 ≤ timeoutNs s c.member)) s
  | .tie => tieStep c.offset true s
  | .fence => fenceStep c.member c.offset s

/-- The escalation of a member whose command with this tag has ended. -/
def Escalation.without (e : Escalation) (tag : Nat) : Escalation :=
  match e with
  | .aborting l => if l.filter (· != tag) = [] then .idle else .aborting (l.filter (· != tag))
  | e => e

/-- A command leaves the list; an Abort of it is no longer outstanding. -/
def dropCmd (c : MCmd) (s : Dev) : Dev :=
  let s := { s with mb := { s.mb with cmds := s.mb.cmds.filter (·.tag != c.tag) } }
  let x := s.mem c.member
  s.setMem c.member { x with aborts := if c.aborted then x.aborts - 1 else x.aborts, esc := x.esc.without c.tag }

/-- A command has ended at its member, and one that waits for room in a queue may go out (R300). -/
def takeCmd (c : MCmd) (s : Dev) : Dev := pump c.member (dropCmd c s)

/-- A member that is present, holds a slot or not, or is a spare, becomes FAILED, with the rebuild of its slot left to the delay (R273).
Table 9.2 has no row for a spare; R305 makes any member FAILED (DEDUCED, log entry 85). -/
def memberFails (m cause : Nat) (s : Dev) : Dev :=
  let x := s.mem m
  if x.st = .online ∨ x.st = .slow ∨ x.st = .target ∨ x.st = .spare then memberMove m .failed cause s else s

/-- A completion with an error status counts, and the Error Information log is read (R298, R302; when it is read the spec does not say,
DESIGN CHOICE, log entry 86). -/
def noteError (m : Nat) (s : Dev) : Dev :=
  let s := s.bump Fam.memberErrors m
  if isPlatter m then s else memberCtl m "Get Log Page" 0x01 s

/-- A read of blocks or beams; in ECLIPSE its result goes nowhere (R31). -/
def MCmd.forHost (c : MCmd) : Bool :=
  match c.why with | .job .. => true | .page .. => true | .beamRead .. => true | .relation => true | _ => false

/-- Table 10.5. -/
def commandComplete (tag : Nat) (st : NvmeStatus) (data : List Byte) (s : Dev) : Dev :=
  match s.mb.cmds.find? (·.tag == tag) with
  | none => s
  | some c =>
    let s := if st = .success then s else noteError c.member s
    if st = .notReady then s
    else
      let s := takeCmd c s
      if c.dead || (s.inMode .eclipse && c.forHost) then s
      else settle (match st with
        | .success => cmdDone c data s
        | .unrecoveredRead => if c.write then memberFails c.member 1 (cmdWithout c false s) else cmdWithout c true s
        | .reservationConflict =>
          let s := memberCtl c.member "Get Log Page" 0x80 s
          if c.why = .tie then tieStep c.offset false s else reservationConflict s
        | .other =>
          let s := cmdWithout c false s
          if c.write then memberFails c.member 1 s else s
        | _ => cmdWithout c false s)

def execMemberCommandComplete (tag : Nat) (st : NvmeStatus) (data : List Byte) (s : State) :
    Host.Outcome State Fault Refusal :=
  onDev s (fun s => if s.coreUp then commandComplete tag st data s else s)

/-- NOT_READY_RETRY (Table 10.5): the command is issued again, and its timeout still runs from the first issue. -/
def notReadyRetry (tag : Nat) (s : Dev) : Dev :=
  match s.mb.cmds.find? (·.tag == tag) with
  | some c => if c.dead || c.waiting || !s.executing || !s.memberIo then s else sendCmd c s
  | none => s

def execNotReadyRetry (tag : Nat) (s : State) : Host.Outcome State Fault Refusal := onDev s (fun s => notReadyRetry tag s)

/-! ### Timeouts (R261) and their escalation (R303, R304) -/

/-- Timeouts within `member.fail_window_s` of now. -/
def recentTimeouts (s : Dev) (m : Nat) : List Nat :=
  (s.mem m).timeoutAt.filter fun t => decide (s.tm.now < t + s.val Fam.memberFailWindowS * 1000000000)

/-- R303 step 2: a controller reset. Links of platter members have none. -/
def controllerReset (m : Nat) (s : Dev) : Dev :=
  let s := (s.setMem m { s.mem m with esc := .disabling, queues := false }).bump Fam.memberResets m
  memberCtl m "clear CC.EN" 0 s

/-- The timed-out command is given up: its result is discarded. -/
def cmdExpired (c : MCmd) (s : Dev) : Dev :=
  let s := { s with mb := { s.mb with
    cmds := s.mb.cmds.map fun d => if d.tag = c.tag then { d with dead := true, expired := true } else d } }
  if c.dead then s else cmdWithout c false s

/-- R303 step 1 for one more timed-out command, or step 2 where the limit of Aborts is reached; a reset under way ends it as well. -/
def escalate (c : MCmd) (s : Dev) : Dev :=
  let m := c.member
  let x := s.mem m
  let tags (l : List Nat) : Dev := sendAbort m c.tag (s.setMem m { x with esc := .aborting (l ++ [c.tag]) })
  if isPlatter m || !(s.mb.cmds.any (·.tag == c.tag)) then s
  else match x.esc with
    | .idle => if c.aborted = true ∨ x.aborts < x.acl + 1 then tags [] else controllerReset m s
    | .aborting l => if c.aborted = true ∨ x.aborts < x.acl + 1 then tags l else controllerReset m s
    | _ => s

/-- MEMBER_TIMEOUT: a command that was issued and has not ended, its result awaited or not. -/
def memberTimeout (tag : Nat) (s : Dev) : Dev :=
  match s.mb.cmds.find? (fun c => c.tag == tag && !c.expired && !c.waiting) with
  | none => s
  | some c =>
    let m := c.member
    let s := s.bump Fam.memberTimeouts m
    let s := s.setMem m { s.mem m with timeoutAt := recentTimeouts s m ++ [s.tm.now] }
    let full := s.val Fam.memberFailTimeouts ≤ (recentTimeouts s m).length
    let s := if (s.mem m).st = .online ∨ (s.mem m).st = .target then memberMove m .slow 0 s else s
    let s := if full ∧ (s.mem m).st = .slow then memberMove m .failed 0 s else s
    settle (escalate c (cmdExpired c s))

def execMemberTimeout (tag : Nat) (s : State) : Host.Outcome State Fault Refusal :=
  onDev s (fun s => if s.coreUp && !s.inMode .eclipse then memberTimeout tag s else s)

/-- ABORT_WAIT_EXPIRE: the Abort has not ended the command. ECLIPSE stops the escalation where it stands (R311). -/
def abortWait (m : Nat) (s : Dev) : Dev :=
  match (s.mem m).esc with
  | .aborting (_ :: _) => controllerReset m s
  | _ => s

def execAbortWaitExpire (m : Nat) (s : State) : Host.Outcome State Fault Refusal :=
  onDev s (fun s => if s.working then abortWait m s else s)

def rdyFall (m : Nat) (s : Dev) : Dev :=
  if (s.mem m).esc = .disabling then memberCtl m "set CC.EN" 0 (s.setMem m { s.mem m with esc := .enabling }) else s

def execCstsRdyFall (m : Nat) (s : State) : Host.Outcome State Fault Refusal := onDev s (fun s => if s.working then rdyFall m s else s)

/-- READY_LIMIT_EXPIRE: a reset that takes too long goes on to step 3. -/
def readyLimit (m : Nat) (s : Dev) : Dev :=
  let x := s.mem m
  if x.esc = .disabling ∨ x.esc = .enabling then
    let s := memberCtl m "function level reset" 0 (s.setMem m { x with esc := .relinking })
    if x.levels = 0 then memberCtl m "MP_PERST_N pulse" x.port s else memberCtl m "hot reset" x.port s
  else s

def execReadyLimitExpire (m : Nat) (s : State) : Host.Outcome State Fault Refusal :=
  onDev s (fun s => if s.working then readyLimit m s else s)

/-- Every command outstanding at the member ends without data. -/
def endCmds (m : Nat) (s : Dev) : Dev :=
  (s.mb.cmds.filter (·.member == m)).foldl (fun s c =>
    let s := dropCmd c s
    if c.dead then s else cmdWithout c false s) s

/-- The member is gone: it becomes ABSENT, and its commands have ended. -/
def memberGone (m cause : Nat) (s : Dev) : Dev :=
  let s := endCmds m s
  let s := s.setMem m { s.mem m with esc := .idle, queues := false, aborts := 0, reserved := false, seen := false }
  settle (memberMove m .absent cause s)

def returnTimeout (m : Nat) (s : Dev) : Dev := if (s.mem m).esc = .relinking then memberGone m 2 s else s

def execMemberReturnTimeout (m : Nat) (s : State) : Host.Outcome State Fault Refusal :=
  onDev s (fun s => if s.working then returnTimeout m s else s)

/-- PROBE_ISSUE (R262): one 4 KiB read of the label, to a SLOW member or one that RELEASE probes, while none is outstanding and its
I/O queues exist. A member not yet fenced gets the fence again (R376). -/
def probeIssue (m : Nat) (s : Dev) : Dev :=
  let x := s.mem m
  let due := x.st == .slow || (x.st == .failed && x.releasing)
  let busy := s.mb.cmds.any fun c => c.member == m && !c.dead && (c.why == .probe || c.why == .fence || c.why == .label)
  if due && !busy && (x.queues || isPlatter m) && s.executing then
    if x.unfenced && !isPlatter m then resvCmd m 0 (leaseKey (ownEpoch s) s.pw.pairId) 0 .fence s
    else issue m false 0 4096 [] .probe s
  else s

def execProbeIssue (m : Nat) (s : State) : Host.Outcome State Fault Refusal := onDev s (fun s => probeIssue m s)

/-- ABSENT_FAIL_TIMEOUT (R263). -/
def absentFail (m : Nat) (s : Dev) : Dev :=
  if (s.mem m).st = .absent ∧ holdsSlot s m = true then settle (memberMove m .failed 2 s) else s

def execAbsentFailTimeout (m : Nat) (s : State) : Host.Outcome State Fault Refusal :=
  onDev s (fun s => if s.working then absentFail m s else s)

/-! ### Admission (R294 to R297) -/

/-- The halves of `mport[n].link`. -/
def setMportLink (port half v : Nat) (s : Dev) : Dev :=
  let old := s.val Fam.mportLink port
  s.setVal Fam.mportLink port (if half = 0 then old / 65536 * 65536 + v % 65536 else old % 65536 + v % 65536 * 65536)

/-- The member ports are out of reset, and the core runs or enumerates them (R294, R297). -/
def portsRun (s : Dev) : Bool := !s.pw.mpPerstLow && (s.coreUp || (s.inMode .dark && s.pw.coreStarting && s.pw.ddrReady))

/-- The half-port exists: half 1 only on a port that is divided (R293). -/
def halfExists (s : Dev) (port half : Nat) : Bool := decide (port < 32) && (half == 0 || (half == 1 && s.mb.bifurcated.contains port))

/-- Members reached through a half-port. -/
def onPath (s : Dev) (port half : Nat) (l : List Nat) : List Nat :=
  l.filter fun m => !isPlatter m && (s.mem m).port == port && (s.mem m).half == half && (s.mem m).st != .absent

/-- A half-port has its link again; the condition of its port lasts while the other half is down (R293, R306). -/
def halfUp (port half : Nat) (s : Dev) : Dev :=
  let s := { s with mb := { s.mb with down := s.mb.down.filter (· != (port, half)) } }
  if s.mb.down.any fun p => p.1 == port then s else hubFall (0x0C0 + 2 * port) s

/-- HOTPLUG_ARRIVAL (R292, R294, R297): a link trained at a speed and width of Table 10.1, x2 at most on a half-port; the new subtree is
enumerated, and controllers whose path has come back are enabled again. `levels`: the switch levels below the port, and the bus of the
device that lies deepest; what lies below the third level is not enumerated. -/
def hotplug (port half : Nat) (levels : Nat × Nat) (speed width : Nat) (s : Dev) : Dev :=
  if halfExists s port half = true ∧ 1 ≤ speed ∧ speed ≤ 5
      ∧ (width = 1 ∨ width = 2 ∨ width = 4 ∧ s.mb.bifurcated.contains port = false)
      ∧ s.unstopped = true ∧ portsRun s = true then
    let s := halfUp port half (setMportLink port half (speed % 16 + width % 16 * 16 + 256) s)
    let s := (onPath s port half s.present).foldl (fun s m =>
      if (s.mem m).esc = .disabling then memberCtl m "set CC.EN" 0 (s.setMem m { s.mem m with esc := .enabling }) else s) s
    if 3 < levels.1 then raise (0x0C1 + 2 * port) (levels.2 % 256) false s else s
  else s

def execHotplugArrival (port half : Nat) (levels : Nat × Nat) (speed width : Nat) (s : State) : Host.Outcome State Fault Refusal :=
  onDev s (fun s => hotplug port half levels speed width s)

/-- R296: the identifier of a controller: the NGUID of namespace 1, or its EUI-64 where that is zero. -/
def identOf (c : Controller) : BitVec 128 := if c.nguid = 0 then c.eui64.setWidth 128 else c.nguid

/-- R296: the index of an identifier: its own, else the lowest free, else that of the lowest ABSENT member without a slot. -/
def directoryIndex (s : Dev) (id : BitVec 128) : Option Nat :=
  match s.mb.dir.find? (·.2 == id) with
  | some e => some e.1
  | none =>
    match (List.range 2024).find? fun i => (tfind s.mb.dir i).isNone with
    | some i => some i
    | none => (List.range 2024).find? fun i => (s.mem i).st == .absent && !holdsSlot s i && !s.mb.priv.contains i

/-- Table 10.2, codes 1 to 9: the first requirement that fails. A foreign reservation is cleared where R310 permits, which is while pairing
is disabled. -/
def rejectCode (s : Dev) (c : Controller) (vault : Bool) : Option Nat :=
  let paired := s.flag Fam.pairEnable
  if !c.rdyInTime then some 1
  else if !c.version14 then some 2
  else if c.ioQueues < 8 ∨ c.mqes < 255 then some 3
  else if c.mdtsKib ≠ 0 ∧ c.mdtsKib < 64 then some 4
  else if !c.ns4k then some 5
  else if c.capacityMib < 16384 then some 6
  else if !c.dsm then some 7
  else if paired && !vault && !c.resvOk then some 8
  else if c.foreignResv && (paired || !s.flag Fam.mportPreemptForeign) then some 9
  else none

/-- Catalogue and arrays stand: labels may be judged (R289). -/
def mayJudge (s : Dev) : Bool := !s.inMode .dark

/-- The label of role 1 matches the slot that the member holds. -/
def labelMatches (s : Dev) (m : Nat) (l : Label) : Bool :=
  match slotHeld s m with
  | some (a, _) => match s.arr? a with
    | some x => l.role == 1 && l.array == a && l.inst.toNat == x.inst
        && (x.geom.members[l.slot]? == some m || (x.prev.bind (·.members[l.slot]?)) == some m)
    | none => false
  | none => false

/-- R289: a label of role 1 that names an array which is OFFLINE is not stale. -/
def namesOffline (s : Dev) (l : Label) : Bool :=
  match s.arr? l.array with
  | some x => l.role == 1 && l.inst.toNat == x.inst && (x.offline != 0 || beyond s x)
  | none => false

/-- R263: a member that no longer is what its slot needs holds the slot no more, which stays without a holder until a rebuild replaces or
removes it (DEDUCED, log entry 85). -/
def vacate (m : Nat) (s : Dev) : Dev :=
  match slotHeld s m with
  | none => s
  | some (a, slot) =>
    match s.arr? a with
    | none => s
    | some x =>
      let gone (l : List Nat) : List Nat := l.map fun i => if i = m then 2048 else i
      s.setArr a { x with
        geom := { x.geom with members := gone x.geom.members }
        prev := x.prev.map fun g => { g with members := gone g.members }
        rebuildDue := if x.geom.members[slot]? = some m ∧ x.rebuildDue.contains slot = false then x.rebuildDue ++ [slot] else x.rebuildDue }

/-- R263, R289: the label of a member that has been admitted is judged against the arrays: what it holds no more, it loses. -/
def judgeLabel (m : Nat) (s : Dev) : Dev :=
  match (s.mem m).label with
  | none => if holdsSlot s m then unassignLabel m (vacate m s) else s
  | some l =>
    if labelMatches s m l || (l.role != 1 && !holdsSlot s m) then s
    else
      let s := vacate m s
      if namesOffline s l then s
      else unassignLabel m (if l.role = 1 then s.bump Fam.memberStaleLabels else s)

/-- The state a member that has been admitted enters (Table 9.2, R263, R289). A FAILED member stays FAILED, and one that has been FAILED in
the slot that it still holds is FAILED again (R264). Before the catalogue is read, no label is judged. -/
def joinMember (m : Nat) (label : Option Label) (s : Dev) : Dev :=
  let x := s.mem m
  if x.st = .failed then s
  else if x.barred = true ∧ holdsSlot s m = true then memberMove m .failed 2 s
  else if label.any (·.role == 2) = true ∧ holdsSlot s m = false then memberMove m .spare 2 s
  else memberMove m .online 2 (if mayJudge s then judgeLabel m s else s)

/-- Table 10.3: the commands of admission before queues are created, with CNS, feature or log page. -/
def admission : List (String × Nat) :=
  [("Identify", 0x01), ("Identify", 0x02), ("Identify", 0x00), ("Set Features", 0x07), ("Set Features", 0x0B), ("Set Features", 0x0C),
   ("Set Features", 0x02), ("Get Features", 0x06)]

/-- R300: what a queue is created with: its number, its 256 entries, and the vector of a CQ or the CQ of an SQ, each queue having its own. -/
def queueArg (q : Nat) : Nat := q + 256 * 65536 + q * 2 ^ 32

/-- R300: an admin queue of 32 entries, and eight I/O queue pairs of 256 entries, each SQ with its own CQ and MSI-X vector. -/
def createQueues (m : Nat) (s : Dev) : Dev :=
  (List.range 8).foldl (fun s i => memberCtl m "Create I/O SQ" (queueArg (i + 1)) (memberCtl m "Create I/O CQ" (queueArg (i + 1)) s))
    (memberCtl m "Admin queue" 32 s)

/-- R308: a device that is paired registers its key; on a LEAD the reservation is acquired with it. -/
def reserve (m : Nat) (s : Dev) : Dev :=
  if s.flag Fam.pairEnable && !ownVault s m then
    if s.inMode .lead then
      resvCmd m 0 (leaseKey (ownEpoch s) s.pw.pairId) 0 .fence (s.setMem m { s.mem m with unfenced := true })
    else registerKey m (some (leaseKey (ownEpoch s) s.pw.pairId)) s
  else s

/-- R292, R298, R300, R308: what admission sets up on the controller and its path. -/
def setUp (m : Nat) (c : Controller) (s : Dev) : Dev :=
  let s := memberCtl m "Max_Read_Request_Size" 4096 (memberCtl m "Max_Payload_Size" (min 512 c.payload) s)
  let s := admission.foldl (fun s e => memberCtl m e.1 e.2 s) s
  let s := (List.range (min (c.aerl + 1) 4)).foldl (fun s _ => memberCtl m "Asynchronous Event Request" 0 s) s
  reserve m (createQueues m s)

/-- R296: the directory gives the identifier this index. -/
def nameMember (m : Nat) (c : Controller) (s : Dev) : Dev :=
  let keep := (tfind s.mb.dir m) == some (identOf c)
  let x := if keep then s.mem m else Member.absent
  let y : Member := { x with
    label := c.label, capacityMib := c.capacityMib, ident := identOf c, port := c.port, half := c.half, levels := c.levels
    bus := c.bus, writeCache := c.writeCache, singlePort := c.singlePort, acl := c.acl, capToS := c.capToS
    mdtsKib := c.mdtsKib, aborts := 0, esc := .idle, queues := true, seen := true
    areaBytes := c.capacityMib * mib - (0x02000000 + ((c.label.map (·.mapShare)).getD (mapShareOf c.capacityMib)) * (64 * mib)) }
  let s := { s with mb := { s.mb with dir := tput s.mb.dir m (identOf c) } }
  s.setVal Fam.memberReject m 0 |>.setMem m y

/-- R310: the foreign reservation is cleared with the key 0x4750_0000_0000_0000, which stays registered. -/
def clearForeign (m : Nat) (s : Dev) : Dev :=
  let key := 0x4750 * 2 ^ 48
  let s := emit (.reservation m 8 "Register" 2 key 0) s
  let s := emit (.reservation m 8 "Release" 2 key 0) (emit (.reservation m 8 "Acquire, Preempt" 2 key 0) s)
  s.setMem m { s.mem m with regKey := some (BitVec.ofNat 64 key) }

/-- CONTROLLER_READY of a controller not yet admitted. One below the third switch level or on a half-port that does not exist is not
enumerated (R293, R294). Only one that meets requirements 1 to 9 asks for a place in the directory. -/
def admitMember (c : Controller) (s : Dev) : Dev :=
  if !c.nvme || !halfExists s c.port c.half then s
  else if 3 < c.levels then raise (0x0C1 + 2 * c.port) (c.bus % 256) false s
  else
    let known := (s.mb.dir.find? (·.2 == identOf c)).map (·.1)
    let vault := (known.map (ownVault s)).getD false
    match rejectCode s c vault, directoryIndex s (identOf c) with
    | some r, some m => { s with mb := { s.mb with dir := tput s.mb.dir m (identOf c) } }.setVal Fam.memberReject m r
    | some _, none => s
    | none, none => raise 0x235 (c.port % 32 + c.half % 2 * 32 + c.bus % 256 * 256) false (s.bump Fam.mportDirFullRejects)
    | none, some m =>
      let s := nameMember m c s
      let s := if c.foreignResv && !s.flag Fam.pairEnable then clearForeign m s else s
      settle (joinMember m c.label (setUp m c s))

/-- R303 step 2 or R306 done, or the member is back after step 3: its queues exist again, and its commands have ended. -/
def resetDone (m : Nat) (s : Dev) : Dev :=
  let s := endCmds m s
  settle (createQueues m (s.setMem m { s.mem m with esc := .idle, queues := true, aborts := 0 }))

def controllerReady (c : Controller) (s : Dev) : Dev :=
  match s.mb.dir.find? (·.2 == identOf c) with
  | some (m, _) =>
    if (s.mem m).st ≠ .absent
        ∧ ((s.mem m).esc = .enabling ∨ (s.mem m).esc = .relinking ∨ ((s.mem m).esc = .disabling ∧ (s.mem m).queues = false))
        ∧ c.rdyInTime = true then resetDone m (halfUp (s.mem m).port (s.mem m).half s)
    else if (s.mem m).st = .absent ∨ (s.mem m).st = .failed ∧ (s.mem m).queues = false then admitMember c s
    else s
  | none => admitMember c s

def execControllerReady (c : Controller) (s : State) : Host.Outcome State Fault Refusal :=
  onDev s (fun s => if portsRun s && s.unstopped then controllerReady c s else s)

/-! ### Paths, warnings and the SMART log (R305, R306) -/

/-- MEMBER_PATH_ERROR: the link went down, DPC triggered, or an uncorrectable error struck, above these members: their commands end as in
step 2 of R303, with CC.EN cleared where the controller can still be reached. -/
def pathError (port half : Nat) (e : PathEvent) (l : List Nat) (s : Dev) : Dev :=
  let s := match e with
    | .aer h => { s with mb := { s.mb with aerHeader := tset s.mb.aerHeader (port * 2 + half) h 0 } }
    | _ => s.bump Fam.mportLinkDowns port
  let s := { s with mb := { s.mb with down := s.mb.down.filter (· != (port, half)) ++ [(port, half)] } }
  let s := raise (0x0C0 + 2 * port) (half % 2 + (l.head?.map fun m => (s.mem m).bus * 256).getD 0) false s
  let reached := match e with | .aer _ => true | _ => false
  let root := l.isEmpty || l.any fun m => (s.mem m).levels == 0
  let s := if root && !reached then setMportLink port half 0 s else s
  (onPath s port half l).foldl (fun s m =>
    let s := endCmds m s
    let s := (s.setMem m { s.mem m with esc := .disabling, queues := false }).bump Fam.memberResets m
    settle (if reached then memberCtl m "clear CC.EN" 0 s else s)) s

def execMemberPathError (port : Nat) (half : Nat × PathEvent) (l : List Nat) (s : State) : Host.Outcome State Fault Refusal :=
  onDev s (fun s => if portsRun s && halfExists s port half.1 then pathError port half.1 half.2 l s else s)

/-- MEMBER_LINK_DOWN_TIMEOUT (R306): the link is not back. -/
def linkDownTimeout (m : Nat) (s : Dev) : Dev :=
  let x := s.mem m
  if !isPlatter m && x.st != .absent && !x.queues then memberGone m 2 s else s

def execMemberLinkDownTimeout (m : Nat) (s : State) : Host.Outcome State Fault Refusal :=
  onDev s (fun s => if portsRun s then linkDownTimeout m s else s)

/-- A critical warning (R305): bits of the NVMe critical-warning byte (PRESUMED from NVMe, log entry 23): 0 spare, 1 temperature, 2
reliability, 3 read-only, 4 backup, 5 persistent memory region. The event is asked for again (R298). -/
def criticalWarning (m : Nat) (b : Byte) (s : Dev) : Dev :=
  let v := b.toNat
  let s := memberCtl m "Asynchronous Event Request" 0 s
  let s := if v % 8 = 0 then s else raise 0x234 (m + v * 2 ^ 24) false s
  if v / 8 % 8 = 0 then s else settle (memberFails m 1 s)

/-- MEMBER_CRITICAL_WARNING: a warning, or a controller fatal status (Table 9.2), of a member that is present. -/
def memberAlarm (m : Nat) (a : MemberAlarm) (s : Dev) : Dev :=
  if (s.mem m).st = .absent then s
  else match a with
    | .warning b => criticalWarning m b s
    | .fatal => settle (memberFails m 1 s)

def execMemberCriticalWarning (m : Nat) (a : MemberAlarm) (s : State) : Host.Outcome State Fault Refusal :=
  onDev s (fun s => if portsRun s && !isPlatter m then memberAlarm m a s else s)

/-- SMART_POLL: the SMART / Health log is read (R298), and gives the composite temperature, °C. -/
def execSmartPoll (m : Nat) (t : Int) (s : State) : Host.Outcome State Fault Refusal :=
  onDev s (fun s => if s.coreUp && !s.inMode .eclipse && !isPlatter m && (s.mem m).st != .absent then
      (memberCtl m "Get Log Page" 0x02 s).setVal Fam.memberTempC m (t % 65536).toNat
    else s)

end Sys2Proof.Machine
end

