-- ==== Sys2Proof/Machine/Platter.lean ====
section
/-!
DEFINITION. What a platter track carries: sector codewords and their LDPC code (R325 to R327), zone tables (R334), reallocation entries
(R360), track layout (R328, R345, R346), position from a wedge (R347) and sync-mark choice (R330).
-/

namespace Sys2Proof.Machine

/-! ### Sector contents (R326) -/

/-- The 28 tag bytes over which the sector CRC runs (Table 11.8). -/
def tagBytes (t : SectorTag) : List Byte :=
  le 4 t.cylinder ++ le 1 t.head ++ le 1 t.zone ++ le 2 t.sector ++ le 8 t.pba ++ le 4 t.formatId ++ le 8 t.serial

/-- R326: the sector CRC. -/
def sectorCrc (user : List Byte) (t : SectorTag) : Word := crc32 (user ++ tagBytes t)

/-- The low `n` bits of a number, most significant first. -/
def msb (n v : Nat) : List Bool := (List.range n).map fun i => bit v (n - 1 - i)

/-- R326: the information part of a codeword. -/
def infoBits (user : List Byte) (crc : Word) (t : SectorTag) : List Bool :=
  user.flatMap (fun b => msb 8 b.toNat) ++ msb 32 crc.toNat ++ msb 32 t.cylinder ++ msb 8 t.head ++ msb 8 t.zone
    ++ msb 16 t.sector ++ msb 64 t.pba ++ msb 32 t.formatId ++ msb 64 t.serial

/-! ### The LDPC code (R327) -/

/-- A 256-bit block. -/
abbrev Circ := List Bool

def zeroBlock : Circ := List.replicate 256 false

/-- Row `i` of a circulant with shift `s` picks bit (i + s) mod 256. -/
def rotated (s : Nat) (b : Circ) : Circ := b.drop s ++ b.take s

def xorBits (a b : List Bool) : List Bool := List.zipWith xor a b

/-- The shift of information column `c`, circulant `t`. -/
def ldpcShift (c t : Nat) : Nat := (37 * c * (2 * t + 1) + 61 * t) % 256

/-- The information part of block row `r`, over the 129 information blocks. -/
def infoSyndrome (u : List Circ) (r : Nat) : Circ :=
  ((List.range u.length).zip u).foldl (fun acc e =>
    (List.range 4).foldl (fun acc t => if (e.1 + 4 * t) % 16 = r then xorBits acc (rotated (ldpcShift e.1 t) e.2) else acc) acc)
    zeroBlock

/-- The 256-bit blocks of a bit string, `n` of them. -/
def circBlocks (n : Nat) (b : List Bool) : List Circ := (List.range n).map fun i => (b.drop (256 * i)).take 256

/-- R327: the parity blocks p[0] to p[15] by the staircase. -/
def parityBlocks (u : List Circ) : List Circ :=
  ((List.range 16).foldl (fun (acc : List Circ × Circ) q =>
    let p := xorBits (infoSyndrome u q) acc.2
    (acc.1 ++ [p], p)) ([], zeroBlock)).1

/-- R326, R327: the 37,120-bit codeword of a sector. -/
def codeword (user : List Byte) (t : SectorTag) : List Bool :=
  let u := infoBits user (sectorCrc user t) t
  u ++ (parityBlocks (circBlocks 129 u)).flatten

/-- The syndrome is zero: parity column 129 + q stands in block rows q and q + 1. -/
def syndromeZero (u p : List Circ) : Bool :=
  (List.range 16).all fun r =>
    let s := xorBits (infoSyndrome u r) (p.getD r zeroBlock)
    (if r = 0 then s else xorBits s (p.getD (r - 1) zeroBlock)) == zeroBlock

/-- R326: the decode passes: syndrome zero, CRC matching, every tag field as intended. -/
def attemptPasses (a : Attempt) (t : SectorTag) : Bool :=
  a.user.length == 4096 && a.parity.length == 4096 && a.crc == sectorCrc a.user a.tag && a.tag == t
    && syndromeZero (circBlocks 129 (infoBits a.user a.crc a.tag)) (circBlocks 16 a.parity)

/-- The pattern 1100, `n` times. -/
def preamble (n : Nat) : List Bool := (List.range n).flatMap fun _ => [true, true, false, false]

/-- R325: the sync mark. -/
def syncMark : List Bool := msb 24 0x3A6FC2

/-! ### Sync marks (R330, R331) -/

/-- Candidate `a` is preferred to `b`: fewer differing bits, then nearer, then earlier. -/
def markBetter (a b : Int × Nat) : Bool :=
  decide (a.2 < b.2) || (a.2 == b.2 && (decide (a.1.natAbs < b.1.natAbs) || (a.1.natAbs == b.1.natAbs && decide (a.1 < b.1))))

/-- R330: each position within ±`w` bits of the expected one, with the bits in which the hard decisions there differ from the pattern. -/
def markPlaces (w : Nat) (bits : List Bool) : List (Int × Nat) :=
  (List.range (2 * w + 1)).map fun i =>
    let seen := (bits.drop (64 - w + i)).take 24
    ((i : Int) - w, (xorBits seen syncMark).count true + (24 - seen.length))

/-- R330: the accepted position within ±`w` bits, if any. -/
def acceptMark (w : Nat) (l : List (Int × Nat)) : Option (Int × Nat) :=
  (l.filter fun c => decide (c.2 ≤ 2) && decide (c.1.natAbs ≤ w)).foldl (fun best c => match best with
    | none => some c
    | some b => if markBetter c b then some c else some b) none

/-- R339: the prior of one bit of a failing facet from the LLRs of that bit in the other facets of the relation. -/
def irPrior (beta : Nat) (others : List Int) : Int :=
  let mag := (others.map Int.natAbs).foldl min 31 - beta
  if (others.countP (· < 0)) % 2 = 1 then -(mag : Int) else mag

/-- R339: a decoded facet contributes an LLR of ±31 for each user bit. -/
def hardLlrs (user : List Byte) : List Int := (user.flatMap fun b => msb 8 b.toNat).map fun b => if b then -31 else 31

/-- R339: the priors of facet `f` from the LLRs of all facets of the relation. -/
def facetPriors (beta : Nat) (l : List (List Int)) (f : Nat) : List Int :=
  let bits := (l.eraseIdx f).foldr (fun g acc => List.zipWith (· :: ·) g acc) (List.replicate (l.getD f []).length [])
  bits.map (irPrior beta)

/-- R332: the alternate alignments of a sector of so many fragments, in the order they are tried. -/
def alternateOrder (frags : Nat) : List (Nat × Int) :=
  (List.range frags).flatMap fun f => (List.range 8).flatMap fun i => [(f, (i : Int) + 1), (f, -((i : Int) + 1))]

/-! ### Zone entries (Table 11.11) -/

def byteOf (v : Int) : Byte := BitVec.ofInt 8 v

def zoneBytes (z : ZoneEntry) : List Byte :=
  let b := fitBytes 0x3C (le 4 z.first ++ le 4 z.last ++ le 2 z.sectors ++ le 2 z.rate ++ [byteOf z.gain] ++ le 1 z.boost
    ++ [byteOf z.offset, byteOf z.asym] ++ ((List.range 10).flatMap fun i => le 2 (BitVec.ofInt 16 (z.fir.getD i 0)).toNat)
    ++ ((List.range 3).map fun i => byteOf (z.target.getD i 0)) ++ (List.range 3).flatMap fun i => le 1 (z.precomp.getD i 0))
  b ++ le 4 (crc32c b).toNat

/-- The signed value of a byte, and of two bytes. -/
def int8 (b : List Byte) (i : Nat) : Int := (b.getD i 0).toInt
def int16 (b : List Byte) (i : Nat) : Int := (BitVec.ofNat 16 (unle ((b.drop i).take 2))).toInt

/-- A zone entry of 64 bytes whose entry_crc matches. -/
def zoneParse (b : List Byte) : Option ZoneEntry :=
  if b.length = 64 ∧ le 4 (crc32c (b.take 0x3C)).toNat = b.drop 0x3C then
    some { first := fieldAt b 0 4, last := fieldAt b 4 4, sectors := fieldAt b 8 2, rate := fieldAt b 10 2, gain := int8 b 0x0C
           boost := fieldAt b 0x0D 1, offset := int8 b 0x0E, asym := int8 b 0x0F
           fir := (List.range 10).map fun i => int16 b (0x10 + 2 * i)
           target := (List.range 3).map fun i => int8 b (0x24 + i), precomp := (List.range 3).map fun i => fieldAt b (0x27 + i) 1 }
  else none

/-- The entry block of a surface: its entries in zone order, then zeros. -/
def entryBlock (l : List ZoneEntry) : List Byte := fitBytes 4096 (l.flatMap zoneBytes)

/-- Bytes 0 to 4,091 of a zone-table header, and the whole block (R334). -/
def headerBody (surface serial : Nat) (h : ZoneHeader) : List Byte :=
  fitBytes 4092 (le 4 0x4E455A4C ++ le 2 1 ++ le 1 h.zones ++ le 1 surface ++ le 4 h.formatId ++ le 8 serial ++ le 8 h.generation)
def headerBytes (surface serial : Nat) (h : ZoneHeader) : List Byte :=
  headerBody surface serial h ++ le 4 (crc32c (headerBody surface serial h)).toNat

/-- A stored header of the surface whose CRC matches. The spec names a failed CRC only; a header of another magic, version, surface or
zone count is taken as failed too (DESIGN CHOICE, log entry 32). -/
def headerParse (surface : Nat) (b : List Byte) : Option ZoneHeader :=
  if b.length = 4096 ∧ le 4 (crc32c (b.take 4092)).toNat = b.drop 4092 ∧ fieldAt b 0 4 = 0x4E455A4C ∧ fieldAt b 4 2 = 1
      ∧ 1 ≤ fieldAt b 6 1 ∧ fieldAt b 6 1 ≤ 64 ∧ fieldAt b 7 1 = surface then
    some { zones := fieldAt b 6 1, formatId := fieldAt b 8 4, generation := fieldAt b 20 8 }
  else none

/-- The zone table of a surface from its two blocks: every used entry passes its entry_crc. -/
def tableParse (surface : Nat) (blocks : List Byte × List Byte) : Option (ZoneHeader × List ZoneEntry) :=
  match headerParse surface blocks.1 with
  | none => none
  | some h =>
    let l := (List.range h.zones).filterMap fun i => zoneParse ((blocks.2.drop (64 * i)).take 64)
    if l.length = h.zones then some (h, l) else none

/-! ### Reallocation entries (R360, Table 12.5) -/

/-- The pba of a retired spare's entry. -/
def retiredPba : Nat := 2 ^ 48 - 1

def ReallocEntry.bytes (e : ReallocEntry) : List Byte :=
  let flags := 1 + 2 * b2n e.lost + 4 * b2n (e.pba == retiredPba)
  let b := le 6 e.pba ++ le 1 e.head ++ le 1 flags ++ le 4 e.cylinder ++ le 2 e.sector
  b ++ le 2 ((crc32c b).toNat % 65536)

/-- A valid entry whose check matches; the spec does not say what becomes of another: it is passed over (DESIGN CHOICE, log entry
32). -/
def reallocParse (b : List Byte) : Option ReallocEntry :=
  if b.length = 16 ∧ le 2 ((crc32c (b.take 14)).toNat % 65536) = b.drop 14 ∧ bit (fieldAt b 7 1) 0 = true then
    some { pba := fieldAt b 0 6, cylinder := fieldAt b 8 4, head := fieldAt b 6 1, sector := fieldAt b 12 2, lost := bit (fieldAt b 7 1) 1 }
  else none

/-- R361: the CRC-32C of a copy, over its generation and its entries (DESIGN CHOICE, log entry 32). -/
def copyCrc (generation : Nat) (bytes : List Byte) : Word := crc32c (le 8 generation ++ bytes)

def TableCopy.valid (c : TableCopy) : Bool := c.crc == copyCrc c.generation c.bytes

/-- The entries of a copy. -/
def TableCopy.entries (c : TableCopy) : List ReallocEntry :=
  (List.range (c.bytes.length / 16)).filterMap fun i => reallocParse ((c.bytes.drop (16 * i)).take 16)

/-! ### Track layout (R345, R346) -/

/-- Bit positions of a wedge interval, of wedge and guard, and of a data region. -/
def intervalBits (r : Nat) : Nat := r * 1000000 / 46080
def guardBits (r : Nat) : Nat := cdiv (16 * r) 10
def regionBits (r : Nat) : Nat := intervalBits r - guardBits r

/-- A fragment of a sector: its region, first bit, and the codeword bits it holds. -/
structure Frag where
  region : Nat
  start  : Nat
  from_  : Nat
  len    : Nat
  deriving DecidableEq, Repr

/-- Bits of preamble and mark before a fragment's codeword bits. -/
def fragHead (first : Bool) : Nat := if first then 120 else 56

/-- The fragments of a sector that starts at a bit of a region: as many codeword bits as fit, the last with the postamble. -/
def fragsFrom (r : Nat) : Nat → Bool → Nat → Nat → Nat → List Frag
  | 0, _, _, _, _ => []
  | k + 1, first, reg, at_, done =>
    let room := regionBits r - at_ - fragHead first
    let rest := 37120 - done
    if rest + 16 ≤ room then [⟨reg, at_, done, rest⟩]
    else ⟨reg, at_, done, min room rest⟩ :: fragsFrom r k false (reg + 1) 0 (done + min room rest)

/-- Rule 3 of R346: fragment 0 or the last would hold fewer than 512 codeword bits. -/
def splitBad (l : List Frag) : Bool :=
  match l with
  | [_] => false
  | f :: _ => decide (f.len < 512) || decide ((l.getLast?.map (·.len)).getD 0 < 512)
  | [] => false

/-- Rules 1 to 3: the fragments of the sector next after (region, bit). -/
def sectorFrags (r reg at_ : Nat) : List Frag :=
  let l := fragsFrom r 4 true reg at_ 0
  if splitBad l || decide (regionBits r ≤ at_ + 120) then fragsFrom r 4 true (reg + 1) 0 0 else l

/-- Rules 4 and 5: the sectors of a track, in order. -/
def layoutFrom (r : Nat) : Nat → Nat → Nat → List (List Frag)
  | 0, _, _ => []
  | k + 1, reg, at_ =>
    let l := sectorFrags r reg at_
    match l.getLast? with
    | none => []
    | some f =>
      if 383 < f.region then []
      else l :: layoutFrom r k f.region (f.start + fragHead (l.length == 1) + f.len + 16)

/-- The sectors of a track of a zone. -/
def trackLayout (r n : Nat) : List (List Frag) := layoutFrom r n 0 0

/-- Data regions that a sector has bits in. -/
def sectorRegions (r n sector : Nat) : List Nat := ((trackLayout r n).getD sector []).map (·.region)

/-- R345: cylinders of a zone, of its spare pool, and of its data tracks. -/
def zoneCylinders (z : ZoneEntry) : Nat := z.last + 1 - z.first
def zoneSpares (z : ZoneEntry) : Nat := cdiv (2 * zoneCylinders z) 1000
def zoneData (z : ZoneEntry) : Nat := zoneCylinders z - zoneSpares z

/-- A place on the surfaces. -/
structure Place where
  zone     : Nat
  cylinder : Nat
  head     : Nat
  sector   : Nat
  deriving DecidableEq, Repr

/-- R345: where a member block stands, counting zones, cylinders, heads and sectors. -/
def placeOf (heads : Nat) : List (Nat × ZoneEntry) → Nat → Option Place
  | [], _ => none
  | (n, z) :: r, pba =>
    let per := heads * z.sectors
    if pba < zoneData z * per then
      some ⟨n, z.first + pba / per, pba / z.sectors % heads, pba % z.sectors⟩
    else placeOf heads r (pba - zoneData z * per)

/-- Member blocks of a platter member. -/
def memberBlocks (heads : Nat) (l : List (Nat × ZoneEntry)) : Nat :=
  (l.map fun e => zoneData e.2 * heads * e.2.sectors).sum

/-! ### Position (R347) -/

/-- The cylinder of a 24-bit Gray code. -/
def grayDecode (g : BitVec 24) : Nat :=
  (List.range 24).foldl (fun acc i => acc * 2 + b2n (g.getLsbD (23 - i) != bit acc 0)) 0

/-- wrap: reduce by a multiple of 4 into [−2, 2), in units of 1/4,096. -/
def wrap4 (x : Int) : Int := (x + 8192) % 16384 - 8192

/-- R347: PES in units of 1/4,096 track pitch, the fine position rounded down (log entry 30). -/
def pesOf (w : Wedge) (target : Nat) : Int :=
  let tg := grayDecode w.gray
  let f : Int := 22528 - (32768 * w.tAB / w.tAA : Nat)
  let p : Int := tg * 4096 + wrap4 (f - (tg % 4 : Nat) * 4096)
  p - target * 4096

end Sys2Proof.Machine
end

