-- ==== Sys2Proof/Machine/Lens.lean ====
section
/-!
DEFINITION. The device's side of the Lens channels (chapter 11): frames, link up and loss, sector reads and their recovery,
interference recovery, live adaptation, and reallocation (R359 to R362).
-/

namespace Sys2Proof.Machine

/-! ### Members and places (R313, R345) -/

/-- R313. -/
def lensMember (n : Nat) : Nat := 0x7E8 + n

/-- The zones of surface 0, as (zone, entry); every surface divides alike (log entry 31). -/
def zoneList (l : Lens) : List (Nat × ZoneEntry) := (l.zones.filter fun e => decide (e.1 < 64)).map fun e => (e.1, e.2.2)

/-- The live entry of a head and zone. -/
def liveZone (l : Lens) (head zone : Nat) : Option ZoneEntry := (tfind l.zones (head * 64 + zone)).map (·.2)

/-- Where a member block is on the surfaces: its spare, if it has been reallocated (R359). -/
def placeNow (l : Lens) (pba : Nat) : Option Place :=
  (placeOf l.surfaces (zoneList l) pba).map fun p =>
    match tfind l.realloc pba with
    | some r => ⟨p.zone, r.1, r.2.1, r.2.2.1⟩
    | none => p

/-- R359: the entry carries the content-lost flag. -/
def contentLost (l : Lens) (pba : Nat) : Bool :=
  match tfind l.realloc pba with
  | some r => r.2.2.2
  | none => false

/-- R326: the tag that a read of the block intends. -/
def intendedTag (s : Dev) (n pba : Nat) : Option SectorTag :=
  let l := s.lens n
  (placeNow l pba).map fun p =>
    { cylinder := p.cylinder, head := p.head, zone := p.zone, sector := p.sector, pba := pba
      formatId := (tget l.headers p.head ZoneHeader.none).formatId
      serial := s.val Fam.lensFeSerial n }

/-- Fragments of a block's sector. -/
def fragments (l : Lens) (p : Place) : Nat :=
  match liveZone l 0 p.zone with
  | some z => ((trackLayout z.rate z.sectors).getD p.sector []).length
  | none => 0

/-! ### Reads in progress -/

/-- Member reads that name this block. -/
def readsOf (s : Dev) (n pba : Nat) : List MCmd :=
  s.mb.cmds.filter fun c => c.member == lensMember n && !c.write && c.length != 0 && c.offset / 4096 == pba

/-! ### The P0 relation (R338) -/

/-- The array, beam, facet and offset within the facet of a member block of a k+m array. -/
def facetAt (s : Dev) (m pba : Nat) : Option (Nat × Arr × Nat × Nat × Nat) :=
  match slotHeld s m with
  | none => none
  | some (a, _) =>
    match s.arr? a with
    | none => none
    | some x =>
      let at_ := pba * 4096
      let a0 := (s.mem m).a0
      if at_ < a0 ∨ x.segs * 64 * 2 ^ x.shift ≤ at_ - a0 then none
      else
        let beam := (at_ - a0) / 2 ^ x.shift
        let g := x.geomOf (beam / 64)
        match g.members.findIdx? (· == m) with
        | none => none
        | some slot => some (a, x, beam, g.facetOn beam slot, (at_ - a0) % 2 ^ x.shift)

/-- Channel and member block of facet `f` at an offset within the facets of a beam. -/
def relationAt (s : Dev) (x : Arr) (beam off f : Nat) : Option (Nat × Nat) :=
  let g := x.geomOf (beam / 64)
  let m := g.members.getD (g.slotOf beam f) 0x800
  (chanOf_ m).map fun n => (n, ((s.mem m).a0 + beam * 2 ^ x.shift + off) / 4096)

/-- The sectors of facets D0 to Dk−1 and P0 there. -/
def relationSectors (s : Dev) (x : Arr) (beam off : Nat) : List (Nat × Nat) :=
  (List.range ((x.geomOf (beam / 64)).k + 1)).filterMap (relationAt s x beam off)

/-- Every facet D0 to Dk−1 and P0 of the beam has its member serving and its mask bit clear. -/
def relationHolds (s : Dev) (x : Arr) (beam : Nat) : Bool :=
  let g := x.geomOf (beam / 64)
  let mask := (tget x.seg (beam / 64) Segment.free).mask
  (List.range (g.k + 1)).all fun f =>
    let slot := g.slotOf beam f
    !mask.contains slot && memberServes s (g.members.getD slot 0x800)

/-- The sector waits for interference recovery. -/
def irWaits (s : Dev) (n pba : Nat) : Bool := (s.lens n).irWait.any (·.1 == pba)

/-- A sector of the relation of one that waits. -/
def relationWanted (s : Dev) (n pba : Nat) : Bool :=
  s.ls.irOrder.any fun w => irWaits s w.1 w.2 && (match facetAt s (lensMember w.1) w.2 with
    | some (_, x, beam, _, off) => (relationSectors s x beam off).contains (n, pba)
    | none => false)

/-- A sector has decoded: its bytes are held where a sector that waits has it in its relation. -/
def holdRelation (n pba : Nat) (user : Block) (s : Dev) : Dev :=
  if relationWanted s n pba then
    { s with ls := { s.ls with irHeld := s.ls.irHeld.filter (·.1 != (n, pba)) ++ [((n, pba), user)] } }
  else s

/-- The bytes held of a sector. -/
def relationHeld (s : Dev) (p : Nat × Nat) : Option Block := (s.ls.irHeld.find? (·.1 == p)).map (·.2)

/-! ### How a sector read ends (R333) -/

/-- A sector read ends with its class: 0 CLEAN, 1 RECOVERED, 2 FAILED (R333). What is not CLEAN is reported for reallocation. -/
def endSector (n pba cls : Nat) (user : Block) (s : Dev) : Dev :=
  let s := s.bump Fam.lensSectorsRead n
  let s := if cls = 2 then s else holdRelation n pba user s
  let s := if cls = 1 then s.bump Fam.lensRecovered n else if cls = 2 then s.bump Fam.lensFailed n else s
  let l := s.lens n
  let s := if cls = 0 ∨ contentLost l pba = true then s
    else s.setLens n { l with reported := l.reported.filter (·.1 != pba) ++ [(pba, if cls = 1 then some user else none)] }
  (readsOf s n pba).foldl (fun s c =>
    commandComplete c.tag (if cls = 2 then .unrecoveredRead else .success) (if cls = 2 then [] else user) s) s

/-- The reads of a block end without data: lost for the moment (R280). -/
def sectorLost (n pba : Nat) (s : Dev) : Dev :=
  (readsOf s n pba).foldl (fun s c => settle (cmdWithout c false (takeCmd c s))) s

/-- The sector is to be read again: `kind` 1 as R324, R333 or R351 force it, 2 as steps 4 and 6 of Table 11.10. -/
def dueAgain (n pba : Nat) (wide : Bool) (count kind : Nat) (s : Dev) : Dev :=
  let l := s.lens n
  s.setLens n { l with rereads := l.rereads.filter (·.1 != pba) ++ [(pba, wide, count, kind)] }

/-- Step 6, or FAILED at `lens.reread_limit`. -/
def nextReread (n pba : Nat) (wide : Bool) (count : Nat) (s : Dev) : Dev :=
  if count < s.val Fam.lensRereadLimit then dueAgain n pba wide count 2 s else endSector n pba 2 [] s

/-! ### Interference recovery begins (R338, R340) -/

/-- R340: the sector joins those that wait, in arrival order. -/
def irQueue (n pba : Nat) (s : Dev) : Dev :=
  let still := s.ls.irOrder.filter fun e => irWaits s e.1 e.2 && e != (n, pba)
  { s with ls := { s.ls with irOrder := still ++ [(n, pba)] } }

/-- R338: the sectors of the relation that no read holds are read. -/
def askRelation (x : Arr) (beam off : Nat) (s : Dev) : Dev :=
  (relationSectors s x beam off).foldl (fun s p =>
    if irWaits s p.1 p.2 || (relationHeld s p).isSome || !(readsOf s p.1 p.2).isEmpty then s
    else issue (lensMember p.1) false (p.2 * 4096) 4096 [] .relation s) s

/-- Step 5: wait for interference recovery, or skip it. -/
def tryRecovery (n : Nat) (t : SectorTag) (count : Nat) (s : Dev) : Dev :=
  let skip (s : Dev) : Dev := nextReread n t.pba true count s
  match facetAt s (lensMember n) t.pba with
  | none => skip s
  | some (_, x, beam, f, off) =>
    let g := x.geomOf (beam / 64)
    if g.mirror || decide (g.k < f) || s.val Fam.lensIrRounds == 0 then skip s
    else if relationHolds s x beam then
      let l := s.lens n
      askRelation x beam off (irQueue n t.pba (s.setLens n { l with
        irWait := l.irWait ++ [(t.pba, t)], rereads := l.rereads.filter (·.1 != t.pba) ++ [(t.pba, true, count, 0)] }))
    else skip (s.bump Fam.lensIrSkipped)

/-! ### SECTOR_DECODE (R330 to R333) -/

/-- What became of one read of a sector under steps 1 to 3: passed at step 1, at step 2, at step 3; a mark was missed; or none. -/
inductive DecodeEnd where
  | first (user : Block)
  | realigned (user : Block)
  | recovery (user : Block)
  | missed
  | failed
  deriving DecidableEq, Repr

/-- R326, Table 11.10: the hard decisions of the first iteration, of at most `n`, that pass for the tag. -/
def decoded (n : Nat) (t : SectorTag) (l : List Attempt) : Option Attempt := (l.take n).find? (attemptPasses · t)

/-- Steps 1 to 3 with at most `iters` iterations of each decode and `rounds` rounds of step 3; an alternate that `r` does not give has
failed. -/
def decodeEnd (iters rounds : Nat) (r : SectorRead) (t : SectorTag) (wide : Bool) (frags : Nat) : DecodeEnd :=
  let w := if wide then 64 else 16
  if r.marks.length < frags ∨ r.marks.any (fun b => (acceptMark w (markPlaces w b)).isNone) = true then .missed
  else
    match decoded iters t r.first with
    | some a => .first a.user
    | none =>
      if r.shock then .failed
      else match (alternateOrder frags).findSome? fun k => (r.alternates.find? (·.1 == k)).bind fun e => decoded iters t e.2 with
        | some a => .realigned a.user
        | none => match decoded (32 * rounds) t r.recovery with
          | some a => .recovery a.user
          | none => .failed

/-- R351: the span was off track by more than the read settle limit. -/
def offTrack (s : Dev) (pes : Nat) : Bool := decide (s.val Fam.lensServoReadSettlePes * 4096 < pes * 100)

/-- R324: the samples of a span (first count, number) include lost ones. -/
def samplesLost (l : Lens) (span : Nat × Nat) : Bool :=
  let gap := (l.gapAt.map fun g => (g, 2 ^ 43)).toList
  (l.lostSpans ++ gap).any fun p =>
    decide ((p.1 + 2 ^ 44 - span.1) % 2 ^ 44 < span.2) || decide ((span.1 + 2 ^ 44 - p.1) % 2 ^ 44 < p.2)

/-- R336: a sector that passed at step 1 without a shock flag has an update of its zone and head due. -/
def noteAdapt (n : Nat) (t : SectorTag) (shock : Bool) (s : Dev) : Dev :=
  let l := s.lens n
  if shock || s.val Fam.lensAdaptEnable == 0 then s
  else s.setLens n { l with adaptDue := l.adaptDue.filter (· != t.head * 64 + t.zone) ++ [t.head * 64 + t.zone] }

/-- A sector that carries the shock flag and fails step 1 is read again at once, and classed by that read alone (R333). -/
def sectorDecode (n : Nat) (r : SectorRead) (s : Dev) : Dev :=
  let l := s.lens n
  let pba := r.tag.pba
  let state_ := (l.rereads.find? (·.1 == pba)).getD (pba, false, 0, 0)
  let wide := state_.2.1
  let count := state_.2.2.1
  if !l.up || l.parked || intendedTag s n pba != some r.tag || (readsOf s n pba).isEmpty || state_.2.2.2 != 0
      || l.irWait.any (·.1 == pba) || contentLost l pba then s
  else
    let frags := ((placeNow l pba).map (fragments l)).getD 0
    let s := s.setLens n { l with rereads := l.rereads.filter (·.1 != pba) }
    if samplesLost l r.span || offTrack s r.pes then dueAgain n pba wide count 1 s
    else match decodeEnd (s.val Fam.lensLdpcIter) (s.val Fam.lensRecoveryRounds) r r.tag wide frags with
      | .first u =>
        if count = 0 then endSector n pba 0 u (noteAdapt n r.tag r.shock s) else endSector n pba 1 u s
      | .realigned u => endSector n pba 1 u (s.bump Fam.lensRealigned n)
      | .recovery u => endSector n pba 1 u s
      | .missed =>
        let s := s.bump Fam.lensSyncMissed n
        if r.shock then dueAgain n pba true 0 1 s else nextReread n pba true count s
      | .failed =>
        if r.shock then dueAgain n pba wide 0 1 s
        else if count = 0 then nextReread n pba true 0 s
        else tryRecovery n r.tag count s

def execSectorDecode (n : Nat) (r : SectorRead) (s : State) : Host.Outcome State Fault Refusal :=
  onDev s (fun s => if s.executing && decide (n < 24) then sectorDecode n r s else s)

/-- SECTOR_REREAD: the next revolution has come round. -/
def sectorReread (n pba : Nat) (s : Dev) : Dev :=
  let l := s.lens n
  match l.rereads.find? (·.1 == pba) with
  | some (_, wide, count, kind) =>
    if kind = 1 then dueAgain n pba wide count 0 s
    else if kind = 2 then dueAgain n pba true (count + 1) 0 s
    else s
  | none => s

def execSectorReread (n pba : Nat) (s : State) : Host.Outcome State Fault Refusal :=
  onDev s (fun s => if s.executing && decide (n < 24) then sectorReread n pba s else s)

/-! ### IR_JOB_START (R338 to R340) -/

/-- R340: the recovery pool, in KiB. -/
def poolFits (relation : List (Nat × Option IrFacet)) : Bool :=
  decide ((relation.map fun e => if e.2.isSome then 56 else 8).sum ≤ 2560)

/-- A facet in a job: its sector, the LLRs of its user bits, what its decodes of the rounds to come end with while it is in F, and the
bytes with which it left F. -/
structure IrPart where
  sector : Nat × Nat
  llrs   : List Int
  left   : Option (List (Attempt × List Int))
  saved  : Option Block
  deriving DecidableEq, Repr

/-- R327: an LLR is held to ±31. -/
def clip31 (v : Int) : Int := max (-31) (min 31 v)

/-- R339: the decode of one facet in a round; where the round has no word for it, it stays as it is. -/
def irDecode (s : Dev) (p : IrPart) : IrPart :=
  match p.left, intendedTag s p.sector.1 p.sector.2 with
  | some ((a, q) :: r), some t =>
    if attemptPasses a t then { p with llrs := hardLlrs a.user, left := none, saved := some a.user }
    else { p with llrs := q.map clip31, left := some r }
  | _, _ => p

/-- R339: the rounds of a job. The priors of a round come from the LLRs at its start; the decoder has them and its words are the
world's (log entry 11). -/
def irRun (a beam : Nat) : Nat → Nat → List IrPart → Dev → List IrPart × Dev
  | 0, _, l, s => (l, s)
  | k + 1, round, l, s =>
    if l.all (·.left.isNone) then (l, s)
    else
      let llrs := l.map (·.llrs)
      let s := ((List.range l.length).filter fun f => ((l[f]?).map (·.left.isSome)).getD false).foldl (fun s f =>
        emit (.irPrior a beam f round (facetPriors (s.val Fam.lensIrOffset) llrs f)) s) s
      irRun a beam k (round + 1) (l.map (irDecode s)) s

/-- A failing facet of the job has left F and is RECOVERED, or is FAILED after the last round (R339; DEDUCED, log entry 79). -/
def irEnd (s : Dev) (p : IrPart) : Dev :=
  let n := p.sector.1
  let pba := p.sector.2
  if irWaits s n pba then
    let l := s.lens n
    let s := s.setLens n { l with irWait := l.irWait.filter (·.1 != pba), rereads := l.rereads.filter (·.1 != pba) }
    match p.saved with
    | some u => endSector n pba 1 u (s.bump Fam.lensIrSaved n)
    | none => endSector n pba 2 [] s
  else s

/-- The facets of the job from what is held, and from what `relation` gives of the failing ones. -/
def irParts (s : Dev) (sectors : List (Nat × Nat)) (relation : List (Nat × Option IrFacet)) : List IrPart :=
  (sectors.zip relation).map fun e => match e.2.2 with
    | some f => { sector := e.1, llrs := f.llrs.map clip31, left := some f.rounds, saved := none }
    | none => { sector := e.1, llrs := hardLlrs ((relationHeld s e.1).getD []), left := none, saved := none }

/-- R338: every sector of the relation has been read: it waits, with its samples buffered, as one that `relation` gives as failing, or it
has decoded and is held. -/
def relationRead (s : Dev) (sectors : List (Nat × Nat)) (relation : List (Nat × Option IrFacet)) : Bool :=
  (sectors.zip relation).all fun e =>
    irWaits s e.1.1 e.1.2 == e.2.2.isSome && (e.2.2.isSome || (relationHeld s e.1).isSome)

/-- What was held for a job goes. -/
def irRelease (sectors : List (Nat × Nat)) (s : Dev) : Dev :=
  { s with ls := { s.ls with irHeld := s.ls.irHeld.filter fun e => !sectors.contains e.1 } }

/-- The sector that a job of array `a` is for: the first that began to wait (R340). -/
def irFirst (s : Dev) (a : Nat) : Option (Arr × Nat × Nat) :=
  (s.ls.irOrder.filter fun w => irWaits s w.1 w.2).findSome? fun w =>
    match facetAt s (lensMember w.1) w.2 with
    | some (b, x, beam, _, off) => if b = a then some (x, beam, off) else none
    | none => none

/-- A job that may no longer run: its reads end without data. -/
def irAbandon (sectors : List (Nat × Nat)) (s : Dev) : Dev :=
  irRelease sectors (sectors.foldl (fun s p =>
    let l := s.lens p.1
    if irWaits s p.1 p.2 then
      sectorLost p.1 p.2 (s.setLens p.1 { l with irWait := l.irWait.filter (·.1 != p.2), rereads := l.rereads.filter (·.1 != p.2) })
    else s) s)

/-- The job decodes the failing facets of the relation together: `relation` gives each facet as decoded before, or with what the decode
of each round makes of it. -/
def irJob (a : Nat) (relation : List (Nat × Option IrFacet)) (s : Dev) : Dev :=
  match irFirst s a with
  | none => s
  | some (x, beam, off) =>
    let sectors := relationSectors s x beam off
    if !relationHolds s x beam || !s.executing then irAbandon sectors s
    else if !poolFits relation || relation.map (·.1) != List.range sectors.length || !relationRead s sectors relation then s
    else
      let r := irRun a beam (s.val Fam.lensIrRounds) 0 (irParts s sectors relation) (s.bump Fam.lensIrJobs)
      irRelease sectors (r.1.foldl irEnd r.2)

def execIrJobStart (a : Nat) (relation : List (Nat × Option IrFacet)) (s : State) : Host.Outcome State Fault Refusal :=
  onDev s (fun s => if s.coreUp then irJob a relation s else s)

/-! ### ADAPT_UPDATE and ZONE_TABLE_FLUSH (R336, R337) -/

/-- Hold a value within `d` of another. -/
def within (d : Nat) (centre v : Int) : Int := if centre + d < v then centre + d else if v < centre - d then centre - d else v

/-- One value: moved by at most `step`, then held within 16 of the stored one; `true` when it was held. -/
def adaptValue (step : Nat) (live stored new : Int) : Int × Bool :=
  let v := within step live new
  let w := within 16 stored v
  (w, decide (w ≠ v))

/-- An update of the live entry of a zone and head, and whether a limit held it. -/
def adaptEntry (stored live : ZoneEntry) (fir : List Int) (gain offset asym : Int) : ZoneEntry × Bool :=
  let taps := (List.range 10).map fun i => adaptValue 2 (live.fir.getD i 0) (stored.fir.getD i 0) (fir.getD i 0)
  let g := adaptValue 1 live.gain stored.gain gain
  let o := adaptValue 1 live.offset stored.offset offset
  let a := adaptValue 1 live.asym stored.asym asym
  ({ live with fir := taps.map (·.1), gain := g.1, offset := o.1, asym := a.1 }, taps.any (·.2) || g.2 || o.2 || a.2)

/-- The operand of SET_READ (Table 11.5). -/
def setReadOperand (z : ZoneEntry) : BitVec 44 :=
  BitVec.ofNat 44 ((byteOf z.gain).toNat + 256 * (z.boost % 256) + 65536 * (byteOf z.offset).toNat)

/-- In the gap after a sector that passed at step 1: the update that it feeds. -/
def adaptUpdate (n zone head : Nat) (fir : List Int) (gain offset asym : Int) (s : Dev) : Dev :=
  let l := s.lens n
  match tfind l.zones (head * 64 + zone) with
  | none => s
  | some (stored, live) =>
    if s.val Fam.lensAdaptEnable = 0 ∨ l.up = false ∨ l.adaptDue.contains (head * 64 + zone) = false then s
    else
      let r := adaptEntry stored live fir gain offset asym
      let s := s.setLens n { l with adaptDue := l.adaptDue.filter (· != head * 64 + zone), zones := tput l.zones (head * 64 + zone) (stored, r.1) }
      let s := lensCmd n 0x04 (setReadOperand r.1) s
      if r.2 then raise (0x200 + 2 * n) (zone + 256 * head) false (s.bump Fam.lensAdaptClamped n) else s

def execAdaptUpdate (n zone head : Nat) (fir : List Int) (gain offset asym : Int) (s : State) : Host.Outcome State Fault Refusal :=
  onDev s (fun s => if s.executing && decide (n < 24) && decide (zone < 64) then adaptUpdate n zone head fir gain offset asym s else s)

/-- The stored table of a surface takes the live entries: its header, with the next generation, and its entry block are written (the
spec names no step of the generation: log entry 32). -/
def flushSurface (n : Nat) (s : Dev) (h : Nat) : Dev :=
  let l := s.lens n
  let hd := tget l.headers h ZoneHeader.none
  let hd := { hd with generation := hd.generation + 1 }
  let live := l.zones.filter fun e => e.1 / 64 == h
  let s := emit (.lensTrack n (.zoneHeader h) (headerBytes h (s.val Fam.lensFeSerial n) hd)) s
  let s := emit (.lensTrack n (.zoneEntries h) (entryBlock (live.map (·.2.2)))) s
  s.setLens n { l with
    headers := tset l.headers h hd ZoneHeader.none
    zones := l.zones.map fun e => if e.1 / 64 = h then (e.1, (e.2.2, e.2.2)) else e }

/-- The live tables that differ become the stored ones. -/
def zoneFlush (n : Nat) (s : Dev) : Dev :=
  let l := s.lens n
  let changed := ((l.zones.filter fun e => e.2.1 != e.2.2).map (·.1 / 64)).eraseDups
  if l.up && !changed.isEmpty then
    let s := changed.foldl (flushSurface n) s
    s.setLens n { s.lens n with flushedAt := some s.tm.now }
  else s

/-- `lens.table_flush_min` has passed since this time. -/
def flushElapsed (s : Dev) (last : Option Nat) : Bool :=
  match last with
  | some t => decide (t + s.val Fam.lensTableFlushMin * 60000000000 ≤ s.tm.now)
  | none => true

/-- R337: at most one write in `lens.table_flush_min` minutes. -/
def execZoneTableFlush (n : Nat) (s : State) : Host.Outcome State Fault Refusal :=
  onDev s (fun s => if s.working && decide (n < 24) && flushElapsed s (s.lens n).flushedAt then zoneFlush n s else s)

/-! ### Reallocation (R359 to R362) -/

/-- Spares of a zone on one head, lowest cylinder first, then lowest sector. -/
def freeSpare (l : Lens) (z : ZoneEntry) (head : Nat) : Option (Nat × Nat × Nat) :=
  let used := l.realloc.map (fun e => (e.2.1, e.2.2.1, e.2.2.2.1)) ++ l.retired
  let spare (i : Nat) : Nat × Nat × Nat := (z.first + zoneData z + i / z.sectors, head, i % z.sectors)
  ((List.range (min (zoneSpares z * z.sectors) (used.length + 1))).find? fun i => !used.contains (spare i)).map spare

/-- R359 step 1: the same head first, then any head. -/
def chooseSpare (l : Lens) (z : ZoneEntry) (head : Nat) : Option (Nat × Nat × Nat) :=
  (head :: List.range l.surfaces).findSome? (freeSpare l z)

/-- The array of the member holds its commands for a cadence change. -/
def cadenceHeld (s : Dev) (m : Nat) : Bool :=
  match slotHeld s m with
  | some (a, _) => ((s.arr? a).map (·.cadenceTo.isSome)).getD false
  | none => false

/-- R361: an entry of the module with this serial joins the journal, due in the next copy. -/
def journalEntry (serial : Nat) (l : Lens) (e : ReallocEntry) : Lens :=
  { l with journal := l.journal ++ [(serial, max l.copyA l.copyB + 1, e)] }

/-- Retire a spare: it holds nothing from now on. -/
def retireSpare (serial : Nat) (l : Lens) (p : Nat × Nat × Nat) : Lens :=
  journalEntry serial { l with retired := l.retired ++ [p] } ⟨retiredPba, p.1, p.2.1, p.2.2, false⟩

/-- Member blocks of a command. -/
def cmdBlocks (c : MCmd) : List Nat := (List.range (cdiv c.length 4096)).map (c.offset / 4096 + ·)

/-- Data regions that a block's sector has bits in. -/
def blockRegions (l : Lens) (pba : Nat) : List Nat :=
  match placeNow l pba with
  | some p => match liveZone l 0 p.zone with
    | some z => sectorRegions z.rate z.sectors p.sector
    | none => []
  | none => []

/-- The member command in service. -/
def inService (s : Dev) (n : Nat) : Option MCmd :=
  (s.lens n).cur.bind fun t => s.mb.cmds.find? fun c => c.tag == t && c.member == lensMember n

/-- Steps 4 and 5: the entry is journalled and applied; the block's earlier spare is retired. -/
def applyRealloc (n pba : Nat) (p : Nat × Nat × Nat) (lost : Bool) (s : Dev) : Dev :=
  let serial := s.val Fam.lensFeSerial n
  let l := s.lens n
  let l := match tfind l.realloc pba with
    | some r => retireSpare serial l (r.1, r.2.1, r.2.2.1)
    | none => l
  let l := journalEntry serial l ⟨pba, p.1, p.2.1, p.2.2, lost⟩
  let l := { l with realloc := tput l.realloc pba (p.1, p.2.1, p.2.2, lost), reported := l.reported.filter (·.1 != pba) }
  -- a facet write in service goes to the spare from here (Table 12.6)
  let again := (inService s n).any fun c => c.write && (cmdBlocks c).contains pba
  let s := s.setLens n { l with left := if again then l.left.filter (·.1 != pba) ++ [(pba, blockRegions l pba)] else l.left }
  streamSend (.realloc n pba p lost) s

/-- No spare is left: the sector stays in use (R362). -/
def noSpare (n pba zone : Nat) (s : Dev) : Dev :=
  let l := s.lens n
  let s := s.setLens n { l with reported := l.reported.filter (·.1 != pba) }
  raise (0x201 + 2 * n) zone false (s.setVal Fam.lensReallocExhausted n 1)

/-- REALLOCATE: `content` is what the array layer has for the block; `clean` says how the spare read back. While a cadence change holds
the member's commands, it waits (Table 12.6). -/
def reallocate (n pba : Nat) (content : Option Block) (clean : Bool) (s : Dev) : Dev :=
  let l := s.lens n
  match l.reported.find? (·.1 == pba), placeNow l pba with
  | some (_, decoded), some p =>
    if 1024 ≤ l.journal.length ∨ l.up = false ∨ cadenceHeld s (lensMember n) = true then s
    else
      match liveZone l 0 p.zone with
      | none => s
      | some z =>
        match (if l.realloc.length + l.retired.length < 262144 then chooseSpare l z p.head else none) with
        | none => noSpare n pba p.zone s
        | some sp =>
          match decoded <|> content with
          | none => applyRealloc n pba sp true s
          | some d =>
            let s := emit (.lensTrack n (.spare pba sp.1 sp.2.1 sp.2.2) d) s
            if d.length = 4096 ∧ clean = true then applyRealloc n pba sp false s
            else s.setLens n (retireSpare (s.val Fam.lensFeSerial n) (s.lens n) sp)
  | _, _ => s

def execReallocate (n pba : Nat) (content : Option Block) (clean : Bool) (s : State) : Host.Outcome State Fault Refusal :=
  onDev s (fun s => if s.executing && decide (n < 24) then reallocate n pba content clean s else s)

/-- The whole reallocation table, as entries (Table 12.5). -/
def reallocTable (l : Lens) : List ReallocEntry :=
  l.realloc.map (fun e => ⟨e.1, e.2.1, e.2.2.1, e.2.2.2.1, e.2.2.2.2⟩) ++ l.retired.map fun p => ⟨retiredPba, p.1, p.2.1, p.2.2, false⟩

/-- REALLOC_TABLE_WRITE (R361): the older copy takes the whole table; the module's entries leave the journal. -/
def reallocTableWrite (n : Nat) (s : Dev) : Dev :=
  let l := s.lens n
  let serial := s.val Fam.lensFeSerial n
  if l.up && l.journal.any (·.1 == serial) then
    let gen := max l.copyA l.copyB + 1
    let second := decide (l.copyB < l.copyA)
    let bytes := (reallocTable l).flatMap ReallocEntry.bytes
    let s := emit (.lensTrack n (.reallocCopy second (if l.surfaces ≤ 1 then 0 else b2n second) gen (copyCrc gen bytes)) bytes) s
    let l := { l with journal := l.journal.filter (·.1 != serial) }
    let l := { l with tableAt := some s.tm.now }
    s.setLens n (if second then { l with copyB := gen } else { l with copyA := gen })
  else s

/-- R361: 512 entries are pending, or the interval has passed. -/
def tableDue (s : Dev) (n : Nat) : Bool :=
  decide (512 ≤ ((s.lens n).journal.filter (·.1 == s.val Fam.lensFeSerial n)).length) || flushElapsed s (s.lens n).tableAt

def execReallocTableWrite (n : Nat) (s : State) : Host.Outcome State Fault Refusal :=
  onDev s (fun s => if s.working && decide (n < 24) && tableDue s n then reallocTableWrite n s else s)

/-! ### Writes as the front-end reports them (R324, R354) -/

/-- Every block of the command with bits in the affected regions is to be written whole again. -/
def rewriteLeft (l : Lens) (c : MCmd) : List (Nat × List Nat) :=
  (cmdBlocks c).filterMap fun b =>
    let rs := blockRegions l b
    if rs.any (l.rewrite.contains ·) then some (b, rs) else l.left.find? (·.1 == b)

/-- Nothing is in service. -/
def Lens.idle (l : Lens) : Lens :=
  { l with cur := none, left := [], region := none, writeFaults := 0, rewrite := [], shutterRevs := 0 }

/-- The write in service ends with its status. -/
def endWriteCmd (n : Nat) (st : NvmeStatus) (s : Dev) : Dev :=
  match inService s n with
  | some c => commandComplete c.tag st [] (s.setLens n (s.lens n).idle)
  | none => s.setLens n (s.lens n).idle

/-- R353, R354: a shutter event while wedge `w` was written over: the regions before and after it are written again. -/
def shutterEvent (n w : Nat) (withdraw : Bool) (s : Dev) : Dev :=
  let l := s.lens n
  if l.region.isSome then
    let s := s.bump Fam.lensShutterEvents n
    let s := if withdraw then lensShutter n s else s.setLens n { l with gate := false, region := none }
    let l := s.lens n
    let again := [(w + 383) % 384, w % 384].filter (!l.rewrite.contains ·)
    s.setLens n { l with rewrite := l.rewrite ++ again }
  else s

/-- R324: a write fault. Cause 2 is the shock of R353. Any other leaves the sectors of the command in service to be written again; a third
consecutive fault, or any of cause 3, ends the facet. -/
def writeFault (n cause : Nat) (s : Dev) : Dev :=
  let s := s.bump Fam.lensWriteFaults n
  let s := if cause = 2 then shutterEvent n (s.lens n).lastWedge false s else s
  let l := s.lens n
  let left := match inService s n with
    | some c => if cause = 2 ∨ c.write = false then l.left else (cmdBlocks c).map fun b => (b, blockRegions l b)
    | none => l.left
  let s := s.setLens n { l with gate := false, region := none, left := left, writeFaults := l.writeFaults + 1
                                shockHold := l.shockHold || cause == 2 }
  if cause = 3 ∨ 3 ≤ l.writeFaults + 1 then endWriteCmd n .other s else s

/-- The region of the outstanding START_WRITE has been written on the present track. -/
def regionWritten (n reg : Nat) (s : Dev) : Dev :=
  let l := s.lens n
  let here (pba : Nat) : Bool := match placeNow l pba with
    | some p => p.cylinder == s.val Fam.lensCylinder n && p.head == l.head
    | none => false
  let left := (l.left.map fun e => if here e.1 then (e.1, e.2.filter (· != reg)) else e)
  let done := left.filter (·.2.isEmpty)
  -- R359: a write of the block clears its content-lost flag; the entry is journalled anew (log entry 32)
  let found := l.realloc.filter fun e => e.2.2.2.2 && done.any (·.1 == e.1)
  let l := found.foldl (fun l e =>
    let l := if l.journal.length < 1024 then
        journalEntry (s.val Fam.lensFeSerial n) l ⟨e.1, e.2.1, e.2.2.1, e.2.2.2.1, false⟩ else l
    { l with realloc := tput l.realloc e.1 (e.2.1, e.2.2.1, e.2.2.2.1, false) }) l
  let left := left.filter (!·.2.isEmpty)
  let s := s.setLens n { l with left := left, region := none, gate := false, writeFaults := 0 }
  if left.isEmpty && l.rewrite.isEmpty then endWriteCmd n .success s else s

/-! ### LENS_UPSTREAM_FRAME (R316, R317, R321) -/

/-- An ACK. -/
def lensAck (n tag result : Nat) (s : Dev) : Dev :=
  let l := s.lens n
  match l.waiting.find? (·.1 == tag) with
  | none => s
  | some (_, op) =>
    let l := { l with waiting := l.waiting.erase (tag, op) }
    let s := s.setLens n l
    if op = 0x07 then
      match l.region with
      | some (t, reg) =>
        if t ≠ tag then s
        else if result = 0 then regionWritten n reg s
        else s.setLens n { l with region := none, gate := false }
      | none => s
    else if op = 0x0A ∧ result = 0 then s.setLens n { l with parked := false }
    else s

/-- R317, R324: a COUNTER block says where the next sample stands; those between it and the last that arrived, or since a gap, are
lost. -/
def sampleCounter (c : Nat) (l : Lens) : Lens :=
  let lost := match l.gapAt <|> l.nextSample with
    | some p => if p = c then [] else [(p, (c + 2 ^ 44 - p) % 2 ^ 44)]
    | none => []
  { l with sampleCount := c, nextSample := some c, gapAt := none, lostSpans := l.lostSpans ++ lost }

/-- One data block. -/
def upBlock (n : Nat) (s : Dev) (b : UpBlock) : Dev :=
  let l := s.lens n
  match b with
  | .samples shock _ _ =>
    let nextBlock := l.nextSample.map fun c => (c + 10) % 2 ^ 44
    if shock && l.region.isSome then
      let s := shutterEvent n l.lastWedge false s
      s.setLens n { s.lens n with shockHold := true, nextSample := nextBlock }
    else s.setLens n { l with nextSample := nextBlock }
  | .counter c => s.setLens n (sampleCounter (c % 2 ^ 44) l)
  | .health t atSpeed _ _ _ _ _ =>
    let s := s.setVal Fam.lensFeTempC n (t % 65536).toNat
    -- R358: LOAD goes out once the spindle has its speed
    if atSpeed && l.spinning then
      let s := s.setLens n { l with atSpeed := true, spinning := false }
      if l.parked && s.working then lensCmd n 0x0A 0 s else s
    else s.setLens n { l with atSpeed := atSpeed }
  | .ack tag result => lensAck n tag result s
  | .writeFault cause => writeFault n cause s
  | .readData .. => s
  | .idle => s

/-- R321: `a` is newer than `b`. -/
def epochNewer (a b : Nat) : Bool :=
  let d := (a + 65536 - b % 65536) % 65536
  decide (1 ≤ d) && decide (d ≤ 32767)

/-- R316: a frame was lost on the way: from here samples are missing until a COUNTER block. -/
def Lens.gapped (l : Lens) (seq : Nat) : Lens :=
  match l.lastSeq with
  | some q => if seq = (q + 1) % 256 then l else { l with gapAt := l.gapAt <|> l.nextSample }
  | none => l

def upstreamFrame (n seq epoch flags : Nat) (blocks : List UpBlock) (s : Dev) : Dev :=
  let l := (s.lens n).gapped seq
  let s := s.setLens n { l with lastSeq := some seq, accepted := min 16 (l.accepted + 1), blockLock := true, owner := bit flags 0
                                parked := bit flags 3, gate := bit flags 2 }
  let s := blocks.foldl (upBlock n) s
  -- the front-end obeys a newer epoch: a LEAD finds itself fenced (Table 1.7)
  if epochNewer epoch (s.val Fam.lensOwnerEpoch) && !bit flags 0 && s.inMode .lead then enterFenced none s else s

/-- R316, R324: a frame whose crc fails is discarded and counted. -/
def discardFrame (n : Nat) (s : Dev) : Dev :=
  (s.setLens n { s.lens n with accepted := 0, blockLock := true }).bump Fam.lensCrcFrames n

def execLensUpstreamFrame (n seq epoch flags : Nat) (crc : BitVec 24) (blocks : List UpBlock) (s : State) :
    Host.Outcome State Fault Refusal :=
  onDev s (fun s => if s.coreUp && decide (n < 24) then
      (if crc == upCrc seq epoch flags blocks then upstreamFrame n seq epoch flags blocks s else discardFrame n s)
    else s)

/-! ### LENS_LINK_UP and LENS_LINK_LOSS (R323, R324, R334, R358) -/

/-- The member as its label and tables show it. -/
def platterMember (n : Nat) (label : Option Label) (serial : Quad) (s : Dev) : Member :=
  let l := s.lens n
  let x := s.mem (lensMember n)
  let bytes := memberBlocks l.surfaces (zoneList l) * 4096
  { x with
    label := label, capacityMib := bytes / mib, ident := serial.zeroExtend 128, queues := true
    areaBytes := bytes - (0x02000000 + ((label.map (·.mapShare)).getD 0) * (64 * mib)) }

/-- The zone tables of a module, surface by surface: each is read, and read again if it fails (R334). `none`: a surface fails twice. -/
def surfaceTables (surfaces : Nat) (tables : List (List (List Byte × List Byte))) : List (Option (ZoneHeader × List ZoneEntry)) :=
  (List.range surfaces).map fun h => ((tables.getD h []).take 2).findSome? (tableParse h)

/-- The headers and entries loaded from the tables; the live copy of each entry is its stored one. -/
def loadTables (tables : List (Option (ZoneHeader × List ZoneEntry))) (l : Lens) : Lens :=
  ((List.range tables.length).zip tables).foldl (fun l e => match e.2 with
    | none => l
    | some (h, zs) => { l with
        headers := tset l.headers e.1 h ZoneHeader.none
        zones := ((List.range zs.length).zip zs).foldl (fun t z => tput t (e.1 * 64 + z.1) (z.2, z.2)) l.zones })
    { l with headers := [], zones := [] }

/-- An entry of a copy or of the journal takes its place in the table. -/
def applyEntry (l : Lens) (e : ReallocEntry) : Lens :=
  if e.pba = retiredPba then { l with retired := l.retired ++ [(e.cylinder, e.head, e.sector)] }
  else { l with realloc := tput l.realloc e.pba (e.cylinder, e.head, e.sector, e.lost) }

/-- R361: the newest valid copy, then the journal's entries of this serial that are newer. -/
def loadRealloc (serial : Nat) (copies : List TableCopy) (l : Lens) : Lens :=
  let gen (i : Nat) : Nat := ((copies[i]?.filter TableCopy.valid).map (·.generation)).getD 0
  let newest := if gen 0 < gen 1 then copies[1]? else copies[0]?
  let l := { l with realloc := [], retired := [], copyA := gen 0, copyB := gen 1 }
  let l := (((newest.filter TableCopy.valid).map TableCopy.entries).getD []).foldl applyEntry l
  ((l.journal.filter fun j => j.1 == serial && decide (max (gen 0) (gen 1) < j.2.1)).map (·.2.2)).foldl applyEntry l

/-- The member's label is read and it enters a state under Table 9.2; one with a surface that cannot be served becomes FAILED (R334). -/
def platterJoin (n : Nat) (label : Option Label) (served : Bool) (s : Dev) : Dev :=
  if served then settle (joinMember (lensMember n) label s) else settle (memberMove (lensMember n) .failed 1 s)

/-- The zone tables and the reallocation table are loaded, and the member joins. `tables` gives for each surface the header and entry
block of each read, `copies` the copies A and B. -/
def linkUp (n : Nat) (serial : Quad) (surfaces : Nat) (tables : List (List (List Byte × List Byte))) (copies : List TableCopy)
    (label : Option Label) (s : Dev) : Dev :=
  let m := lensMember n
  let parsed := surfaceTables surfaces tables
  let l := if s.val Fam.lensFeSerial n = serial.toNat then s.lens n else { s.lens n with reported := [] }
  let l := loadRealloc serial.toNat copies (loadTables parsed l)
  let s := s.setLens n { l with up := true, versionRefused := false, surfaces := surfaces }
  let s := (s.setVal Fam.lensFeSerial n serial.toNat).setMem m (platterMember n label serial s)
  let s := sendSpindle n (cadenceOf s m) s
  let served := parsed.all Option.isSome
  if s.working then platterJoin n label served s else s.setLens n { s.lens n with joinDue := some (label, served) }

/-- Members whose links came up in ECLIPSE join. -/
def joinPlatters (s : Dev) : Dev :=
  s.lensUp.foldl (fun s n => match (s.lens n).joinDue with
    | some (label, served) => platterJoin n label served (s.setLens n { s.lens n with joinDue := none })
    | none => s) s

/-- R319: the module serial in registers 0x001 and 0x002, low word first. -/
def moduleSerial (low high : Word) : Quad := BitVec.ofNat 64 (low.toNat + 2 ^ 32 * high.toNat)

/-- R323: with block lock and 16 frames accepted one after the other, registers 0x000 to 0x005 are read; then the version is judged. The
device transmits in every mode but DARK. -/
def execLensLinkUp (n version : Nat) (low high : Word) (surfaces : Nat) (tables : List (List (List Byte × List Byte)))
    (copies : List TableCopy) (label : Option Label) (s : State) : Host.Outcome State Fault Refusal :=
  onDev s (fun s =>
    let l := s.lens n
    if s.coreUp && decide (n < 24) && !l.up && l.blockLock && decide (16 ≤ l.accepted) then
      let s := (List.range 6).foldl (fun s r => lensCmd n 0x01 (BitVec.ofNat 44 r) s) s
      if version = 1 then linkUp n (moduleSerial low high) surfaces tables copies label s
      else s.setLens n { s.lens n with versionRefused := true }
    else s)

/-- What a channel keeps when its link is lost: the tables in DDR, the journal in MRAM and what is reported. -/
def Lens.lost (l : Lens) : Lens :=
  { Lens.down with
    surfaces := l.surfaces, headers := l.headers, zones := l.zones, realloc := l.realloc, retired := l.retired
    journal := l.journal, copyA := l.copyA, copyB := l.copyB, reported := l.reported, nextTag := l.nextTag, txSeq := l.txSeq
    parked := l.parked, flushedAt := l.flushedAt, tableAt := l.tableAt }

/-- What is left of it when the core goes down: the journal in MRAM, and the numbers of tags and frames. -/
def Lens.coreDown (l : Lens) : Lens :=
  { Lens.down with journal := l.journal, nextTag := l.nextTag, txSeq := l.txSeq, parked := l.parked }

/-- Block lock, or the owner link, is lost. A link that was up takes its member along (R314, R324). -/
def linkLoss (n : Nat) (s : Dev) : Dev :=
  let l := s.lens n
  let t := s.setLens n l.lost
  let t := { t with ls := { t.ls with irHeld := t.ls.irHeld.filter fun e => e.1.1 != n } }
  if l.up then memberGone (lensMember n) 2 (t.bump Fam.lensLinkLosses n) else t

def execLensLinkLoss (n : Nat) (s : State) : Host.Outcome State Fault Refusal :=
  onDev s (fun s => if s.coreUp && decide (n < 24) then linkLoss n s else s)

end Sys2Proof.Machine
end

