-- ==== Sys2Proof/Machine/FrontEnd.lean ====
section
/-!
DEFINITION. The front-end module of a Lens channel (R315 to R322): frames, ownership, the commands of Table 11.5, the write gate,
the loss of the owner link, and its samples. A front-end works whatever mode the device is in.
-/

namespace Sys2Proof.Machine

/-! ### Upstream frames (R315, R317, R321) -/

/-- The flags of an upstream frame on a link (Table 11.1). A link has block lock once a frame has come on it (log entry 79). -/
def FrontEnd.flags (x : FrontEnd) (link : Nat) : Nat :=
  b2n (x.ownerLink == some link) + 2 * b2n (if link = 0 then x.seqB.isSome else x.seqA.isSome) + 4 * b2n x.gate + 8 * b2n (!x.loaded)
    + 16 * b2n x.lossHold + 32 * b2n x.shockSeen

/-- One frame on one link. -/
def feFrameOn (n epoch : Nat) (blocks : List UpBlock) (s : Dev) (link : Nat) : Dev :=
  let x := s.fe n
  let seq := if link = 0 then x.upSeq.1 else x.upSeq.2
  let next := (seq + 1) % 256
  emit (.feUp n link (upFrame seq epoch (x.flags link) blocks))
    (s.setFe n { x with upSeq := if link = 0 then (next, x.upSeq.2) else (x.upSeq.1, next) })

/-- The same blocks on both links (log entry 79). Without an E_max the epoch of a frame is free. -/
def feFrame (n : Nat) (blocks : List UpBlock) (s : Dev) : Dev :=
  let epoch := (s.fe n).eMax.getD (Config.freeNat s.fresh % 65536)
  let s := if (s.fe n).eMax.isNone then s.draw else s
  let s := [0, 1].foldl (feFrameOn n epoch blocks) s
  s.setFe n { s.fe n with shockSeen := false }

def feUp (n : Nat) (b : UpBlock) (s : Dev) : Dev := feFrame n [b] s

def feAck (n tag result : Nat) (s : Dev) : Dev := feUp n (.ack (tag % 256) result) s

/-- R317: the HEALTH block. Temperature, supplies, the measured period and whether a spindle that is driven has its speed are what the
module measures (free). -/
def feHealth (n : Nat) (s : Dev) : Dev :=
  let x := s.fe n
  let free (i : Nat) : Nat := Config.freeNat (s.fresh + i)
  feUp n (.health ((free 0 % 256 : Nat) - 128) (x.rpm != 0 && bit (free 1) 0) x.loaded x.gate x.faulted (bit (free 2) 0) (free 3 % 65536))
    s.draw.draw.draw.draw

/-- What HEALTH and the flags show of a front-end. -/
def FrontEnd.shown (x : FrontEnd) : List Bool × Option Nat × Option Nat :=
  ([x.loaded, x.gate, x.faulted, x.rpm == 0, x.lossHold, x.shockSeen], x.eMax, x.ownerLink)

/-- HEALTH goes up at any change (Table 11.3). -/
def feShow (n : Nat) (before : Dev) (s : Dev) : Dev := if (s.fe n).shown = (before.fe n).shown then s else feHealth n s

/-! ### The write gate (R320) -/

/-- The bit of the write that is due, counted from its first; none before the sample count reaches its start. -/
def FrontEnd.due (x : FrontEnd) : Option Nat :=
  let d := (x.samples + 2 ^ 44 - x.startCount) % 2 ^ 44
  if d < 2 ^ 43 then some d else none

/-- Write current is driven in the bits received: all of them where a block of count 0 ended the write, else those that were due. -/
def feDrive (whole : Bool) (n : Nat) (s : Dev) : Dev :=
  let x := s.fe n
  let bits := if whole then x.data else x.data.take (x.due.getD 0)
  if bits.isEmpty then s else emit (.feWrite n x.head x.startCount bits) s

/-- The write ends with this result for its START_WRITE; data not yet emitted is discarded. -/
def feGateOff (n result : Nat) (s : Dev) : Dev :=
  let x := s.fe n
  let s := s.setFe n { x with gate := false, writeTag := none, data := [] }
  match x.writeTag with
  | some t => feAck n t result s
  | none => s

/-- A write fault is reported, and the write ends. The spec gives no result for the ACK of a START_WRITE that ends in one (free), nor
the order of the two blocks, nor when a latched fault is cleared (log entry 79). -/
def feWriteFault (n cause : Nat) (s : Dev) : Dev :=
  if (s.fe n).gate then
    let s := feDrive false n s
    let s := s.setFe n { s.fe n with faulted := true }
    feGateOff n (Config.freeNat s.fresh % 256) (feUp n (.writeFault cause) s.draw)
  else s

/-- A write that PARK ends: a write fault, whose cause Table 11.3 does not list (free). -/
def feParkFault (n : Nat) (s : Dev) : Dev :=
  if (s.fe n).gate then feWriteFault n (Config.freeNat s.fresh % 256) s.draw else s

/-- Samples that one millisecond holds at the clock set. -/
def feAhead (x : FrontEnd) (count : Nat) : Nat := (count + 2 ^ 44 - x.samples % 2 ^ 44) % 2 ^ 44

/-- Table 11.3: the result of a START_WRITE before its write begins; while the heads move it is as for heads not loaded. -/
def startWriteResult (x : FrontEnd) (count : Nat) : Nat :=
  if x.gate || !x.loaded || x.moving.isSome || x.clockKhz == 0 then 4
  else if x.clockKhz < feAhead x count then 3 else 0

def feWriteCause : WriteEnd → Option Nat
  | .count0 | .endWrite => none
  | .underrun | .gap => some 1
  | .shock => some 2
  | .driverFault => some 3
  | .ownerChange => some 4
  | .linkLoss => some 5

def writeEnds (n : Nat) (c : WriteEnd) (s : Dev) : Dev :=
  let s := if c = .shock then s.setFe n { s.fe n with shockSeen := true } else s
  if (s.fe n).gate then
    match feWriteCause c with
    | none => feGateOff n 0 (feDrive (c == .count0) n s)
    | some k => feWriteFault n k s
  else s

/-! ### Commands (R319, Table 11.5) -/

/-- A LOAD or PARK in progress is carried out before the next one begins (arrival order). -/
def feMoveDone (n : Nat) (s : Dev) : Dev :=
  let x := s.fe n
  match x.moving with
  | some (load, tag) => feAck n tag 0 (s.setFe n { x with moving := none, loaded := load })
  | none => s

/-- The synthesiser has settled. -/
def feClockDone (n : Nat) (s : Dev) : Dev :=
  let x := s.fe n
  match x.clockTag with
  | some tag => feAck n tag 0 (s.setFe n { x with clockTag := none, settling := false })
  | none => s

def feNop (n tag : Nat) (s : Dev) : Dev := feAck n tag 0 s

/-- What a register reads. -/
def feRegister (n : Nat) (x : FrontEnd) (reg : Nat) : Word :=
  let maker := Config.makerRegister n reg
  if reg = 0 then maker &&& 0xFFFF0000 ||| 1
  else if reg = 3 then BitVec.ofNat 32 (maker.toNat % 32 + 1)
  else if reg ≤ 5 then maker
  else if reg < 0x800 then 0
  else match tfind x.regs reg with
    | some v => BitVec.ofNat 32 v
    | none => maker

def feReadReg (n tag reg : Nat) (s : Dev) : Dev :=
  feAck n tag 0 (feUp n (.readData (tag % 256) (feRegister n (s.fe n) (reg % 4096))) s)

/-- Registers below 0x800 are read-only; the spec gives no result for a write to one (free). -/
def feWriteReg (n tag reg : Nat) (v : Word) (s : Dev) : Dev :=
  let r := reg % 4096
  if r < 0x800 then feAck n tag (Config.freeNat s.fresh % 256) s.draw
  else
    let x := s.fe n
    feAck n tag 0 (s.setFe n { x with regs := tput x.regs r v.toNat })

/-- Table 11.12: refused while a write is active. -/
def feSetClock (n tag khz : Nat) (s : Dev) : Dev :=
  if (s.fe n).gate then feAck n tag 4 s
  else if khz < 600000 ∨ 3600000 < khz then feAck n tag 2 s
  else
    let s := feClockDone n s
    s.setFe n { s.fe n with clockKhz := khz, settling := true, clockTag := some tag }

def feSetRead (n tag : Nat) (gain boost offset : Byte) (s : Dev) : Dev :=
  feAck n tag 0 (s.setFe n { s.fe n with gain := gain.toNat, boost := boost.toNat, offset := offset.toNat })

def feSetPrecomp (n tag : Nat) (s1 s2 s3 : Byte) (s : Dev) : Dev :=
  if 31 < s1.toNat ∨ 31 < s2.toNat ∨ 31 < s3.toNat then feAck n tag 2 s
  else feAck n tag 0 (s.setFe n { s.fe n with precomp := (s1.toNat, s2.toNat, s3.toNat) })

def feSelectHead (n tag head : Nat) (s : Dev) : Dev :=
  let x := s.fe n
  if x.gate then feAck n tag 4 s
  else if (feRegister n x 3).toNat ≤ head then feAck n tag 2 s
  else feAck n tag 0 (s.setFe n { x with head := head, switched := true })

/-- The ACK of an accepted START_WRITE is sent when the write ends. -/
def feStartWrite (n tag count : Nat) (s : Dev) : Dev :=
  let x := s.fe n
  let r := startWriteResult x count
  if r ≠ 0 then feAck n tag r s
  else s.setFe n { x with gate := true, writeTag := some tag, startCount := count % 2 ^ 44, data := [], faulted := false }

def feEndWrite (n tag : Nat) (s : Dev) : Dev := feAck n tag 0 (writeEnds n .endWrite s)

def feSpindle (n tag rpm accel : Nat) (s : Dev) : Dev :=
  feAck n tag 0 (s.setFe n { s.fe n with rpm := rpm % 65536, accel := accel % 256 })

def feLoad (n tag : Nat) (s : Dev) : Dev :=
  let s := feMoveDone n s
  s.setFe n { s.fe n with moving := some (true, tag) }

def fePark (n tag : Nat) (s : Dev) : Dev :=
  let s := feMoveDone n (feParkFault n s)
  s.setFe n { s.fe n with moving := some (false, tag) }

def feSetShock (n tag : Nat) (t : Byte) (s : Dev) : Dev := feAck n tag 0 (s.setFe n { s.fe n with shock := t.toNat })

/-- A command block of a frame. -/
def feCommand (n op tag : Nat) (v : BitVec 44) (s : Dev) : Dev :=
  let byte (i : Nat) : Byte := v.extractLsb' (8 * i) 8
  let low (k : Nat) : Nat := v.toNat % 2 ^ k
  match op with
  | 0x00 => feNop n tag s
  | 0x01 => feReadReg n tag (low 12) s
  | 0x02 => feWriteReg n tag (v.toNat / 2 ^ 32) (v.setWidth 32) s
  | 0x03 => feSetClock n tag (low 22) s
  | 0x04 => feSetRead n tag (byte 0) (byte 1) (byte 2) s
  | 0x05 => feSetPrecomp n tag (byte 0) (byte 1) (byte 2) s
  | 0x06 => feSelectHead n tag (low 8) s
  | 0x07 => feStartWrite n tag v.toNat s
  | 0x08 => feEndWrite n tag s
  | 0x09 => feSpindle n tag (low 16) (v.toNat / 2 ^ 16) s
  | 0x0A => feLoad n tag s
  | 0x0B => fePark n tag s
  | 0x0C => feSetShock n tag (byte 0) s
  | _ => feAck n tag 1 s

/-- Commands reach the front-ends of the 24 channels; what they change is shown. -/
def onChan (n : Nat) (k : Dev → Dev) (s : Dev) : Dev := if n < 24 then feShow n s (k s) else s

def execNop (n tag : Nat) (s : State) : Host.Outcome State Fault Refusal := onDev s (fun s => onChan n (feNop n tag) s)
def execReadReg (n tag reg : Nat) (s : State) : Host.Outcome State Fault Refusal := onDev s (fun s => onChan n (feReadReg n tag reg) s)
def execWriteReg (n tag reg : Nat) (v : Word) (s : State) : Host.Outcome State Fault Refusal :=
  onDev s (fun s => onChan n (feWriteReg n tag reg v) s)
def execSetClock (n tag khz : Nat) (s : State) : Host.Outcome State Fault Refusal := onDev s (fun s => onChan n (feSetClock n tag khz) s)
def execSetRead (n tag : Nat) (gain boost offset : Byte) (s : State) : Host.Outcome State Fault Refusal :=
  onDev s (fun s => onChan n (feSetRead n tag gain boost offset) s)
def execSetPrecomp (n tag : Nat) (s1 s2 s3 : Byte) (s : State) : Host.Outcome State Fault Refusal :=
  onDev s (fun s => onChan n (feSetPrecomp n tag s1 s2 s3) s)
def execSelectHead (n tag head : Nat) (s : State) : Host.Outcome State Fault Refusal := onDev s (fun s => onChan n (feSelectHead n tag head) s)
def execStartWrite (n tag count : Nat) (s : State) : Host.Outcome State Fault Refusal :=
  onDev s (fun s => onChan n (feStartWrite n tag count) s)
def execEndWrite (n tag : Nat) (s : State) : Host.Outcome State Fault Refusal := onDev s (fun s => onChan n (feEndWrite n tag) s)
def execSpindle (n tag rpm accel : Nat) (s : State) : Host.Outcome State Fault Refusal :=
  onDev s (fun s => onChan n (feSpindle n tag rpm accel) s)
def execLoad (n tag : Nat) (s : State) : Host.Outcome State Fault Refusal := onDev s (fun s => onChan n (feLoad n tag) s)
def execPark (n tag : Nat) (s : State) : Host.Outcome State Fault Refusal := onDev s (fun s => onChan n (fePark n tag) s)
def execSetShock (n tag : Nat) (t : Byte) (s : State) : Host.Outcome State Fault Refusal := onDev s (fun s => onChan n (feSetShock n tag t) s)

def execFeWriteEnd (n : Nat) (c : WriteEnd) (s : State) : Host.Outcome State Fault Refusal := onDev s (fun s => onChan n (writeEnds n c) s)

/-- FE_COMMAND_DONE: the longest-waiting work of the module ends: the synthesiser first, then LOAD or PARK. -/
def feCommandDone (n : Nat) (s : Dev) : Dev := if (s.fe n).settling then feClockDone n s else feMoveDone n s

def execFeCommandDone (n : Nat) (s : State) : Host.Outcome State Fault Refusal := onDev s (fun s => onChan n (feCommandDone n) s)

/-! ### Downstream frames and ownership (R316, R321, R322) -/

/-- A downstream block from the owner link. -/
def downBlock (n : Nat) (s : Dev) (b : DownBlock) : Dev :=
  match b with
  | .writeData 0 _ => writeEnds n .count0 s
  | .writeData count d =>
    let x := s.fe n
    if x.gate then s.setFe n { x with data := x.data ++ (List.range (min count 56)).map (bit d.toNat) } else s
  | .vcm _ i => s.setFe n { s.fe n with vcm := i }
  | .cmd op tag v => feCommand n op tag v s
  | .idle => s

/-- R321: what a valid frame with this epoch does to E_max and to ownership. -/
def feOwnership (n link epoch : Nat) (s : Dev) : Dev :=
  let x := s.fe n
  match x.eMax with
  | none => s.setFe n { x with eMax := some epoch, ownerLink := some link, lossHold := false }
  | some e =>
    if epochNewer epoch e then
      if x.ownerLink = some link then s.setFe n { x with eMax := some epoch, lossHold := false }
      else
        let s := writeEnds n .ownerChange s
        s.setFe n { s.fe n with eMax := some epoch, ownerLink := some link, lossHold := false }
    else if x.ownerLink = some link ∧ epoch = e then s.setFe n { x with lossHold := false }
    else s

/-- The frame is the next one on its link, or the first. -/
def feInOrder (x : FrontEnd) (link seq : Nat) : Bool :=
  match (if link = 0 then x.seqA else x.seqB) with
  | none => true
  | some q => seq == (q + 1) % 256

/-- A CRC-valid downstream frame. -/
def downFrame (n link seq epoch : Nat) (blocks : List DownBlock) (s : Dev) : Dev :=
  let x := s.fe n
  let gap := !feInOrder x link seq && x.ownerLink == some link
  let x := if link = 0 then { x with seqA := some seq } else { x with seqB := some seq }
  let s := s.setFe n x
  let s := if gap then writeEnds n .gap s else s
  let s := feOwnership n link epoch s
  let y := s.fe n
  if y.ownerLink = some link ∧ y.eMax = some epoch then blocks.foldl (downBlock n) s else s

/-- R316: a frame whose crc fails is discarded. -/
def execFeDownstreamFrame (n link seq epoch : Nat) (crc : BitVec 24) (blocks : List DownBlock) (s : State) :
    Host.Outcome State Fault Refusal :=
  onDev s (fun s => onChan n (fun s =>
    if crc == downCrc seq epoch blocks && decide (link < 2) then downFrame n link (seq % 256) (epoch % 65536) blocks s else s) s)

/-- Steps 2 and 3 of Table 11.6. -/
def feOwnerLoss (n : Nat) (s : Dev) : Dev :=
  if (s.fe n).ownerLink.isSome then
    let s := writeEnds n .linkLoss s
    s.setFe n { s.fe n with lossHold := true }
  else s

/-- Step 4, 40 ms. The result of a LOAD that the retract overtakes is not stated (free). -/
def feRetract (n : Nat) (s : Dev) : Dev :=
  let x := s.fe n
  if x.lossHold then
    let s := s.setFe n { x with loaded := false, moving := none }
    match x.moving with
    | some (true, tag) => feAck n tag (Config.freeNat s.fresh % 256) s.draw
    | some (false, tag) => feAck n tag 0 s
    | none => s
  else s

/-- Step 5, 1 s without a valid frame on either link. -/
def feForget (n : Nat) (s : Dev) : Dev := s.setFe n { s.fe n with eMax := none, ownerLink := none, seqA := none, seqB := none }

/-- Step 6, 30 s. -/
def feSpinDown (n : Nat) (s : Dev) : Dev :=
  let x := s.fe n
  if x.lossHold then s.setFe n { x with rpm := 0 } else s

def execFeOwnerLossDetect (n : Nat) (s : State) : Host.Outcome State Fault Refusal := onDev s (fun s => onChan n (feOwnerLoss n) s)
def execFeHeadRetract (n : Nat) (s : State) : Host.Outcome State Fault Refusal := onDev s (fun s => onChan n (feRetract n) s)
def execFeEpochForget (n : Nat) (s : State) : Host.Outcome State Fault Refusal := onDev s (fun s => onChan n (feForget n) s)
def execFeSpindleStop (n : Nat) (s : State) : Host.Outcome State Fault Refusal := onDev s (fun s => onChan n (feSpinDown n) s)

/-! ### A microsecond of a front-end (R317, R320) -/

/-- R317: samples of a clock of `khz` in the microsecond after `us`. -/
def samplesIn (khz us : Nat) : Nat := khz * (us + 1) / 1000 - khz * us / 1000

/-- The sample blocks of this many ten samples from a count on, each with the flags of the moment. -/
def sampleBlocks (n : Nat) (x : FrontEnd) (from_ count : Nat) : List UpBlock :=
  (List.range count).map fun i =>
    .samples x.shockSeen (x.gate || x.settling || x.switched) (Config.adcSamples n ((from_ + 10 * i) % 2 ^ 44))

/-- Frames of sample blocks, each with a COUNTER block first. -/
def feSamples (n from_ : Nat) (blocks : List UpBlock) (s : Dev) : Dev :=
  (List.range (cdiv blocks.length 30)).foldl (fun s i =>
    feFrame n (.counter ((from_ + 300 * i) % 2 ^ 44) :: (blocks.drop (30 * i)).take 30) s) s

/-- While its heads are loaded and its clock is set a front-end takes samples and sends them; a write for which no bit has come in time
underruns (R320). A head switch has settled. -/
def feTick (us : Nat) (s : Dev) (n : Nat) : Dev :=
  let x := s.fe n
  let s := if x.loaded then
      let new := samplesIn x.clockKhz us
      let from_ := (x.samples + 2 ^ 44 - x.unsent) % 2 ^ 44
      let count := (x.unsent + new) / 10
      let s := s.setFe n { x with samples := (x.samples + new) % 2 ^ 44, unsent := (x.unsent + new) % 10 }
      feSamples n from_ (sampleBlocks n x from_ count) s
    else s
  let x := s.fe n
  let s := s.setFe n { x with switched := false }
  if x.gate && (x.due.any fun d => decide (x.data.length ≤ d)) then onChan n (writeEnds n .underrun) s else s

end Sys2Proof.Machine
end

