-- ==== Sys2Proof/Machine/Clock.lean ====
section
/-!
DEFINITION. One microsecond without a command (DESIGN CHOICE, log entry 1): device time, the busy counters of the meters, the samples
of the front-ends and the powered hours advance, function resets in progress end (log entry 73), an activation goes on (log
entry 75) and SB_PPS marks the seconds.
-/

namespace Sys2Proof.Machine

/-- R449: 500 ppm is 1 ns in 2 µs; this tick's part of the slew still to be applied. -/
def slewStep (tm : TimeState) : Int :=
  if tm.now / 1000 % 2 = 0 then (if 0 < tm.slew then 1 else if tm.slew < 0 then -1 else 0) else 0

/-- R157: device time and the time since POR_N release. -/
def tickTime (tm : TimeState) : TimeState :=
  let d := slewStep tm
  { tm with now := tm.now + 1000, device := ((tm.device : Int) + 1000 + d).toNat % 2 ^ 64, slew := tm.slew - d }

/-- R151: tenants with a consumed, uncompleted command. -/
def busyTenants (s : Dev) : List Nat := (s.cm.ctxs.filterMap (·.tenant)).eraseDups

/-- R159: in ECLIPSE the counters are frozen. -/
def tickBusy (s : Dev) : Dev :=
  if s.inMode .eclipse then s
  else (busyTenants s).foldl (fun s t => s.setTen t { s.ten t with busyUs := ((s.ten t).busyUs + 1) % 2 ^ 64 }) s

def tickFe (s : Dev) : Dev := (List.range 24).foldl (feTick (s.tm.now / 1000)) s

/-- `life.hours` (Table 17.15): whole hours since POR_N release. -/
def tickHours (s : Dev) : Dev := if (s.tm.now + 1000) % 3600000000000 = 0 then s.bump Fam.lifeHours else s

/-- R64: FLRs in progress end (log entry 73). -/
def tickFlr (s : Dev) : Dev :=
  { s with fns := (tkeys s.fns).foldl (fun t k =>
      tset t k { tget t k FnState.absent with inFlr := false } FnState.absent) s.fns }

/-- Table 4.10, step 5: the new image runs before fetch resumes. -/
def tickActivation (s : Dev) : Dev := if s.val Fam.fwActivationState = 2 then s.setVal Fam.fwActivationState 0 3 else s

/-- R473: SB_PPS gives one pulse at each second of device time. -/
def tickPps (s : Dev) : Dev :=
  if s.tm.device / 1000000000 = (tickTime s.tm).device / 1000000000 then s
  else emit (.pin "SB_PPS" false) (emit (.pin "SB_PPS" true) s)

/-- The block idles for 1 µs. -/
def tick (s : Dev) : Dev :=
  if s.periscope then
    let s := tickPps (tickHours (tickActivation (tickFlr (tickFe (tickBusy s)))))
    { s with tm := tickTime s.tm }
  else s

end Sys2Proof.Machine
end

