-- ==== Sys2Proof/Machine/Faults.lean ====
section
/-!
DEFINITION. The fault hub's commands (R413 to R420) and the black box (R422 to R426).
-/

namespace Sys2Proof.Machine

/-! ### Onsets (R413, R414, R420) -/

/-- FAULT_ONSET: a real signal rises. -/
def execFaultOnset (n : Nat) (d : Word) (s : State) : Host.Outcome State Fault Refusal :=
  onDev s (fun s => if decide (n < 0x280) && !srcReserved n then settle (raise n d.toNat false s) else s)

/-- The pulse of an injection ends (R419). -/
def endPulse (n : Nat) (s : Dev) : Dev :=
  let x := s.src n
  if x.injLive = 1 then s.setSrc n { x with injLive := 0, cleared := if x.realLive then x.cleared else s.tm.device } else s

/-- FAULT_LIVE_END: the real signal and the pulse of an injection end; a hold stays. PWR_FAIL_N and the sag sensors are what their
sources show (R248, R458). -/
def liveEnd (n : Nat) (s : Dev) : Dev :=
  let s := endPulse n (hubFall n s)
  let pw := s.pw
  let pw := if n = 0x003 then { pw with pwrFailLow := false } else pw
  let pw := if 0x004 ≤ n ∧ n ≤ 0x013 then { pw with sagBelow := pw.sagBelow.filter (· != n - 4) } else pw
  { s with pw := pw }

def execFaultLiveEnd (n : Nat) (s : State) : Host.Outcome State Fault Refusal :=
  onDev s (fun s => if s.periscope && decide (n < 0x280) then liveEnd n s else s)

/-! ### Clearing (R416, R417) -/

/-- Master codes of a CLEAR record. -/
def clearMaster (who : Master) : Nat := match who with | .admin => 0 | .sideband => 1 | _ => 2

/-- A write to `fault[n].status`: clear_denied first, then latched. -/
def writeStatus (who : Master) (n v : Nat) (s : Dev) : Dev :=
  let s := if bit v 7 then s.setSrc n { s.src n with clearDenied := false } else s
  if bit v 1 then clearLatched (clearMaster who) n s else s

def execFaultClear (who : Master) (n : Nat) (v : Half) (s : State) : Host.Outcome State Fault Refusal :=
  onDev s (fun s => guardedWrite who Fam.faultStatus n always (writeStatus who n v.toNat) s)

/-- A source never raised has nothing to clear, so the sources listed are all there is to visit. -/
def clearAll (who : Master) (s : Dev) : Dev := (tkeys s.fh.src).foldl (fun s n => clearLatched (clearMaster who) n s) s

def execFaultClearAll (who : Master) (s : State) : Host.Outcome State Fault Refusal :=
  onDev s (fun s => guardedWrite who Fam.faultClearAll 0 always (clearAll who) s)

/-- R416. -/
def firstClearable (s : Dev) : Bool := match s.fh.first with | some (n, _) => !(s.src n).latched | none => true

def execFirstFaultClear (who : Master) (s : State) : Host.Outcome State Fault Refusal :=
  onDev s (fun s => guardedWrite who Fam.faultFirstClear 0 (needs firstClearable) (fun s => { s with fh := { s.fh with first := none } }) s)

/-! ### Injection (R419, R420) -/

def injectRefusal (n : Nat) (s : Dev) : Nat :=
  if s.flag Fam.faultInjectEnable && s.canSignal n then 0 else rUnavailable

/-- Isolation of the members and channels a severity-3 onset names (Table 15.4). -/
def isolate (n detail : Nat) (s : Dev) : Dev :=
  match srcScope n with
  | .member => isolateMember (detail % 2048) s
  | .lens c => isolateMember (0x7E8 + c) s
  | _ => s

/-- An injected onset: with a real one in the same handshake it is one onset of the programmed severity; while the real signal is
high it takes no action. A hold lasts until its release, so a pulse leaves it standing (R419). -/
def inject (n sev detail mode : Nat) (withReal : Bool) (s : Dev) : Dev :=
  let sev := min (sev % 8) (s.val Fam.faultInjectMax)
  let high := (s.src n).realLive
  let s := s.setSrc n { s.src n with injLive := if (s.src n).injLive = 2 then 2 else mode }
  if withReal && !high then
    let p := s.severity n
    let s := hubOnset n detail true true p false s
    settle (if 3 ≤ p then isolate n detail s else s)
  else if high then onsetRegs n detail false true none s
  else
    let s := hubOnset n detail false true sev false s
    settle (if 3 ≤ sev then isolate n detail s else s)

def execFaultInjectPulse (who : Master) (n sev : Nat) (d : Half) (withReal : Bool) (s : State) :
    Host.Outcome State Fault Refusal :=
  onDev s (fun s => guardedWrite who Fam.faultInject n (injectRefusal n) (inject n sev d.toNat 1 withReal) s)

def execFaultInjectHold (who : Master) (n sev : Nat) (d : Half) (withReal : Bool) (s : State) :
    Host.Outcome State Fault Refusal :=
  onDev s (fun s => guardedWrite who Fam.faultInject n (injectRefusal n) (inject n sev d.toNat 2 withReal) s)

/-- The held injection ends; live falls unless the real signal is high. -/
def releaseHold (s : Dev) (n : Nat) : Dev :=
  let x := s.src n
  if x.injLive = 2 then s.setSrc n { x with injLive := 0, cleared := if x.realLive then x.cleared else s.tm.device } else s

def execFaultInjectRelease (who : Master) (n : Nat) (s : State) : Host.Outcome State Fault Refusal :=
  onDev s (fun s => guardedWrite who Fam.faultInject n (injectRefusal n) (fun s => releaseHold s n) s)

/-- R427: clearing `fault.inject_enable` releases every hold. -/
def releaseAllHolds (s : Dev) : Dev := (tkeys s.fh.src).foldl releaseHold s

/-! ### The black box (R422, Table 15.6) -/

/-- The 64 bytes of a record. -/
def recordImage (seq boot mode : Nat) (r : BbRecord) : List Byte :=
  let b := le 8 seq ++ le 8 r.time ++ le 1 r.kind ++ le 1 r.flags ++ le 2 r.source ++ le 1 r.severity ++ le 1 mode ++ le 2 boot
    ++ fitBytes 36 r.payload
  b ++ le 4 (crc32c b).toNat

/-- A record is written whole in the slot of its sequence. -/
def writeRecord (r : BbRecord) (s : Dev) : Dev :=
  let q := s.fh.head + 1
  let b := recordImage q (s.val Fam.bootPorCount) ((s.pw.mode.map Mode.code).getD r.mode) r
  { s with fh := { s.fh with head := q, ring := tput s.fh.ring (q % 65536) b } }

/-- BLACK_BOX_WRITE: the oldest record that waits. -/
def blackBoxWrite (s : Dev) : Dev :=
  match s.fh.queue with
  | [] => s
  | r :: rest => if s.periscope then writeRecord r { s with fh := { s.fh with queue := rest } } else s

def execBlackBoxWrite (s : State) : Host.Outcome State Fault Refusal := onDev s (fun s => blackBoxWrite s)

/-- Payload of a BOOT record. -/
def bootPayload (s : Dev) : List Byte :=
  le 1 (s.val Fam.bootBootedSlot) ++ le 1 s.pw.bootMode ++ List.replicate 6 0 ++ le 8 s.fw.version.toNat

/-- R425: every slot is cleared, and a BOOT record with sequence 1 marks it. -/
def eraseRing (s : Dev) : Dev :=
  let s := { s with fh := { s.fh with ring := [], head := 0 } }
  writeRecord { kind := 0x0A, flags := b2n s.unsynced, source := 0xFFFF, severity := 0xFF, mode := 0, time := s.tm.device
                payload := bootPayload s } s

def eraseRefusal (v : Nat) (s : Dev) : Nat := if v = 0xE2A5 ∧ s.inMode .eclipse = false then 0 else rUnavailable

def execBboxErase (who : Master) (v : Nat) (s : State) : Host.Outcome State Fault Refusal :=
  onDev s (fun s => guardedWrite who Fam.bboxErase 0 (eraseRefusal v) eraseRing s)

/-- LAST_GASP_TEST (R423). -/
def lastGaspTest (ok : Bool) (s : Dev) : Dev :=
  let s := s.setVal Fam.bboxLastGaspOk 0 (b2n ok)
  if ok then hubFall 0x01F s else raise 0x01F 0 false s

def execLastGaspTest (ok : Bool) (s : State) : Host.Outcome State Fault Refusal := onDev s (fun s => if s.periscope then lastGaspTest ok s else s)

end Sys2Proof.Machine
end

