-- ==== Sys2Proof/Machine/Copy.lean ====
section
/-!
DEFINITION. The copy engine (R390 to R401) and the mailboxes (R402 to R408).
-/

namespace Sys2Proof.Machine

/-! ### Channels and descriptors (R390 to R397) -/

/-- The channel bound to a function, 0 to 11 (R390). -/
def chanOf (s : Dev) (f : Fn) : Option Nat :=
  (List.range 12).find? fun c => s.val Fam.copyChanFunction c == packFn f

/-- The function a channel is bound to. -/
def chanFn (s : Dev) (c : Nat) : Fn := unpackFn (s.val Fam.copyChanFunction c % 2048)

/-- Table 14.2; line_length and line_count are in Operands.lean. -/
def dSrc (d : BitVec 512) : Nat := field d 0 64
def dDst (d : BitVec 512) : Nat := field d 64 64
def dFlags (d : BitVec 512) : Nat := field d 152 8
def dSrcStride (d : BitVec 512) : Int := (d.extractLsb' 192 32).toInt
def dDstStride (d : BitVec 512) : Int := (d.extractLsb' 224 32).toInt
def dNext (d : BitVec 512) : Nat := field d 256 64
def dTag (d : BitVec 512) : Nat := field d 320 64
def dChain (d : BitVec 512) : Bool := bit (dFlags d) 0
def dIrq (d : BitVec 512) : Bool := bit (dFlags d) 1
def dRecord (d : BitVec 512) : Bool := bit (dFlags d) 2

/-- R397: the extent [lo, hi) of a side. -/
def extentOf (a : Nat) (stride : Int) (n len : Nat) : Int × Int :=
  let span := ((n : Int) - 1) * stride
  ((a : Int) + min 0 span, (a : Int) + max 0 span + len)

def srcExtent (d : BitVec 512) : Int × Int := extentOf (dSrc d) (dSrcStride d) (dLines d) (dLine d)
def dstExtent (d : BitVec 512) : Int × Int := extentOf (dDst d) (dDstStride d) (dLines d) (dLine d)

/-- R395: an extent passes 2^64, at either end. -/
def extentBad (e : Int × Int) : Bool := decide (e.1 < 0) || decide ((2 ^ 64 : Int) < e.2)

/-- R395. -/
def descInvalid (d : BitVec 512) : Bool :=
  dLine d == 0 || dLines d == 0 || decide (8 ≤ dFlags d) || field d 176 16 != 0 || field d 384 128 != 0
    || (dChain d && dNext d % 64 != 0) || extentBad (srcExtent d) || extentBad (dstExtent d)

/-- R397: the extents intersect. -/
def descOverlaps (d : BitVec 512) : Bool :=
  decide ((srcExtent d).1 < (dstExtent d).2) && decide ((dstExtent d).1 < (srcExtent d).2)

/-- R396: address of byte `p` of a side, counted through the lines. -/
def lineAddr (a : Nat) (stride : Int) (len p : Nat) : Nat := ((a : Int) + (p / len : Nat) * stride + (p % len : Nat)).toNat

def srcAddr (d : BitVec 512) (p : Nat) : Nat := lineAddr (dSrc d) (dSrcStride d) (dLine d) p
def dstAddr (d : BitVec 512) (p : Nat) : Nat := lineAddr (dDst d) (dDstStride d) (dLine d) p

/-- R396: bytes left before a line ends or a 4 KiB boundary is crossed at this address. -/
def burstAt (d : BitVec 512) (p addr : Nat) : Nat := min (dLine d - p % dLine d) (4096 - addr % 4096)

/-- The next burst of a channel: of a staged read, a staged write, or a direct move. -/
def burstLen (x : Chan) (rd wr : Nat) : Nat :=
  if x.staged then
    if rd < dTotal x.desc then burstAt x.desc rd (srcAddr x.desc rd) else burstAt x.desc wr (dstAddr x.desc wr)
  else min (burstAt x.desc rd (srcAddr x.desc rd)) (burstAt x.desc wr (dstAddr x.desc wr))

/-! ### Records (R400, R401) -/

/-- Table 14.3. -/
def recordBytes (r : CopyRec) (tail : Nat) : List Byte :=
  le 1 r.status ++ le 1 ((1 - tail / 65536 % 2) + 2 * b2n r.chainEnd + 4 * b2n r.writeSide + 8 * b2n r.staged)
    ++ le 2 r.hops ++ le 2 r.lines ++ le 2 0 ++ le 8 r.desc ++ le 8 r.residue ++ le 8 r.tag

/-- The chain may run: its function masters the bus (R391). -/
def chanRuns (s : Dev) (c : Nat) : Bool := s.coreUp && (s.fnS (chanFn s c)).busMaster

/-- Ask for the next descriptor or source burst, while the chain runs (R391). -/
def askNext (c : Nat) (s : Dev) : Dev :=
  let x := s.chan c
  if chanRuns s c then
    match x.work with
    | .fetch a => readRing (chanFn s c) a 64 s
    | .move rd _ => if rd < dTotal x.desc then readData (chanFn s c) (srcAddr x.desc rd) (burstLen x rd rd) s else s
    | _ => s
  else s

/-- After a record is written (or none was due): fetch the next descriptor, or the channel is IDLE (R399). -/
def afterRecord (c : Nat) (s : Dev) : Dev :=
  let x := s.chan c
  match x.next with
  | some a => askNext c (s.setChan c { x with st := 2, work := .fetch a, addr := a, next := none, record := none })
  | none => s.setChan c { x with st := 1, work := .none, record := none }

/-- Write the held record if the ring has room, else WAIT_RING (R400). In ECLIPSE it waits for the exit (Table 14.7), and without Bus
Master Enable for that (R391); what state shows meanwhile the spec does not say: WAIT_RING (DESIGN CHOICE, log entry 87). -/
def putRecord (c : Nat) (s : Dev) : Dev :=
  let x := s.chan c
  match x.record with
  | none => s
  | some r =>
    let d := x.depthM1 + 1
    if rCount d x.head x.tail < d ∧ s.inMode .eclipse = false ∧ (s.fnS (chanFn s c)).busMaster = true then
      let f := chanFn s c
      let s := sendRing f (x.base.toNat + 32 * (x.tail % 65536)) (recordBytes r x.tail) s
      let s := s.setChan c { x with tail := rNext d x.tail }
      let s := if x.irqEn && (r.irq || (r.chainEnd && r.status != 0)) then raiseVector f x.vector s else s
      afterRecord c s
    else s.setChan c { x with st := 3 }

/-- Free the staging buffer if this channel holds it (R398). -/
def freeStaging (c : Nat) (s : Dev) : Dev := if s.staging = some c then { s with staging := none } else s

/-- Lines wholly written, and the residue of Table 14.3. -/
def linesDone (x : Chan) (written : Nat) : Nat := if dLine x.desc = 0 then 0 else written / dLine x.desc

/-- A chain ends (R399): counted, and its end record is due. -/
def endChain (c status written : Nat) (writeSide : Bool) (desc tag residue : Nat) (s : Dev) : Dev :=
  let x := s.chan c
  let s := s.bump Fam.copyChanChains c
  let s := if status = 0 ∨ status = 6 then s else s.bump Fam.copyChanFailures c
  let r : CopyRec := { status := status, chainEnd := true, writeSide := writeSide, staged := x.staged, hops := x.hops
                       lines := linesDone x written, desc := desc, residue := residue, tag := tag
                       irq := dIrq x.desc }
  let s := freeStaging c s
  putRecord c (s.setChan c { x with record := some r, next := none, work := .none, buffer := [] })

/-- A chain whose next descriptor waits for the record of the last one ends here: the end record replaces that one (R400; DEDUCED, log
entry 87). -/
def endHeld (c status : Nat) (s : Dev) : Dev :=
  let x := s.chan c
  match x.record, x.next with
  | some r, some _ =>
    let s := (s.bump Fam.copyChanChains c).setChan c { x with record := some { r with status := status, chainEnd := true }, next := none }
    putRecord c (if status = 0 ∨ status = 6 then s else s.bump Fam.copyChanFailures c)
  | _, _ => s

/-- An end that names the descriptor in hand with `written` bytes of it written. -/
def endDesc (c status written : Nat) (writeSide : Bool) (s : Dev) : Dev :=
  let x := s.chan c
  let residue := if status = 0 then 0 else dTotal x.desc - linesDone x written * dLine x.desc
  endChain c status written writeSide x.addr (dTag x.desc) residue s

/-- A running chain ends where it stands (R399). -/
def endRunning (c status : Nat) (s : Dev) : Dev :=
  match (s.chan c).work with
  | .fetch a => endChain c status 0 false a 0 0 (s.setChan c { s.chan c with desc := 0, staged := false })
  | .move _ w => endDesc c status w false s
  | _ => endDesc c status 0 false s

/-- A descriptor completes (R399, R400). In ECLIPSE no other follows (Table 14.7). -/
def descDone (c : Nat) (s : Dev) : Dev :=
  let x := s.chan c
  let hops := x.hops + 1
  let s := freeStaging c (s.setChan c { x with hops := hops, buffer := [] })
  let y := s.chan c
  if y.st = 4 then endDesc c 6 (dTotal x.desc) false s
  else if !dChain x.desc then endDesc c 0 (dTotal x.desc) false s
  else if s.inMode .eclipse then endDesc c 7 (dTotal x.desc) false s
  else if s.val Fam.copyChainLimit ≤ hops then
    let s := s.setChan c { y with desc := 0, staged := false }
    endChain c 2 0 false (dNext x.desc) 0 0 s
  else if dRecord x.desc then
    let r : CopyRec := { status := 0, chainEnd := false, writeSide := false, staged := x.staged, hops := hops
                         lines := dLines x.desc, desc := x.addr, residue := 0, tag := dTag x.desc, irq := dIrq x.desc }
    putRecord c (s.setChan c { y with record := some r, next := some (dNext x.desc), work := .none })
  else afterRecord c (s.setChan c { y with next := some (dNext x.desc) })

/-! ### COPY_START, COPY_ABORT, COPY_RING_BASE, COPY_RING_HEAD -/

/-- COPY_START (R392, R393): refused unless the channel is IDLE with a ring, the address aligned and the tenant not isolated. -/
def copyStart (f : Fn) (addr : Quad) (s : Dev) : Dev :=
  match chanOf s f with
  | none => s
  | some c =>
    let x := s.chan c
    if x.st = 1 ∧ x.depthM1 ≠ 0 ∧ addr.toNat % 64 = 0 ∧ isolatedFn s f = false then
      askNext c (s.setChan c { x with st := 2, hops := 0, work := .fetch addr.toNat, addr := addr.toNat, staged := false
                                      record := none, next := none, buffer := [] })
    else s.bump Fam.copyChanRefused c

def execCopyStart (r : Req) (addr : Quad) (s : State) : Host.Outcome State Fault Refusal :=
  onDev s (fun s => boundAccess r (copyStart r.toFn addr) s)

/-- R399: an abort takes effect at the end of the burst or fetch in progress; waiting for the staging buffer, at once. -/
def copyAbort (c : Nat) (s : Dev) : Dev :=
  let x := s.chan c
  if x.st = 2 then
    let s := s.setChan c { x with st := 4 }
    if x.work = .waitStage then endDesc c 6 0 false s else s
  else s

def execCopyAbort (r : Req) (s : State) : Host.Outcome State Fault Refusal :=
  onDev s (fun s => boundAccess r (fun s => match chanOf s r.toFn with | some c => copyAbort c s | none => s) s)

/-- R392: ring_base is writable only while IDLE; its bits 11:0 must be 0. -/
def copyBase (f : Fn) (base : Quad) (s : Dev) : Dev :=
  match chanOf s f with
  | none => s
  | some c =>
    let x := s.chan c
    if x.st = 1 ∧ base.toNat % 4096 = 0 then s.setChan c { x with base := base, tail := 0, head := 0 } else s

def execCopyRingBase (r : Req) (base : Quad) (s : State) : Host.Outcome State Fault Refusal :=
  onDev s (fun s => boundAccess r (copyBase r.toFn base) s)

/-- R400: an accepted head releases WAIT_RING; another value counts as refused (Table 14.8). -/
def copyHead (f : Fn) (v : Nat) (s : Dev) : Dev :=
  match chanOf s f with
  | none => s
  | some c =>
    let x := s.chan c
    if headOk (x.depthM1 + 1) x.head x.tail v then
      let s := s.setChan c { x with head := v }
      if x.st = 3 then putRecord c s else s
    else s.bump Fam.copyChanRefused c

def execCopyRingHead (r : Req) (v : Word) (s : State) : Host.Outcome State Fault Refusal :=
  onDev s (fun s => boundAccess r (copyHead r.toFn v.toNat) s)

/-- R391: Bus Master Enable is set again: a held record is written, a chain goes on, one that was aborted ends. -/
def resumeChain (c : Nat) (s : Dev) : Dev :=
  let x := s.chan c
  if x.record.isSome then putRecord c s
  else if x.st = 4 then endRunning c 6 s
  else if x.st = 2 ∧ s.inMode .eclipse = false then askNext c s
  else s

/-- A write of Bus Master Enable. -/
def setBusMaster (f : Fn) (on : Bool) (s : Dev) : Dev :=
  let was := (s.fnS f).busMaster
  let s := s.setFn f { s.fnS f with busMaster := on }
  match chanOf s f with
  | some c => if on && !was then resumeChain c s else s
  | none => s

/-! ### COPY_DESCRIPTOR_FETCHED, COPY_BURST_COMPLETE, COPY_STAGING_GRANTED -/

/-- Begin a valid descriptor (R397, R398). -/
def beginDesc (c : Nat) (s : Dev) : Dev :=
  let x := s.chan c
  if descOverlaps x.desc then
    if 64 * 2 ^ 20 < dTotal x.desc then endDesc c 4 0 false s
    else
      let x := { x with staged := true }
      match s.staging with
      | none => askNext c ({ s with staging := some c }.setChan c { x with work := .move 0 0 })
      | some _ => s.setChan c { x with work := .waitStage }
  else askNext c (s.setChan c { x with work := .move 0 0 })

/-- R395, R399: the fetched descriptor is validated and begun, or the chain ends. -/
def descFetched (c : Nat) (raw : Option (BitVec 512)) (s : Dev) : Dev :=
  let x := s.chan c
  match x.work with
  | .fetch a =>
    if !chanRuns s c then s
    else
      match raw with
      | none => endChain c 3 0 false a 0 0 (s.setChan c { x with desc := 0, staged := false })
      | some d =>
        let s := s.setChan c { x with desc := d, addr := a, staged := false }
        if x.st = 4 then endDesc c 6 0 false s
        else if s.inMode .eclipse then endDesc c 7 0 false s
        else if descInvalid d then endDesc c 1 0 false s
        else beginDesc c s
  | _ => s

def execCopyDescriptorFetched (c : Nat) (raw : Option (BitVec 512)) (s : State) : Host.Outcome State Fault Refusal :=
  onDev s (fun s => descFetched c raw s)

/-- R391: a burst is admitted as class 2 of the function's tenant and charged to its byte bucket. -/
def burstCharge (c n : Nat) (s : Dev) : Option Dev :=
  let f := chanFn s c
  match (if s.isAdmin f then none else (s.fnS f).bound) with
  | none => some s
  | some t =>
    let x := (s.ten t).refilled s.tm.now
    if x.byteRate = 0 then some s
    else if (min n x.byteDepthB : Nat) * 1000000000 ≤ x.byteLevel then
      some (s.setTen t { x with byteLevel := x.byteLevel - n * 1000000000 })
    else none

/-- The burst has been read: a staged one joins the buffer, a direct one is written. `rd` and `wr` count bytes. -/
def burstDone (c rd wr n : Nat) (b : List Byte) (writeOk : Bool) (s : Dev) : Dev :=
  let x := s.chan c
  let f := chanFn s c
  let reading := x.staged && decide (rd < dTotal x.desc)
  if reading then
    let s := s.setChan c { x with buffer := x.buffer ++ b, work := .move (rd + n) 0 }
    if x.st = 4 then endDesc c 6 0 false s
    else if s.inMode .eclipse then endDesc c 7 0 false s
    else askNext c s
  else
    let out := if x.staged then (x.buffer.drop wr).take n else b
    if !writeOk then endDesc c 5 wr true s
    else
      let s := sendData f (dstAddr x.desc wr) out s
      let s := s.addVal Fam.copyChanBytes c n
      let s := if x.staged then s.addVal Fam.copyStagedBytes 0 n else s
      let w := wr + n
      let s := s.setChan c { x with work := .move (if x.staged then rd else w) w }
      if dTotal x.desc ≤ w then descDone c s
      else if x.st = 4 then endDesc c 6 w false s
      else if s.inMode .eclipse then endDesc c 7 w false s
      else askNext c s

/-- COPY_BURST_COMPLETE (R396, R398, R399). A burst that Iris has not admitted has not begun, so an abort ends the chain there. -/
def burstComplete (c : Nat) (src : HostData) (writeOk : Bool) (s : Dev) : Dev :=
  let x := s.chan c
  match x.work with
  | .move rd wr =>
    if !chanRuns s c then s
    else
      let n := burstLen x rd wr
      let needs := !(x.staged && decide (dTotal x.desc ≤ rd))
      match burstCharge c n s with
      | none => if x.st = 4 then endDesc c 6 wr false s else s
      | some s' =>
        match src with
        | .fail => if needs then endDesc c 5 wr false s' else burstDone c rd wr n [] writeOk s'
        | .bytes b => burstDone c rd wr n (fitBytes n b) writeOk s'
  | _ => s

def execCopyBurstComplete (c : Nat) (src : HostData) (writeOk : Bool) (s : State) : Host.Outcome State Fault Refusal :=
  onDev s (fun s => burstComplete c src writeOk s)

/-- R398: one staged descriptor at a time; this one has waited. -/
def stagingGranted (c : Nat) (s : Dev) : Dev :=
  let x := s.chan c
  if x.work = .waitStage ∧ s.staging = none ∧ s.inMode .eclipse = false then
    askNext c ({ s with staging := some c }.setChan c { x with work := .move 0 0 })
  else s

def execCopyStagingGranted (c : Nat) (s : State) : Host.Outcome State Fault Refusal := onDev s (fun s => stagingGranted c s)

/-! ### Channels across resets and halts (Table 14.7) -/

/-- FLR and its like: the chain ends, its record is discarded, registers return to reset, the binding stays. -/
def resetChannel (f : Fn) (s : Dev) : Dev :=
  match chanOf s f with
  | none => s
  | some c => freeStaging c (s.setChan c { Chan.unbound with st := 1 })

/-- TENANT_ISOLATE: the chains of the tenant's functions end ABORTED. -/
def abortChains (t : Nat) (s : Dev) : Dev :=
  (List.range 12).foldl (fun s c =>
    let x := s.chan c
    if (s.fnS (chanFn s c)).bound = some t ∧ s.val Fam.copyChanFunction c ≠ 0xFFFF then
      if x.st = 2 ∨ x.st = 4 then endRunning c 6 s else if x.st = 3 then endHeld c 6 s else s
    else s) s

/-- ISOLATION_COMPLETE: the commands and the copy chains of the tenant have stopped (Table 5.3 step 4, Table 14.7). -/
def execIsolationComplete (s : State) : Host.Outcome State Fault Refusal :=
  onDev s (fun s => match s.cm.isolating with
    | some (t, _, _) => if s.hostRuns then isolationComplete (abortChains t s) else s
    | none => s)

/-- On leaving ECLIPSE: chains that still run end ABORTED_RESET, and held records are written. -/
def copyLeaveEclipse (s : Dev) : Dev :=
  (List.range 12).foldl (fun s c =>
    let x := s.chan c
    let s := if x.st = 2 ∨ x.st = 4 then endRunning c 7 s else if x.st = 3 then endHeld c 7 s else s
    if (s.chan c).record.isSome then putRecord c s else s) s

/-! ### Mailboxes (R402 to R408) -/

/-- Table 14.6. -/
def stampOf (s : Dev) (f : Fn) (privilege : Nat) : BitVec 18 :=
  BitVec.ofNat 18 ((s.fnS f).flrEpoch * 8192 + privilege * 2048 + f.fn * 16 + f.port)

/-- R404: a full mailbox rejects the word. -/
def postTx (f : Fn) (w : Quad) (s : Dev) : Dev :=
  let x := s.fnS f
  if x.tx.length < 8 then s.setFn f { x with tx := x.tx ++ [(w, stampOf s f (b2n (s.isAdmin f)))] }
  else aerError f 15 false (some (tlpHeader s)) (s.bump Fam.mboxPortRejected f.port).draw

def execTxWord (r : Req) (w : Quad) (s : State) : Host.Outcome State Fault Refusal := onDev s (fun s => boundAccess r (postTx r.toFn w) s)

def execTxDoorbell (r : Req) (b : Word) (s : State) : Host.Outcome State Fault Refusal :=
  onDev s (fun s => boundAccess r (fun s => s.setFn r.toFn { s.fnS r.toFn with txDoorbell := (s.fnS r.toFn).txDoorbell ||| b }) s)

/-- The firmware runs: not in DARK or ECLIPSE, not halted for an activation (Table 14.7, Table 4.10 step 4). -/
def firmwareRuns (s : Dev) : Bool :=
  s.working && !s.inMode .eclipse && !(2 ≤ s.val Fam.fwActivationState) && (match s.pw.trans with | some (.softReset _) => false | _ => true)

/-- R406: a word is posted only when the rx queue has room. -/
def postRx (f : Fn) (w : Quad) (s : Dev) : Dev :=
  let x := s.fnS f
  if firmwareRuns s && decide (x.rx.length < 8) then s.setFn f { x with rx := x.rx ++ [(w, stampOf s f 3)] } else s

/-- Words of a reply that waited follow as space allows (R406). -/
def payOwed (f : Fn) (s : Dev) : Dev :=
  let x := s.fnS f
  match x.owed with
  | w :: rest => if firmwareRuns s && decide (x.rx.length < 8) then postRx f w (s.setFn f { x with owed := rest }) else s
  | [] => s

def execRxPop (r : Req) (v : Word) (s : State) : Host.Outcome State Fault Refusal :=
  onDev s (fun s => boundAccess r (fun s =>
    if v.getLsbD 0 then payOwed r.toFn (s.setFn r.toFn { s.fnS r.toFn with rx := (s.fnS r.toFn).rx.drop 1 }) else s) s)

/-- R405: the summary bit follows the doorbell bits that are set and unmasked. -/
def refreshMailbox (f : Fn) (s : Dev) : Dev := setSummary 3 (mailboxPending s f) s f

def execRxDoorbellClear (r : Req) (b : Word) (s : State) : Host.Outcome State Fault Refusal :=
  onDev s (fun s => boundAccess r (fun s =>
    refreshMailbox r.toFn (s.setFn r.toFn { s.fnS r.toFn with rxDoorbell := (s.fnS r.toFn).rxDoorbell &&& ~~~b })) s)

/-- R406, R408: a purge marker is taken ahead of any later word; a word is kept until its request is whole (R436). -/
def takeWord (f : Fn) (s : Dev) : Dev :=
  if firmwareRuns s then
    let x := s.fnS f
    if x.purges.isEmpty then s.setFn f { x with tx := x.tx.drop 1, req := x.req ++ x.tx.take 1 }
    else s.setFn f { x with purges := x.purges.drop 1 }
  else s

def execFirmwareTakeWord (f : Fn) (s : State) : Host.Outcome State Fault Refusal := onDev s (fun s => takeWord f s)

/-- FIRMWARE_POST_WORD: while words of a reply wait, the next of them is the one posted. -/
def execFirmwarePostWord (f : Fn) (w : Quad) (s : State) : Host.Outcome State Fault Refusal :=
  onDev s (fun s => if (s.fnS f).owed.isEmpty then postRx f w s else payOwed f s)

def execFirmwareRaiseDoorbell (f : Fn) (b : Word) (s : State) : Host.Outcome State Fault Refusal :=
  onDev s (fun s => if firmwareRuns s then refreshMailbox f (s.setFn f { s.fnS f with rxDoorbell := (s.fnS f).rxDoorbell ||| b }) else s)

def execFirmwareTakeDoorbell (f : Fn) (b : Word) (s : State) : Host.Outcome State Fault Refusal :=
  onDev s (fun s => if firmwareRuns s then s.setFn f { s.fnS f with txDoorbell := (s.fnS f).txDoorbell &&& ~~~b } else s)

/-- Table 14.7: both directions purged; a marker stamped with the new epoch reaches the firmware. -/
def purgeMailbox (f : Fn) (s : Dev) : Dev :=
  let x := s.fnS f
  let e := (x.flrEpoch + 1) % 32
  let s := s.setFn f { x with tx := [], rx := [], txDoorbell := 0, rxDoorbell := 0, rxMask := 0xFFFFFFFF, flrEpoch := e
                              purges := x.purges ++ [e], req := [], owed := [] }
  s.bump Fam.mboxPortPurges f.port

end Sys2Proof.Machine
end

