-- ==== Sys2Proof/Machine/HostPorts.lean ====
section
/-!
DEFINITION. Host ports: function resets (R43, R63, R126), links (R42, R43), errors (R61), link encryption (R57 to R59), attestation
(R60), SR-IOV (R54, R63) and pending MSI-X messages (R55).
-/

namespace Sys2Proof.Machine

/-! ### Function reset (R126) -/

/-- R126: one command of a reset function. A command not started is completed ABORTED_RESET where it may be written; the others go
without completion, metered all the same (R150). -/
def resetCmd (write : Bool) (s : Dev) (c : Ctx) : Dev :=
  let waiting := c.phase == .held || c.phase == .iris || c.phase == .admitted
  if write && waiting && (s.boundCq c.fn c.q).cqState == .active then endCtx0 c.id 0x07 0 0 s
  else dropCtx c.id (freeHeld c (meterEnd c 0x07 0 s).1)

/-- R76, R126: the inline entries that wait were accepted, so they are commands not started. -/
def abortInline (f : Fn) (q : Nat) (s : Dev) : Dev :=
  if (s.boundCq f q).cqState = .active then
    let x := s.q f q
    let st (p : Nat) : Nat := x.stamps.getD (rCount x.sqDepth x.sqHead p) 0
    x.inlineHeld.foldl (fun s e => endUnstarted f q (st e.1) 0x07 e.2.entry.raw false s) (abortReady f q 0x07 s)
  else s

/-- The block reads of commands that have gone are given up. -/
def dropJobs (s : Dev) : Dev :=
  pruneJobs (fun c => (s.ctx? c).isSome) s

/-- Table 3.7: every queue of the function is ABSENT and its slots are released. An admin command that was deleting one of them has
what it asked for. -/
def dropQueues (f : Fn) (s : Dev) : Dev :=
  let mine := s.cm.qs.filter fun e => e.1 / 1024 == packFn f
  let cm := { s.cm with
    qs := s.cm.qs.filter fun e => e.1 / 1024 != packFn f
    slots := s.cm.slots.filter fun e => e.2 / 1024 != packFn f
    failLog := tdel s.cm.failLog (packFn f)
    writes := s.cm.writes.map fun w => if w.fn = f then { w with q := 65535 } else w }
  (mine.filterMap fun e => e.2.deleter).foldl (fun s id => finish id 0 0 0 s) { s with cm := cm }

/-- PCI Express: what an FLR leaves of configuration space: the AER capability's sticky registers, the payload size and Link Control. -/
def FnConfig.afterFlr (c : FnConfig) : FnConfig :=
  { c with
    bar0 := 0, bar2 := 0, vfBar0 := 0, deviceControl2 := 0
    deviceControl := (FnConfig.initial.deviceControl &&& ~~~0x00E0) ||| (c.deviceControl &&& 0x00E0) }

/-- A function is reset (R126): `write` says that completions of commands not started may be written. -/
def functionReset (write : Bool) (f : Fn) (s : Dev) : Dev :=
  let s := (s.cm.ctxs.filter fun c => c.fn == f).foldl (resetCmd write) s
  let s := if write then (s.queuesOf f).foldl (fun s q => abortInline f q s) s else s
  let s := dropQueues f (dropJobs s)
  let x := s.fnS f
  let s := s.setFn f { FnState.absent with
    bound := x.bound, quota := x.quota, flrEpoch := x.flrEpoch, purges := x.purges
    aerMask := x.aerMask, aerFatal := x.aerFatal, cfg := x.cfg.afterFlr }
  let s := resetChannel f (purgeMailbox f s)
  settle (settleHeld (presentSummary s f))

/-- R439: the admin master loses the claim. -/
def loseClaim (s : Dev) : Dev :=
  if s.dc.holder = 1 then { s with dc := { s.dc with holder := 0, expiry := 0 } } else s

/-- R63: the VFs of a port are reset and cease to exist as requesters. -/
def clearVfs (p : Nat) (s : Dev) : Dev :=
  let s := ((List.range (s.port p).vfs).map fun v => (⟨p, v + 1⟩ : Fn)).foldl (fun s f => functionReset false f s) s
  s.setPort p { s.port p with vfs := 0 }

/-- R64: an FLR is in progress from here to the next tick of the clock (log entry 73). -/
def markFlr (f : Fn) (s : Dev) : Dev := s.setFn f { s.fnS f with inFlr := true }

/-- FLR (R126, R63, R439): started through configuration space, which a port in L0 accepts. One that arrives while the same function's
is in progress is absorbed into it, and so is a VF's into its PF's (R64). -/
def flr (f : Fn) (s : Dev) : Dev :=
  if portServes s f.port && s.fnExists f && !(s.fnS f).inFlr && !(s.fnS ⟨f.port, 0⟩).inFlr then
    let s := if s.isAdmin f then loseClaim s else s
    let s := markFlr f (functionReset ((s.fnS f).busMaster && !s.inMode .eclipse) f s)
    if f.fn = 0 then clearVfs f.port s else s
  else s

def execFlr (f : Fn) (s : State) : Host.Outcome State Fault Refusal := onDev s (fun s => flr f s)

/-! ### VF Enable (R54, R63) -/

def vfEnableSet (p n : Nat) (s : Dev) : Dev :=
  let x := s.port p
  if portServes s p && x.vfs == 0 && decide (n ≤ x.totalVfs) then
    let s := s.setPort p { x with vfs := n }
    ((List.range n).map fun v => (⟨p, v + 1⟩ : Fn)).foldl presentSummary s
  else s

def execVfEnableSet (p n : Nat) (s : State) : Host.Outcome State Fault Refusal := onDev s (fun s => vfEnableSet p n s)

def execVfEnableClear (p : Nat) (s : State) : Host.Outcome State Fault Refusal :=
  onDev s (fun s => if portServes s p then clearVfs p s else s)

/-! ### Links (R42, R43) -/

/-- `host.port[n].link` (Table 2.9). -/
def showHostLink (n : Nat) (s : Dev) : Dev :=
  let x := s.port n
  let v := if x.linkUp then x.speed + 16 * x.width + 256 + 512 * b2n ((tfind x.ide 0).any (·.secure)) else 0
  s.setVal Fam.hostPortLink n v

/-- R43: the configuration space of the port returns to its defaults. A VF's has gone with the VF. -/
def configDefaults (n : Nat) (s : Dev) : Dev :=
  (List.range 65).foldl (fun s v =>
    let f : Fn := ⟨n, v⟩
    s.setFn f { s.fnS f with
      aerMask := FnState.absent.aerMask, aerFatal := FnState.absent.aerFatal, cfg := FnConfig.initial, inFlr := false }) s

/-- R43: every function of the port is reset, its configuration space returns to its defaults, and the values of R66 that apply at a
port reset are taken. No completion is written at any port reset, not even where Bus Master Enable was set and the CQ ACTIVE: the link
that would carry it is down or resetting (DESIGN CHOICE, log entry 74; R126 names VF Enable clearing and link down). -/
def portReset (n : Nat) (s : Dev) : Dev :=
  let s := settleReserve n s
  let s := configDefaults n (functionReset false ⟨n, 0⟩ (clearVfs n s))
  let s := s.setPort n { s.port n with
    linkUp := false, speed := 0, width := 0, ide := [], sessions := [], spdmStage := 0
    totalVfs := s.val Fam.hostPortTotalVfs n, subsysVendor := s.val Fam.hostSubsysVendor, subsysId := s.val Fam.hostSubsysId }
  showHostLink n s

/-- HP_PERST_N_ASSERT (R43, R439). A link that it takes down is the condition of source 0x082 + 4n, and is not counted as a link-down
event (DESIGN CHOICE, log entry 74). -/
def perstAssert (n : Nat) (s : Dev) : Dev :=
  let up := (s.port n).linkUp
  let s := if n = s.pw.adminPort then loseClaim s else s
  let s := if s.coreUp then portReset n s else s
  let s := s.setPort n { s.port n with perstLow := true, readyToTrain := false }
  if up && s.coreUp then raise (0x082 + 4 * n) 0 false s else s

def execHpPerstNAssert (n : Nat) (s : State) : Host.Outcome State Fault Refusal := onDev s (fun s => if n < 16 then perstAssert n s else s)

/-- HP_PERST_N_RELEASE: ready to train where the mode has the port trained (R27). -/
def perstRelease (n : Nat) (s : Dev) : Dev :=
  s.setPort n { s.port n with perstLow := false, readyToTrain := s.coreUp && s.pw.hostTerminated }

def execHpPerstNRelease (n : Nat) (s : State) : Host.Outcome State Fault Refusal := onDev s (fun s => if n < 16 then perstRelease n s else s)

/-- HOST_LINK_DOWN: a link-down is counted, is the condition of source 0x082 + 4n, and is the surprise link down of Table 2.8; a hot
reset only resets (R43; DESIGN CHOICE, log entry 74). -/
def hostLinkDown (n : Nat) (hotReset : Bool) (s : Dev) : Dev :=
  if n < 16 ∧ s.coreUp = true ∧ (s.port n).linkUp = true then
    let s := if hotReset then s else aerError ⟨n, 0⟩ (fatalErrorBit .surpriseDown) false none s
    let s := portReset n s
    let s := s.setPort n { s.port n with readyToTrain := !(s.port n).perstLow }
    if hotReset then s else raise (0x082 + 4 * n) 0 false (s.bump Fam.hostPortLinkDowns n)
  else s

def execHostLinkDown (n : Nat) (hotReset : Bool) (s : State) : Host.Outcome State Fault Refusal := onDev s (fun s => hostLinkDown n hotReset s)

/-- HOST_LINK_UP (R42, Table 2.1). -/
def hostLinkUp (n speed width : Nat) (s : Dev) : Dev :=
  let x := s.port n
  if n < 16 ∧ s.coreUp = true ∧ s.pw.hostTerminated = true ∧ x.readyToTrain = true ∧ x.perstLow = false ∧ x.linkUp = false
      ∧ 1 ≤ speed ∧ speed ≤ s.val Fam.hostPortMaxSpeed n ∧ (width = 1 ∨ width = 2 ∨ width = 4) then
    let s := settleReserve n s
    hubFall (0x082 + 4 * n) (showHostLink n (s.setPort n { s.port n with linkUp := true, speed := speed, width := width, readyToTrain := false }))
  else s

def execHostLinkUp (n speed width : Nat) (s : State) : Host.Outcome State Fault Refusal := onDev s (fun s => hostLinkUp n speed width s)

/-! ### Errors (Table 2.8); AER status bits are those of PCI Express -/

/-- A device read brought nothing back. -/
def readFailed (r : TimedRead) (s : Dev) : Dev :=
  match r with
  | .entryFetch f q => fetchDone f q none s
  | .data ctx unit => hostDataRead ctx unit .fail s
  | .copyFetch c => descFetched c none s
  | .copySource c => burstComplete c .fail true s

def errorTlp (f : Fn) (e : TlpError) (s : Dev) : Dev :=
  match e with
  | .linkCorrectable e => aerCorrectable f (linkErrorBit e) s
  | .unexpectedCompletion => aerReport f 16 true none s
  | .ecrc r =>
    if (s.fnS f).cfg.ecrcCheck then
      let s := aerError f 19 false none s
      match r with
      | some r => readFailed r s
      | none => s
    else s
  | .poisonedWrite => aerError f 12 true none s
  | .badCompletion poisoned r => readFailed r (if poisoned then aerError f 12 true none s else s)
  | .unsupportedRequest write =>
    let s := unsupported f s
    if write then s else emit (.urCompletion f (s.attr f false true)) s
  | .fatal e => aerError f (fatalErrorBit e) false none s

def execReceivedErrorTlp (f : Fn) (e : TlpError) (s : State) : Host.Outcome State Fault Refusal :=
  onDev s (fun s => if portServes s f.port then errorTlp f e s else s)

def execCompletionTimeout (f : Fn) (r : TimedRead) (s : State) : Host.Outcome State Fault Refusal :=
  onDev s (fun s => if portServes s f.port then readFailed r (aerError f 14 false none s) else s)

/-! ### Link encryption (R57 to R59) -/

def setStream (n i : Nat) (x : IdeStream) (s : Dev) : Dev :=
  showHostLink n (s.setPort n { s.port n with ide := tput (s.port n).ide i x })

/-- R59: the stream is Insecure until the host programs keys again. -/
def ideFailure (n i : Nat) (s : Dev) : Dev :=
  match tfind (s.port n).ide i with
  | some x =>
    if x.secure && portServes s n then
      raise (0x081 + 4 * n) i false
        ((setStream n i { x with secure := false, key0 := none, key1 := none } s).bump Fam.hostPortIdeFailures n)
    else s
  | none => s

def execIdeIntegrityFailure (n i : Nat) (s : State) : Host.Outcome State Fault Refusal := onDev s (fun s => ideFailure n i s)

/-- The key of a key set, 0 or 1. -/
def IdeStream.keyOf (x : IdeStream) (k : Nat) : Option (BitVec 256) := if k = 0 then x.key0 else x.key1

def IdeStream.setKey (x : IdeStream) (k : Nat) (key : BitVec 256) : IdeStream :=
  if k = 0 then { x with key0 := some key } else { x with key1 := some key }

/-- A stream that was never programmed. -/
def IdeStream.blank : IdeStream := { secure := false, keySet := 0, key0 := none, key1 := none, ridLo := 0, ridHi := 0, addrs := [] }

/-- R57: from the next TLP on the other key set is in use, once it has been programmed. -/
def ideSwitch (n i : Nat) (s : Dev) : Dev :=
  match tfind (s.port n).ide i with
  | some x =>
    let k := 1 - x.keySet % 2
    if x.secure && portServes s n && (x.keyOf k).isSome then setStream n i { x with keySet := k } s else s
  | none => s

def execIdeKeySetSwitch (n i : Nat) (s : State) : Host.Outcome State Fault Refusal := onDev s (fun s => ideSwitch n i s)

/-- R57: stream 0 is the link stream, 1 to 16 the selective ones; the session must be secured. A stream that is not Secure becomes so with
this key set and association; of a Secure one the key set not in use is programmed, for a switch to come (log entry 72). -/
def ideProgram (n i session k : Nat) (key : BitVec 256) (g : IdeAssoc) (s : Dev) : Dev :=
  if portServes s n && decide (i ≤ 16) && decide (k ≤ 1) && decide (g.addrs.length ≤ 2)
      && (s.port n).sessions.contains (session, true) then
    let x := (tfind (s.port n).ide i).getD IdeStream.blank
    if x.secure then (if x.keySet = k then s else setStream n i (x.setKey k key) s)
    else setStream n i { IdeStream.blank.setKey k key with
      secure := true, keySet := k, ridLo := g.ridLo, ridHi := g.ridHi, addrs := g.addrs } s
  else s

def execIdeKmKeyProgram (n i session k : Nat) (key : BitVec 256) (g : IdeAssoc) (s : State) : Host.Outcome State Fault Refusal :=
  onDev s (fun s => ideProgram n i session k key g s)

/-! ### DOE and SPDM (R60); message codes and the order of negotiation are those of SPDM 1.2 (log entry 63) -/

/-- DOE Discovery: the protocols of R60 in order; the answer's dword as PCI Express lays it out. -/
def doeAnswer (i : Nat) : List Byte :=
  match i with
  | 0 => le 4 (0x0001 + 2 ^ 24)
  | 1 => le 4 (0x0001 + 2 ^ 16 + 2 * 2 ^ 24)
  | 2 => le 4 (0x0001 + 2 * 2 ^ 16)
  | _ => le 4 0xFFFF

def execDoeDiscovery (n i : Nat) (s : State) : Host.Outcome State Fault Refusal :=
  onDev s (fun s => if portServes s n then emit (.doe n 0 (doeAnswer i)) s else s)

/-- An SPDM ERROR with its code. -/
def spdmError (n code : Nat) (s : Dev) : Dev := emit (.doe n 0x7F (le 1 code)) s

/-- Answer when negotiation has reached `stage`; UnexpectedRequest else. -/
def spdm (n stage : Nat) (k : Dev → Dev) (s : Dev) : Dev :=
  if portServes s n then (if stage ≤ (s.port n).spdmStage then k s else spdmError n 0x04 s) else s

def spdmTo (n stage : Nat) (s : Dev) : Dev := s.setPort n { s.port n with spdmStage := max stage (s.port n).spdmStage }

def execGetVersion (n : Nat) (s : State) : Host.Outcome State Fault Refusal :=
  onDev s (fun s => spdm n 0 (fun s => emit (.doe n 0x04 [0x12]) (s.setPort n { s.port n with spdmStage := 1 })) s)

/-- R60, Table 2.7, in the encodings of SPDM 1.2 (log entry 63): capability flags CERT, CHAL, MEAS with signature, ENCRYPT, MAC, KEY_EX,
HBEAT and KEY_UPD; no PSK. -/
def spdmFlags : Nat := 2 + 4 + 16 + 64 + 128 + 512 + 8192 + 16384

/-- Table 2.7: the algorithms selected, as SPDM 1.2 numbers them: DMTF measurements by SHA-384; ECDSA P-384 signatures with SHA-384;
then, of the session, ECDHE on P-384 (secp384r1), AES-256-GCM, and the SPDM key schedule. -/
structure SpdmAlgorithms where
  measurementHash : Nat
  baseAsym : Nat
  baseHash : Nat
  dhe : Nat
  aead : Nat
  keySchedule : Nat
  deriving DecidableEq, Repr

def spdmAlgorithms : SpdmAlgorithms :=
  { measurementHash := 4, baseAsym := 128, baseHash := 2, dhe := 16, aead := 2, keySchedule := 1 }

/-- The ALGORITHMS answer after its header. -/
def algorithmBytes (a : SpdmAlgorithms) : List Byte :=
  le 2 48 ++ le 1 1 ++ le 1 0 ++ le 4 a.measurementHash ++ le 4 a.baseAsym ++ le 4 a.baseHash ++ List.replicate 12 0 ++ le 1 0 ++ le 1 0
    ++ le 2 0 ++ (le 1 2 ++ le 1 0x20 ++ le 2 a.dhe) ++ (le 1 3 ++ le 1 0x20 ++ le 2 a.aead) ++ (le 1 5 ++ le 1 0x20 ++ le 2 a.keySchedule)

/-- The CAPABILITIES answer after its header; the times and sizes it also names are not stated, and are free (log entry 3). -/
def capabilityBytes : List Byte := Config.spdmBytes 0x61 0 ++ le 4 spdmFlags

def execGetCapabilities (n : Nat) (s : State) : Host.Outcome State Fault Refusal :=
  onDev s (fun s => spdm n 1 (fun s => emit (.doe n 0x61 capabilityBytes) (spdmTo n 2 s)) s)

def execNegotiateAlgorithms (n : Nat) (s : State) : Host.Outcome State Fault Refusal :=
  onDev s (fun s => spdm n 2 (fun s => emit (.doe n 0x63 (algorithmBytes spdmAlgorithms)) (spdmTo n 3 s)) s)

def execGetDigests (n : Nat) (s : State) : Host.Outcome State Fault Refusal :=
  onDev s (fun s => spdm n 3 (fun s => emit (.doe n 0x01 (Config.spdmBytes 0x01 0)) s) s)

/-- Slots 1 to 7 are empty (Table 2.7). -/
def execGetCertificate (n slot off len : Nat) (s : State) : Host.Outcome State Fault Refusal :=
  onDev s (fun s => spdm n 3 (fun s =>
    if slot = 0 then emit (.doe n 0x02 (((Config.spdmBytes 0x02 0).drop off).take len)) s else spdmError n 0x01 s) s)

def execChallenge (n slot : Nat) (nonce : BitVec 256) (s : State) : Host.Outcome State Fault Refusal :=
  onDev s (fun s => spdm n 3 (fun s =>
    if slot = 0 then emit (.doe n 0x03 (Config.spdmBytes 0x03 nonce.toNat)) s else spdmError n 0x01 s) s)

/-- What a measurement depends on (Table 2.7): 1 boot ROM, 2 running image, 3 stored settings, 4 severity programming. -/
def measured (s : Dev) (i : Nat) : Nat :=
  match i with
  | 2 => s.fw.version.toNat
  | 3 => s.val Fam.settingsSequence
  | 4 => unle ((List.range 640).map fun k => BitVec.ofNat 8 (s.severity k))
  | _ => 0

def measurementBytes (s : Dev) (i : Nat) : List Byte := le 1 i ++ Config.spdmBytes 0x60 (i + 8 * measured s i)

def execGetMeasurements (n i : Nat) (nonce : BitVec 256) (s : State) : Host.Outcome State Fault Refusal :=
  onDev s (fun s => spdm n 3 (fun s =>
    let sig := Config.spdmBytes 0xE0 nonce.toNat
    if i = 0 then emit (.doe n 0x60 (le 1 4 ++ sig)) s
    else if i ≤ 4 then emit (.doe n 0x60 (measurementBytes s i ++ sig)) s
    else if i = 0xFF then emit (.doe n 0x60 ([1, 2, 3, 4].flatMap (measurementBytes s) ++ sig)) s
    else spdmError n 0x01 s) s)

/-- A session number the device draws; one in use is passed over. -/
def newSession (s : Dev) (n : Nat) : Nat :=
  let v := Config.randomDraw s.fresh % 65536
  if (s.port n).sessions.any (·.1 == v) then (v + 1) % 65536 else v

/-- At most two sessions per PF (Table 2.7). -/
def keyExchange (n : Nat) (share : List Byte) (s : Dev) : Dev :=
  let x := s.port n
  if x.sessions.length < 2 then
    let id := newSession s n
    emit (.doe n 0x64 (le 2 id ++ Config.spdmBytes 0x64 (unle share)))
      ((s.setPort n { x with sessions := x.sessions ++ [(id, false)] }).draw)
  else spdmError n 0x0A s

def execKeyExchange (n : Nat) (share : List Byte) (s : State) : Host.Outcome State Fault Refusal :=
  onDev s (fun s => spdm n 3 (keyExchange n share) s)

/-- In a session: `secured` as asked; InvalidSession else. -/
def inSession (n session : Nat) (secured : Bool) (k : Dev → Dev) (s : Dev) : Dev :=
  if (s.port n).sessions.contains (session, secured) then k s else spdmError n 0x02 s

def setSession (n session : Nat) (dest : Option Bool) (s : Dev) : Dev :=
  let x := s.port n
  let rest := x.sessions.filter (·.1 != session)
  s.setPort n { x with sessions := match dest with | some b => rest ++ [(session, b)] | none => rest }

def execFinish (n session : Nat) (verified : Bool) (s : State) : Host.Outcome State Fault Refusal :=
  onDev s (fun s => spdm n 3 (inSession n session false fun s =>
    if verified then emit (.doe n 0x65 (Config.spdmBytes 0x65 session)) (setSession n session (some true) s)
    else spdmError n 0x06 (setSession n session none s)) s)

def execHeartbeat (n session : Nat) (s : State) : Host.Outcome State Fault Refusal :=
  onDev s (fun s => spdm n 3 (inSession n session true (emit (.doe n 0x68 []))) s)

def execKeyUpdate (n session : Nat) (s : State) : Host.Outcome State Fault Refusal :=
  onDev s (fun s => spdm n 3 (inSession n session true (emit (.doe n 0x69 []))) s)

def execEndSession (n session : Nat) (s : State) : Host.Outcome State Fault Refusal :=
  onDev s (fun s => spdm n 3 (inSession n session true fun s => emit (.doe n 0x6C []) (setSession n session none s)) s)

/-! ### Pending messages (R55) -/

/-- One pending message leaves once it may. -/
def pendingSend (f : Fn) (v : Nat) (s : Dev) : Dev :=
  let x := s.fnS f
  if x.pba.contains v && msixAllowed s f v then sendMsix f v (s.setFn f { x with pba := x.pba.filter (· != v) }) else s

def execMsixPendingSend (f : Fn) (v : Nat) (s : State) : Host.Outcome State Fault Refusal := onDev s (fun s => pendingSend f v s)

end Sys2Proof.Machine
end

