-- ==== Sys2Proof/Machine/Volumes.lean ====
section
/-!
DEFINITION. Volumes and keys (R227 to R230, R382). What changes on a LEAD goes to its MIRROR (R381, log entry 61).
-/

namespace Sys2Proof.Machine

/-- Volume of W0. -/
def wVolume (raw : BitVec 512) : Nat := eWord raw 0 % 2 ^ 14

/-- Capacity of W2 and W3. -/
def wCapacity (raw : BitVec 512) : Nat := eWord raw 2 + 2 ^ 32 * eWord raw 3

/-- R209, R214: 64 MiB extents for the pages of a capacity. -/
def volumeExtents (capacity : Nat) : Nat := cdiv (pagesOf capacity) 16384

/-- The record of a volume for the MIRROR. -/
def sendVolume (v : Nat) (s : Dev) : Dev :=
  match s.vol? v with
  | some x =>
    let s := (extentsOf s v).foldl (fun s e => streamSend (.extent v e.copies) s) s
    streamSend (.volume v x.capacity x.tenant x.array x.readOnly x.writeBack x.kcv) s
  | none => s

/-- R227, qualifier 0x28, but for the extents: `old` pages are already counted. -/
def capacityBad (s : Dev) (cap old : Nat) : Bool :=
  cap == 0 || decide (2 ^ 48 < cap) || decide (s.val Fam.mapWarmLimit + old < mapPages s + pagesOf cap)

/-- Commands of hosts in flight on the volume. -/
def volumeBusy (s : Dev) (v : Nat) : Bool :=
  s.cm.ctxs.any fun c => !isAdminOp (eOpcode c.raw) && (namedVolumes c.raw).contains v && c.phase != .ended

/-! ### VOLUME_CREATE, VOLUME_DELETE, VOLUME_RESIZE -/

def adminVolumeCreate (c : Ctx) (s : Dev) : Dev :=
  let v := wVolume c.raw
  let a := bits (eWord c.raw 0) 21 16
  let t := eWord c.raw 1 % 4096
  let cap := wCapacity c.raw
  if stray c.raw 0 0x3F3FFF || (s.vol? v).isSome || (s.arr? a).isNone then badFieldAt c.id 0x20 s
  else if stray c.raw 1 0xFFF || !(s.ten t).defined then badFieldAt c.id 0x24 s
  else if capacityBad s cap 0 then badFieldAt c.id 0x28 s
  else
    match addExtents v (volumeExtents cap) s with
    | none => badFieldAt c.id 0x28 s
    | some s' =>
      if stray c.raw 4 1 then badFieldAt c.id 0x30 s
      else if s.arrayOffline a then conflict c.id 0x10 s
      else
      let s := s'
      let draw := bit (eWord c.raw 4) 0
      let key := BitVec.ofNat 512 (Config.randomDraw s.fresh)
      let x : Vol := { st := .ready, capacity := cap, tenant := t, array := a, readOnly := false, writeBack := false
                       key := if draw then some key else none, stored := if draw then some key else none
                       kcv := if draw then some (keyCheckValue key) else none, map := [], region := [], allocated := 0, dark := 0
                       deleter := none }
      okWith c.id 0 (writeCatalogue (sendVolume v ((if draw then s.draw else s).setVol v x)))

def execVolumeCreate (s : State) : Host.Outcome State Fault Refusal :=
  onDev s (fun s => withAdmin 0x82 (fun _ => true) adminVolumeCreate s)

/-- R228: what the protected cache holds of the volume for an OFFLINE array goes at once. -/
def dropKept (v : Nat) (s : Dev) : Dev :=
  let mine (i : Item) : Bool := match i with
    | .block _ v' _ _ _ _ => v' == v
    | .delta v' .. => v' == v
  { s with arrays := s.arrays.map fun e =>
      if e.2.offline = 0 then e else (e.1, { e.2 with keptUnits := e.2.keptUnits.filter (!mine ·) }) }

def adminVolumeDelete (c : Ctx) (s : Dev) : Dev :=
  let v := wVolume c.raw
  match s.vol? v with
  | none => badFieldAt c.id 0x20 s
  | some x =>
    if stray c.raw 0 0x3FFF then badFieldAt c.id 0x20 s
    else if x.st = .deleting then conflict c.id 0x15 s
    else
      let s := s.setVol v { x with st := .deleting, deleter := some c.id }
      -- beams that still hold the volume's deltas commit first
      let s := dropKept v s
      settle s

def execVolumeDelete (s : State) : Host.Outcome State Fault Refusal :=
  onDev s (fun s => withAdmin 0x83 (fun _ => true) adminVolumeDelete s)

/-- The new capacity is in force. The map region keeps no entry beyond it, so that what a shrink releases is not found there again (R229). -/
def resizeDone (id v cap : Nat) (s : Dev) : Dev :=
  match s.vol? v with
  | some x =>
    let s := keepExtents v (volumeExtents cap) (s.setVol v { x with
      capacity := cap, region := x.region.filter fun e => decide (e.1 < min cap x.capacity) })
    okWith id 0 (writeCatalogue (sendVolume v s))
  | none => s

/-- R229: place the range delta of a shrink, or count its wait once. -/
def placeShrink (c : Ctx) (s : Dev) : Dev :=
  let v := wVolume c.raw
  match s.vol? v, c.units[0]? with
  | some x, some p =>
    match s.arr? x.array, p.st with
    | some r, .ready _ waits =>
      match placeWait s x.array r v p.lba p.len 0 1 with
      | some w =>
        if w < 3 ∧ bit waits w = false then waitCounter w (modPiece c.id 0 (.ready [] (waits + 2 ^ w)) s) else s
      | none =>
        match hostBeam s x.array r v p.lba p.len 0 with
        | none => s
        | some b =>
          let b : Arr × Nat × Bool := ({ b.1 with nextSeq := r.nextSeq + 1 }, b.2.1, b.2.2)
          resizeDone c.id v p.lba (placeIn x.array b [.delta v p.lba p.len false r.nextSeq 0] false s)
    | _, _ => s
  | _, _ => s

def adminVolumeResize (c : Ctx) (s : Dev) : Dev :=
  let v := wVolume c.raw
  let cap := wCapacity c.raw
  match s.vol? v with
  | none => badFieldAt c.id 0x20 s
  | some x =>
    if stray c.raw 0 0x3FFF then badFieldAt c.id 0x20 s
    else if capacityBad s cap (pagesOf x.capacity) then badFieldAt c.id 0x28 s
    else if x.st = .deleting then conflict c.id 0x15 s
    else if cap < x.capacity then
      if volumeBusy s v then conflict c.id 0x14 s
      else
        let p : Piece := { lba := cap, len := x.capacity - cap, st := .ready [] 0 }
        settle (placeShrink { c with units := [p] } (s.modCtx c.id fun c => { c with units := [p] }))
    else
      match addExtents v (volumeExtents cap - volumeExtents x.capacity) s with
      | none => badFieldAt c.id 0x28 s
      | some s => resizeDone c.id v cap s

def execVolumeResize (s : State) : Host.Outcome State Fault Refusal :=
  onDev s (fun s => withAdmin 0x84 (fun _ => true) adminVolumeResize s)

/-- UNIT_PLACE (R197, R198, R219), and the delta of a shrink that waits (R229). -/
def execUnitPlace (id k : Nat) (s : State) : Host.Outcome State Fault Refusal :=
  onDev s (fun s => match s.ctx? id with
    | some c =>
      if eOpcode c.raw = 0x84 then
        (if c.phase = .started ∧ s.hostRuns = true then settle (placeShrink c s) else s)
      else unitPlace id k s
    | none => s)

/-! ### VOLUME_SET (R382) -/

def adminVolumeSet (c : Ctx) (s : Dev) : Dev :=
  let v := eVolume c.raw
  match s.vol? v with
  | none => badFieldAt c.id 0x04 s
  | some x =>
    if stray c.raw 0 0x101 then badFieldAt c.id 0x20 s
    else if x.st = .deleting then conflict c.id 0x15 s
    else
      let s := s.setVol v { x with readOnly := bit (eWord c.raw 0) 0, writeBack := bit (eWord c.raw 0) 8 }
      settle (okWith c.id 0 (writeCatalogue (sendVolume v s)))

def execVolumeSet (s : State) : Host.Outcome State Fault Refusal := onDev s (fun s => withAdmin 0x85 (fun _ => true) adminVolumeSet s)

/-! ### KEY_LOAD (R230) -/

/-- The named volume, or the field at fault. -/
def keyVolume (s : Dev) (raw : BitVec 512) : Option Vol :=
  if stray raw 0 0x33FFF then none else s.vol? (wVolume raw)

/-- R230: the key pair that a wrapped key holds: none where it does not unwrap, or where its halves are equal. -/
def wrappedKey (b : List Byte) : Option (BitVec 512) :=
  match keyUnwrap (le 32 Config.deviceKek.toNat) b with
  | none => none
  | some k =>
    let key := BitVec.ofNat 512 (unle k)
    if key.extractLsb' 0 256 = key.extractLsb' 256 256 then none else some key

def adminKeyLoad (d : HostData) (c : Ctx) (s : Dev) : Dev :=
  let v := wVolume c.raw
  match adminDescField c.raw, keyVolume s c.raw with
  | some o, _ => badFieldAt c.id o s
  | none, none =>
    -- R98: of the key's field and the volume's, the lower is reported
    match adminData c 72 d with
    | .inl b => badFieldAt c.id (if (wrappedKey b).isNone then 0x10 else 0x20) s
    | .inr _ => badFieldAt c.id 0x20 s
  | none, some x =>
    if x.st = .deleting then conflict c.id 0x15 s
    else
    match adminData c 72 d with
    | .inr r => finish c.id r.1 r.2.1 r.2.2 s
    | .inl b =>
      match wrappedKey b with
      | none => badFieldAt c.id 0x10 s
      | some key =>
        let kcv := keyCheckValue key
        if 0 < x.allocated ∧ x.kcv.isSome = true ∧ x.kcv ≠ some kcv then badFieldAt c.id 0x10 s
        else
          let persist := bit (eWord c.raw 0) 16
          let x := { x with key := some key, stored := if persist then some key else x.stored
                            kcv := if 0 < x.allocated ∧ x.kcv.isSome = true then x.kcv else some kcv }
          let s := streamSend (.key v (some key)) (s.setVol v x)
          okWith c.id 0 (if persist then writeCatalogue s else s)

def execKeyLoad (d : HostData) (s : State) : Host.Outcome State Fault Refusal :=
  onDev s (fun s => withAdmin 0x8F (fun r => !bit (eWord r 0) 17) (adminKeyLoad d) s)

/-- Unload: the descriptor is ignored, and the stored key check value stays. -/
def adminKeyUnload (c : Ctx) (s : Dev) : Dev :=
  let v := wVolume c.raw
  match keyVolume s c.raw with
  | none => badFieldAt c.id 0x20 s
  | some x =>
    if x.st = .deleting then conflict c.id 0x15 s
    else okWith c.id 0 (writeCatalogue (streamSend (.key v none) (s.setVol v { x with key := none, stored := none })))

def execKeyUnload (s : State) : Host.Outcome State Fault Refusal :=
  onDev s (fun s => withAdmin 0x8F (fun r => bit (eWord r 0) 17) adminKeyUnload s)

end Sys2Proof.Machine
end

