-- ==== Sys2Proof/Machine/Memory.lean ====
section
/-!
DEFINITION. The power-fail dump, hold-up certification and memory errors (chapter 8).
-/

namespace Sys2Proof.Machine

/-! ### The window (R240) -/

/-- The host blocks of a beam's items or of kept items. -/
def slotItems (l : List Item) : List Item := l.filter fun i => match i with | .block _ _ _ _ _ none => true | _ => false

/-- R240, R242: the blocks that hold a data slot, as array, beam (`journalItself` while it waits for one) and block: of each array the
uncommitted beams in open order, what is kept, and what a MIRROR holds for its LEAD (R382). The first stands in slot 0: which slot a block
takes the spec does not say (DESIGN CHOICE, log entry 83). -/
def windowBlocks (s : Dev) : List (Nat × Nat × Item) :=
  (s.arrays.flatMap fun e => if e.2.writeThrough then [] else
    e.2.beams.flatMap (fun b => (slotItems b.items).map (e.1, b.num, ·)) ++ (slotItems e.2.keptUnits).map (e.1, journalItself, ·))
  ++ (s.pr.held.filter fun e => !isDelta e.2).map fun e => (e.1, journalItself, e.2)

/-- The block of a write sequence and LBA holds a data slot. -/
def inWindow (s : Dev) (a seq lba : Nat) : Bool :=
  (windowBlocks s).any fun e => e.1 == a && (match e.2.2 with
    | .block _ _ l q _ _ => q == seq && l == lba
    | .delta .. => false)

/-- The window holds acknowledged data whose beams have not committed (R240, R461), of this device or of its LEAD (R382). -/
def windowHolds (s : Dev) : Bool :=
  (s.arrays.any fun e => !e.2.writeThrough && (e.2.beams.any (fun b => !b.items.isEmpty) || !e.2.keptUnits.isEmpty))
    || !s.pr.held.isEmpty

/-! ### Window units on the vaults (R241, R244) -/

/-- R244: offset of unit `u` in the vault area; it goes to vault u mod 2. -/
def unitOffset (u : Nat) : Nat := mib + u / 2 * mib

/-- The fields of a committed delta of a beam. -/
def deltaFields (a beam : Nat) (d : MapDelta) : List Nat :=
  match d with
  | .block n v lba q crc src => [0, a, beam, n, v, lba, q, crc.toNat] ++ (match src with | some t => [1, t.1, t.2.1, t.2.2] | none => [0])
  | .range v lba n zero q after => [1, a, beam, v, lba, n, b2n zero, q, after]

/-- R241: entries of the delta-log ring, by their place. -/
def logParts (s : Dev) : List (Nat × List Byte) :=
  s.arrays.flatMap fun e => e.2.log.flatMap fun l =>
    ((List.range l.2.2.length).zip l.2.2).map fun d =>
      (0x410000 + (l.2.1 + d.1) % (256 * mib / 32) * 32, fitBytes 32 (Config.logEntry (deltaFields e.1 l.1 d.2)))

/-- The head of the delta log: the place of its oldest delta beyond the horizon. -/
def logHead (s : Dev) : Nat := (s.arrays.flatMap fun e => e.2.log.map (·.2.1)).foldl min s.ms.logTail

/-- R241: a data slot and its directory entry; the directory is packed at the end of the area. A poisoned slot carries the poison mark. -/
def slotParts (s : Dev) (slot : Nat) (e : Nat × Nat × Item) : List (Nat × List Byte) :=
  match e.2.2 with
  | .block n v lba q d _ =>
    let data := if s.pc.poisoned.contains (e.1, q, lba) then Config.poisonMark else d.data
    let dir := 0x10410000 + (((windowLayout (windowBytes s)).getD 3 (0, 0)).2 / 4096 - cdiv (windowSlots s) 128) * 4096
    [(0x10410000 + slot * 4096, fitBytes 4096 data),
     (dir + slot * 32, fitBytes 32 (Config.slotEntry [v, lba, q, e.1, e.2.1, n, (crc32c d.data).toNat]))]
  | .delta .. => []

/-- Table 8.5: what the window holds, as offset and bytes: header, journal working copies, delta log, data slots and directory. -/
def windowParts (s : Dev) : List (Nat × List Byte) :=
  let blocks := windowBlocks s
  [(0, fitBytes 65536 (Config.windowHeader s.pc.imageSeq (logHead s) s.ms.logTail (List.range blocks.length)))]
  ++ (s.arrays.map fun e => (0x10000 + e.1 * 65536, journalBytes e.1 e.2 s.ms.mapGen))
  ++ logParts s
  ++ ((List.range blocks.length).zip blocks).flatMap fun e => slotParts s e.1 e.2

/-- What parts hold of the bytes from `lo` on, with offsets from there. -/
def clip (lo len : Nat) (parts : List (Nat × List Byte)) : List (Nat × List Byte) :=
  (parts.map fun p => (max p.1 lo - lo, (p.2.drop (lo - p.1)).take (lo + len - max p.1 lo))).filter fun p => !p.2.isEmpty

/-- One unit goes to its vault, in as many Writes as the member needs (R301). -/
def streamUnit (parts : List (Nat × List Byte)) (u m : Nat) (s : Dev) : Dev :=
  let start := (s.mem m).a0 + unitOffset u
  (splits (maxTransfer (s.mem m)) start mib).foldl (fun s p =>
    let t := s.mb.nextTag
    emit (.windowUnit t m p.1 u p.2 (clip (u * mib + (p.1 - start)) p.2 parts)) { s with mb := { s.mb with nextTag := t + 1 } }) s

/-- The units of the window in ascending order, each to its vault. -/
def streamUnits (s : Dev) : Dev :=
  let parts := windowParts s
  (List.range (s.pc.windowGib * 1024)).foldl (fun s u => match s.pc.vaults.getD (u % 2) none with
    | some m => streamUnit parts u m s
    | none => s) s

/-- R244: CRC-32C of unit `u`. Over a unit that is in use to its last byte it is computed; the open bytes of another make it any value. -/
def unitCrc (imageSeq u : Nat) (parts : List (Nat × List Byte)) : Word :=
  let held := clip (u * mib) mib parts
  if (held.map (·.2.length)).sum = mib then crc32c ((held.mergeSort fun a b => decide (a.1 ≤ b.1)).flatMap (·.2))
  else Config.unitCrc imageSeq u

/-- The unit CRC table of vault `v`, which fills its area from 4 KiB on. -/
def crcTable (s : Dev) (v : Nat) : List Byte :=
  let parts := windowParts s
  (List.range (s.pc.windowGib * 512)).flatMap fun i => le 4 (unitCrc s.pc.imageSeq (2 * i + v) parts).toNat

/-! ### The dump (R248, R249) -/

/-- Table 8.6: the 4 KiB header of vault `v`. -/
def vaultHeader (s : Dev) (v st : Nat) : List Byte :=
  let b := fitBytes 0xFFC (le 4 0x544C5656 ++ le 2 1 ++ le 1 v ++ le 1 st ++ le 8 s.ident.serial.toNat ++ le 8 s.pc.imageSeq
    ++ le 8 s.pc.dumpTime ++ le 4 (s.pc.windowGib * 1024) ++ le 4 s.pc.poisoned.length ++ le 4 (crc32c (crcTable s v)).toNat)
  b ++ le 4 (crc32c b).toNat

/-- Write the headers of the vaults in use, at the start of their vault areas. -/
def writeHeaders (st : Nat) (s : Dev) : Dev :=
  let one (s : Dev) (v : Nat) : Dev := match s.pc.vaults.getD v none with
    | some m => vaultWrite m (s.mem m).a0 (vaultHeader s v st) s
    | none => s
  let s := one (one s 0) 1
  let set (v old : Nat) : Nat := if (s.pc.vaults.getD v none).isSome then st else old
  { s with pc := { s.pc with hdr0 := set 0 s.pc.hdr0, hdr1 := set 1 s.pc.hdr1 } }

/-- Steps 1 to 3: the dump starts, unless an unconsumed image exists or one runs or has ended (Table 8.9). -/
def startDump (quiet : Bool) (s : Dev) : Dev :=
  if s.pc.image.isNone && s.val Fam.pcacheDumpState == 0 then
    ({ s with pc := { s.pc with quiet := quiet, dumpTime := s.tm.device, testing := false } }).setVal Fam.pcacheDumpState 0 1
  else s

/-- The destage of R33 cannot finish: the data stays in the protected cache, the request is refused, and the heads are parked again. -/
def stopDestage (s : Dev) : Dev :=
  let s := abandonAll ((s.setVal Fam.deviceModeRefusal 0 5).setTrans none)
  s.lensUp.foldl (fun s n => lensPark n (lensShutter n s)) s

/-- PWR_FAIL_N in ECLIPSE: a soft reset under way is abandoned (Table 8.9), and a destage, whose member commands may not go on. -/
def powerFailStops (s : Dev) : Dev :=
  if s.destaging then stopDestage s
  else if s.softResetting then s.setTrans none
  else s

/-- POWER_FAIL: PWR_FAIL_N low for 500 ns. The source latches, and with it the device enters ECLIPSE; the dump needs the DDR. -/
def powerFail (s : Dev) : Dev :=
  if s.periscope then
    let s := if s.inMode .eclipse then powerFailStops s else s
    let s := hubReal 0x003 0 false { s with pw := { s.pw with pwrFailLow := true } }
    if s.inMode .eclipse && s.pw.ddrReady then startDump false s else s
  else s

def execPowerFail (s : State) : Host.Outcome State Fault Refusal := onDev s (fun s => powerFail s)

/-- Step 4: the host-port SerDes and the member ports without a vault are powered down: every host link goes, as with a reset of the port
(log entry 74), and no port is terminated until ECLIPSE is left. A member port shows no link until a HOTPLUG_ARRIVAL. -/
def powerDownPorts (s : Dev) : Dev :=
  let s := { s with pw := { s.pw with hostTerminated := false } }
  let s := (List.range 16).foldl (fun s n =>
    if (s.port n).linkUp then raise (0x082 + 4 * n) 0 false (portReset n s)
    else s.setPort n { s.port n with readyToTrain := false }) s
  let kept := (s.pc.vaults.filterMap id).map fun m => (s.mem m).port
  ((List.range 32).filter (!kept.contains ·)).foldl (fun s n => s.setVal Fam.mportLink n 0) s

/-- DUMP_QUIESCED, steps 4 and 5: what was issued to other members is abandoned, and the window streams to the vaults. -/
def dumpQuiesced (s : Dev) : Dev :=
  if s.val Fam.pcacheDumpState = 1 then
    let cmds := s.mb.cmds.map fun c => if s.pc.vaults.contains (some c.member) then c else { c with dead := true }
    let s := { s with
      mb := { s.mb with cmds := cmds }
      pc := { s.pc with imageSeq := s.pc.imageSeq + 1, poisoned := s.pc.poisoned.filter fun p => inWindow s p.1 p.2.1 p.2.2 } }
    streamUnits (writeHeaders 0 ((powerDownPorts s).setVal Fam.pcacheDumpState 0 2))
  else s

def execDumpQuiesced (s : State) : Host.Outcome State Fault Refusal := onDev s (fun s => dumpQuiesced s)

/-- DUMP_STREAM_COMPLETE, step 6: the CRC tables are written and Flush is sent. -/
def dumpStreamComplete (s : Dev) : Dev :=
  if s.val Fam.pcacheDumpState = 2 then
    [0, 1].foldl (fun s v => match s.pc.vaults.getD v none with
      | some m => memberCtl m "Flush" s.pc.imageSeq (vaultWrite m ((s.mem m).a0 + 4096) (crcTable s v) s)
      | none => s) s
  else s

def execDumpStreamComplete (s : State) : Host.Outcome State Fault Refusal := onDev s (fun s => dumpStreamComplete s)

/-- VAULT_FLUSH_COMPLETE, step 7: the headers of the vaults that completed are sealed. -/
def vaultFlushComplete (s : Dev) : Dev := if s.val Fam.pcacheDumpState = 2 then writeHeaders 1 s else s

def execVaultFlushComplete (s : State) : Host.Outcome State Fault Refusal := onDev s (fun s => vaultFlushComplete s)

/-- DUMP_SEALED, steps 8 and 9: both headers are sealed, or a vault has failed or was never there and the dump has ended unsealed (R249).
Either way the record of the dump is written. -/
def dumpSealed (us : Nat) (s : Dev) : Dev :=
  let both := s.pc.vaults.length == 2 && s.pc.vaults.all Option.isSome
  if s.val Fam.pcacheDumpState = 2 ∧ (both = true → s.pc.hdr0 = 1 ∧ s.pc.hdr1 = 1) then
    let s := if both then
        ({ s with pc := { s.pc with image := some (s.pc.windowGib * 1024) } }).setVal Fam.pcacheDumpState 0 3 |>.bump Fam.pcacheDumps
      else s.setVal Fam.pcacheDumpState 0 4
    bbox 0x04 0 0xFFFF 0xFF (le 8 s.pc.imageSeq ++ le 4 (s.pc.windowGib * 1024) ++ le 4 s.pc.poisoned.length ++ le 4 us) s
  else s

/-- DUMP_VAULT_FAILED: nothing more is written to the vault, and its header is not sealed. -/
def dumpVaultFailed (v : Nat) (s : Dev) : Dev :=
  let st := s.val Fam.pcacheDumpState
  if (st = 1 ∨ st = 2) ∧ v < 2 then { s with pc := { s.pc with
      vaults := s.pc.vaults.set v none, hdr0 := if v = 0 then 0 else s.pc.hdr0, hdr1 := if v = 1 then 0 else s.pc.hdr1 } }
  else s

def execDumpVaultFailed (v : Nat) (s : State) : Host.Outcome State Fault Refusal := onDev s (fun s => dumpVaultFailed v s)

/-! ### Hold-up certification (R245 to R247) -/

/-- VAULT_TEST: at each transition to FOCUS and every 24 h, while no unconsumed image exists. -/
def vaultTest (s : Dev) : Dev :=
  if s.executing && s.pc.image.isNone && !s.pc.testing && s.pc.vaults.any Option.isSome then
    (s.pc.vaults.filterMap id).foldl (fun s m => memberCtl m "vault test" 256 s) { s with pc := { s.pc with testing := true } }
  else s

def execVaultTest (s : State) : Host.Outcome State Fault Refusal := onDev s (fun s => vaultTest s)

/-- VAULT_TEST_COMPLETE: the rates measured, MB/s; a vault that is absent has none. -/
def vaultTestComplete (r0 r1 : Nat) (s : Dev) : Dev :=
  if s.pc.testing && s.executing then
    let was := certified s
    let rate (v r : Nat) : Nat := if (s.pc.vaults.getD v none).isSome then min r 65535 else 0
    let s := { s with pc := { s.pc with testing := false, r0 := rate 0 r0, r1 := rate 1 r1 } }
    afterHoldup was (s.setVal Fam.pcacheVaultRateMbps 0 (s.pc.r0 + 65536 * s.pc.r1))
  else s

def execVaultTestComplete (r0 r1 : Nat) (s : State) : Host.Outcome State Fault Refusal := onDev s (fun s => vaultTestComplete r0 r1 s)

/-- HOLDUP_ATTEST: any value records an attestation. -/
def attest (s : Dev) : Dev := settle { s with pc := { s.pc with attested := true } }

def execHoldupAttest (who : Master) (s : State) : Host.Outcome State Fault Refusal :=
  onDev s (fun s => guardedWrite who Fam.pcacheHoldupAttest 0 always attest s)

/-- ATTEST_EXPIRE. -/
def attestExpire (s : Dev) : Dev :=
  let was := certified s
  afterHoldup was { s with pc := { s.pc with attested := false } }

def execAttestExpire (s : State) : Host.Outcome State Fault Refusal := onDev s (fun s => if s.periscope then attestExpire s else s)

/-! ### Tracking (R253, R254) -/

/-- Where a correction stands in the table. -/
def trackKey (ch rank lane kind : Nat) : Nat := ((ch * 8 + rank) * 9 + lane) * 2 + kind

/-- One correction of a channel, rank and byte lane, of read-DQS centring (`kind` 0) or of write levelling (1), in delay steps: beyond the
limit it is held there, and signals. -/
def correct (ch rank lane kind : Nat) (d : Int) (s : Dev) : Dev :=
  let held : Int := if 32 < d then 32 else if d < -32 then -32 else d
  let s := { s with ms := { s.ms with correction := tset s.ms.correction (trackKey ch rank lane kind) (held + 32).toNat 32 } }
  if held = d then s else raise (0x06A + ch) lane false (s.bump Fam.ddrTrackSaturated)

/-- TRACKING_SLOT: what a slot finds for one rank and one byte lane (of nine with the check bits): read-DQS centring and write levelling. -/
def trackingSlot (ch rank lane : Nat) (dqs level : Int) (s : Dev) : Dev :=
  if s.coreUp && s.pw.ddrReady && decide (ch < 12) && decide (rank < 8) && decide (lane < 9) then
    correct ch rank lane 1 level (correct ch rank lane 0 dqs s)
  else s

def execTrackingSlot (ch : Nat) (lane : Nat × Nat) (d : Int × Int) (s : State) : Host.Outcome State Fault Refusal :=
  onDev s (fun s => trackingSlot ch lane.1 lane.2 d.1 d.2 s)

/-! ### Memory errors (R255, R256) -/

/-- Row of Table 8.8. -/
def memRow : MemError → Nat
  | .warmPage .. => 0
  | .hotPage .. => 1
  | .windowSlot .. => 2
  | .dumpSlot .. => 3
  | .journalCopy _ => 4
  | .assemblyCached .. => 5
  | .assemblyThrough .. => 6
  | .queueState .. => 7
  | .softBuffer .. => 8
  | .control => 9

/-- Read one unit of a WRITE again from the host buffer. -/
def rereadUnit (id k : Nat) (s : Dev) : Dev :=
  match s.ctx? id with
  | none => s
  | some c =>
    match c.units[k]? with
    | none => s
    | some p =>
      let again := eOpcode c.raw == opWrite && s.hostRuns && (match p.st with | .ready .. => true | .placed _ => true | _ => false)
      if again then
        let s := match p.st with
          | .ready .. => modPiece id k .reading s
          | _ => markAgain id k true s
        bufferRead c.fn c.raw c.segs (4096 * (p.lba - eLba c.raw)) (4096 * p.len) s
      else s

/-- The facets of the beam that holds the unit have all been written, so that the window alone has it. -/
def onlyInWindow (s : Dev) (a seq : Nat) : Bool :=
  match s.arr? a with
  | some x => x.beams.any fun b => b.closed && b.seqs.contains seq && b.facets.all (fun f => match f with
      | .pending _ => false
      | _ => true)
  | none => false

def poison (a seq lba : Nat) (s : Dev) : Dev :=
  if inWindow s a seq lba && !s.pc.poisoned.contains (a, seq, lba) then
    { s with pc := { s.pc with poisoned := s.pc.poisoned ++ [(a, seq, lba)] } }
  else s

/-- The newest copy of the journal on a member is read for the working copy of the window, and a checkpoint starts. What the working copy
holds beyond it stands in the condenser, so the rewritten copy is as it was (DEDUCED, log entry 83). -/
def reloadJournal (a : Nat) (s : Dev) : Dev :=
  match s.arr? a with
  | none => s
  | some x =>
    let s := match bestJournal s x with
      | some c => issue c.member false (journalOffset a c.slot) 65536 [] .reload s
      | none => s
    startCheckpoint s

/-- The action column of Table 8.8. What is taken again from the warm tier or from a window slot changes nothing that can be seen. -/
def memAction (e : MemError) (s : Dev) : Dev :=
  match e with
  | .warmPage v p => if s.executing then reloadPage v p 0 s else s
  | .hotPage .. => s
  | .windowSlot a seq lba => if onlyInWindow s a seq then poison a seq lba s else s
  | .dumpSlot a seq lba => if s.val Fam.pcacheDumpState = 2 then poison a seq lba s else s
  | .journalCopy a => if s.executing then reloadJournal a s else s
  | .assemblyCached .. => s
  | .assemblyThrough id k => rereadUnit id k s
  | .queueState f q => stopSq f q s
  | .softBuffer ch pba =>
    let l := s.lens ch
    let old := (l.rereads.find? (·.1 == pba)).getD (pba, false, 0, 1)
    s.setLens ch { l with rereads := l.rereads.filter (·.1 != pba) ++ [(pba, old.2.1, old.2.2.1, 1)] }
  | .control =>
    -- which of the eight cores the fault is of, the spec does not say: a free value
    let core := Config.freeNat s.fresh % 8
    (raise (0x016 + core) core false s).draw

/-- Soft buffers and queue state lie in the condenser, the others in DDR or where the sender says. -/
def patrolScrub (ddr : Bool) (corrected : Nat) (u : Option (MemError × Nat)) (s : Dev) : Dev :=
  if s.coreUp && s.pw.ddrReady then
    let s := s.addVal (if ddr then Fam.ddrCeCount else Fam.condenserCeCount) 0 corrected
    match u with
    | none => s
    | some (e, detail) =>
      let s := s.bump (if ddr then Fam.ddrUeCount else Fam.condenserUeCount)
      settle (raise (0x060 + memRow e) detail false (memAction e s))
  else s

def execPatrolScrub (ddr : Bool) (corrected : Nat) (u : Option (MemError × Nat)) (s : State) : Host.Outcome State Fault Refusal :=
  onDev s (fun s => patrolScrub ddr corrected u s)

end Sys2Proof.Machine
end

