-- ==== Sys2Proof/Machine/Firmware.lean ====
section
/-!
DEFINITION. Firmware images: verification (R465), download (R468, R469), activation (R128 to R130) and the svn (R470).
-/

namespace Sys2Proof.Machine

/-! ### Slots -/

/-- Write a slot; `boot.slot_state` shows it. -/
def setImageSlot (n : Nat) (x : ImageSlot) (s : Dev) : Dev :=
  let fw := if n = 0 then { s.fw with slotA := x } else { s.fw with slotB := x }
  ({ s with fw := fw }).setVal Fam.bootSlotState 0 (fw.slotA.st + 16 * fw.slotB.st)

/-- R465: the image passes verification. -/
def imageValid (s : Dev) (i : ImageFacts) : Bool :=
  i.magic == 0x4B554F4D && i.version == 1 && decide (i.bodyLen ≤ 32 * 2 ^ 20 - 4096) && i.rootHashOk && i.imageSigOk
    && i.headerSigOk && decide (s.val Fam.bootMinSvn ≤ i.svn) && i.bodyHashOk

def slotPasses (s : Dev) (img : Option ImageFacts) : Bool := (img.map (imageValid s)).getD false

/-- Verification of a whole slot after its final piece, or at a commit (R468, R448). -/
def judgeSlot (n : Nat) (img : Option ImageFacts) (s : Dev) : Dev :=
  setImageSlot n { s.imageSlot n with st := if slotPasses s img then 2 else 3, img := img, writer := 0 } s

/-- A slot is erased and its writer named. -/
def eraseSlot (n writer : Nat) (s : Dev) : Dev := setImageSlot n { st := 1, img := none, writer := writer, written := [] } s

/-- R469: a slot that `who` (1 admin, 2 side-band) may not write: the running image booted from it, or another writes it. -/
def slotBarred (s : Dev) (n who : Nat) : Bool :=
  (s.coreUp && s.val Fam.bootBootedSlot == n) || ((s.imageSlot n).writer != 0 && (s.imageSlot n).writer != who)

/-! ### FIRMWARE_DOWNLOAD -/

def downloadField (s : Dev) (raw : BitVec 512) : Option Nat :=
  let off := eWord raw 1
  let len := eWord raw 2
  if stray raw 0 0x101 || slotBarred s (eWord raw 0 % 2) 1 then some 0x20
  else if off % 4096 ≠ 0 ∨ 32 * 2 ^ 20 ≤ off then some 0x24
  else if len % 4096 ≠ 0 ∨ len = 0 ∨ 2 ^ 20 < len then some 0x28
  else none

/-- One piece (R468): written and read back; after the final one the slot is verified. -/
def adminDownload (piece : HostData) (img : Option ImageFacts) (c : Ctx) (s : Dev) : Dev :=
  let n := eWord c.raw 0 % 2
  let off := eWord c.raw 1
  let len := eWord c.raw 2
  match adminDescField c.raw with
  | some o => badFieldAt c.id o s
  | none =>
    match downloadField s c.raw with
    | some o => badFieldAt c.id o s
    | none =>
      if s.fw.activating.isSome then conflict c.id 0x41 s
      else match adminData c len piece with
        | .inr r => finish c.id r.1 r.2.1 r.2.2 s
        | .inl _ =>
          let s := if off = 0 then eraseSlot n 1 s else s
          let x := s.imageSlot n
          let s := setImageSlot n { x with written := x.written ++ [(off, len)] } s
          if bit (eWord c.raw 0) 8 then
            let s := judgeSlot n img s
            if (s.imageSlot n).st = 2 then okWith c.id 0 s else badFieldAt c.id 0x10 s
          else okWith c.id 0 s

def execFirmwareDownload (piece : HostData) (img : Option ImageFacts) (s : State) : Host.Outcome State Fault Refusal :=
  onDev s (fun s => withAdmin 0x90 (fun _ => true) (adminDownload piece img) s)

/-- DOWNLOAD_WRITER_EXPIRE (R469): the slot keeps its state. -/
def writerExpire (n : Nat) (s : Dev) : Dev := setImageSlot n { s.imageSlot n with writer := 0 } s

def execDownloadWriterExpire (n : Nat) (s : State) : Host.Outcome State Fault Refusal :=
  onDev s (fun s => if s.periscope && decide (n < 2) then writerExpire n s else s)

/-! ### FIRMWARE_ACTIVATE -/

/-- Steps 1 and 2 of Table 4.10. With no verified image and another activation in progress, qualifier 0x40 is reported: R130 names no order
(DESIGN CHOICE, log entry 75). -/
def adminActivate (c : Ctx) (s : Dev) : Dev :=
  let n := eWord c.raw 0 % 2
  if stray c.raw 0 1 then badFieldAt c.id 0x20 s
  else if (s.imageSlot n).st ≠ 2 then conflict c.id 0x40 s
  else if s.fw.activating.isSome then conflict c.id 0x41 s
  else ({ s with fw := { s.fw with activating := some (n, c.id), stallStart := s.tm.now } }).setVal Fam.fwActivationState 0 1

def execFirmwareActivate (s : State) : Host.Outcome State Fault Refusal := onDev s (fun s => withAdmin 0x91 (fun _ => true) adminActivate s)

/-- The activation ends: fetch resumes, held queue ops are performed, the command completes. -/
def endActivation (status qual : Nat) (s : Dev) : Dev :=
  match s.fw.activating with
  | none => s
  | some (n, id) =>
    let s := noteActivation n status qual s.fw.version s
    let s := ({ s with fw := { s.fw with activating := none } }).setVal Fam.fwActivationState 0 0
    finish id status qual 0 (performHeldOps s)

/-- Step 3: no command is outstanding but the activation. -/
def activationDrained (s : Dev) : Dev :=
  match s.fw.activating with
  | some (_, id) =>
    if s.val Fam.fwActivationState = 1 ∧ s.executing = true ∧ (s.cm.ctxs.all fun c => c.id == id) = true then
      s.setVal Fam.fwActivationState 0 2
    else s
  | none => s

def execActivationDrainComplete (s : State) : Host.Outcome State Fault Refusal := onDev s (fun s => activationDrained s)

/-- R129: fetch resumes, which ends the stall (R134). -/
def drainTimeout (s : Dev) : Dev :=
  if s.val Fam.fwActivationState = 1 ∧ s.executing = true then endActivation 0x05 0x42 s else s

def execActivationDrainTimeout (s : State) : Host.Outcome State Fault Refusal := onDev s (fun s => drainTimeout s)

/-- Steps 5 and 6: the image runs, and the next boot under BOOT_MODE 00 loads it (R470). -/
def activationResume (stallUs : Nat) (s : Dev) : Dev :=
  match s.fw.activating with
  | some (n, _) =>
    if (s.val Fam.fwActivationState = 2 ∨ s.val Fam.fwActivationState = 3) ∧ s.executing = true then
      let s := endActivation 0 0 s
      let s := match (s.imageSlot n).img with
        | some i => { s with fw := { s.fw with version := i.fwVersion, svn := i.svn } }
        | none => s
      let s := (s.setVal Fam.bootSlot 0 n).setVal Fam.bootBootedSlot 0 n
      s.setVal Fam.fwLastStallUs 0 (min stallUs 0xFFFFFFFF)
    else s
  | none => s

def execActivationResume (stallUs : Nat) (s : State) : Host.Outcome State Fault Refusal := onDev s (fun s => activationResume stallUs s)

/-! ### The security version (R470) -/

/-- The accepted range; without a running image there is none. -/
def svnRefusal (v : Nat) (s : Dev) : Nat :=
  if (s.coreUp || s.pw.ddrReady) && decide (s.val Fam.bootMinSvn ≤ v) && decide (v ≤ s.fw.svn) then 0 else rUnavailable

def execSvnCommit (who : Master) (v : Nat) (s : State) : Host.Outcome State Fault Refusal :=
  onDev s (fun s => guardedWrite who Fam.bootSvnCommit 0 (svnRefusal v) (fun s => s.setVal Fam.bootMinSvn 0 v) s)

end Sys2Proof.Machine
end

