-- ==== Sys2Proof/Machine/Objects.lean ====
section
/-!
DEFINITION. How index and subindex name an object (Table 16.3): the family and the number within it.
-/

namespace Sys2Proof.Machine

/-- The number within the family, by its rule. -/
def Row.which (r : Row) (index sub : Nat) : Option Nat :=
  let n : Option Nat := match r.rule with
    | 0 => if index = r.index ∧ sub = r.sub then some 0 else none
    | 1 => if r.index ≤ index ∧ sub = r.sub then some (index - r.index) else none
    | 2 => if r.index ≤ index then some ((index - r.index) * 256 + sub) else none
    | 3 => if r.index ≤ index ∧ sub % 16 = r.f ∧ sub / 16 < 4 then some ((index - r.index) * 4 + sub / 16) else none
    | 4 => if r.index ≤ index ∧ sub % 16 = r.f then some ((index - r.index) * 16 + sub / 16) else none
    | _ => if index = r.index ∧ r.sub ≤ sub then some (sub - r.sub) else none
  n.bind fun k => if k < r.instances then some k else none

/-- Search the families from number `k`. -/
def findFrom (index sub : Nat) : Nat → List Row → Option (Nat × Nat)
  | _, [] => none
  | k, r :: t =>
    match r.which index sub with
    | some n => some (k, n)
    | none => findFrom index sub (k + 1) t

/-- The object that index and subindex name. -/
def findObject (index sub : Nat) : Option (Nat × Nat) := if index = 0 then none else findFrom index sub 0 catalogue

/-- Index and subindex of number `n` of family `f`. -/
def objectAt (f n : Nat) : Nat × Nat :=
  let r := famRow f
  match r.rule with
  | 0 => (r.index, r.sub)
  | 1 => (r.index + n, r.sub)
  | 2 => (r.index + n / 256, n % 256)
  | 3 => (r.index + n / 4, 16 * (n % 4) + r.f)
  | 4 => (r.index + n / 16, 16 * (n % 16) + r.f)
  | _ => (r.index, r.sub + n)

/-- R381: an RWS object of index ranges 0x3000 to 0x6FFF. -/
def streamedObject (f : Nat) : Bool :=
  let r := famRow f
  r.access == .RWS && decide (0x3000 ≤ r.index) && decide (r.index ≤ 0x6FFF)

end Sys2Proof.Machine
end

