-- ==== Sys2Proof/Machine/Pair.lean ====
section
/-!
DEFINITION. The mirror pair (chapter 13): the link, PAIR_START, PAIR_DISSOLVE and PAIR_SWAP, the lease, takeover, the stream, the
verdict on a mismatch, and resynchronisation; with the known-answer test of Prism (R189), which the verdict uses.
-/

namespace Sys2Proof.Machine

def pairMsg (what : String) (a b : Nat) (s : Dev) : Dev := emit (.pair what a b) s

/-- `pair.state`. -/
def setPairState (n : Nat) (s : Dev) : Dev := s.setVal Fam.pairState 0 n

/-! ### The mirror link (R365, R367) -/

/-- `pair.link`, and source 0x242 while the link is narrower than x16. -/
def showLink (s : Dev) : Dev :=
  let p := s.pr
  let s := s.setVal Fam.pairLink 0 (b2n p.linkUp + 2 * (p.width % 32) + 64 * b2n p.partnerStrap)
  if p.linkUp && decide (p.width < 16) then raise 0x242 p.width false s else hubFall 0x242 s

/-- R367: equal straps. -/
def strapsEqual (s : Dev) : Bool := s.pr.linkUp && s.pr.partnerStrap == s.pw.pairId

/-- MIRROR_LINK_UP: serial and strap of the partner are read. -/
def linkComesUp (serial : Quad) (strap : Bool) (width : Nat) (s : Dev) : Dev :=
  let s := { s with pr := { s.pr with linkUp := true, width := width, partnerStrap := strap } }
  let s := showLink (s.setVal Fam.pairPartnerSerial 0 serial.toNat)
  if strapsEqual s then s.setVal Fam.pairRefusal 0 1 else s

def execMirrorLinkUp (serial : Quad) (strap : Bool) (width : Nat) (s : State) : Host.Outcome State Fault Refusal :=
  onDev s (fun s => if s.coreUp then linkComesUp serial strap width s else s)

def execMirrorLinkRetrain (width : Nat) (s : State) : Host.Outcome State Fault Refusal :=
  onDev s (fun s => if s.coreUp && s.pr.linkUp then showLink { s with pr := { s.pr with width := width } } else s)

/-- MIRROR_LINK_DOWN: renewals and acknowledgements pass no more; what follows from that has rows of its own. -/
def linkGoesDown (s : Dev) : Dev := showLink { s with pr := { s.pr with linkUp := false, width := 0 } }

def execMirrorLinkDown (s : State) : Host.Outcome State Fault Refusal := onDev s (fun s => if s.coreUp then linkGoesDown s else s)

/-! ### PAIR_START (R368, Table 13.1) -/

/-- Resynchronisation from a LEAD, or from a SOLO device, begins (R384). -/
def beginResync (fromLead : Bool) (id : Nat) (s : Dev) : Dev :=
  let s := { s with
    pr := { s.pr with resync := some (fromLead, id), caughtUp := false, streamSeen := 0, held := [], deferred := [], fenced := false }
    mb := { s.mb with named := [] } }
  pairMsg "RESYNC_START" 0 0 ((setPairState 1 s).setVal Fam.pairResyncPct 0 0)

def adminPairStart (partnerLead partnerSolo : Bool) (c : Ctx) (s : Dev) : Dev :=
  if stray c.raw 0 1 then badFieldAt c.id 0x20 s
  else if s.val Fam.pairEnable = 0 then conflict c.id 0x30 s
  else if strapsEqual s then conflict c.id 0x30 (s.setVal Fam.pairRefusal 0 1)
  else if s.transiting then conflict c.id 0x03 s
  else match s.pw.mode with
    | some .focus =>
      if s.pw.recovering ≠ [] then conflict c.id 0x01 (s.setVal Fam.pairRefusal 0 2)
      else if !s.pr.linkUp then
        if eWord c.raw 0 % 2 = 1 then startTie .focus (some c.id) s else conflict c.id 0x32 s
      else if partnerLead || partnerSolo then beginResync partnerLead c.id s
      else startTie .focus (some c.id) s
    | some .solo => if s.pr.partnerReady then startTie .solo (some c.id) s else conflict c.id 0x31 s
    | _ => okWith c.id 0 s

def execPairStart (partnerLead partnerSolo : Bool) (s : State) : Host.Outcome State Fault Refusal :=
  onDev s (fun s => withAdmin 0x92 (fun _ => true) (adminPairStart partnerLead partnerSolo) s)

/-! ### PAIR_DISSOLVE (R369) -/

/-- The LEAD, or a SOLO device, has no partner any more. -/
def forgetPartner (s : Dev) : Dev :=
  { s with pr := { s.pr with partnerReady := false, unacked := [], verdict := none, arbiterNext := none, lease := false } }

/-- The command of a resynchronisation under way ends. -/
def endResync (k : Nat → Dev → Dev) (s : Dev) : Dev :=
  match s.pr.resync with
  | some (_, id) => k id { s with pr := { s.pr with resync := none } }
  | none => s

/-- A MIRROR, or a device that is READY or resynchronising, leaves the pair: no registration is left, and it is in FOCUS. -/
def leavePair (s : Dev) : Dev :=
  let s := { s with pr := { s.pr with
    held := [], deferred := [], caughtUp := false, resync := none, lease := false, guarding := false } }
  let s := setPairState 0 (unregisterAll s)
  if s.inMode .mirror then focusEntry (changeMode .focus 3 0xFFFF 0xFF s) else s

def adminDissolve (c : Ctx) (s : Dev) : Dev :=
  if s.val Fam.pairEnable = 0 then conflict c.id 0x30 s
  else if strapsEqual s then conflict c.id 0x30 (s.setVal Fam.pairRefusal 0 1)
  else if s.pw.trans.isSome || s.pr.guarding then conflict c.id 0x03 s
  else
    let s1 := if s.pr.linkUp then pairMsg "LEAVE" 0 0 s else s
    match s.pw.mode with
    | some .lead => okWith c.id 0 (settle (setPairState 0 (enterSolo 3 (forgetPartner s1))))
    | some .mirror => okWith c.id 0 (leavePair s1)
    | some .focus => okWith c.id 0 (if s.val Fam.pairState = 1 ∨ s.val Fam.pairState = 2 then
        leavePair (endResync (fun id => conflict id 0x31) s1) else s)
    | _ => okWith c.id 0 s

def execPairDissolve (s : State) : Host.Outcome State Fault Refusal := onDev s (fun s => withAdmin 0x93 (fun _ => true) adminDissolve s)

/-- The activation under way on this device is abandoned (R38); its command ends as R129 states for one that is given up. -/
def dropActivation (s : Dev) : Dev := endActivation 0x05 0x42 s

/-- PARTNER_LEAVE: the partner has told this device that it leaves, or that this one has to. -/
def partnerLeaves (s : Dev) : Dev :=
  match s.pw.mode with
  | some .mirror => if s.contending then s else leavePair s
  | some .lead => if s.contending then s else aloneLead s
  | some .solo => { s with pr := { s.pr with partnerReady := false, unacked := [] } }
  | some .focus =>
    if s.val Fam.pairState = 1 ∨ s.val Fam.pairState = 2 then leavePair (endResync (fun id => conflict id 0x31) s) else s
  | _ => s

def execPartnerLeave (s : State) : Host.Outcome State Fault Refusal := onDev s (fun s => if s.working then partnerLeaves s else s)

/-! ### The lease (R371) -/

/-- RENEW_SEND. -/
def renewSend (s : Dev) : Dev :=
  let stops := match s.pw.trans with | some (.softReset _) => true | _ => false
  if s.inMode .lead && s.pr.linkUp && !s.contending && !stops then
    let n := s.pr.renewSeq + 1
    pairMsg "RENEW" (ownEpoch s) n { s with pr := { s.pr with renewSeq := n } }
  else s

def execRenewSend (s : State) : Host.Outcome State Fault Refusal := onDev s (fun s => renewSend s)

/-- The LEAD's epoch as a RENEW carries it: a new one makes this device register its key again (Table 13.6, step 6). -/
def takeEpoch (e : Nat) (s : Dev) : Dev :=
  if ownEpoch s < e then
    let s := { s with pr := { s.pr with partnerEpoch := e } }
    sendOwnerEpoch (reregisterAll (leaseKey e s.pw.pairId) (s.setVal Fam.pairLeaseEpoch 0 e))
  else s

/-- RENEW_RECEIVE: acknowledged as it arrives; the lease count restarts. A READY device becomes MIRROR (Table 13.1). -/
def renewReceive (e seq : Nat) (s : Dev) : Dev :=
  let seen (s : Dev) : Dev := { s with pr := { s.pr with renewSeen := seq, lease := true, guarding := false } }
  if s.inMode .mirror && !s.contending then
    pairMsg "RENEW_ACK" e seq (setPairState 3 (seen (takeEpoch e s)))
  else if s.inMode .focus && s.val Fam.pairState == 2 then
    let s := changeMode .mirror 3 0xFFFF 0xFF (setPairState 3 (seen s))
    pairMsg "RENEW_ACK" e seq (sendOwnerEpoch (takeEpoch e s))
  else s

def execRenewReceive (e seq : Nat) (s : State) : Host.Outcome State Fault Refusal := onDev s (fun s => renewReceive e seq s)

/-- RENEW_ACK: the most recent RENEW acknowledged counts. -/
def renewAck (seq : Nat) (s : Dev) : Dev :=
  if s.inMode .lead && !s.contending && decide (s.pr.renewAcked < seq) && decide (seq ≤ s.pr.renewSeq) then
    { s with pr := { s.pr with renewAcked := seq, lease := true } }
  else s

def execRenewAck (seq : Nat) (s : State) : Host.Outcome State Fault Refusal := onDev s (fun s => renewAck seq s)

def execRenewalMissed (s : State) : Host.Outcome State Fault Refusal :=
  onDev s (fun s => if s.inMode .mirror then s.bump Fam.pairRenewalsMissed else s)

/-- A paired LEAD stops acting and contends (R372); write gates are withdrawn (Table 13.3). A swap under way is abandoned. -/
def leadContends (s : Dev) : Dev :=
  if pairedLead s && !s.contending then
    let waiting := match s.pw.trans with | some (.swap c) => c | _ => none
    let s := { s with pr := { s.pr with lease := false } }
    let s := match waiting with | some id => conflict id 0x32 s | none => s
    startTie .lead none (s.lensUp.foldl (fun s n => lensShutter n s) s)
  else s

def execLeaseExpireLead (s : State) : Host.Outcome State Fault Refusal := onDev s (fun s => leadContends s)

def execStreamAckTimeout (s : State) : Host.Outcome State Fault Refusal :=
  onDev s (fun s => if s.pr.unacked.isEmpty then s else leadContends s)

/-- LEASE_EXPIRE_MIRROR: step 4 of Table 13.2. -/
def mirrorExpires (s : Dev) : Dev :=
  if s.inMode .mirror && !s.contending && !s.pr.guarding then
    let s := if s.fw.activating.isSome then dropActivation s else s
    setPairState 5 { s with pr := { s.pr with lease := false, guarding := true } }
  else s

def execLeaseExpireMirror (s : State) : Host.Outcome State Fault Refusal := onDev s (fun s => mirrorExpires s)

/-- GUARD_ELAPSED: step 5. A swap asked for here waits no longer for the LEAD. -/
def guardElapsed (s : Dev) : Dev :=
  if s.inMode .mirror && s.pr.guarding then
    let ctx := match s.pw.trans with | some (.swapAsked c) => some c | _ => none
    startTie .mirror ctx { s with pr := { s.pr with partnerReady := false } }
  else s

def execGuardElapsed (s : State) : Host.Outcome State Fault Refusal := onDev s (fun s => guardElapsed s)

/-- FENCE_TIMEOUT: of the tie, or of one member (R374, R376). -/
def fenceTimeout (m : Option Nat) (s : Dev) : Dev :=
  match m with
  | none => match s.pw.trans with
    | some (.tie source ctx) => tieLost source ctx s
    | _ => s
  | some m =>
    let late := (s.mem m).unfenced || ((chanOf_ m).map fun n => !(s.lens n).owner).getD false
    let acting := s.inMode .lead || (match s.pw.trans with | some (.takeover _) => true | _ => false)
    if late && acting && memberServes s m then memberMove m .slow 0 s else s

def execFenceTimeout (m : Option Nat) (s : State) : Host.Outcome State Fault Refusal := onDev s (fun s => fenceTimeout m s)

/-! ### Takeover (R375 to R377) -/

/-- Step 9 for one array: segments of the journal's open list are sealed and barred for 10 s; the units held for the LEAD, in
write-sequence order, wait to be placed again. -/
def takeArray (s : Dev) (a : Nat) : Dev :=
  match s.arr? a with
  | none => s
  | some x =>
    let mine := (s.pr.held.filter (·.1 == a)).map (·.2)
    let seqOf (i : Item) : Nat := match i with | .block _ _ _ q _ _ => q | .delta _ _ _ _ q _ => q
    let x := { x with embargo := x.openList, active := none, beams := [], keptUnits := keptOrder (x.keptUnits ++ mine)
                      nextSeq := max x.nextSeq (listMax (mine.map seqOf) + 1) }
    s.setArr a x.sealSegments

/-- TAKEOVER_COMPLETE: steps 9 and 10. After HANDOVER the partner is the MIRROR (Table 13.6); after a failure there is none. -/
def takeoverComplete (gapUs : Nat) (s : Dev) : Dev :=
  match s.pw.trans with
  | some (.takeover ctx) =>
    let swap := s.pr.partnerReady
    let s := { s with pr := { s.pr with guarding := false, caughtUp := false }, mt := { s.mt with takeover := true } }
    let s := changeMode .lead 4 0xFFFF 0xFF (s.setTrans none)
    let s := setPairState (if swap then 3 else 4) s
    let arrays := s.arrays.map (·.1)
    let s := arrays.foldl takeArray s
    let s := { s with pr := { s.pr with held := [] } }
    let s := arrays.foldl (fun s a => replaceAll a (issueJournal a s)) s
    let s := beginService (arrays.foldl deriveArray s)
    let s := if swap then s.setVal Fam.pairLastSwap 0 s.tm.device else s.bump Fam.pairTakeovers
    let s := s.setVal Fam.pairLastGapUs 0 (min gapUs 0xFFFFFFFF)
    let s := pairRecord (b2n swap) (ownEpoch s) gapUs s
    let s := match ctx with | some id => okWith id 0 s | none => s
    settle (raise 0x244 gapUs true s)
  | _ => s

def execTakeoverComplete (gapUs : Nat) (s : State) : Host.Outcome State Fault Refusal :=
  onDev s (fun s => if s.working then takeoverComplete gapUs s else s)

/-- SEGMENT_EMBARGO_END (R377). -/
def embargoEnd (s : Dev) : Dev :=
  let arrays : Tbl Arr := s.arrays.map fun e => (e.1, { e.2 with embargo := [] })
  let s := { s with arrays := arrays }
  if s.executing then settle ((s.arrays.map (·.1)).foldl (fun s a => replaceAll a s) s) else s

def execSegmentEmbargoEnd (s : State) : Host.Outcome State Fault Refusal := onDev s (fun s => embargoEnd s)

/-! ### PAIR_SWAP (R387, Table 13.6) -/

/-- Steps 1 and 2 on the LEAD. -/
def beginSwap (ctx : Option Nat) (s : Dev) : Dev :=
  let s := s.setTrans (some (.swap ctx))
  (s.arrays.map (·.1)).foldl (fun s a => forceClose a (fun b => !b.internal) s) s

def adminSwap (c : Ctx) (s : Dev) : Dev :=
  let lead := s.inMode .lead
  if s.val Fam.pairEnable = 0 ∨ ¬(lead = true ∨ s.inMode .mirror = true) then conflict c.id 0x30 s
  else if strapsEqual s then conflict c.id 0x30 (s.setVal Fam.pairRefusal 0 1)
  else if s.transiting then conflict c.id 0x03 s
  else if lead then
    if s.val Fam.pairState ≠ 3 then conflict c.id 0x31 s
    else if !s.pr.lease then conflict c.id 0x32 s
    else beginSwap (some c.id) s
  else if !s.pr.caughtUp then conflict c.id 0x31 s
  else if !s.pr.lease then conflict c.id 0x32 s
  else pairMsg "SWAP" 0 0 (s.setTrans (some (.swapAsked c.id)))

/-- PAIR_SWAP: the admin command; on a LEAD whose admin queue has none, the one its MIRROR passes to it. -/
def pairSwap (s : Dev) : Dev :=
  let own := (s.adminHead.map fun c => eOpcode c.raw == 0x94).getD false
  if own then withAdmin 0x94 (fun _ => true) adminSwap s
  else if pairedLead s && s.pr.lease && s.pr.linkUp && !s.transiting then beginSwap none s
  else s

def execPairSwap (s : State) : Host.Outcome State Fault Refusal := onDev s (fun s => pairSwap s)

/-- Step 3 is reached: every fetched command but the PAIR_SWAP has completed, every beam has committed. -/
def swapDrained (s : Dev) (ctx : Option Nat) : Bool :=
  s.cm.ctxs.all (fun c => some c.id == ctx) && s.arrays.all (fun e => e.2.beams.isEmpty && e.2.keptUnits.isEmpty)
    && s.pr.unacked.isEmpty

/-- Step 4: HANDOVER with e + 1, and the LEAD enters MIRROR. -/
def swapDrainComplete (s : Dev) : Dev :=
  match s.pw.trans with
  | some (.swap ctx) =>
    if swapDrained s ctx && s.executing then
      let s := match ctx with | some id => okWith id 0 s | none => s
      let s := pairMsg "HANDOVER" (ownEpoch s + 1) 0 (s.setTrans none)
      let s := s.lensUp.foldl (fun s n => lensShutter n s) s
      let s := { s with pr := { s.pr with partnerReady := false, caughtUp := true, streamSeen := 0, held := [] } }
      sendOwnerEpoch (changeMode .mirror 4 0xFFFF 0xFF s)
    else s
  | _ => s

def execSwapDrainComplete (s : State) : Host.Outcome State Fault Refusal := onDev s (fun s => swapDrainComplete s)

/-- The swap is abandoned and fetch resumes. -/
def swapTimeout (s : Dev) : Dev :=
  match s.pw.trans with
  | some (.swap ctx) =>
    let s := s.setTrans none
    match ctx with
    | some id => conflict id 0x03 s
    | none => pairMsg "SWAP_ABANDONED" 0 0 s
  | some (.swapAsked id) => conflict id 0x03 (s.setTrans none)
  | _ => s

def execSwapDrainTimeout (s : State) : Host.Outcome State Fault Refusal := onDev s (fun s => if s.executing then swapTimeout s else s)

/-- HANDOVER reaches the MIRROR: step 5, without the guard. -/
def handover (e : Nat) (s : Dev) : Dev :=
  if s.inMode .mirror && !s.contending then
    let ctx := match s.pw.trans with | some (.swapAsked c) => some c | _ => none
    startTie .mirror ctx { s with pr := { s.pr with partnerReady := true, partnerEpoch := max s.pr.partnerEpoch (e - 1) } }
  else s

def execHandover (e : Nat) (s : State) : Host.Outcome State Fault Refusal := onDev s (fun s => handover e s)

/-! ### Known-answer test and verdict (R189, R190, R383) -/

/-- R190: a request while a test runs is absorbed into it. -/
def startKat (s : Dev) : Dev := { s with pw := { s.pw with katRunning := true } }

def execPrismKat (who : Master) (s : State) : Host.Outcome State Fault Refusal :=
  onDev s (fun s => guardedWrite who Fam.prismKat 0 always startKat s)

/-- Failing engines: encode 0 to 11, decode 12 to 15. -/
def katFaults (failed : BitVec 16) (s : Dev) : Dev :=
  ((List.range 16).filter failed.getLsbD).foldl (fun s i => raise (0x040 + i) (if i < 12 then i else i - 12) false s) s

/-- Table 13.4, steps 3 and 4, on the LEAD: the verdict's record carries the source of the mismatch (R423). -/
def giveVerdict (own partner : Bool) (s : Dev) : Dev :=
  match s.pr.verdict with
  | none => s
  | some (a, b) =>
    let r := b2n own + 2 * b2n partner
    let s := ownRecord 0x07 0x240 (le 1 a ++ le 1 r ++ List.replicate 6 0 ++ le 8 b) { s with pr := { s.pr with verdict := none } }
    if r = 0 ∧ s.executing = true then
      settle (replaceAll a (abandonFrom a b (s.bump Fam.pairVerdicts)))
    else s

/-- PRISM_KAT_COMPLETE. -/
def katComplete (failed : BitVec 16) (partnerFailed : Bool) (s : Dev) : Dev :=
  if s.pw.katRunning && s.coreUp then
    let s := (({ s with pw := { s.pw with katRunning := false } }).setVal Fam.prismKatResult 0 failed.toNat).bump Fam.prismKatRuns
    katFaults failed (giveVerdict (failed != 0) partnerFailed s)
  else s

def execPrismKatComplete (failed : BitVec 16) (partnerFailed : Bool) (s : State) : Host.Outcome State Fault Refusal :=
  onDev s (fun s => katComplete failed partnerFailed s)

/-! ### The stream on the MIRROR (R381, R383) -/

/-- The host data that this device holds for a block of a beam. -/
def heldData (s : Dev) (a v lba q : Nat) : Option Block :=
  s.pr.held.findSome? fun e => match e.2 with
    | .block _ v' l' q' d none => if e.1 = a ∧ v' = v ∧ l' = lba ∧ q' = q then some d.data else none
    | _ => none

/-- The item of a beam that a delta stands for, where its data is held. -/
def deltaItem (s : Dev) (a : Nat) (d : MapDelta) : Option Item :=
  match d with
  | .block n v lba q _ none => (heldData s a v lba q).map fun b => .block n v lba q (Stored.of 1 v lba q b) none
  | .block .. => none
  | .range v lba n z q after => some (.delta v lba n z q after)

/-- R383: CRC-32C of every mirrored block against the summary entry sent. -/
def crcDiffers (s : Dev) (a : Nat) (d : MapDelta) : Bool :=
  match d with
  | .block _ v lba q crc none => ((heldData s a v lba q).map fun b => crc32c b != crc).getD false
  | _ => false

/-- R383: the beam as this device would encode it, where it holds every block. -/
def digestDiffers (s : Dev) (a num : Nat) (byTimer swept : Bool) (time : Nat) (l : List MapDelta) (digest : List Word) : Bool :=
  match s.arr? a with
  | none => false
  | some x =>
    let items := l.filterMap (deltaItem s a)
    if items.length = l.length ∧ (items.any (!isDelta ·)) = true then
      let b := { newBeam num x.geom.epoch false true with items := items, closed := true, byTimer := byTimer, swept := swept, time := time }
      beamDigest a x x.geom b != digest
    else false

def deltaSeq (d : MapDelta) : Option Nat :=
  match d with
  | .block _ _ _ q _ none => some q
  | .block .. => none
  | .range _ _ _ _ q _ => some q

/-- What the journal's open list says of the segments. -/
def openSegments (l : List Nat) (x : Arr) : Arr :=
  let x := { x with openList := l }
  let x := l.foldl (fun x g => if (x.segment g).st = .free then x.setSegment g { Segment.free with st := .opened, epoch := x.geom.epoch } else x) x
  { x with seg := x.seg.map fun e => if e.2.st = .opened ∧ l.contains e.1 = false then (e.1, { e.2 with st := .sealed }) else e }

def segStateOf (n : Nat) : SegState := match n with | 0 => .free | 1 => .opened | 2 => .sealed | _ => .cleaning

def memberStateOf (n : Nat) : MemberState :=
  match n with | 0 => .absent | 1 => .online | 2 => .slow | 3 => .failed | 4 => .target | _ => .spare

/-- A tenant's counters as a snapshot record gives them (R159). -/
def snapshotCounters (x : Tenant) (b : List Byte) : Tenant :=
  let w (i : Nat) : Nat := unle ((b.drop (8 + 8 * i)).take 8)
  { x with blocksRead := w 0, blocksWritten := w 1, commands := w 2, c0Commands := w 3, busyUs := w 4, capSeconds := w 5
           encBlocks := w 6, lastRecord := b }

/-- A delta that the LEAD's checkpoint covers stands in the map region, which the partners share (R211). -/
def regionDelta (a beam : Nat) (s : Dev) (d : MapDelta) : Dev :=
  let put (v : Nat) (g : Tbl Quad → Tbl Quad) : Dev :=
    match s.vol? v with
    | some x => s.setVol v { x with region := g x.region }
    | none => s
  match d with
  | .block n v lba _ _ src => put v fun t =>
      if src.all fun l => tget t lba 0 == mapEntry ⟨l.1, l.2.1, l.2.2⟩ then tset t lba (mapEntry ⟨a, beam, n⟩) 0 else t
  | .range v lba n zero _ _ => put v fun t =>
      (List.range n).foldl (fun t i => tset t (lba + i) (if zero then 2 else 0) 0) t

/-- The LEAD's journal stands here now: what lies before its horizon is covered by a checkpoint (R211, R215). -/
def passJournal (a horizon : Nat) (openList : List Nat) (s : Dev) : Dev :=
  let past (b : Nat) : Bool :=
    !openList.contains (b / 64) || (openList.head? == some (b / 64) && decide (b % 64 < horizon))
  match s.arr? a with
  | none => s
  | some x =>
    let s := ((x.log.filter fun e => past e.1).flatMap fun e => e.2.2.map (e.1, ·)).foldl (fun s e => regionDelta a e.1 s e.2) s
    match s.arr? a with
    | none => s
    | some x => s.setArr a { x with
        horizon := horizon, log := x.log.filter (fun e => !past e.1), deltas := x.deltas.filter (fun e => !past e.1) }

/-- What a committed beam leaves beside the map: its place in its segment, its deltas in the log, and the highest sequence seen. -/
def noteBeam (a num : Nat) (l : List MapDelta) (s : Dev) : Dev :=
  match s.arr? a with
  | none => s
  | some x =>
    let g := x.segment (num / 64)
    let ranges := l.filterMap fun d => match d with
      | .range v lba n z q after => some (num, Item.delta v lba n z q after)
      | .block .. => none
    let x := { x with nextSeq := max x.nextSeq (listMax (l.filterMap deltaSeq) + 1), deltas := x.deltas ++ ranges }
    logDeltas a num l (s.setArr a (x.setSegment (num / 64) { g with beams := g.beams ++ [num % 64] }))

/-- R296, R384: the partner's directory governs: the identifier has this index here too, and the member that had another index takes it. An
entry private to the partner is held and not used (R307). -/
def adoptIndex (m : Nat) (ident : BitVec 128) (priv : Bool) (s : Dev) : Dev :=
  let s := match s.mb.dir.find? (·.2 == ident) with
    | some (o, _) => if o = m then s else (s.setMem m (s.mem o)).setMem o Member.absent
    | none => s
  { s with mb := { s.mb with
    dir := tput (s.mb.dir.filter (·.2 != ident)) m ident
    priv := s.mb.priv.filter (· != m) ++ (if priv then [m] else [])
    named := if s.mb.named.contains m then s.mb.named else s.mb.named ++ [m] } }

/-- R384: the directory is replaced: what the partner's does not name goes, but for this device's own vault members (R307). -/
def replaceDirectory (s : Dev) : Dev :=
  { s with mb := { s.mb with dir := s.mb.dir.filter fun e => s.mb.named.contains e.1 || ownVault s e.1 } }

def streamedGeom (g : StreamGeom) : Geom := { mirror := g.mirror, k := g.k, m := g.m, members := g.members, epoch := g.epoch }

/-- The sweep that the stream names (`sweepCode`). -/
def streamedSweep (kind slot target : Nat) : Option Sweep :=
  match kind with
  | 1 => some (.facet slot target false)
  | 2 => some (.facet slot target true)
  | 3 => some .relocation
  | 4 => some .reshape
  | _ => none

/-- Apply one packet (R381, Table 13.5). -/
def applyItemOf (i : StreamItem) (s : Dev) : Dev :=
  match i with
  | .sweep a cur prev kind slot target meridian remaining seq =>
    match s.arr? a with
    | some x => ((s.setArr a { x with geom := streamedGeom cur, prev := prev.map streamedGeom, sweep := streamedSweep kind slot target
                                      meridianSeq := seq }).setVal Fam.arrayMeridian a meridian).setVal Fam.arraySweepRemaining a remaining
    | none => s
  | .beam a num _ _ _ l _ _ =>
    let s := l.foldl (applyDelta a num) s
    let seqs := l.filterMap deltaSeq
    let seqOf (i : Item) : Nat := match i with | .block _ _ _ q _ _ => q | .delta _ _ _ _ q _ => q
    noteBeam a num l { s with pr := { s.pr with held := s.pr.held.filter fun e => !(e.1 == a && seqs.contains (seqOf e.2)) } }
  | .journal a gen nextSeq horizon openList holders outage =>
    let s := passJournal a horizon openList s
    match s.arr? a with
    | some x => s.setArr a (openSegments openList { x with
        journalGen := gen, nextSeq := max x.nextSeq nextSeq, holders := holders, outage := outage })
    | none => s
  | .segment a g st epoch mask =>
    match s.arr? a with
    | some x => s.setArr a (x.setSegment g { x.segment g with st := segStateOf st, epoch := epoch, mask := mask })
    | none => s
  | .realloc n pba p lost =>
    let l := journalEntry (s.val Fam.lensFeSerial n) (s.lens n) ⟨pba, p.1, p.2.1, p.2.2, lost⟩
    s.setLens n { l with realloc := tput l.realloc pba (p.1, p.2.1, p.2.2, lost) }
  | .snapshot _ recs => recs.foldl (fun s r => s.setTen r.1 (snapshotCounters (s.ten r.1) r.2)) s
  | .key v k =>
    match s.vol? v with
    | some x => s.setVol v { x with key := k, stored := if k.isSome then x.stored else none
                                    kcv := match k with | some k => some (keyCheckValue k) | none => x.kcv }
    | none => s
  | .rws index sub v =>
    match findObject index sub with
    | some (f, n) =>
      if streamedObject f then (if f = Fam.irisPortC0Reserve then settleReserve n s else s).setVal f n v else s
    | none => s
  | .arbiter m => s.setVal Fam.pairArbiter 0 m
  | .wbUnit a v lba seq blocks =>
    { s with pr := { s.pr with held := s.pr.held ++ (unitItems v seq lba blocks).map (a, ·) } }
  | .member m ident st label priv =>
    let s := adoptIndex m ident priv s
    if priv then s
    else
    let s := s.setMem m { s.mem m with ident := ident, st := memberStateOf st, label := label }
    if (reservable s).contains m then registerKey m (some (leaseKey (ownEpoch s) s.pw.pairId)) s else s
  | .array a mirror k m shift epoch segs members inst through =>
    let g : Geom := { mirror := mirror, k := k, m := m, members := members, epoch := epoch }
    s.setArr a (match s.arr? a with
      | some x => { x with geom := g, shift := shift, segs := segs, inst := inst, writeThrough := through }
      | none => newArr g shift inst segs through [])
  | .volume v cap tenant a ro wb kcv =>
    s.setVol v (match s.vol? v with
      | some x => { x with capacity := cap, tenant := tenant, array := a, readOnly := ro, writeBack := wb, kcv := kcv }
      | none => { st := .ready, capacity := cap, tenant := tenant, array := a, readOnly := ro, writeBack := wb, key := none
                  stored := none, kcv := kcv, map := [], region := [], allocated := 0, dark := 0, deleter := none })
  | .extent owner copies =>
    let e : Extent := { owner := owner, copies := copies }
    if s.ms.extents.contains e then s else { s with ms := { s.ms with extents := s.ms.extents ++ [e] } }
  | .mapPage v p bytes => replacePage v p bytes s
  | .tenant t opRate opDepth byteRate byteDepth w1 w2 quota =>
    s.setTen t ((s.ten t).withEntry opRate opDepth byteRate byteDepth w1 w2 quota s.tm.now)
  | .binding f t q => s.setFn f { s.fnS f with bound := some t, quota := q }

/-- R383: the comparison of a beam's packet. -/
def itemMismatch (i : StreamItem) (s : Dev) : Option (Nat × Nat) :=
  match i with
  | .beam a num byTimer swept time l sum digest =>
    if deltaChecksum l != sum || l.any (crcDiffers s a) || digestDiffers s a num byTimer swept time l digest then some (a, num) else none
  | _ => none

/-- The device takes packets of a stream: a MIRROR, or one that is READY or resynchronising. -/
def takesStream (s : Dev) : Bool :=
  (s.inMode .mirror && !s.contending) || (s.inMode .focus && (s.val Fam.pairState == 1 || s.val Fam.pairState == 2))

/-- R384: the packet concerns an array or a volume that has not been copied yet. -/
def itemEarly (s : Dev) (i : StreamItem) : Bool :=
  let noVol (v : Nat) : Bool := (s.vol? v).isNone
  match i with
  | .beam a _ _ _ _ l _ _ => (s.arr? a).isNone || l.any fun d => match d with
    | .block _ v _ _ _ _ => noVol v
    | .range v .. => noVol v
  | .journal a .. | .segment a .. | .sweep a .. => (s.arr? a).isNone
  | .key v _ => noVol v
  | _ => false

/-- Apply a packet, or keep it until the items that it concerns have been copied; those kept are tried again, in order. -/
def takeItem (i : StreamItem) (s : Dev) : Dev :=
  (s.pr.deferred ++ [i]).foldl (fun s i =>
    if itemEarly s i then { s with pr := { s.pr with deferred := s.pr.deferred ++ [i] } } else applyItemOf i s)
    { s with pr := { s.pr with deferred := [] } }

/-- STREAM_PACKET: the next in order is compared, applied and acknowledged; one seen before is acknowledged again. -/
def streamPacket (seq : Nat) (i : StreamItem) (s : Dev) : Dev :=
  if !takesStream s then s
  else if seq ≤ s.pr.streamSeen then pairMsg "STREAM_ACK" seq 0 s
  else if seq ≠ s.pr.streamSeen + 1 then s
  else
    let s := { s with pr := { s.pr with streamSeen := seq } }
    match itemMismatch i s with
    | some (a, b) => startKat (raise 0x240 a false (pairMsg "MISMATCH" a b (pairMsg "STREAM_ACK" seq 1 s)))
    | none => pairMsg "STREAM_ACK" seq 0 (takeItem i s)

def execStreamPacket (seq : Nat) (i : StreamItem) (s : State) : Host.Outcome State Fault Refusal := onDev s (fun s => streamPacket seq i s)

/-! ### Acknowledgements on the LEAD (R382, R383) -/

/-- Mark a beam of an array. -/
def modBeam (a num : Nat) (g : Beam → Beam) (s : Dev) : Dev :=
  match s.arr? a with
  | some x => s.setArr a { x with beams := x.beams.map fun b => if b.num = num then g b else b }
  | none => s

/-- What an acknowledged packet brings about. -/
def itemAcked (s : Dev) (i : StreamItem) : Dev :=
  match i with
  | .beam a num .. => modBeam a num (fun b => { b with mirror := 2 }) s
  | .arbiter m =>
    if s.pr.arbiterNext = some m then { s with pr := { s.pr with arbiterNext := none } }.setVal Fam.pairArbiter 0 m else s
  | _ => s

/-- STREAM_ACK: every packet up to this one is acknowledged. -/
def streamAck (seq : Nat) (mismatch : Option (Nat × Nat)) (s : Dev) : Dev :=
  if s.serving && !s.contending then
    let done := s.pr.unacked.filter fun e => decide (e.1 ≤ seq)
    let s := { s with pr := { s.pr with unacked := s.pr.unacked.filter fun e => !decide (e.1 ≤ seq) } }
    let s := match mismatch with
      | some (a, b) =>
        let s := modBeam a b (fun b => { b with mismatch := true }) s
        startKat (raise 0x240 a true { s with pr := { s.pr with verdict := some (a, b) } })
      | none => s
    settle (done.foldl (fun s e => itemAcked s e.2) s)
  else s

def execStreamAck (seq : Nat) (mismatch : Option (Nat × Nat)) (s : State) : Host.Outcome State Fault Refusal :=
  onDev s (fun s => streamAck seq mismatch s)

/-! ### Resynchronisation (R384, R385) -/

/-- RESYNC_COMPLETE, on the device that resynchronised and on the one that serves. -/
def resyncComplete (s : Dev) : Dev :=
  match s.pw.mode with
  | some .focus =>
    match s.pr.resync with
    | some (fromLead, id) =>
      let s := replaceDirectory { s with pr := { s.pr with resync := none, caughtUp := true, lease := fromLead } }
      let s := s.setVal Fam.pairResyncPct 0 100
      if fromLead then okWith id 0 (sendOwnerEpoch (changeMode .mirror 3 0xFFFF 0xFF (setPairState 3 s)))
      else okWith id 1 (setPairState 2 s)
    | none => s
  | some .solo => { s with pr := { s.pr with partnerReady := true } }
  | some .lead =>
    if s.val Fam.pairState = 4 ∧ s.contending = false then setPairState 3 { s with pr := { s.pr with partnerReady := true, lease := true } } else s
  | _ => s

def execResyncComplete (s : State) : Host.Outcome State Fault Refusal := onDev s (fun s => resyncComplete s)

/-- RESYNC_LOST: PAIR_START has to be issued again; one that waits ends with the partner not resynchronised. -/
def resyncLost (s : Dev) : Dev :=
  match s.pw.mode with
  | some .focus =>
    if s.val Fam.pairState = 1 ∨ s.val Fam.pairState = 2 then
      raise 0x243 0 false (leavePair (endResync (fun id => conflict id 0x31) s))
    else s
  | some .mirror => if s.contending || s.pr.guarding then s else raise 0x243 0 false (leavePair s)
  | some .solo => { s with pr := { s.pr with partnerReady := false, unacked := [] } }
  | _ => s

def execResyncLost (s : State) : Host.Outcome State Fault Refusal := onDev s (fun s => resyncLost s)

end Sys2Proof.Machine
end

