-- ==== Sys2Proof/Machine/Boot.lean ====
section
/-!
DEFINITION. Resets and boot (R40, R462 to R467, Table 17.6), settings taken at a start (R441), image judgement and recovery (R220 to
R222, R251, R252).
-/

namespace Sys2Proof.Machine

/-! ### Settings (R440, R441) -/

/-- Objects a copy of the settings holds for this side: the Periscope objects or the others. -/
def settingKey (periscope : Bool) (k : Nat) : Bool :=
  let r := famRow (k % 512)
  r.access == .RWS && r.periscope == periscope

/-- The objects of one side take the values of a copy; what it does not list is at its default. -/
def loadValues (periscope : Bool) (c : Settings) (s : Dev) : Dev :=
  let rest := s.vals.filter fun e => !settingKey periscope e.1
  { s with vals := (c.vals.filter fun e => settingKey periscope e.1).foldl (fun t e => tput t e.1 e.2) rest }

/-- A token-table entry as the settings hold it; its counters go on (R151). -/
def startTenant (now : Nat) (e x : Tenant) : Tenant :=
  (Tenant.undefined.withCounters x).withEntry e.opRate e.opDepth e.byteRate e.byteDepth e.w1 e.w2 e.quota now

/-- What is not Periscope's: the other objects, the bindings and the token-table entries. -/
def loadCore (s : Dev) : Dev :=
  let c := s.dc.loaded
  let s := { loadValues false c s with
    tenants := c.tenants.foldl (fun t e => tset t e.1 (startTenant s.tm.now e.2 (tget t e.1 Tenant.undefined)) Tenant.undefined) s.tenants }
  c.binds.foldl (fun s e => s.setFn (unpackFn e.1) { s.fnS (unpackFn e.1) with bound := some e.2.1, quota := e.2.2 }) s

/-! ### The core goes down (R40, R462) -/

/-- Status objects of the core that describe nothing any more. -/
def coreStatus : List Nat :=
  [Fam.deviceModeRefusal, Fam.hostPortLink, Fam.fwActivationState, Fam.meterRingHead, Fam.meterRingTail, Fam.mportLink,
   Fam.lensOwnerEpoch, Fam.lensPes, Fam.lensServoState, Fam.lensCadenceRpm, Fam.lensUtilisationPct, Fam.pairState, Fam.pairLink,
   Fam.pairResyncPct, Fam.pairRefusal, Fam.pacerAdmissionPct, Fam.lensZoneSelect, Fam.pcacheVaultRateMbps]

def dropFamilies (l : List Nat) (s : Dev) : Dev := { s with vals := s.vals.filter fun e => !l.contains (e.1 % 512) }

/-- R220: the stop leaves nothing to recover. -/
def stopOrderly (s : Dev) : Bool :=
  if s.val Fam.bootStage = 0 then
    s.inMode .focus && s.pw.recovering.isEmpty
      && s.arrays.all fun e => e.2.beams.isEmpty && e.2.keptUnits.isEmpty && e.2.recovery.isNone
  else s.pw.orderly

/-- What an array keeps is in the catalogue, on its members, and in the window as it stood. -/
def Arr.coreDown (x : Arr) : Arr :=
  { x with
    seg := x.seg.map fun e => if e.2.st = .cleaning then (e.1, { e.2 with st := .sealed }) else e
    rehoming := false, jdirty := [], ckpt := none, repairs := [], onHold := false, barrier := none, rebuildDue := []
    cleaning := [], embargo := [], cleanerHold := false, cadenceTo := none, cadenceAt := 0, rebuild := none, reads := []
    swept := [], darkened := [], returning := false }

/-- A member as the catalogue keeps it: FAILED stays, every other is ABSENT until it is seen again. -/
def Member.coreDown (x : Member) : Member :=
  { x with
    st := if x.st = .failed then .failed else .absent
    seen := false, labelDue := false, was := .absent, aborts := 0, esc := .idle, timeoutAt := [], probes := 0, releasing := false, queues := false }

/-- R155: the ring definition goes with the core, and the backlog, which is in DDR: what waited in it is missing from then on. The marks
due on the next records stay due. -/
def Meter.coreDown (x : Meter) : Meter :=
  { Meter.off with
    lastMinute := x.lastMinute, gap := x.gap || !x.backlog.isEmpty, takeover := x.takeover, stepped := x.stepped, eclipsed := x.eclipsed }

/-- Real signals of core sources have ended. -/
def coreSignalsEnd (s : Dev) : Dev :=
  (tkeys s.fh.src).foldl (fun s n => if srcPeriscope n then s else hubFall n s) s

/-- R435: an access in progress in a slot completes with UNAVAILABLE. -/
def slotsDown (s : Dev) : Dev :=
  { s with dc := { s.dc with slots := s.dc.slots.map fun e =>
      if e.2.busy then (e.1, { e.2 with busy := false, result := rUnavailable }) else e } }

/-- CORE_RST_N or loss of core power: any mode or transition ends, and the device is in DARK. -/
def coreDown (s : Dev) : Dev :=
  let orderly := stopOrderly s
  let s := changeMode .dark 7 0xFFFF 0xFF (coreSignalsEnd s)
  let s := slotsDown (dropFamilies coreStatus s)
  let arrays : Tbl Arr := s.arrays.map fun e => (e.1, e.2.coreDown)
  let vols : Tbl Vol := s.vols.map fun e => (e.1, { e.2 with key := none, deleter := none })
  let ports : Tbl HostPort := s.ports.map fun e => (e.1, { HostPort.idle with perstLow := e.2.perstLow })
  let members : Tbl Member := s.mb.tbl.map fun e => (e.1, e.2.coreDown)
  let lenses : Tbl Lens := s.ls.chan.map fun e => (e.1, e.2.coreDown)
  let tenants : Tbl Tenant := s.tenants.map fun e => (e.1, Tenant.undefined.withCounters e.2)
  let dump := s.val Fam.pcacheDumpState
  let s := { s with
    pw := { s.pw with
      mpPerstLow := true, thermAlertLow := false, hostTerminated := false, trans := none, coreStarting := false
      selfTested := false, ddrReady := false, fetchStopped := false, parkPending := false, sagBelow := [], sagPct := 100
      thermPct := 100, recovering := [], orderly := orderly, triedSlots := [], katRunning := false }
    ports := ports.filter fun e => e.2 != HostPort.idle
    fns := [], cm := Commands.empty, mt := s.mt.coreDown, tenants := tenants.filter fun e => e.2 != Tenant.undefined, arrays := arrays
    vols := vols
    mb := { s.mb with
      tbl := members.filter fun e => e.2 != Member.absent
      cmds := [], jobs := [], down := [] }
    pc := { s.pc with testing := false, attested := s.pc.attested, quiet := false, vaults := [none, none], r0 := 0, r1 := 0 }
    ms := { s.ms with correction := [], checkpoint := false, hot := [] }
    ls := { s.ls with chan := lenses.filter fun e => e.2 != Lens.down, irOrder := [], irHeld := [] }
    pr := { Pair.none with partnerEpoch := s.pr.partnerEpoch, claim := s.pr.claim }
    chans := [], staging := none
    fw := { s.fw with activating := none } }
  let s := if dump = 1 ∨ dump = 2 then s.setVal Fam.pcacheDumpState 0 4 else s
  emit (.pin "MP_PERST_N" false) (s.setVal Fam.bootStage 0 1)

/-- The core runs or is starting. -/
def corePowered (s : Dev) : Bool := s.coreUp || s.pw.coreStarting

def coreStops (s : Dev) : Dev := if corePowered s then coreDown s else s

/-- CORE_RST_N_ASSERT. -/
def execCoreRstNAssert (s : State) : Host.Outcome State Fault Refusal :=
  onDev s (fun s => coreStops { s with pw := { s.pw with coreRstHigh := false } })

/-- CORE_POWER_LOSS: the integrator holds CORE_RST_N low until the rails are back (R455). -/
def execCorePowerLoss (s : State) : Host.Outcome State Fault Refusal :=
  onDev s (fun s => coreStops { s with pw := { s.pw with coreRstHigh := false } })

/-! ### Boot, steps 1 to 6 (R463 to R467) -/

/-- The slot to verify next: none when every slot that BOOT_MODE allows has been tried, or under hold. -/
def nextSlot (s : Dev) : Option Nat :=
  let first := s.val Fam.bootSlot % 2
  let order := match s.pw.bootMode with
    | 0 => [first, 1 - first]
    | 1 => [0]
    | 2 => [1]
    | _ => []
  order.find? fun n => !s.pw.triedSlots.contains n

/-- Step 6: the core starts. -/
def startCore (s : Dev) : Dev := ({ s with pw := { s.pw with coreStarting := true } }).setVal Fam.bootStage 0 3

/-- The BOOT record of a start. -/
def bootRecord (slot : Nat) (s : Dev) : Dev :=
  bbox 0x0A 0 0xFFFF 0xFF (le 1 slot ++ le 1 s.pw.bootMode ++ List.replicate 6 0 ++ le 8 s.fw.version.toNat) s

def setCorePwr (on : Bool) (s : Dev) : Dev := emit (.pin "CORE_PWR_EN" on) { s with pw := { s.pw with corePwrEn := on } }

/-- The image passes: CORE_PWR_EN is high, and with CORE_RST_N high already the core starts. -/
def imagePasses (slot : Nat) (i : ImageFacts) (s : Dev) : Dev :=
  let s := setImageSlot slot { s.imageSlot slot with st := 2, img := some i } s
  let s := { s with fw := { s.fw with version := i.fwVersion, svn := i.svn } }
  let s := bootRecord slot ((setCorePwr true s).setVal Fam.bootBootedSlot 0 slot)
  if s.pw.coreRstHigh then startCore s else s.setVal Fam.bootStage 0 2

/-- The image fails: the other slot is tried where BOOT_MODE allows it; after the last one the core stays unpowered (R29). -/
def imageFails (slot : Nat) (img : Option ImageFacts) (s : Dev) : Dev :=
  let x := s.imageSlot slot
  let s := if x.st = 1 then s else setImageSlot slot { x with st := if img.isSome then 3 else 0, img := img } s
  let s := raise 0x002 slot false { s with pw := { s.pw with triedSlots := s.pw.triedSlots ++ [slot] } }
  if (nextSlot s).isNone then bootRecord slot (setCorePwr false s) else s

/-- IMAGE_VERIFY_COMPLETE: what was read from the slot. A slot that is downloading never boots (Table 17.14). -/
def imageVerify (slot : Nat) (img : Option ImageFacts) (s : Dev) : Dev :=
  let due := s.periscope && s.inMode .dark && s.val Fam.bootStage == 1 && !s.pw.coreStarting && !s.pw.tripped
    && (!s.pw.corePwrEn || s.pw.coreRstHigh) && nextSlot s == some slot
  if due then
    match img with
    | some i => if imageValid s i && (s.imageSlot slot).st != 1 then imagePasses slot i s else imageFails slot img s
    | none => imageFails slot none s
  else s

def execImageVerifyComplete (slot : Nat) (img : Option ImageFacts) (s : State) : Host.Outcome State Fault Refusal :=
  onDev s (fun s => imageVerify slot img s)

/-- CORE_RST_N_RELEASE: with CORE_PWR_EN low it has no effect but its level (R456). In boot the core starts; after a core reset the
image is verified first (R467). -/
def coreRstRelease (s : Dev) : Dev :=
  let s := { s with pw := { s.pw with coreRstHigh := true } }
  if s.periscope && s.pw.corePwrEn && s.inMode .dark && s.val Fam.bootStage == 2 && !s.pw.coreStarting then startCore s else s

def execCoreRstNRelease (s : State) : Host.Outcome State Fault Refusal := onDev s (fun s => coreRstRelease s)

/-- SELF_TEST_COMPLETE: a failing block is of self-test, source 0x000, or of calibration, 0x001 (R29). A known-answer test that fails
is a self-test failure too, whose block code the spec does not state (a free value), and its engines have sources of their own (R190). -/
def selfTest (failed : Option (Bool × Nat)) (katFails : BitVec 16) (s : Dev) : Dev :=
  if s.pw.coreStarting && s.val Fam.bootStage == 3 then
    let s := ((s.setVal Fam.prismKatResult 0 katFails.toNat).bump Fam.prismKatRuns)
    match failed with
    | some (calibration, block) => katFaults katFails (raise (b2n calibration) block false s)
    | none =>
      if katFails = 0 then ({ s with pw := { s.pw with selfTested := true } }).setVal Fam.bootStage 0 4
      else katFaults katFails (raise 0x000 (Config.freeNat s.fresh) false s).draw
  else s

def execSelfTestComplete (failed : Option (Bool × Nat)) (katFails : BitVec 16) (s : State) : Host.Outcome State Fault Refusal :=
  onDev s (fun s => selfTest failed katFails s)

/-- DDR_TRAINED: the modules found, as capacity in GiB, two per channel, LRDIMM, and the data rate at which the channels run, in MT/s; none
when the population is not one of Table 8.1, which fails as a self-test (R233) with block code 0: the spec gives the blocks no codes
(DESIGN CHOICE, log entry 70). The image starts, MP_PERST_N is released, and the core's settings and the member ports' division are taken
(R441, R293). -/
def ddrTrained (modules : Option (Nat × Bool × Bool × Nat)) (s : Dev) : Dev :=
  if s.pw.coreStarting && s.val Fam.bootStage == 4 then
    match modules with
    | none => raise 0x000 0 false s
    | some (gib, two, lr, rate) =>
      if (gib = 16 ∨ gib = 32 ∨ gib = 64) ∧ rate ≤ (if two then 2933 else 3200) then
        let s := loadCore { s with pw := { s.pw with ddrReady := true, mpPerstLow := false } }
        let s := s.setVal Fam.ddrConfig 0 (gib + 256 * b2n two + 512 * b2n lr + 65536 * (rate / 100))
        let s := s.setVal Fam.ddrCapacityGib 0 (12 * gib * (if two then 2 else 1))
        let split := (List.range 32).filter fun n => s.flag Fam.mportBifurcate n
        emit (.pin "MP_PERST_N" true) (({ s with mb := { s.mb with bifurcated := split } }).setVal Fam.bootStage 0 5)
      else raise 0x000 0 false s
  else s

def execDdrTrained (modules : Option (Nat × Bool × Bool × Nat)) (s : State) : Host.Outcome State Fault Refusal :=
  onDev s (fun s => ddrTrained modules s)

/-! ### Image and window (R236, R237, R240, R251) -/

/-- `pcache.image_state` of two vault headers, each 0 none, 1 sealed and sound, 2 consumed, 3 unsealed, 4 CRC failure, 5 owner or
sequence mismatch: valid only as a pair; otherwise what stands against it. -/
def imageState (v0 v1 : Nat) : Nat :=
  if v0 = v1 then v0
  else if v0 = 1 then (if v1 = 0 then 3 else v1)
  else if v1 = 1 then (if v0 = 0 then 3 else v0)
  else max v0 v1

/-- R251: what one vault header says: 0 none to be read (no header of the magic and version), 4 a CRC failure, of the header or of a unit,
3 unsealed, 2 consumed, 5 an owner that is neither the device nor the first LEAD of its pair, 1 sealed and sound. A header that fails several
tests shows the first of this order (DESIGN CHOICE, log entry 84). -/
def headState (s : Dev) (firstLead : Quad) (h : VaultHead) : Nat :=
  let owner := BitVec.ofNat 64 (fieldAt h.bytes 8 8)
  if h.bytes.length ≠ 4096 ∨ fieldAt h.bytes 0 4 ≠ 0x544C5656 ∨ fieldAt h.bytes 4 2 ≠ 1 then 0
  else if (crc32c (h.bytes.take 0xFFC)).toNat ≠ fieldAt h.bytes 0xFFC 4 then 4
  else if fieldAt h.bytes 7 1 = 2 then 2
  else if fieldAt h.bytes 7 1 ≠ 1 then 3
  else if owner ≠ s.ident.serial ∧ owner ≠ firstLead then 5
  else if h.unitsOk = false then 4
  else 1

/-- R251: `pcache.image_state` of the two headers: a pair valid each for itself is valid with one image_seq and one window_mib. -/
def judgeImage (s : Dev) (firstLead : Quad) (h0 h1 : VaultHead) : Nat × Nat :=
  let v0 := headState s firstLead h0
  let v1 := headState s firstLead h1
  let same := fieldAt h0.bytes 0x10 8 = fieldAt h1.bytes 0x10 8 ∧ fieldAt h0.bytes 0x20 4 = fieldAt h1.bytes 0x20 4
  if v0 = 1 ∧ v1 = 1 ∧ ¬ same then (5, 5) else (v0, v1)

/-- The next dump's image_seq goes on from what the headers show. -/
def noteImageSeq (h : VaultHead) (s : Dev) : Dev :=
  if headState s s.ident.serial h = 0 ∨ headState s s.ident.serial h = 4 then s
  else { s with pc := { s.pc with imageSeq := max s.pc.imageSeq (fieldAt h.bytes 0x10 8) } }

/-- Table 8.3: the regions of DDR in ascending address order, as (base, size) in MiB: control, Lens tables, meter backlog, assembly spill,
window, warm map. -/
def ddrRegions (capacityGib windowGib : Nat) : List (Nat × Nat) :=
  let fixed := [2048, 256, 16, 2048, windowGib * 1024]
  let sizes := fixed ++ [capacityGib * 1024 - fixed.sum]
  (List.range sizes.length).map fun i => ((sizes.take i).sum, sizes.getD i 0)

/-- R236: the channel of a byte at an offset of a region: the window is interleaved in 4 KiB units, every other region in 256 B units. -/
def ddrChannel (region offset : Nat) : Nat := offset / (if region = 4 then 4096 else 256) % 12

/-- R237: pages of the warm map. -/
def warmLimit (capacityGib windowGib : Nat) : Nat := ((ddrRegions capacityGib windowGib).getD 5 (0, 0)).2 * 256

/-- The window's size: an image keeps its own. Otherwise the programmed one is taken: full training has left the window with nothing, so no
unit waits in it (R240, R250, R252). -/
def sizeWindow (image : Option Nat) (s : Dev) : Dev :=
  let w := s.val Fam.pcacheWindowGib
  let now := match image with
    | some mibs => max 1 (mibs / 1024)
    | none => w
  let s := ({ s with pc := { s.pc with windowGib := now } }).setVal Fam.pcacheWindowPending 0 (b2n (now != w))
  s.setVal Fam.mapWarmLimit 0 (warmLimit (s.val Fam.ddrCapacityGib) now)

/-! ### Recovery (R220 to R222) -/

/-- An array without a journal serves no more (R218); what it lost is told at once (R222). -/
def journalLost (a : Nat) (s : Dev) : Dev :=
  match s.arr? a with
  | some x =>
    match x.recovery, x.offline with
    | some r, 2 =>
      let s := settleLoss a s
      match s.arr? a with
      | some x => s.setArr a { x with recovery := some { r with opened := [], lost := false } }
      | none => s
    | _, _ => s
  | none => s

/-- Steps 1 to 3 for these arrays, as far as each can go: an OFFLINE array goes on when it leaves OFFLINE. -/
def recoverArrays (l : List Nat) (s : Dev) : Dev :=
  let s := l.foldl (prepareRecovery s.pc.image.isSome) s
  let s := (tkeys s.arrays).foldl deriveArray s
  l.foldl (fun s a => beginRecovery a (journalLost a s)) s

/-- R127: a soft reset in FOCUS starts the recoveries under way again at their step 1. -/
def recoveryRestart (s : Dev) : Dev := recoverArrays s.pw.recovering s

/-- R252: both headers are rewritten as consumed. -/
def consumeImage (s : Dev) : Dev :=
  let s := writeHeaders 2 s
  ({ s with pc := { s.pc with image := none, poisoned := [] } }).setVal Fam.pcacheImageState 0 2

/-- R289: labels are judged against the catalogue once the arrays are assembled. -/
def judgeLabels (s : Dev) : Dev :=
  (s.present.filter fun m => (s.mem m).st != .failed).foldl (fun s m => judgeLabel m s) s

/-- R269: an array that serves from now on records the holders that are away; one in recovery does so at its close-out. -/
def noteAwayNow (s : Dev) (a : Nat) : Dev :=
  match s.arr? a with
  | some x => if x.offline = 0 ∧ x.recovery.isNone = true then s.setArr a (x.noteAway s) else s
  | none => s

/-- Step 10 of Table 17.6: ports terminated, mode FOCUS, arrays assembled, image judged, recovery of unclean stops begun. -/
def assemble (v0 v1 imageMib trigger : Nat) (s : Dev) : Dev :=
  let st := imageState v0 v1
  let valid := st == 1
  let unclean := !s.pw.orderly || valid
  let s := { s with pw := { s.pw with
    adminPort := s.val Fam.hostAdminPort, hostTerminated := true, coreStarting := false
    recovering := if unclean then tkeys s.arrays else (tkeys s.arrays).filter fun a => ((s.arr? a).bind (·.recovery)).isSome } }
  let s := { s with pc := { s.pc with image := if valid then some imageMib else none, hdr0 := v0, hdr1 := v1 } }
  let s := sizeWindow s.pc.image ((s.setVal Fam.pcacheImageState 0 st).setVal Fam.pcacheDumpState 0 0)
  let s := (changeMode .focus trigger 0xFFFF 0xFF s).setVal Fam.bootStage 0 0
  let s := (List.range 16).foldl (fun s n =>
    let s := s.setPort n { s.port n with
      readyToTrain := !(s.port n).perstLow, totalVfs := s.val Fam.hostPortTotalVfs n
      subsysVendor := s.val Fam.hostSubsysVendor, subsysId := s.val Fam.hostSubsysId }
    presentSummary s ⟨n, 0⟩) s
  let s := (List.range 12).foldl (fun s c =>
    if s.val Fam.copyChanFunction c = 0xFFFF then s else s.setChan c { s.chan c with st := 1 }) s
  let s := judgeLabels s
  let s := recoverArrays s.pw.recovering s
  let s := (tkeys s.arrays).foldl noteAwayNow s
  let s := nameArbiter (focusEntry s)
  if valid && s.pw.recovering.isEmpty then consumeImage s else s

/-- ENUM_WAIT_EXPIRE: the members admitted by now are what the arrays are assembled from (R297); both vault headers are read and judged.
`firstLead`: the serial recorded as first LEAD of the pair, the device's own without one. -/
def execEnumWaitExpire (h0 h1 : VaultHead) (firstLead : Quad) (s : State) : Host.Outcome State Fault Refusal :=
  onDev s (fun s => if s.pw.coreStarting && s.val Fam.bootStage == 5 then
      let v := judgeImage s firstLead h0 h1
      assemble v.1 v.2 (fieldAt h0.bytes 0x20 4) 2 (noteImageSeq h1 (noteImageSeq h0 s))
    else s)

/-- Step 4, the close-out: no segment is open any more, and the journal says so (R220). -/
def closeOut (a : Nat) (s : Dev) : Dev :=
  let s := settleLoss a s
  match s.arr? a with
  | some x => issueJournal a (s.setArr a ({ x.noteAway s with
      openList := [], horizon := 0, deltas := [], log := [], active := none, ckpt := none, recovery := none }).sealSegments)
  | none => s

/-- A page of a volume of the array is not yet in the map region. -/
def pagesDue (s : Dev) (a : Nat) : Bool :=
  let mine (v : Nat) : Bool := ((s.vol? v).map (·.array)) == some a
  s.ms.dirtyPages.any (fun p => mine p.1) || s.mb.cmds.any fun c => !c.dead && (match c.why with
    | .checkpoint v _ _ => mine v
    | _ => false)

/-- The array counts as finished; after the last the image is consumed (R252). -/
def recoveryEnds (a : Nat) (s : Dev) : Dev :=
  let left := s.pw.recovering.filter (· != a)
  let due := s.pw.recovering.contains a && left.isEmpty && s.pc.image.isSome
  let s := { s with pw := { s.pw with recovering := left } }
  settle (if due then consumeImage s else s)

/-- RECOVERY_COMPLETE. An array that is OFFLINE counts as finished, its units being held in the window; it closes out after it has left
OFFLINE. Otherwise steps 2 and 3 have ended, and a checkpoint has written every changed page: where one is still due it starts now. -/
def recoveryComplete (a : Nat) (s : Dev) : Dev :=
  match s.arr? a with
  | none => s
  | some x =>
    if x.offline ≠ 0 then (if s.inMode .focus then recoveryEnds a s else s)
    else if x.recovery.isSome && x.recovered && s.executing then
      if pagesDue s a then startCheckpoint s else recoveryEnds a (closeOut a s)
    else s

def execRecoveryComplete (a : Nat) (s : State) : Host.Outcome State Fault Refusal := onDev s (fun s => recoveryComplete a s)

end Sys2Proof.Machine
end

