-- ==== Sys2Proof/Machine/Modes.lean ====
section
/-!
DEFINITION. Mode requests (R28), leaving ECLIPSE (R32, R33), soft reset (R127), and the replica stage time (R25).
-/

namespace Sys2Proof.Machine

/-! ### Commands that a reset ends -/

/-- Every command fetched and not completed completes ABORTED_RESET, in submission order within each queue, its qualifier by R90; inline
entries that were consumed and wait for room are such commands (R76). A ring entry that was never fetched keeps its ABORTED_QUEUE. -/
def abortCommands (s : Dev) : Dev :=
  let s := (tkeys s.cm.qs).foldl (fun s k => unpark (unpackFn (k / 1024)) (k % 1024) (fun _ => true) s) s
  let s := (s.cm.ctxs.filter (!·.unfetched)).foldl (fun s c => endCtx0 c.id 0x07 (abortQualifier c) 0 s) s
  let s := (tkeys s.cm.qs).foldl (fun s k => abortReady (unpackFn (k / 1024)) (k % 1024) 0x07 s) s
  dropJobs { s with cm := { s.cm with isolating := none } }

/-- The pair's part of a device that leaves LEAD or MIRROR for FOCUS without its partner. -/
def standDown (s : Dev) : Dev :=
  let s := { s with pr := { s.pr with
    lease := false, guarding := false, partnerReady := false, unacked := [], verdict := none, caughtUp := false, arbiterNext := none
    held := [], deferred := [], resync := none } }
  setPairState 0 s

/-! ### MODE_REQUEST_FOCUS and MODE_REQUEST_SOLO (R28, R36) -/

def refuseMode (reason : Nat) (s : Dev) : Dev := s.setVal Fam.deviceModeRefusal 0 reason

/-- Journals that could not be written in ECLIPSE go out, to new holders where a holder was lost meanwhile (R217, R218). -/
def resumeJournals (s : Dev) : Dev :=
  (tkeys s.arrays).foldl (fun s a =>
    let s := rehome a s
    if ((s.arr? a).map (·.jdirty.isEmpty)).getD true then s else writeJournal a s) s

/-- R322, R358: parked heads load, once their spindle has its speed. -/
def wakeHeads (s : Dev) (n : Nat) : Dev :=
  if (s.lens n).parked then
    if (s.lens n).atSpeed then lensCmd n 0x0A 0 s else sendSpindle n (cadenceOf s (lensMember n)) s
  else s

/-- R33: the destage begins. Heads load, and every acknowledged unit in the protected cache is placed again, in write-sequence order;
beams left open by the entry to ECLIPSE never commit. `soft`: for a soft reset (R39). -/
def beginDestage (soft : Bool) (s : Dev) : Dev :=
  let s := joinPlatters (abandonAll (dropReads (s.setTrans (some (.eclipseDestage soft)))))
  let s := resumeJournals (s.lensUp.foldl wakeHeads s)
  (tkeys s.arrays).foldl (fun s a =>
    match s.arr? a with
    | some x =>
      let s := s.setArr a { x with keptUnits := x.keptUnits.filter fun i => (hostSeq i).isSome }
      forceClose a (fun b => !b.internal) (replaceAll a s)
    | none => s) s

/-- The reasons of a refusal are tested in the order of this definition (DESIGN CHOICE, log entry 75). While a dump runs no destage can
begin (R249); the spec gives the request that finds it so no reason of its own, and it is refused as one whose destage cannot finish
(DESIGN CHOICE, log entry 82). -/
def requestFocus (s : Dev) : Dev :=
  if s.transiting then refuseMode 2 s
  else match s.pw.mode with
    | some .eclipse =>
      if s.noSev4 = false then refuseMode 3 s
      else if s.dumping then refuseMode 5 s
      else beginDestage false (refuseMode 0 s)
    | some .solo | some .lead =>
      let s := (refuseMode 0 s).setTrans (some .focusDrain)
      (tkeys s.arrays).foldl (fun s a => forceClose a (fun b => !b.internal) s) s
    | _ => refuseMode 1 s

def execModeRequestFocus (who : Master) (s : State) : Host.Outcome State Fault Refusal :=
  onDev s (fun s => guardedWrite who Fam.deviceModeRequest 0 always requestFocus s)

/-- The reasons of a refusal are tested in the order 2, 1, 4, 5: the spec gives none (DESIGN CHOICE, log entry 75). -/
def requestSolo (s : Dev) : Dev :=
  if s.transiting then refuseMode 2 s
  else if s.inMode .focus = false then refuseMode 1 s
  else if s.flag Fam.pairEnable then refuseMode 4 s
  else if s.pw.recovering ≠ [] then refuseMode 5 s
  else settle (enterSolo 0 (refuseMode 0 s))

def execModeRequestSolo (who : Master) (s : State) : Host.Outcome State Fault Refusal :=
  onDev s (fun s => guardedWrite who Fam.deviceModeRequest 0 always requestSolo s)

/-- R337, R361: an orderly transition to FOCUS writes the zone tables that differ, and the reallocation tables. -/
def flushTables (s : Dev) : Dev := s.lensUp.foldl (fun s n => reallocTableWrite n (zoneFlush n s)) s

/-- FOCUS_DRAIN_COMPLETE: every fetched command has completed, every open beam has committed. -/
def focusDrained (s : Dev) : Dev :=
  if s.pw.trans = some .focusDrain ∧ s.cm.ctxs.isEmpty = true ∧ (s.arrays.all fun e => e.2.beams.isEmpty) = true then
    focusEntry (changeMode .focus 0 0xFFFF 0xFF (standDown (flushTables (s.setTrans none))))
  else s

def execFocusDrainComplete (s : State) : Host.Outcome State Fault Refusal := onDev s (fun s => focusDrained s)

/-! ### Leaving ECLIPSE (R32, R33, R249) -/

/-- Host ports that a dump had powered down are terminated and ready to train again (log entry 74). -/
def powerUpPorts (s : Dev) : Dev :=
  if s.pw.hostTerminated then s
  else (List.range 16).foldl (fun s n => s.setPort n { s.port n with readyToTrain := !(s.port n).perstLow })
    { s with pw := { s.pw with hostTerminated := true } }

/-- R249: with the data destaged the window is needed no longer: the sealed headers of the dump are marked consumed, and it counts as
idle. Without a dump an image that stands is an older one, whose recovery goes on (Table 8.9). -/
def endDump (destaged : Bool) (s : Dev) : Dev :=
  if destaged && s.val Fam.pcacheDumpState != 0 then
    let s := if s.pc.image.isSome || s.pc.hdr0 == 1 || s.pc.hdr1 == 1 then consumeImage s else s
    s.setVal Fam.pcacheDumpState 0 0
  else s

/-- FOCUS after ECLIPSE: commands complete ABORTED_RESET, copy records held are written, and queue ops that an abandoned activation held
are performed; recoveries that ECLIPSE interrupted start again (R252). Where the start itself had ended in ECLIPSE, its last step is made
now (R30). `destaged`: the acknowledged data has committed, and is not kept for replay. -/
def leaveEclipse (trigger : Nat) (destaged : Bool) (s : Dev) : Dev :=
  let s := standDown (s.setTrans none)
  if s.val Fam.bootStage ≠ 0 then
    let s := if s.pw.ddrReady then s else loadCore { s with pw := { s.pw with ddrReady := true, mpPerstLow := false } }
    joinPlatters (assemble s.pc.hdr0 s.pc.hdr1 (s.pc.windowGib * 1024) trigger s)
  else
    let s := performHeldOps (copyLeaveEclipse (abortCommands (changeMode .focus trigger 0xFFFF 0xFF s)))
    powerUpPorts (advanceWork (joinPlatters (recoveryRestart (resumeJournals (focusEntry (endDump destaged s))))))

/-- R33: every acknowledged unit has committed. A start that ended in ECLIPSE has acknowledged none. -/
def destageEnded (s : Dev) : Bool :=
  s.val Fam.bootStage != 0 || s.arrays.all fun e => e.2.beams.isEmpty && e.2.keptUnits.isEmpty

/-- The trigger that the MODE record gives: a mode request, or the soft reset. -/
def destageTrigger (s : Dev) : Nat := match s.pw.trans with | some (.eclipseDestage true) => 6 | _ => 0

/-- ECLIPSE_DESTAGE_COMPLETE. -/
def destageComplete (s : Dev) : Dev := if s.destaging && destageEnded s then leaveEclipse (destageTrigger s) true s else s

def execEclipseDestageComplete (s : State) : Host.Outcome State Fault Refusal := onDev s (fun s => destageComplete s)

/-- ECLIPSE_DESTAGE_FAILED: the data stays in the protected cache, and the heads are parked again. A soft reset goes on to FOCUS, and
the data is kept for replay (R39). -/
def destageFailed (s : Dev) : Dev :=
  if s.destaging then
    if destageTrigger s = 6 then leaveEclipse 6 false (abandonAll s) else stopDestage s
  else s

def execEclipseDestageFailed (s : State) : Host.Outcome State Fault Refusal := onDev s (fun s => destageFailed s)

/-- ECLIPSE_PARK_DELAY_EXPIRE (R380): PARK goes to the channels this device still owns. -/
def parkDelay (s : Dev) : Dev :=
  if s.pw.parkPending then
    let s := { s with pw := { s.pw with parkPending := false } }
    (s.lensUp.filter fun n => (s.lens n).owner).foldl (fun s n => lensPark n s) s
  else s

def execEclipseParkDelayExpire (s : State) : Host.Outcome State Fault Refusal := onDev s (fun s => parkDelay s)

/-! ### Soft reset (R39, R127) -/

/-- 0x5EF7 alone; while one runs the action is in progress already. -/
def softRefusal (v : Nat) (s : Dev) : Nat := if v ≠ 0x5EF7 then rUnavailable else if s.softResetting then rBusy else 0

/-- The firmware restarts; a transition or an activation under way is abandoned (Table 4.12). -/
def beginSoftReset (s : Dev) : Dev :=
  match s.pw.mode with
  | none => s
  | some m =>
    (abandonActivation s).setTrans (some (.softReset m))

def execSoftReset (who : Master) (v : Nat) (s : State) : Host.Outcome State Fault Refusal :=
  onDev s (fun s => guardedWrite who Fam.deviceSoftReset 0 (softRefusal v) beginSoftReset s)

/-- SOFT_RESET_COMPLETE. From ECLIPSE the device goes to FOCUS only with no severity-4 source LATCHED and no dump under way (R249), at once
where nothing acknowledged waits, otherwise by way of the destage. -/
def softResetComplete (s : Dev) : Dev :=
  match s.pw.trans with
  | some (.softReset m) =>
    let s := s.setTrans none
    if s.inMode .eclipse then
      if s.noSev4 = false then refuseMode 3 s
      else if s.dumping then refuseMode 5 s
      else
        let s := beginDestage true s
        if destageEnded s then leaveEclipse 6 true s else s
    else
      let s := performHeldOps (abortCommands (standDown s))
      -- R127 has acknowledged data destaged: the open beams close as for a mode request to FOCUS (DESIGN CHOICE, log entry 82)
      let s := (tkeys s.arrays).foldl (fun s a => forceClose a (fun b => !b.internal) s) s
      if m = .focus then recoveryRestart s else focusEntry (changeMode .focus 6 0xFFFF 0xFF s)
  | _ => s

def execSoftResetComplete (s : State) : Host.Outcome State Fault Refusal := onDev s (fun s => softResetComplete s)

/-! ### The replica stage (R25) -/

def execFabricPeakReset (who : Master) (s : State) : Host.Outcome State Fault Refusal :=
  onDev s (fun s => guardedWrite who Fam.fabricPeakReset 0 always (fun s => s.setVal Fam.fabricStagePsPeak 0 (s.val Fam.fabricStagePs)) s)

/-- STAGE_TIME_REFRESH. -/
def stageRefresh (ps : Nat) (s : Dev) : Dev :=
  let v := min ps 65535
  (s.setVal Fam.fabricStagePs 0 v).setVal Fam.fabricStagePsPeak 0 (max v (s.val Fam.fabricStagePsPeak))

def execStageTimeRefresh (ps : Nat) (s : State) : Host.Outcome State Fault Refusal :=
  onDev s (fun s => if corePowered s then stageRefresh ps s else s)

end Sys2Proof.Machine
end

