-- ==== Sys2Proof/Machine/Power.lean ====
section
/-!
DEFINITION. The pacer and temperature (R458 to R461), thermal trip (R461, R467), POR_N, collapse (R457, R462, R463), the PHY reset and
PLCA (R443).
-/

namespace Sys2Proof.Machine

/-! ### Pacer (R458, R459) -/

/-- R459: the lower of the two admissions. -/
def showAdmission (s : Dev) : Dev := s.setVal Fam.pacerAdmissionPct 0 (min s.pw.sagPct s.pw.thermPct)

def setSag (p : Nat) (s : Dev) : Dev := showAdmission { s with pw := { s.pw with sagPct := p } }

/-- SAG_SENSOR_BELOW: source 0x004 + i is LIVE; a cut from 100 % counts. -/
def sagBelow (i : Nat) (s : Dev) : Dev :=
  if i < 16 ∧ corePowered s = true ∧ s.pw.sagBelow.contains i = false then
    let s := { s with pw := { s.pw with sagBelow := s.pw.sagBelow ++ [i] } }
    let s := if s.pw.sagPct = 100 then setSag 50 (s.bump Fam.pacerSagEvents) else s
    raise (0x004 + i) i false s
  else s

def execSagSensorBelow (i : Nat) (s : State) : Host.Outcome State Fault Refusal := onDev s (fun s => sagBelow i s)

/-- SAG_DEEP_CUT. -/
def execSagDeepCut (i : Nat) (s : State) : Host.Outcome State Fault Refusal :=
  onDev s (fun s => if s.pw.sagBelow.contains i && s.pw.sagPct == 50 then setSag 25 (s.bump Fam.pacerDeepEvents) else s)

/-- SAG_RECOVERY_STEP: every sensor has been above, so no sag source is LIVE. -/
def sagRecover (s : Dev) : Dev :=
  if corePowered s && decide (s.pw.sagPct < 100) then
    let s := s.pw.sagBelow.foldl (fun s i => hubFall (0x004 + i) s) s
    setSag (if s.pw.sagPct = 25 then 50 else 100) { s with pw := { s.pw with sagBelow := [] } }
  else s

def execSagRecoveryStep (s : State) : Host.Outcome State Fault Refusal := onDev s (fun s => sagRecover s)

/-! ### Temperature (R460) -/

/-- A signed 16-bit value as it is held. -/
def i16 (v : Int) : Nat := (v % 65536).toNat

/-- The signed value held. -/
def ofI16 (n : Nat) : Int := if n < 32768 then n else (n : Int) - 65536

def showTj (t : Int) (s : Dev) : Dev :=
  (s.setVal Fam.thermalTjC 0 (i16 t)).setVal Fam.thermalTjPeakC 0 (i16 (max t (ofI16 (s.val Fam.thermalTjPeakC))))

/-- The threshold of an action, °C. -/
def thermalAt (t : Thermal) (s : Dev) : Int :=
  match t with
  | .alert => s.val Fam.thermalAlertC
  | .limit => s.val Fam.thermalLimitC
  | .limitPlus5 => s.val Fam.thermalLimitC + 5
  | .shutdown => s.val Fam.thermalShutdownC

def thermAlert (low : Bool) (s : Dev) : Dev :=
  emit (.pin "THERM_ALERT_N" (!low)) { s with pw := { s.pw with thermAlertLow := low } }

def setThermal (p : Nat) (s : Dev) : Dev := showAdmission { s with pw := { s.pw with thermPct := p } }

/-- THERMAL_THRESHOLD: Table 17.2; the shutdown threshold acts at its value, the others above it. -/
def thermalThreshold (t : Thermal) (tj : Int) (sensor : Nat) (s : Dev) : Dev :=
  if corePowered s then
    let s := showTj tj s
    let above := if t = .shutdown then decide (thermalAt t s ≤ tj) else decide (thermalAt t s < tj)
    if above then
      match t with
      | .alert => thermAlert true s
      | .limit => raise 0x014 sensor false (setThermal (min s.pw.thermPct 50) s)
      | .limitPlus5 => raise 0x014 sensor false (setThermal 25 s)
      | .shutdown => raise 0x015 sensor false s
    else s
  else s

def execThermalThreshold (t : Thermal) (tj : Int) (sensor : Nat) (s : State) : Host.Outcome State Fault Refusal :=
  onDev s (fun s => thermalThreshold t tj sensor s)

/-- THERMAL_ACTION_END: at least 3 °C below for 100 ms. -/
def thermalEnd (t : Thermal) (tj : Int) (s : Dev) : Dev :=
  if corePowered s then
    let s := showTj tj s
    if tj + 3 ≤ thermalAt t s then
      match t with
      | .alert => thermAlert false s
      | .limit => hubFall 0x014 (setThermal 100 s)
      | .limitPlus5 => if s.pw.thermPct = 25 then setThermal 50 s else s
      | .shutdown => hubFall 0x015 s
    else s
  else s

def execThermalActionEnd (t : Thermal) (tj : Int) (s : State) : Host.Outcome State Fault Refusal := onDev s (fun s => thermalEnd t tj s)

/-! ### Thermal trip (R461, R467) -/

/-- CORE_PWR_EN goes low; the device passes to DARK. -/
def trip (s : Dev) : Dev :=
  let s := setCorePwr false (coreStops s)
  { s with pw := { s.pw with tripPending := false, tripped := true, triedSlots := [] } }

/-- A dump that runs is waited for. One is started first where the window holds acknowledged data and none has run. -/
def thermalTrip (s : Dev) : Dev :=
  let st := s.val Fam.pcacheDumpState
  let wait (s : Dev) : Dev := { s with pw := { s.pw with tripPending := true } }
  if s.periscope && !s.pw.tripped then
    if st = 1 ∨ st = 2 then wait s
    else if corePowered s && s.pw.ddrReady && windowHolds s && st == 0 && s.pc.image.isNone then wait (startDump true s)
    else trip s
  else s

def execThermalTrip (s : State) : Host.Outcome State Fault Refusal := onDev s (fun s => thermalTrip s)

def execThermalTripWaitExpire (s : State) : Host.Outcome State Fault Refusal := onDev s (fun s => if s.pw.tripPending then trip s else s)

/-- DUMP_SEALED (Table 8.7, steps 8 and 9); a trip that has waited for the end of the dump is made. -/
def execDumpSealed (us : Nat) (s : State) : Host.Outcome State Fault Refusal :=
  onDev s (fun s => let s := dumpSealed us s
    if s.pw.tripPending && (s.val Fam.pcacheDumpState == 3 || s.val Fam.pcacheDumpState == 4) then trip s else s)

/-- THERMAL_RESTART: verification of the image may begin. -/
def execThermalRestart (s : State) : Host.Outcome State Fault Refusal :=
  onDev s (fun s => if s.periscope && s.pw.tripped then { s with pw := { s.pw with tripped := false, triedSlots := [] } } else s)

/-! ### POR_N and collapse (R457, R462, R463) -/

/-- Objects held in MRAM or on the members and modules, which POR_N leaves as they are (log entry 5). -/
def heldObject (f : Nat) : Bool :=
  [Fam.bootSlot, Fam.bootSlotState, Fam.bootMinSvn, Fam.bootPorCount, Fam.powerCollapses, Fam.lifeHours, Fam.lifeExceedHours,
   Fam.pcacheDumps, Fam.pairLeaseEpoch, Fam.pairTakeovers, Fam.pairArbiter, Fam.lensFeSerial].contains f
    || (0x4100 ≤ (famRow f).index && (famRow f).index < 0x4140 && (famRow f).access != .RWS)

/-- Everything is reset, Periscope included; MRAM, QSPI, members and front-ends keep what they hold. -/
def resetAll (s : Dev) : Dev :=
  let s := coreStops s
  { s with
    vals := s.vals.filter fun e => heldObject (e.1 % 512)
    pw := { Power.inReset with coreRstHigh := s.pw.coreRstHigh, orderly := s.pw.orderly, adminPort := s.pw.adminPort }
    tm := TimeState.zero
    fh := { src := [], first := none, ring := s.fh.ring, head := s.fh.head, queue := [] }
    mt := Meter.off
    pc := { s.pc with attested := false }
    dc := { holder := 0, expiry := 0, slots := [], copyA := s.dc.copyA, copyB := s.dc.copyB, storing := none, storeFor := none
            loaded := Settings.blank }
    sb := { keys := s.sb.keys, seqIn := [], seqOut := [], subs := [], dadConflict := false }
    fw := { s.fw with slotA := { s.fw.slotA with writer := 0 }, slotB := { s.fw.slotB with writer := 0 } } }

/-- POR_N_ASSERT. A store under way leaves its copy torn (Table 17.14). -/
def tearStore (s : Dev) : Dev :=
  match s.dc.storing with
  | some (0, c) => { s with dc := { s.dc with copyA := { c with valid := false } } }
  | some (_, c) => { s with dc := { s.dc with copyB := { c with valid := false } } }
  | none => s

def porAssert (s : Dev) : Dev :=
  emit (.pin "CORE_PWR_EN" false) (resetAll (tearStore s))

def execPorNAssert (s : State) : Host.Outcome State Fault Refusal := onDev s (fun s => porAssert s)

/-- R441: the copy with the higher sequence that is whole. -/
def chooseCopy (s : Dev) : Option Nat :=
  if s.dc.copyA.valid && (!s.dc.copyB.valid || decide (s.dc.copyB.seq ≤ s.dc.copyA.seq)) then some 0
  else if s.dc.copyB.valid then some 1
  else none

/-- Periscope loads the settings. A unit whose copies were never written has none to load either, and starts with the defaults. -/
def loadSettings (s : Dev) : Dev :=
  let torn : Option Nat :=
    if !s.dc.copyA.valid && decide (s.dc.copyB.seq < s.dc.copyA.seq) then some 0
    else if !s.dc.copyB.valid && decide (s.dc.copyA.seq < s.dc.copyB.seq) then some 1
    else none
  match chooseCopy s with
  | some n =>
    let c := if n = 0 then s.dc.copyA else s.dc.copyB
    let s := loadValues true c { s with dc := { s.dc with loaded := c } }
    let s := (s.setVal Fam.settingsLoadedCopy 0 n).setVal Fam.settingsSequence 0 c.seq
    match torn with
    | some k => raise 0x250 k false s
    | none => s
  | none => raise 0x250 0xFF false (s.setVal Fam.settingsLoadedCopy 0 2)

/-- POR_N_RELEASE: straps sampled, Periscope runs, the device is in DARK; the grandmaster is not selected (R449). -/
def porRelease (mode : Nat) (pairId : Bool) (s : Dev) : Dev :=
  let s := { s with pw := { Power.inReset with
    porHigh := true, coreRstHigh := s.pw.coreRstHigh, orderly := s.pw.orderly, adminPort := s.pw.adminPort, bootMode := mode % 4
    pairId := pairId } }
  let s := (changeMode .dark 2 0xFFFF 0xFF s).bump Fam.bootPorCount
  let s := (s.setVal Fam.bootStage 0 1).setVal Fam.bootStraps 0 (mode % 4 + 4 * b2n pairId)
  raise 0x253 0 false (loadSettings s)

def execPorNRelease (mode : Nat) (pairId : Bool) (s : State) : Host.Outcome State Fault Refusal :=
  onDev s (fun s => if s.pw.porHigh then s else porRelease mode pairId s)

/-- Payload of a LAST_GASP record; VDD_CORE at that instant is the world's, a free value (log entry 3). -/
def gaspPayload (s : Dev) : List Byte :=
  le 1 (s.val Fam.pcacheDumpState) ++ le 1 0 ++ le 2 (Config.freeNat s.fresh) ++ le 2 (s.val Fam.thermalTjC)
    ++ le 2 ((s.fh.first.map (·.1)).getD 0xFFFF)

/-- SUPPLY_COLLAPSE: the last gasp writes its record, records that wait are lost, and Periscope stays in reset (R424, R457). -/
def collapse (s : Dev) : Dev :=
  let s := s.bump Fam.powerCollapses
  let s := writeRecord { kind := 0x03, flags := b2n s.unsynced, source := 0xFFFF, severity := 0xFF, mode := 0, time := s.tm.device
                         payload := gaspPayload s } s.draw
  let s := resetAll (tearStore s)
  { s with pw := { s.pw with porHigh := true, collapsed := true } }

def execSupplyCollapse (s : State) : Host.Outcome State Fault Refusal := onDev s (fun s => if s.periscope then collapse s else s)

/-- COLLAPSE_RESTART: as at a POR_N release, with POR_N high. -/
def execCollapseRestart (mode : Nat) (pairId : Bool) (s : State) : Host.Outcome State Fault Refusal :=
  onDev s (fun s => if s.pw.porHigh && s.pw.collapsed then porRelease mode pairId s else s)

/-! ### The side-band PHY (R443) -/

def execSbPhyResetRelease (s : State) : Host.Outcome State Fault Refusal :=
  onDev s (fun s => if s.periscope then emit (.pin "SB_PHY_RST_N" true) { s with pw := { s.pw with sbPhyRstHigh := true } } else s)

/-- PLCA_CONFIG: one Clause 45 write of count and node. -/
def execPlcaConfig (s : State) : Host.Outcome State Fault Refusal :=
  onDev s (fun s => if s.periscope && s.pw.sbPhyRstHigh then
      emit (.mdio (s.val Fam.sbPhyPlcaReg) (256 * s.val Fam.sbPlcaCount + s.val Fam.sbPlcaNode)) s
    else s)

end Sys2Proof.Machine
end

