-- ==== Sys2Proof/Machine/Dictionary.lean ====
section
/-!
DEFINITION. The object dictionary: what each object reads as, what writing it does (Tables 1.4 to 17.15), the access slots and the
mailbox path (R434 to R436), the write claim (R437 to R439), and the settings store (R440, R442).
-/

namespace Sys2Proof.Machine

/-! ### What objects read as -/

/-- `q[n].owner`. -/
def slotOwner (s : Dev) (n : Nat) : Nat :=
  match tfind s.cm.slots n with
  | none => 0xFFFFFFFF
  | some k =>
    let x := tget s.cm.qs k QState.absent
    k / 1024 + 2048 * (k % 1024) + 2 ^ 21 * b2n (x.sqState != .absent) + 2 ^ 22 * b2n (x.cqState != .absent)

/-- `tenant[t].entry`. -/
def tenantEntry (x : Tenant) : List Byte :=
  le 4 x.opRate ++ le 4 x.opDepth ++ le 4 x.byteRate ++ le 4 x.byteDepth ++ le 4 (x.w1 + 256 * x.w2) ++ le 8 x.quota
    ++ le 1 (b2n x.defined + 2 * b2n x.isolated)

/-- `volume[v].record`. -/
def volumeRecord (x : Option Vol) : List Byte :=
  match x with
  | none => List.replicate 21 0
  | some v =>
    le 8 v.capacity ++ le 8 v.allocated ++ le 2 v.tenant ++ le 1 v.array ++ le 1 (if v.st = .ready then 1 else 2)
      ++ le 1 (if v.key.isNone then 0 else if v.stored.isNone then 1 else 2)

/-- `member[i].assignment`. -/
def memberAssignment (l : Option Label) : Nat :=
  match l with
  | none => 0
  | some l => l.role % 256 + 256 * (l.array % 256) + 65536 * (l.slot % 256) + 2 ^ 24 * (l.domain % 256)

/-- `member[i].attach`. -/
def memberAttach (x : Member) : Nat :=
  x.port % 32 + 32 * (x.half % 2) + 64 * (x.levels % 4) + 256 * b2n x.writeCache + 512 * b2n x.singlePort + 1024 * b2n x.reserved

/-- `lens[n].link`. -/
def lensLink (x : Lens) : Nat := b2n x.blockLock + 2 * b2n x.up + 4 * b2n x.owner + 8 * b2n x.parked + 16 * b2n x.versionRefused

/-- `journal.domain_shortfall`: a U8, which shows the number modulo 256 (DESIGN CHOICE, log entry 77). -/
def domainShortfall (s : Dev) : Nat :=
  (s.arrays.filter fun e => domainShort s e.2.holders).length
    + (s.ms.extents.filter fun e => domainShort s (e.copies.map (·.1))).length

/-- `fault.first`. -/
def faultFirst (s : Dev) : List Byte :=
  match s.fh.first with
  | none => List.replicate 13 0
  | some (n, sev, inj, real, t) => le 1 1 ++ le 2 n ++ le 1 sev ++ le 1 (b2n inj + 2 * b2n real) ++ le 8 t

/-- `fault.latched_map`. -/
def latchedMap (s : Dev) : List Byte :=
  (List.range 80).map fun b => BitVec.ofNat 8 ((List.range 8).map fun i => b2n (s.src (8 * b + i)).latched * 2 ^ i).sum

/-- R426: the record of a sequence, all zeros for one that the ring does not hold. -/
def recordOf (s : Dev) (q : Nat) : List Byte :=
  if q ≤ s.fh.head ∧ s.fh.head < q + 65536 ∧ 0 < q then fitBytes 64 (tget s.fh.ring (q % 65536) []) else List.replicate 64 0

/-- The zone entry that `lens[n].zone_select` selects: the live or the stored one. -/
def selectedZone (s : Dev) (n : Nat) (live : Bool) : List Byte :=
  let v := s.val Fam.lensZoneSelect n
  match tfind (s.lens n).zones (v % 256 * 64 + v / 256 % 64) with
  | some z => zoneBytes (if live then z.2 else z.1)
  | none => List.replicate 64 0

/-- "GP7160" (Table 16.13). -/
def partNumber : List Byte := fitBytes 32 [0x47, 0x50, 0x37, 0x31, 0x36, 0x30]

/-- Objects of an array that its record gives; an array that does not exist reads the defaults. -/
def readArray (s : Dev) (f : Nat) (x : Arr) : Option Nat :=
  if f = Fam.arrayScheme then some (if x.geom.mirror then 2 else 1)
  else if f = Fam.arrayDataFacets then some x.geom.dataFacets
  else if f = Fam.arrayFacetSize then some (2 ^ x.shift)
  else if f = Fam.arrayRedundancy then some x.geom.m
  else if f = Fam.arrayWidth then some x.geom.width
  else if f = Fam.arrayBeamBlocks then some (x.geom.blocks x.shift)
  else if f = Fam.arraySegments then some x.segs
  else if f = Fam.arrayGeometryEpoch then some x.geom.epoch
  else if f = Fam.arrayInstance then some x.inst
  else if f = Fam.arrayPolicy then some (b2n x.writeThrough)
  else if f = Fam.arrayWriteSeq then some x.nextSeq
  else if f = Fam.arrayFreeSegments then some x.freeSegments
  else if f = Fam.arrayJournalHolders then some (x.holders.getD 0 0 + 65536 * x.holders.getD 1 0 + 2 ^ 32 * x.holders.getD 2 0)
  else if f = Fam.arrayState then some (arrayState s x)
  else if f = Fam.arrayActivity then some (arrayActivity x)
  else if f = Fam.arrayOfflineReason then some x.offline
  else if f = Fam.arraySlotsDown then
    some (x.geom.members.filter fun m => (s.mem m).st != .online && (s.mem m).st != .target).length
  else none

/-- Objects of the members and the Lens channels that their state gives. -/
def readMember (s : Dev) (f i : Nat) : Option Nat :=
  if f = Fam.memberState then some (s.mem i).st.code
  else if f = Fam.memberAssignment then some (memberAssignment (s.mem i).label)
  else if f = Fam.memberAttach then some (memberAttach (s.mem i))
  else if f = Fam.mportSolidMembers then some (s.present.filter fun m => !isPlatter m && (s.mem m).seen).length
  else if f = Fam.lensLink then some (lensLink (s.lens i))
  else if f = Fam.lensFeSerial then some (if (s.lens i).up then s.val f i else 0)
  else if f = Fam.lensReallocCount then some (s.lens i).realloc.length
  else if f = Fam.lensReallocPending then some (s.lens i).journal.length
  else none

/-- Fault registers (Table 15.9). -/
def readFault (s : Dev) (f i : Nat) : Option Nat :=
  if f = Fam.faultStatus then some (s.src i).status
  else if f = Fam.faultSeverity then some (s.severity i)
  else if f = Fam.faultCount then some (s.src i).count
  else if f = Fam.faultOnset then some (s.src i).onset
  else if f = Fam.faultCleared then some (s.src i).cleared
  else if f = Fam.faultDetail then some (s.src i).detail
  else none

/-- Everything else that the state gives. -/
def readDevice (s : Dev) (f i : Nat) : Option Nat :=
  if f = Fam.deviceMode then some ((s.pw.mode.map Mode.code).getD 0)
  else if f = Fam.deviceStepping then some s.ident.stepping
  else if f = Fam.qOwner then some (slotOwner s i)
  else if f = Fam.queueSlotsUsed then some s.cm.slots.length
  else if f = Fam.meterBacklog then some s.mt.backlog.length
  else if f = Fam.mapPages then some (mapPages s)
  else if f = Fam.mapExtentsFree then some (extentsFree s)
  else if f = Fam.journalDomainShortfall then some (domainShortfall s)
  else if f = Fam.pcacheRequiredEnergyJ then some (requiredEnergy s)
  else if f = Fam.pcacheHoldupCertified then some (b2n (certified s))
  else if f = Fam.copyChanState then some (s.chan i).st
  else if f = Fam.bboxHead then some s.fh.head
  else if f = Fam.idSerial then some s.ident.serial.toNat
  else if f = Fam.idMac then some s.ident.mac.toNat
  else if f = Fam.claimHolder then some s.dc.holder
  else if f = Fam.claimRemainingMs then some (if s.dc.holder = 0 then 0 else (s.dc.expiry - s.tm.now) / 1000000)
  else if f = Fam.dictCatalogueEntries then some Config.catalogueEntries
  else if f = Fam.sbSubscribers then some s.sb.subs.length
  else none

/-- Measurements, averages and counts of what the model leaves out: free values (log entry 3). -/
def measuredObject (f : Nat) : Bool :=
  [Fam.powerVddCoreMv, Fam.powerVddAonMv, Fam.powerVddNvmMv, Fam.lifeAvgTjDc, Fam.lifeAvgCoreMv, Fam.lifeExceedHours,
   Fam.pairWbWaits].contains f

/-- R42: ASPM L1 is allowed by the device and enabled by the host. ECLIPSE keeps the links in L0 (R27). -/
def l1Permitted (s : Dev) (n : Nat) : Bool :=
  s.flag Fam.hostPortAspmL1 n && (s.fnS ⟨n, 0⟩).cfg.linkControl.getLsbD 1 && !s.inMode .eclipse

/-- Bit 8 of `host.port[n].link`: a port that may enter L1 is there or in L0 as its traffic has it, a free value (log entry 3); every
other stays in L0. -/
def shownLink (s : Dev) (n : Nat) : Nat :=
  let v := s.val Fam.hostPortLink n
  if bit v 8 && l1Permitted s n && bit (Config.freeNat s.fresh) 0 then v - 256 else v

/-- A scalar object's value. -/
def readScalar (s : Dev) (f i : Nat) : Nat :=
  if measuredObject f then Config.freeNat s.fresh
  else if f = Fam.hostPortLink then shownLink s i
  else
    let a := if 0x4100 ≤ (famRow f).index ∧ (famRow f).index < 0x4140 then (s.arr? i).bind (readArray s f) else none
    ((((a <|> readMember s f i) <|> readFault s f i) <|> readDevice s f i)).getD (s.val f i)

/-- The bytes of an object's value (R432). -/
def readBytes (s : Dev) (f i : Nat) : List Byte :=
  let n := (famRow f).length
  if f = Fam.tenantEntry then tenantEntry (s.ten i)
  else if f = Fam.meterLast then fitBytes 64 (s.ten i).lastRecord
  else if f = Fam.volumeRecord then volumeRecord (s.vol? i)
  else if f = Fam.lensZoneLive then selectedZone s i true
  else if f = Fam.lensZoneStored then selectedZone s i false
  else if f = Fam.faultFirst then faultFirst s
  else if f = Fam.faultLatchedMap then latchedMap s
  else if f = Fam.bboxRecord then recordOf s (s.val Fam.bboxSelect)
  else if f = Fam.idPart then partNumber
  else le n (readScalar s f i)

/-- R430: a read's result, and the value when it is OK. -/
def readObject (who : Master) (index sub : Nat) (s : Dev) : Nat × List Byte :=
  match findObject index sub with
  | none => (rNoObject, [])
  | some (f, i) =>
    let t := accessTest s who f i false
    if t ≠ 0 then (t, [])
    else if s.inMode .dark && !(famRow f).periscope then (rUnavailable, [])
    else (rOk, readBytes s f i)

/-- A read of a measurement draws a fresh free value. -/
def afterRead (index sub : Nat) (s : Dev) : Dev :=
  match findObject index sub with
  | some (f, _) => if measuredObject f ∨ f = Fam.hostPortLink then s.draw else s
  | none => s

/-! ### The write claim (R437 to R439) -/

/-- The claim's own numbers for the two masters that can hold it. -/
def claimant (who : Master) : Nat := match who with | .admin => 1 | .sideband => 2 | _ => 0

/-- R65: the admin function cannot be reached. -/
def adminUnreachable (s : Dev) : Bool := !portServes s s.pw.adminPort

/-- Table 16.7: the refusal of an action. -/
def claimRefusal (who : Master) (v : Nat) (s : Dev) : Nat :=
  let me := claimant who
  if me = 0 then rUnavailable
  else match v with
    | 1 => if s.dc.holder = 0 ∨ s.dc.holder = me then 0 else rClaimed
    | 2 => if s.dc.holder = me then 0 else rClaimed
    | 3 => 0
    | 4 => if me = 1 then rNoRight else if adminUnreachable s then 0 else rUnavailable
    | _ => rUnavailable

/-- 10 s. -/
def claimLease : Nat := 10000000000

def holdClaim (who : Master) (s : Dev) : Dev :=
  { s with dc := { s.dc with holder := claimant who, expiry := s.tm.now + claimLease } }

/-- The claim is free. -/
def freeClaim (s : Dev) : Dev := { s with dc := { s.dc with holder := 0, expiry := 0 } }

/-- Table 16.7: an action's outcome. -/
def claimAct (who : Master) (v : Nat) (s : Dev) : Dev :=
  match v with
  | 3 => if s.dc.holder = claimant who then freeClaim s else s
  | 4 => raise 0x254 0 false (holdClaim who (s.bump Fam.claimForced))
  | _ => holdClaim who s

/-- A row of the claim: one of the four actions. -/
def claimWrite (who : Master) (v : Nat) (s : Dev) : Dev :=
  guardedWrite who Fam.claimRequest 0 (claimRefusal who v) (claimAct who v) s

def execTake (who : Master) (s : State) : Host.Outcome State Fault Refusal := onDev s (fun s => claimWrite who 1 s)
def execRenew (who : Master) (s : State) : Host.Outcome State Fault Refusal := onDev s (fun s => claimWrite who 2 s)
def execClaimRelease (who : Master) (s : State) : Host.Outcome State Fault Refusal := onDev s (fun s => claimWrite who 3 s)
def execForce (who : Master) (s : State) : Host.Outcome State Fault Refusal := onDev s (fun s => claimWrite who 4 s)

/-- CLAIM_EXPIRE: 10 s after the latest take or renew. -/
def execClaimExpire (s : State) : Host.Outcome State Fault Refusal := onDev s (fun s => freeClaim s)

/-! ### Settings (R440 to R442) -/

/-- A copy that is not whole has no sequence that counts. -/
def Settings.seqIn (c : Settings) : Nat := if c.valid then c.seq else 0

/-- The values stored: the Periscope objects as they stand; the others too, but in DARK from the copy last loaded. -/
def storedValues (s : Dev) : Tbl Nat :=
  let mine (p : Bool) (t : Tbl Nat) : Tbl Nat := t.filter fun e => settingKey p e.1
  (mine true s.vals).foldl (fun t e => tput t e.1 e.2) (mine false (if s.inMode .dark then s.dc.loaded.vals else s.vals))

/-- R46: bindings, by packed function. -/
def storedBinds (s : Dev) : Tbl (Nat × Nat) :=
  s.fns.filterMap fun e => e.2.bound.map fun t => (e.1, (t, e.2.quota))

/-- R139: the token-table entries, without levels, counters or marks. -/
def storedTenants (s : Dev) : Tbl Tenant :=
  (s.tenants.filter fun e => e.2.defined).map fun e =>
    (e.1, { Tenant.undefined with
      defined := true, opRate := e.2.opRate, opDepth := e.2.opDepth, byteRate := e.2.byteRate, byteDepth := e.2.byteDepth
      w1 := e.2.w1, w2 := e.2.w2, quota := e.2.quota })

/-- R440 steps 1 and 2: which copy is written, and its content. -/
def newCopy (s : Dev) : Nat × Settings :=
  let a := s.dc.copyA.seqIn
  let b := s.dc.copyB.seqIn
  let c : Settings :=
    { seq := max a b + 1, valid := true, vals := storedValues s
      binds := if s.inMode .dark then s.dc.loaded.binds else storedBinds s
      tenants := if s.inMode .dark then s.dc.loaded.tenants else storedTenants s }
  (if a ≤ b then 0 else 1, c)

def storeRefusal (v : Nat) (s : Dev) : Nat :=
  if v ≠ 0x5EA1 then rUnavailable else if s.dc.storing.isSome then rBusy else 0

/-- SETTINGS_STORE: a store starts. -/
def startStore (s : Dev) : Dev :=
  ({ s with dc := { s.dc with storing := some (newCopy s) } }).setVal Fam.settingsState 0 1

def execSettingsStore (who : Master) (v : Nat) (s : State) : Host.Outcome State Fault Refusal :=
  onDev s (fun s => guardedWrite who Fam.settingsStore 0 (storeRefusal v) startStore s)

def setCopy (n : Nat) (c : Settings) (s : Dev) : Dev :=
  if n = 0 then { s with dc := { s.dc with copyA := c } } else { s with dc := { s.dc with copyB := c } }

/-- The STORE reply of a side-band requester that waits (Table 16.10). -/
def storeReply (result : Nat) (s : Dev) : Dev :=
  match s.dc.storeFor with
  | some m => falferSend m.sender m.port m.keySlot 0x83 result m.tag [] { s with dc := { s.dc with storeFor := none } }
  | none => s

/-- SETTINGS_STORE_COMPLETE: the copy has been read back. -/
def storeComplete (verified : Bool) (s : Dev) : Dev :=
  match s.dc.storing with
  | none => s
  | some (n, c) =>
    let s := { s with dc := { s.dc with storing := none } }
    if verified then
      let s := setCopy n c { s with dc := { s.dc with loaded := c } }
      storeReply 0 ((s.setVal Fam.settingsState 0 0).setVal Fam.settingsSequence 0 c.seq)
    else
      let s := (setCopy n { c with valid := false } s).setVal Fam.settingsState 0 2
      storeReply rUnavailable (raise 0x250 n false s)

def execSettingsStoreComplete (verified : Bool) (s : State) : Host.Outcome State Fault Refusal :=
  onDev s (fun s => if s.periscope then storeComplete verified s else s)

def factoryRefusal (v : Nat) (s : Dev) : Nat :=
  if v ≠ 0xFAC7 ∨ (s.inMode .dark || s.inMode .focus || s.inMode .eclipse) = false then rUnavailable
  else if s.dc.storing.isSome then rBusy
  else 0

/-- FACTORY_RESET: the defaults go into both copies; present values stay in force. -/
def factoryReset (s : Dev) : Dev :=
  let q := max s.dc.copyA.seqIn s.dc.copyB.seqIn
  let s := { s with dc := { s.dc with
    copyA := { Settings.blank with seq := q + 1, valid := true }, copyB := { Settings.blank with seq := q + 2, valid := true } } }
  s.setVal Fam.settingsSequence 0 (q + 2)

def execFactoryReset (who : Master) (v : Nat) (s : State) : Host.Outcome State Fault Refusal :=
  onDev s (fun s => guardedWrite who Fam.settingsFactoryReset 0 (factoryRefusal v) factoryReset s)

/-! ### Writes of any object -/

/-- R432: a scalar's range. -/
def outOfRange (f v : Nat) : Bool :=
  let r := famRow f
  match r.ty with
  | .str32 | .blob | .record => false
  | .bool => decide (1 < v)
  | _ => decide (v < r.lo) || decide (r.hi < v)

/-- A binding of `copy.chan[c].function` names a function or nothing. -/
def bindingBad (v : Nat) : Bool := v != 0xFFFF && (decide (2048 ≤ v) || decide (64 < v / 16))

/-- R390: a channel is bound while IDLE or unbound, and a function has one channel at most. -/
def bindRefusal (i v : Nat) (s : Dev) : Nat :=
  if 12 ≤ i ∨ bindingBad v = true ∨ 1 < (s.chan i).st
      ∨ (v ≠ 0xFFFF ∧ ((List.range 12).any fun c => c != i && s.val Fam.copyChanFunction c == v) = true) then rUnavailable else 0

/-- Values that one object's own rule forbids, of settings (R141, R143, R349, R356, R364, R367, R411, R460). -/
def settingRefusal (f i v : Nat) (s : Dev) : Nat :=
  let ok : Bool :=
    if f = Fam.irisC3Floor ∨ f = Fam.irisC3FloorCritical then decide (v ≤ s.val Fam.irisC3Ceiling)
    else if f = Fam.irisC3Ceiling then decide (s.val Fam.irisC3Floor ≤ v) && decide (s.val Fam.irisC3FloorCritical ≤ v)
    else if f = Fam.lensServoWriteSettlePes then (List.range 24).all fun n => decide (v < s.val Fam.lensShutterPes n)
    else if f = Fam.lensShutterPes then decide (s.val Fam.lensServoWriteSettlePes < v)
    else if f = Fam.lensCadenceFixed then v == 4800 || v == 6000 || v == 7200
    else if f = Fam.lensCadenceDownPct then decide (v < s.val Fam.lensCadenceUpPct)
    else if f = Fam.pairEnable then s.inMode .focus || s.inMode .solo || v == s.val Fam.pairEnable
    else if f = Fam.faultSeverity then !srcReserved i && !srcFixed i
    else if f = Fam.thermalShutdownC then decide (s.val Fam.thermalLimitC + 5 ≤ v)
    else true
  if ok then 0 else rUnavailable

/-- R419: mode 3 is refused whatever else holds. -/
def injectWriteRefusal (i v : Nat) (s : Dev) : Nat := if v / 16 % 4 = 3 then rUnavailable else injectRefusal i s

/-- The refusal of an action object by its own rule. -/
def actionRefusal (who : Master) (f i v : Nat) (s : Dev) : Nat :=
  if f = Fam.deviceModeRequest then (if v = 1 ∨ v = 2 then 0 else rUnavailable)
  else if f = Fam.deviceSoftReset then softRefusal v s
  else if f = Fam.meterRingHead then needs (meterHeadOk v) s
  else if f = Fam.faultFirstClear then needs firstClearable s
  else if f = Fam.faultInject then injectWriteRefusal i v s
  else if f = Fam.bboxErase then eraseRefusal v s
  else if f = Fam.claimRequest then claimRefusal who v s
  else if f = Fam.settingsStore then storeRefusal v s
  else if f = Fam.settingsFactoryReset then factoryRefusal v s
  else if f = Fam.bootSvnCommit then svnRefusal v s
  else if f = Fam.copyChanFunction then bindRefusal i v s
  else settingRefusal f i v s

/-- R445: a key slot is rewritten; its sequences restart. -/
def setKey (k : Nat) (b : List Byte) (s : Dev) : Dev :=
  { s with sb := { s.sb with
    keys := tset s.sb.keys k (BitVec.ofNat 256 (unle b)) 0, seqIn := tset s.sb.seqIn k 0 0, seqOut := tset s.sb.seqOut k 0 0 } }

/-- The effect of an action object. -/
def actionEffect (who : Master) (f i v : Nat) (b : List Byte) (s : Dev) : Option Dev :=
  if f = Fam.deviceModeRequest then some (if v = 1 then requestFocus s else requestSolo s)
  else if f = Fam.deviceSoftReset then some (beginSoftReset s)
  else if f = Fam.fabricPeakReset then some (s.setVal Fam.fabricStagePsPeak 0 (s.val Fam.fabricStagePs))
  else if f = Fam.prismKat then some (startKat s)
  else if f = Fam.pcacheHoldupAttest then some (attest s)
  else if f = Fam.faultFirstClear then some { s with fh := { s.fh with first := none } }
  else if f = Fam.faultClearAll then some (clearAll who s)
  else if f = Fam.faultStatus then some (writeStatus who i v s)
  else if f = Fam.faultInject then
    some (if v / 16 % 4 = 0 then releaseHold s i else inject i (v % 8) (v / 65536) (v / 16 % 4) false s)
  else if f = Fam.bboxErase then some (eraseRing s)
  else if f = Fam.claimRequest then some (claimAct who v s)
  else if f = Fam.settingsStore then some (startStore s)
  else if f = Fam.settingsFactoryReset then some (factoryReset s)
  else if f = Fam.bootSvnCommit then some (s.setVal Fam.bootMinSvn 0 v)
  else if f = Fam.sbKey then some (setKey i b s)
  else if f = Fam.arrayReplayLost then some (if v = 1 then s.setVal f i 0 else s)
  else none

/-- What follows from a setting at once; every other setting acts where its rule reads it. -/
def afterSetting (f i v old : Nat) (was : Bool) (s : Dev) : Dev :=
  if f = Fam.irisPortC0Reserve then
    (settleReserve i (s.setVal f i old)).setVal f i v
  else if f = Fam.pcacheWindowGib then s.setVal Fam.pcacheWindowPending 0 (b2n (v != s.pc.windowGib))
  else if f = Fam.pcacheBoardPowerW ∨ f = Fam.pcacheHoldupEnergyJ then afterHoldup was s
  else if f = Fam.faultInjectEnable ∧ v = 0 then releaseAllHolds s
  else if f = Fam.copyChanFunction then s.setChan i (if v = 0xFFFF then Chan.unbound else { Chan.unbound with st := 1 })
  else s

/-- R381: settings of the shared configuration travel to the MIRROR. -/
def sendSetting (f i v : Nat) (s : Dev) : Dev :=
  if streamedObject f then streamSend (.rws (objectAt f i).1 (objectAt f i).2 v) s else s

/-- R9: reserved bits of an object read as 0 whatever is written. -/
def fieldBits (f v : Nat) : Nat :=
  if f = Fam.lensZoneSelect then v % 2 ^ 14 else if f = Fam.sbPhyPlcaReg then v % 2 ^ 21 else v

/-- The effect of a write that nothing refuses. -/
def writeEffect (who : Master) (f i : Nat) (b : List Byte) (s : Dev) : Dev :=
  let v := fieldBits f (unle b)
  match actionEffect who f i v b s with
  | some s => s
  | none =>
    let old := s.val f i
    let was := certified s
    sendSetting f i v (afterSetting f i v old was (s.setVal f i v))

/-- Test 6 of R430. -/
def valueRefusal (who : Master) (f i : Nat) (b : List Byte) (s : Dev) : Nat :=
  if outOfRange f (unle b) then rUnavailable else actionRefusal who f i (unle b) s

/-- R430: a write of an object, by its number: its result, and the state after it. -/
def writeFamily (who : Master) (f i : Nat) (b : List Byte) (s : Dev) : Nat × Dev :=
  let t := writeTest s who f i b.length
  let r := if t ≠ 0 then t else valueRefusal who f i b s
  if r ≠ 0 then (r, refuseWrite s) else (rOk, writeEffect who f i b s)

/-- R430: a write by index and subindex. -/
def writeObject (who : Master) (index sub : Nat) (b : List Byte) (s : Dev) : Nat × Dev :=
  match findObject index sub with
  | none => (rNoObject, refuseWrite s)
  | some (f, i) => writeFamily who f i b s

/-! ### Access slots (R434, R435) -/

/-- A GET or SET through a slot: its result is in the slot when busy falls. -/
def slotGet (n : Nat) (s : Dev) : Dev :=
  let x := s.slot n
  if x.busy then s
  else
    let r := readObject .admin x.index x.sub s
    let x := { x with result := r.1, rlength := r.2.length, data := if r.1 = 0 then r.2 ++ x.data.drop r.2.length else x.data }
    emit (.dict .admin r.1 r.2) (afterRead x.index x.sub (s.setSlot n x))

def slotSet (n : Nat) (s : Dev) : Dev :=
  let x := s.slot n
  if x.busy then s
  else
    let r := writeObject .admin x.index x.sub (fitBytes x.length x.data) s
    emit (.dict .admin r.1 []) (r.2.setSlot n { r.2.slot n with result := r.1 })

/-- DICT_SLOT_GET, DICT_SLOT_SET: a write of op in a slot of the admin function's BAR2. -/
def execDictSlotGet (n : Nat) (s : State) : Host.Outcome State Fault Refusal :=
  onDev s (fun s => if n < 8 then hostAccess s.adminReq (slotGet n) s else s)

def execDictSlotSet (n : Nat) (s : State) : Host.Outcome State Fault Refusal :=
  onDev s (fun s => if n < 8 then hostAccess s.adminReq (slotSet n) s else s)

/-! ### The mailbox path (R436) -/

/-- Table 16.6. -/
def mOp (w : Quad) : Nat := bits w.toNat 63 60
def mTag (w : Quad) : Nat := bits w.toNat 59 52
def mLength (w : Quad) : Nat := bits w.toNat 51 43
def mIndex (w : Quad) : Nat := bits w.toNat 39 24
def mSub (w : Quad) : Nat := bits w.toNat 23 16

/-- The reply word. -/
def mReply (w : Quad) (result len : Nat) : Quad :=
  BitVec.ofNat 64 ((8 + mOp w) % 16 * 2 ^ 60 + mTag w * 2 ^ 52 + len % 512 * 2 ^ 43 + mIndex w * 2 ^ 24 + mSub w * 2 ^ 16
    + result % 256 * 256)

/-- Words of a value, the last one padded with zeros. -/
def valueWords (b : List Byte) : List Quad :=
  (List.range (cdiv b.length 8)).map fun i => BitVec.ofNat 64 (unle ((b.drop (8 * i)).take 8))

/-- R436: the master by the stamp's privilege; a tenant function acts for the tenant it is bound to. -/
def mailMaster (s : Dev) (f : Fn) (stamp : BitVec 18) : Option Master :=
  if bits stamp.toNat 12 11 = 1 then some .admin else (s.fnS f).bound.map .tenant

/-- Words of the mailbox in order: those taken already, then those that wait. -/
def mailWords (x : FnState) : List (Quad × BitVec 18) := x.req ++ x.tx

/-- The first `n` of them are gone. -/
def takeMail (f : Fn) (n : Nat) (s : Dev) : Dev :=
  let x := s.fnS f
  s.setFn f { x with req := x.req.drop n, tx := x.tx.drop (n - x.req.length) }

/-- The reply follows as the rx queue has room (R406). -/
def sendReply (f : Fn) (l : List Quad) (s : Dev) : Dev :=
  let s := s.setFn f { s.fnS f with owed := (s.fnS f).owed ++ l }
  (List.range 8).foldl (fun s _ => payOwed f s) s

/-- The request at the head of the mailbox. A word whose op is neither 1 nor 2 is answered with UNAVAILABLE. A function that is bound
to no tenant has no object in its scope. -/
def mailboxAccess (f : Fn) (op : Nat) (s : Dev) : Dev :=
  if firmwareRuns s && (s.fnS f).purges.isEmpty then
    match mailWords (s.fnS f) with
    | [] => s
    | (w, stamp) :: rest =>
      let who := mailMaster s f stamp
      if mOp w = 1 ∧ op = 1 then
        let r := match who with | some m => readObject m (mIndex w) (mSub w) s | none => (rNoObject, [])
        sendReply f (mReply w r.1 r.2.length :: valueWords r.2) (afterRead (mIndex w) (mSub w) (takeMail f 1 s))
      else if mOp w = 2 ∧ op = 2 then
        let n := cdiv (mLength w) 8
        if n ≤ rest.length then
          let b := fitBytes (mLength w) ((rest.take n).flatMap fun e => le 8 e.1.toNat)
          let r := match who with
            | some m => writeObject m (mIndex w) (mSub w) b s
            | none => (rNoObject, refuseWrite s)
          sendReply f [mReply w r.1 0] (takeMail f (n + 1) r.2)
        else s
      else if mOp w ≠ 1 ∧ mOp w ≠ 2 then sendReply f [mReply w rUnavailable 0] (takeMail f 1 s)
      else s
  else s

def execMailboxDictGet (f : Fn) (s : State) : Host.Outcome State Fault Refusal := onDev s (fun s => mailboxAccess f 1 s)
def execMailboxDictSet (f : Fn) (s : State) : Host.Outcome State Fault Refusal := onDev s (fun s => mailboxAccess f 2 s)

end Sys2Proof.Machine
end

