-- ==== Sys2Proof/Machine/SideBand.lean ====
section
/-!
DEFINITION. The side-band port: Falfer messages (R445 to R448), Neighbour Discovery and echo (R444), and IEEE 1588 time (R449).
-/

namespace Sys2Proof.Machine

/-! ### The port (R443, R444) -/

/-- The port has a PHY that is out of reset, and its address is its own. -/
def sbReady (s : Dev) : Bool := s.periscope && s.pw.sbPhyRstHigh && !s.sb.dadConflict

/-- R444: the link-local address, formed from the modified EUI-64. -/
def ownAddress (s : Dev) : BitVec 128 :=
  let m := s.ident.mac
  let hi : BitVec 24 := m.extractLsb' 24 24 ^^^ 0x020000
  let lo : BitVec 24 := m.extractLsb' 0 24
  BitVec.ofNat 128 (0xFE80 * 2 ^ 112 + hi.toNat * 2 ^ 40 + 0xFFFE * 2 ^ 24 + lo.toNat)

/-- NEIGHBOUR_DISCOVERY: RFC 4862 and RFC 4861 (log entry 7). -/
def neighbour (e : NdEvent) (s : Dev) : Dev :=
  match e with
  | .start =>
    if s.periscope && s.pw.sbPhyRstHigh then emit (.sideband "NS" (ownAddress s) []) { s with sb := { s.sb with dadConflict := false } }
    else s
  | .conflict => if s.periscope then { s with sb := { s.sb with dadConflict := true } } else s
  | .solicit t sender => if sbReady s && t == ownAddress s then emit (.sideband "NA" sender []) s else s

def execNeighbourDiscovery (e : NdEvent) (s : State) : Host.Outcome State Fault Refusal := onDev s (fun s => neighbour e s)

/-- ICMPV6_ECHO: the data comes back. -/
def execIcmpv6Echo (t sender : BitVec 128) (data : List Byte) (s : State) : Host.Outcome State Fault Refusal :=
  onDev s (fun s => if sbReady s && t == ownAddress s then emit (.sideband "ECHO" sender data) s else s)

/-! ### Authentication (R445) -/

/-- Bytes 0x00 to the end of the payload of a request (Table 16.9). -/
def falferBytes (m : FalferMsg) (type : Nat) (payload : List Byte) : List Byte :=
  falferHead type m.keySlot 0 m.seq m.serial.toNat m.tag.toNat payload

/-- The serial, slot and MAC tests. -/
def genuine (s : Dev) (m : FalferMsg) (type : Nat) (payload : List Byte) : Bool :=
  let key := tget s.sb.keys m.keySlot 0
  m.serial == s.ident.serial && decide (m.keySlot < 4) && key != 0 && m.mac == falferMac key (falferBytes m type payload)

/-- The sequence is new. -/
def seqFresh (s : Dev) (m : FalferMsg) : Bool := decide (tget s.sb.seqIn m.keySlot 0 < m.seq)

/-- A message discarded without reply. -/
def discardMsg (sender : BitVec 128) (replay : Bool) (s : Dev) : Dev :=
  let s := s.bump Fam.sbAuthFailures
  let s := if replay then s.bump Fam.sbReplays else s
  raise 0x252 (sender.toNat % 2 ^ 32) false s

/-- A request: `k` runs on one that is accepted. -/
def falfer (m : FalferMsg) (type : Nat) (payload : List Byte) (k : Dev → Dev) (s : Dev) : Dev :=
  if sbReady s then
    if !genuine s m type payload then discardMsg m.sender false s
    else if !seqFresh s m then discardMsg m.sender true s
    else k { s with sb := { s.sb with seqIn := tset s.sb.seqIn m.keySlot m.seq 0 } }
  else s

/-- The reply to a request. -/
def falferReply (m : FalferMsg) (type result : Nat) (payload : List Byte) (s : Dev) : Dev :=
  falferSend m.sender m.port m.keySlot (type + 0x80) result m.tag payload s

/-! ### GET, SET, STORE, CLAIM, SUBSCRIBE (Table 16.10) -/

def targetBytes (l : List (Nat × Nat)) : List Byte := l.flatMap fun t => le 2 t.1 ++ le 1 t.2 ++ le 1 0

/-- One target's part of the reply, while it fits. -/
def getTarget (acc : Dev × List Byte) (t : Nat × Nat) : Dev × List Byte :=
  let (s, b) := acc
  let r := readObject .sideband t.1 t.2 s
  let v := fitBytes (roundUp r.2.length 4) r.2
  if b.length + 4 + v.length ≤ 1404 then
    (afterRead t.1 t.2 s, b ++ le 1 r.1 ++ le 1 0 ++ le 2 r.2.length ++ v)
  else (s, b ++ le 1 rNotSent ++ le 1 0 ++ le 2 0)

def getTargets (l : List (Nat × Nat)) (s : Dev) : Dev × List Byte := l.foldl getTarget (s, [])

/-- R446: 1 to 16 targets. -/
def getCountOk (l : List (Nat × Nat)) : Bool := decide (0 < l.length) && decide (l.length ≤ 16)

def getReply (m : FalferMsg) (l : List (Nat × Nat)) (s : Dev) : Dev :=
  if getCountOk l then
    let r := getTargets l s
    falferReply m 0x01 rOk r.2 r.1
  else falferReply m 0x01 rUnavailable [] s

def execGet (m : FalferMsg) (l : List (Nat × Nat)) (s : State) : Host.Outcome State Fault Refusal :=
  onDev s (fun s => falfer m 0x01 (targetBytes l) (getReply m l) s)

/-- The objects a discovery GET may name. -/
def discoverable (t : Nat × Nat) : Bool := t.1 == 0x1000 && decide (1 ≤ t.2) && decide (t.2 ≤ 3)

/-- R445: answered without authentication; it advances no sequence. One that names anything else has no serial and no MAC. -/
def discovery (tag : Word) (sender : BitVec 128) (port : Nat) (l : List (Nat × Nat)) (s : Dev) : Dev :=
  if sbReady s then
    if l.all discoverable then
      if getCountOk l then emit (.falfer sender port 0 0x81 rOk tag 0 (getTargets l s).2 none) s
      else emit (.falfer sender port 0 0x81 rUnavailable tag 0 [] none) s
    else discardMsg sender false s
  else s

def execDiscoveryGet (tag : Word) (sender : BitVec 128) (port : Nat) (l : List (Nat × Nat)) (s : State) :
    Host.Outcome State Fault Refusal := onDev s (fun s => discovery tag sender port l s)

/-- R452: a key is written only by a message authenticated under slot 0. -/
def keyBarred (m : FalferMsg) (index sub : Nat) (b : List Byte) (s : Dev) : Bool :=
  match findObject index sub with
  | some (f, i) => f == Fam.sbKey && m.keySlot != 0 && writeTest s .sideband f i b.length == 0
  | none => false

def setRequest (m : FalferMsg) (index sub : Nat) (b : List Byte) (s : Dev) : Dev :=
  if keyBarred m index sub b s then falferReply m 0x02 rUnavailable [] (refuseWrite s)
  else
    let r := writeObject .sideband index sub b s
    falferReply m 0x02 r.1 [] r.2

def execSet (m : FalferMsg) (index sub : Nat) (b : List Byte) (s : State) : Host.Outcome State Fault Refusal :=
  onDev s (fun s => falfer m 0x02 (le 2 index ++ le 1 sub ++ le 1 0 ++ b) (setRequest m index sub b) s)

/-- The reply to a store that starts leaves when it completes. -/
def storeRequest (m : FalferMsg) (s : Dev) : Dev :=
  let r := writeFamily .sideband Fam.settingsStore 0 (le 2 0x5EA1) s
  if r.1 = 0 then { r.2 with dc := { r.2.dc with storeFor := some m } } else falferReply m 0x03 r.1 [] r.2

def execStore (m : FalferMsg) (s : State) : Host.Outcome State Fault Refusal := onDev s (fun s => falfer m 0x03 [] (storeRequest m) s)

def claimRequest (m : FalferMsg) (action : Nat) (s : Dev) : Dev :=
  let r := writeFamily .sideband Fam.claimRequest 0 (le 1 action) s
  falferReply m 0x04 r.1
    (le 1 r.2.dc.holder ++ le 1 0 ++ le 2 (readScalar r.2 Fam.claimRemainingMs 0)) r.2

def execClaim (m : FalferMsg) (action : Nat) (s : State) : Host.Outcome State Fault Refusal :=
  onDev s (fun s => falfer m 0x04 (le 1 action ++ le 3 0) (claimRequest m action) s)

/-- R447: the number of the subscription of a sender and port, if there is one. -/
def subscriptionOf (s : Dev) (sender : BitVec 128) (udp : Nat) : Option Nat :=
  (s.sb.subs.find? fun e => e.2.1 == sender && e.2.2.1 == udp).map (·.1)

/-- The lowest number free (log entry 14). -/
def freeSubscription (s : Dev) : Option Nat := [0, 1, 2, 3].find? fun n => (tfind s.sb.subs n).isNone

def dropSubscription (n : Nat) (s : Dev) : Dev := { s with sb := { s.sb with subs := tdel s.sb.subs n } }

def subscribe (m : FalferMsg) (minSev kinds udp lifetime : Nat) (s : Dev) : Dev :=
  let mine := subscriptionOf s m.sender udp
  if lifetime = 0 then
    match mine with
    | some n => falferReply m 0x05 rOk (le 1 n ++ le 3 0) (dropSubscription n s)
    | none => falferReply m 0x05 rOk (le 4 0) s
  else if minSev < 1 ∨ 4 < minSev then falferReply m 0x05 rUnavailable [] s
  else match mine <|> freeSubscription s with
    | some n =>
      falferReply m 0x05 rOk (le 1 n ++ le 3 0)
        { s with sb := { s.sb with subs := tput s.sb.subs n (m.sender, udp, m.keySlot, minSev, kinds) } }
    | none => falferReply m 0x05 rUnavailable [] s

def execSubscribe (m : FalferMsg) (minSev kinds udp lifetime : Nat) (s : State) : Host.Outcome State Fault Refusal :=
  onDev s (fun s => falfer m 0x05 (le 1 minSev ++ le 1 kinds ++ le 2 udp ++ le 2 lifetime) (subscribe m minSev kinds udp lifetime) s)

/-- SUBSCRIPTION_EXPIRE. -/
def execSubscriptionExpire (n : Nat) (s : State) : Host.Outcome State Fault Refusal :=
  onDev s (fun s => if s.periscope then dropSubscription n s else s)

/-! ### FILE (R448) -/

def fileBytes (op file length offset : Nat) (data : List Byte) : List Byte :=
  le 1 op ++ le 1 file ++ le 2 length ++ le 4 offset ++ data

/-- Bytes of the black-box ring, in slot order. -/
def ringBytes (s : Dev) (offset length : Nat) : List Byte :=
  let first := offset / 64
  let n := cdiv (offset % 64 + length) 64
  (((List.range n).flatMap fun i => fitBytes 64 (tget s.fh.ring (first + i) [])).drop (offset % 64)).take length

def fileRead (m : FalferMsg) (file offset length : Nat) (s : Dev) : Dev :=
  if file = 1 ∧ length ≤ 1024 ∧ offset + length ≤ 4 * 2 ^ 20 then falferReply m 0x06 rOk (ringBytes s offset length) s
  else falferReply m 0x06 rUnavailable [] s

def execFileRead (m : FalferMsg) (file offset length : Nat) (s : State) : Host.Outcome State Fault Refusal :=
  onDev s (fun s => falfer m 0x06 (fileBytes 1 file length offset []) (fileRead m file offset length) s)

/-- A range overlaps one written since the erase. -/
def alreadyWritten (x : ImageSlot) (offset length : Nat) : Bool :=
  x.written.any fun w => decide (offset < w.1 + w.2) && decide (w.1 < offset + length)

/-- What a write or commit of files 2 and 3 needs: the claim, and the slot. -/
def fileRefusal (file : Nat) (s : Dev) : Nat :=
  if file ≠ 2 ∧ file ≠ 3 then rUnavailable
  else if s.dc.holder ≠ 2 then rClaimed
  else if slotBarred s (file - 2) 2 then rUnavailable
  else 0

def writeRefusal (file offset length : Nat) (s : Dev) : Nat :=
  let r := fileRefusal file s
  if r ≠ 0 then r
  else if offset % 256 ≠ 0 ∨ length % 256 ≠ 0 ∨ length < 256 ∨ 1024 < length ∨ 32 * 2 ^ 20 < offset + length then rUnavailable
  else if offset ≠ 0 ∧ alreadyWritten (s.imageSlot (file - 2)) offset length = true then rUnavailable
  else 0

/-- FILE_WRITE: a write at offset 0 erases the slot and makes side-band its writer. -/
def fileWrite (m : FalferMsg) (file offset length : Nat) (s : Dev) : Dev :=
  let r := writeRefusal file offset length s
  if r ≠ 0 then falferReply m 0x06 r [] s
  else
    let n := file - 2
    let s := if offset = 0 then eraseSlot n 2 s else s
    let x := s.imageSlot n
    falferReply m 0x06 rOk [] (setImageSlot n { x with written := x.written ++ [(offset, length)] } s)

def execFileWrite (m : FalferMsg) (file offset : Nat) (data : List Byte) (s : State) : Host.Outcome State Fault Refusal :=
  onDev s (fun s => falfer m 0x06 (fileBytes 2 file data.length offset data) (fileWrite m file offset data.length) s)

/-- FILE_COMMIT: the image is verified as after a final piece. -/
def fileCommit (m : FalferMsg) (file : Nat) (img : Option ImageFacts) (s : Dev) : Dev :=
  let r := fileRefusal file s
  if r ≠ 0 then falferReply m 0x06 r [] s
  else
    let s := judgeSlot (file - 2) img s
    falferReply m 0x06 (if (s.imageSlot (file - 2)).st = 2 then rOk else rUnavailable) [] s

def execFileCommit (m : FalferMsg) (file : Nat) (img : Option ImageFacts) (s : State) : Host.Outcome State Fault Refusal :=
  onDev s (fun s => falfer m 0x06 (fileBytes 3 file 0 0 []) (fileCommit m file img) s)

/-! ### IEEE 1588 (R449) -/

/-- An offset as `time.offset_ns` holds it. -/
def i32 (v : Int) : Nat := (max (-2147483648) (min 2147483647 v) % 4294967296).toNat

/-- The message is of the grandmaster selected. -/
def fromMaster (s : Dev) (gm : BitVec 64) : Bool := sbReady s && (s.tm.master.map (·.1)) == some gm

/-- One measured offset: locked after 16 in succession below 10 µs; not yet locked, an offset above 1 ms is stepped away; any other
is slewed away. -/
def offsetMeasured (off : Int) (s : Dev) : Dev :=
  let s := s.setVal Fam.timeOffsetNs 0 (i32 off)
  let good := if off.natAbs < 10000 then s.tm.goodSyncs + 1 else 0
  if s.val Fam.timeSource ≠ 2 ∧ 1000000 < off.natAbs then
    let s := stepTime ((s.tm.device : Int) - off).toNat s
    { s with tm := { s.tm with goodSyncs := 0, slew := 0 } }
  else
    let s := { s with tm := { s.tm with goodSyncs := good, slew := -off } }
    let s := if 16 ≤ good then s.setVal Fam.timeSource 0 2 else s
    if s.val Fam.timeSource = 2 then { s with tm := { s.tm with lastLocked := some s.tm.now } } else s

/-- The origin time of a Sync is known: R449, end-to-end delay. -/
def syncMeasured (origin : Int) (arrive : Nat) (s : Dev) : Dev :=
  let d := (arrive : Int) - origin
  offsetMeasured (d - s.tm.pathDelay) { s with tm := { s.tm with masterToSlave := d, syncArrival := none } }

def execSync (gm : BitVec 64) (origin : Int) (arrive : Nat) (twoStep : Bool) (s : State) : Host.Outcome State Fault Refusal :=
  onDev s (fun s => if fromMaster s gm then
      if twoStep then { s with tm := { s.tm with syncArrival := some arrive } } else syncMeasured origin arrive s
    else s)

def execFollowUp (gm : BitVec 64) (origin : Int) (s : State) : Host.Outcome State Fault Refusal :=
  onDev s (fun s => match s.tm.syncArrival with
    | some t => if fromMaster s gm then syncMeasured origin t s else s
    | none => s)

/-- DELAY_REQ: the device sends one to its grandmaster. -/
def execDelayReq (sent : Nat) (s : State) : Host.Outcome State Fault Refusal :=
  onDev s (fun s => if sbReady s && s.tm.master.isSome then
      emit (.sideband "DELAY_REQ" 0 []) { s with tm := { s.tm with delaySent := some sent } }
    else s)

/-- DELAY_RESP: the path delay is half the sum of the two differences. -/
def execDelayResp (gm : BitVec 64) (receive : Int) (s : State) : Host.Outcome State Fault Refusal :=
  onDev s (fun s => match s.tm.delaySent with
    | some t =>
      if fromMaster s gm then
        { s with tm := { s.tm with delaySent := none, pathDelay := (s.tm.masterToSlave + (receive - (t : Int))) / 2 } }
      else s
    | none => s)

/-- ANNOUNCE: of the device's domain, from the grandmaster selected, or from a better one. -/
def announce (gm : BitVec 64) (domain rank : Nat) (s : Dev) : Dev :=
  let take := match s.tm.master with
    | none => true
    | some (g, r) => g == gm || decide (rank < r)
  if sbReady s && domain == s.val Fam.timeDomain && take then
    let fresh := (s.tm.master.map (·.1)) != some gm
    let tm := { s.tm with master := some (gm, rank) }
    let tm := if fresh then { tm with goodSyncs := 0, syncArrival := none, delaySent := none, masterToSlave := 0, pathDelay := 0 } else tm
    hubFall 0x253 { s with tm := tm }
  else s

def execAnnounce (gm : BitVec 64) (domain rank : Nat) (s : State) : Host.Outcome State Fault Refusal := onDev s (fun s => announce gm domain rank s)

/-- ANNOUNCE_TIMEOUT: holdover, and no grandmaster. -/
def announceTimeout (s : Dev) : Dev :=
  let s := { s with tm := { s.tm with master := none, goodSyncs := 0, syncArrival := none, delaySent := none, slew := 0 } }
  raise 0x253 0 false (s.setVal Fam.timeSource 0 3)

def execAnnounceTimeout (s : State) : Host.Outcome State Fault Refusal := onDev s (fun s => if s.periscope then announceTimeout s else s)

end Sys2Proof.Machine
end

