-- ==== Sys2Proof/Machine/HostRegs.lean ====
section
/-!
DEFINITION. REGISTER_WRITE: registers of the BARs and of configuration space, field by field as their access codes state (R10, R51 to
R55, R69, R392, R402, R433), and objects of the dictionary.
-/

namespace Sys2Proof.Machine

/-- The write is aligned and of `w` bytes. -/
def sized (off width w : Nat) : Bool := width == w && off % w == 0

/-- Put 32 bits in one half of a 64-bit register, or all 64 bits. -/
def baseWrite (old : Quad) (off width : Nat) (v : Quad) : Quad :=
  if width = 8 then v
  else if off % 8 = 0 then BitVec.ofNat 64 (old.toNat / 2 ^ 32 * 2 ^ 32 + v.toNat % 2 ^ 32)
  else BitVec.ofNat 64 (v.toNat % 2 ^ 32 * 2 ^ 32 + old.toNat % 2 ^ 32)

/-- A write of `width` bytes at `off` touches the field of `n` bytes at `base`. -/
def touches (base n off width : Nat) : Bool := decide (off < base + n) && decide (base < off + width)

/-- The bits that such a write of `v` puts in the field; the others 0. -/
def placedBits (base n off width v : Nat) : Nat :=
  let w := v % 2 ^ (8 * width)
  (if off ≤ base then w / 2 ^ (8 * (base - off)) else w * 2 ^ (8 * (off - base))) % 2 ^ (8 * n)

/-- The bits of the field that lie in the write. -/
def placedMask (base n off width : Nat) : Nat := placedBits base n off width (2 ^ (8 * width) - 1)

/-- The field with its written bytes replaced. -/
def placeField (old base n off width v : Nat) : Nat :=
  let m := placedMask base n off width
  (old &&& (2 ^ (8 * n) - 1 - m)) ||| placedBits base n off width v

/-! ### The identity and summary pages (Tables 2.5, 2.6)

No rule restricts how they are accessed: the bytes of a write act on the registers they lie in, whatever its size and alignment, each
register by its access code (DESIGN CHOICE, log entry 80). -/

/-- Every field of Table 2.5 is RO; bytes 0x014 to 0x017 and those past 0x02F are reserved. -/
def identityWrite (off width : Nat) (s : Dev) : Dev :=
  if touches 0x000 0x014 off width || touches 0x018 0x018 off width then refuseWrite s else s

/-- W1C bits of the queue_error map, given as the number of all 1,024 bits; the summary bit follows. -/
def clearQueueErr (f : Fn) (ones : Nat) (s : Dev) : Dev :=
  let x := s.fnS f
  let left := x.queueErr.filter fun q => !bit ones q
  setSummary 2 (!left.isEmpty) (s.setFn f { x with queueErr := left }) f

/-- Table 2.6, register by register. -/
def summaryWrite (f : Fn) (off width : Nat) (v : Quad) (s : Dev) : Dev :=
  let n := v.toNat
  let s := if touches 0x000 4 off width then refuseWrite s else s
  let s := if touches 0x004 4 off width then
      let x := s.fnS f
      s.setFn f { x with events := x.events &&& ~~~(BitVec.ofNat 32 (placedBits 0x004 4 off width n)) }
    else s
  let s := if touches 0x008 4 off width then
      let x := s.fnS f
      s.setFn f { x with eventVector := placeField x.eventVector 0x008 4 off width n % 2048 }
    else s
  if touches 0x040 128 off width then clearQueueErr f (placedBits 0x040 128 off width n) s else s

/-! ### Mailbox and doorbell page (Tables 14.1, 14.5) -/

/-- Table 14.1, the registers of the function's channel that have no row of their own. -/
def channelWrite (f : Fn) (off width : Nat) (v : Quad) (s : Dev) : Dev :=
  match chanOf s f with
  | none => s
  | some c =>
    let x := s.chan c
    if off = 0x100 ∨ off = 0x104 then copyBase f (baseWrite x.base off width v) s
    else if off = 0x108 ∧ width = 4 then if x.st = 1 then s.setChan c { x with depthM1 := v.toNat % 65536 } else s
    else if off = 0x110 ∧ width = 4 then copyHead f (v.toNat % 2 ^ 32) s
    else if off = 0x114 ∧ width = 4 then s.setChan c { x with irqEn := v.getLsbD 31, vector := v.toNat % 2048 }
    else if off = 0x118 ∧ width = 8 then copyStart f v s
    else if off = 0x120 ∧ width = 4 then if v.getLsbD 0 then copyAbort c s else s
    else s

def mailboxWrite (f : Fn) (off width : Nat) (v : Quad) (s : Dev) : Dev :=
  let w : Word := v.setWidth 32
  let x := s.fnS f
  if off = 0x000 ∧ width = 8 then postTx f v s
  else if width ≠ 4 ∧ off < 0x100 then s
  else if off = 0x010 then s.setFn f { x with txDoorbell := x.txDoorbell ||| w }
  else if off = 0x028 then if w.getLsbD 0 then payOwed f (s.setFn f { x with rx := x.rx.drop 1 }) else s
  else if off = 0x02C then refreshMailbox f (s.setFn f { x with rxDoorbell := x.rxDoorbell &&& ~~~w })
  else if off = 0x030 then refreshMailbox f (s.setFn f { x with rxMask := w })
  else channelWrite f off width v s

/-! ### Queue doorbell pages (Table 3.1) -/

/-- Fields of an SQ are writable while it is ABSENT, fields of a CQ while that is. -/
def queueWrite (f : Fn) (q off width : Nat) (v : Quad) (s : Dev) : Dev :=
  let x := s.q f q
  let n := v.toNat % 2 ^ 32
  let sq : Bool := x.sqState == .absent
  let cq : Bool := x.cqState == .absent
  if off = 0x08 ∨ off = 0x0C then if sq then s.setQ f q { x with sqBase := baseWrite x.sqBase off width v } else s
  else if off = 0x10 ∨ off = 0x14 then if cq then s.setQ f q { x with cqBase := baseWrite x.cqBase off width v } else s
  else if width ≠ 4 then s
  else if off = 0x00 then ringTail f q n s
  else if off = 0x04 then ringHead f q n s
  else if off = 0x18 then s.setQ f q { x with
    sqDepthM1 := if sq then n / 65536 else x.sqDepthM1, cqDepthM1 := if cq then n % 65536 else x.cqDepthM1 }
  else if off = 0x1C then s.setQ f q { x with
    inlineEn := if sq then bit n 31 else x.inlineEn, boundCq := if sq then bits n 29 20 else x.boundCq
    irqEn := if cq then bit n 30 else x.irqEn, vector := if cq then bits n 18 8 else x.vector }
  else if off = 0x20 then
    if cq then s.setQ f q { x with coalTime := bits n 15 8, coalCount := bits n 7 0 } else s
  else if off = 0x24 then pageWrite (n % 16) f q s
  else s

/-! ### The MSI-X table (R55) -/

/-- Word 3 of an entry carries the mask, words 0 to 2 the address and data. -/
def msixWord (f : Fn) (n : Nat) (v : Nat) (s : Dev) : Dev :=
  let x := s.fnS f
  let vec := n / 4
  if n % 4 = 3 then
    let rest := x.unmasked.filter (· != vec)
    s.setFn f { x with unmasked := if bit v 0 then rest else rest ++ [vec] }
  else s.setFn f { x with msixTable := tset x.msixTable n (v % 2 ^ 32) 0 }

def msixWrite (f : Fn) (off width : Nat) (v : Quad) (s : Dev) : Dev :=
  let s := msixWord f (off / 4) (v.toNat % 2 ^ 32) s
  if width = 8 then msixWord f (off / 4 + 1) (v.toNat / 2 ^ 32) s else s

/-! ### BAR0 (Tables 2.3, 2.4) -/

/-- R51: sizes of the BARs. BAR2 is the admin function's alone. -/
def bar0Size (f : Fn) : Nat := if f.fn = 0 then 0x100000 else 0x10000
def bar2Size (s : Dev) (f : Fn) : Nat := if s.isAdmin f then 0x1000000 else 0

/-- Places of the queue doorbell pages, the MSI-X table, the pending-bit array and the inline windows (Tables 2.3, 2.4). -/
def queuePages (f : Fn) : Nat := if f.fn = 0 then 0x10000 else 0x4000
def msixTablePage (f : Fn) : Nat := if f.fn = 0 then 0x20000 else 0x3000
def pendingBits (f : Fn) : Nat := if f.fn = 0 then 0x28000 else 0x3400
def inlineWindows (f : Fn) : Nat := if f.fn = 0 then 0x80000 else 0x8000

/-- A register that is RO as a whole: of the mailbox page (Tables 14.1, 14.5), of a queue page. A write to it counts as refused
(Table 0.4). -/
def roRegister (f : Fn) (off : Nat) : Bool :=
  [0x2008, 0x200C, 0x2018, 0x201C, 0x2020, 0x2024, 0x210C, 0x2124].contains (off - off % 4)
    || (decide (queuePages f ≤ off) && decide (off < queuePages f + 64 * queueLimit f)
        && [0x28, 0x2C, 0x30].contains ((off - queuePages f) % 64 - off % 4))

/-- A page that an unbound function does not serve (R48): of its queues only `op` is taken, which refuses a creation. -/
def unserved (s : Dev) (f : Fn) (off : Nat) : Bool :=
  unbound s f && decide (0x2000 ≤ off)
    && !(decide (queuePages f ≤ off) && decide (off < queuePages f + 64 * queueLimit f) && (off - queuePages f) % 64 == 0x24)

/-- The pages of BAR0 by their place: the identity and summary pages, the inline windows, the mailbox page, a queue page, the MSI-X
table; a write anywhere else has no effect (R52). A write of at most 8 bytes to an inline window covers no whole slot, and is a slot
write rejected (Table 3.5, R83). -/
def bar0Write (f : Fn) (off width : Nat) (v : Quad) (s : Dev) : Dev :=
  let ok := sized off width 4 || sized off width 8
  if off < 0x1000 then identityWrite off width s
  else if off < 0x2000 then summaryWrite f (off - 0x1000) width v s
  else if unserved s f off then s
  else if inlineWindows f ≤ off ∧ off < inlineWindows f + 512 * queueLimit f then
    bumpQ f ((off - inlineWindows f) / 512) Fam.qInlineRejected s
  else if !ok then s
  else if roRegister f off then refuseWrite s
  else if 0x2000 ≤ off ∧ off < 0x3000 then mailboxWrite f (off - 0x2000) width v s
  else if queuePages f ≤ off ∧ off < queuePages f + 64 * queueLimit f then
    queueWrite f ((off - queuePages f) / 64) ((off - queuePages f) % 64) width v s
  else if msixTablePage f ≤ off ∧ off < msixTablePage f + 16 * vectorCount f then msixWrite f (off - msixTablePage f) width v s
  else s

/-! ### BAR2 (Tables 16.4, 16.5) -/

/-- Bytes put at an offset of a slot's 256 data bytes. -/
def putBytes (data : List Byte) (off : Nat) (b : List Byte) : List Byte :=
  let d := fitBytes 256 data
  d.take off ++ b ++ d.drop (off + b.length)

def slotWrite (n off width : Nat) (v : Quad) (s : Dev) : Dev :=
  let x := s.slot n
  let w := v.toNat % 2 ^ 32
  if off = 0x00C then refuseWrite s
  else if x.busy then s
  else if off = 0x000 ∧ width = 4 then s.setSlot n { x with index := w / 65536, sub := bits w 15 8 }
  else if off = 0x004 ∧ width = 4 then s.setSlot n { x with length := w % 512 }
  else if off = 0x008 ∧ width = 4 then if w % 16 = 1 then slotGet n s else if w % 16 = 2 then slotSet n s else s
  else if 0x100 ≤ off then s.setSlot n { x with data := putBytes x.data (off - 0x100) (le width v.toNat) }
  else s

def bar2Write (off width : Nat) (v : Quad) (s : Dev) : Dev :=
  if (sized off width 4 || sized off width 8) && decide (0x1000 ≤ off) && decide (off < 0x2000) then
    slotWrite ((off - 0x1000) / 0x200) ((off - 0x1000) % 0x200) width v s
  else if 0x10000 ≤ off ∧ off < 0x500000 then refuseWrite s
  else s

/-! ### Configuration space and objects -/

/-- A configuration write reaches every function of a port in L0, IDE or not (R58). -/
def configAccess (f : Fn) (k : Dev → Dev) (s : Dev) : Dev := if portServes s f.port && s.fnExists f then k s else s

/-- A field of a register takes its new value. -/
def takeField (old new mask : Half) : Half := (old &&& ~~~mask) ||| (new &&& mask)

/-- Device Control as written: payload sizes above 512 B are not supported and leave the field; phantom functions, auxiliary power and
the FLR bit read 0 (Table 2.1). -/
def deviceControlWrite (old v : Half) : Half :=
  let v := if 2 < v.toNat / 32 % 8 then takeField v old 0x00E0 else v
  let v := if 5 < v.toNat / 4096 % 8 then takeField v old 0x7000 else v
  v &&& 0x79FF

/-- Device Control 2: completion-timeout ranges B, C and D and the default, its disable bit, and the 10-bit tag requester; ARI forwarding,
AtomicOps, LTR and the rest read 0. -/
def deviceControl2Write (old v : Half) : Half :=
  let ok : Bool := [0, 5, 6, 9, 10, 13, 14].contains (v.toNat % 16)
  (if ok then v else takeField v old 0x000F) &&& 0x101F

/-- A dword of a 64-bit base, low bits fixed by the size of the BAR (R51). -/
def baseDword (old : Quad) (high : Bool) (v : Word) (size : Nat) : Quad :=
  let n := if high then v.toNat * 2 ^ 32 + old.toNat % 2 ^ 32 else old.toNat / 2 ^ 32 * 2 ^ 32 + v.toNat
  if size = 0 then 0 else BitVec.ofNat 64 (n / size * size)

/-- Size of the VF BAR0 of one VF (R51). -/
def vfBar0Size : Nat := 0x10000

/-- A register of configuration space (Table 2.1, R51, R61): fields that are not supported read 0. Link Control's ASPM field has no L0s. -/
def configWrite (f : Fn) (r : CfgReg) (v : Word) (s : Dev) : Dev :=
  let x := s.fnS f
  let c := x.cfg
  let put (c : FnConfig) : Dev := s.setFn f { x with cfg := c }
  let h : Half := v.setWidth 16
  match r with
  | .bar n =>
    if f.fn ≠ 0 then s
    else if n < 2 then put { c with bar0 := baseDword c.bar0 (n == 1) v (bar0Size f) }
    else if n < 4 then put { c with bar2 := baseDword c.bar2 (n == 3) v (bar2Size s f) }
    else s
  | .vfBar n => if f.fn = 0 ∧ n < 2 then put { c with vfBar0 := baseDword c.vfBar0 (n == 1) v vfBar0Size } else s
  | .deviceControl => put { c with deviceControl := deviceControlWrite c.deviceControl h }
  | .deviceControl2 => put { c with deviceControl2 := deviceControl2Write c.deviceControl2 h }
  | .linkControl => if f.fn = 0 then put { c with linkControl := h &&& 0x0002 } else s
  | .aerUncStatus => put { c with aerUncStatus := c.aerUncStatus &&& ~~~v }
  | .aerCorrStatus => put { c with aerCorrStatus := c.aerCorrStatus &&& ~~~v }
  | .aerCorrMask => put { c with aerCorrMask := v }
  | .aerControl => put { c with ecrcGenerate := v.getLsbD 6, ecrcCheck := v.getLsbD 8 }

/-- An object written by a master, with its result. -/
def objectWrite (who : Master) (index sub : Nat) (b : List Byte) (s : Dev) : Dev :=
  if masterUp s who then
    let r := writeObject who index sub b s
    emit (.dict who r.1 []) r.2
  else s

def registerWrite (t : RegWrite) (s : Dev) : Dev :=
  match t with
  | .bar0 r off width v =>
    hostAccess r (if off + width ≤ bar0Size r.toFn then bar0Write r.toFn off width v else unsupported r.toFn) s
  | .bar2 off width v =>
    hostAccess s.adminReq (if off + width ≤ bar2Size s s.adminFn then bar2Write off width v else unsupported s.adminFn) s
  | .busMaster f on => configAccess f (setBusMaster f on) s
  | .msixControl f on mask => configAccess f (fun s => s.setFn f { s.fnS f with msixEnable := on, fnMask := mask }) s
  | .aerMask f b => configAccess f (fun s => s.setFn f { s.fnS f with aerMask := b }) s
  | .aerSeverity f b => configAccess f (fun s => s.setFn f { s.fnS f with aerFatal := b }) s
  | .config f r v => configAccess f (configWrite f r v) s
  | .object who index sub b => objectWrite who index sub b s

def execRegisterWrite (t : RegWrite) (s : State) : Host.Outcome State Fault Refusal := onDev s (fun s => registerWrite t s)

end Sys2Proof.Machine
end

