-- ==== Sys2Proof/Machine/Servo.lean ====
section
/-!
DEFINITION. The servo loop, the shutter and the spindle cadence (chapter 12): what a wedge brings about, which command a platter
member serves and how its sectors are written (R325, R328, R346, R351).
-/

namespace Sys2Proof.Machine

/-! ### Which command is served (R350, R357) -/

/-- Commands that may be taken up now. -/
def servable (s : Dev) (n : Nat) : List MCmd :=
  let m := lensMember n
  if cadenceHeld s m then []
  else s.mb.cmds.filter fun c => c.member == m && !c.dead && c.length != 0 && !(c.write && (s.lens n).shockHold)

/-- Cylinders to seek for a command's first block. -/
def seekDistance (s : Dev) (n : Nat) (c : MCmd) : Nat :=
  match placeNow (s.lens n) (c.offset / 4096) with
  | some p => (p.cylinder - s.val Fam.lensCylinder n) + (s.val Fam.lensCylinder n - p.cylinder)
  | none => 0

/-- Smallest by a measure, the first of equals. -/
def leastBy (f : MCmd → Nat) : List MCmd → Option MCmd
  | [] => none
  | a :: r => match leastBy f r with
    | some b => if f a ≤ f b then some a else some b
    | none => some a

/-- Data regions to pass before the first block of a command comes under the head. -/
def rotationDistance (s : Dev) (n : Nat) (c : MCmd) : Nat :=
  let l := s.lens n
  ((blockRegions l (c.offset / 4096)).headD 0 + 383 - l.lastWedge % 384) % 384

/-- R350: the estimate of seek and rotational time (log entry 33). -/
def serviceEstimate (s : Dev) (n : Nat) (c : MCmd) : Nat := 384 * seekDistance s n c + rotationDistance s n c

/-- R350: a command older than `lens.servo.max_age_ms` first, oldest first; else the least estimate. -/
def nextCommand (s : Dev) (n : Nat) : Option MCmd :=
  let l := servable s n
  let old := l.filter fun c => decide (c.issued + s.val Fam.lensServoMaxAgeMs * 1000000 < s.tm.now)
  leastBy (·.issued) old <|> leastBy (serviceEstimate s n) l

/-- Take up a command; one whose block has lost its content reports FAILED without touching the medium (R359). -/
def takeUp (n : Nat) (s : Dev) : Dev :=
  match nextCommand s n with
  | none => s
  | some c =>
    let l := s.lens n
    let pba := c.offset / 4096
    if !c.write && contentLost l pba then endSector n pba 2 [] s
    else s.setLens n { l.idle with
      cur := some c.tag, left := if c.write then (cmdBlocks c).map fun b => (b, blockRegions l b) else [] }

/-! ### Seeking (R335, R349, R351) -/

/-- The block that the command in service needs next. -/
def nextBlock (l : Lens) (c : MCmd) : Nat := if c.write then (l.left.head?.map (·.1)).getD (c.offset / 4096) else c.offset / 4096

/-- R335: the clock of a zone at a cadence, kHz. -/
def zoneClock (z : ZoneEntry) (rpm : Nat) : Nat := z.rate * 1000 * rpm / 7200

/-- Codes of `lens[n].servo_state` with the head (Table 12.7). -/
def setServoState (n code : Nat) (s : Dev) : Dev := s.setVal Fam.lensServoState n (code + 256 * (s.lens n).head)

/-- Head, clock and read values for the block's track; a change of track begins a seek. -/
def seekTo (n : Nat) (p : Place) (write : Bool) (s : Dev) : Dev :=
  let l := s.lens n
  match liveZone l p.head p.zone with
  | none => s
  | some z =>
    let khz := zoneClock z (s.val Fam.lensCadenceRpm n)
    let moved := s.val Fam.lensCylinder n != p.cylinder || l.head != p.head
    let s := if l.head = p.head then s
      else (lensCmd n 0x06 (BitVec.ofNat 44 p.head) s)
    let s := if l.clock = khz then s else lensCmd n 0x03 (BitVec.ofNat 44 khz) s
    let s := if moved then
        let s := lensCmd n 0x04 (setReadOperand z) s
        if write then lensCmd n 0x05 (BitVec.ofNat 44 (z.precomp.getD 0 0 + 256 * z.precomp.getD 1 0 + 65536 * z.precomp.getD 2 0)) s
        else s
      else s
    let l := s.lens n
    let s := s.setLens n { l with clock := khz, head := p.head, settleRead := if moved then 0 else l.settleRead
                                  settleWrite := if moved then 0 else l.settleWrite }
    if moved then setServoState n 1 (s.setVal Fam.lensCylinder n p.cylinder) else s

/-! ### What is written (R325, R326, R328) -/

/-- The bits of one fragment: preamble, sync mark, its part of the codeword, and the postamble on the last. -/
def fragmentBits (word : List Bool) (f : Frag) : List Bool :=
  preamble (if f.from_ = 0 then 24 else 8) ++ syncMark ++ (word.drop f.from_).take f.len
    ++ (if f.from_ + f.len = 37120 then preamble 4 else [])

/-- The bits that a command writes in a data region of the present track, in order. -/
def regionContent (s : Dev) (n reg : Nat) (c : MCmd) : List Bool :=
  let l := s.lens n
  let bytes := c.bytes
  (cmdBlocks c).flatMap fun pba =>
    match placeNow l pba, intendedTag s n pba with
    | some p, some t =>
      if p.cylinder ≠ s.val Fam.lensCylinder n ∨ p.head ≠ l.head then []
      else match liveZone l 0 p.zone with
        | some z =>
          let user := fitBytes 4096 (bytes.drop (4096 * (pba - c.offset / 4096)))
          (((trackLayout z.rate z.sectors).getD p.sector []).filter (·.region == reg)).flatMap (fragmentBits (codeword user t))
        | none => []
    | _, _ => []

/-- Write-data blocks of 56 bits, then the block of count 0 (Table 11.4). -/
def writeBlocks (b : List Bool) : List DownBlock :=
  (List.range (cdiv b.length 56)).map (fun i =>
    let part := (b.drop (56 * i)).take 56
    .writeData part.length (BitVec.ofNat 56 (((List.range part.length).zip part).map fun e => b2n e.2 * 2 ^ e.1).sum))
  ++ [.writeData 0 0]

/-- R351: START_WRITE of the region after this wedge, with its data. Its sample count follows from timing the spec does not give in
numbers: a free value. -/
def startRegion (n reg : Nat) (c : MCmd) (s : Dev) : Dev :=
  let tag := (s.lens n).nextTag
  let blocks := writeBlocks (regionContent s n reg c)
  let s := lensCmd n 0x07 (BitVec.ofNat 44 (Config.freeNat s.fresh)) s
  let s := s.draw.setLens n { s.lens n with region := some (tag, reg) }
  (List.range (cdiv blocks.length 31)).foldl (fun s i => lensFrame n ((blocks.drop (31 * i)).take 31) s) s

/-- The region holds bits of a block on the present track that is still to be written. -/
def regionDue (s : Dev) (n reg : Nat) : Bool :=
  let l := s.lens n
  l.left.any fun e => e.2.contains reg && (match placeNow l e.1 with
    | some p => p.cylinder == s.val Fam.lensCylinder n && p.head == l.head
    | none => false)

/-- After a wedge: take up a command, seek for it, and write the region that follows when settled (R349, R351). -/
def serve (n wedge : Nat) (s : Dev) : Dev :=
  let s := if (inService s n).isNone then takeUp n s else s
  match inService s n with
  | none => s
  | some c =>
    let l := s.lens n
    match placeNow l (nextBlock l c) with
    | none => s
    | some p =>
      let s := if l.region.isNone then seekTo n p c.write s else s
      let l := s.lens n
      if c.write && decide (4 ≤ l.settleWrite) && l.region.isNone && !l.shockHold && regionDue s n wedge then startRegion n wedge c s
      else s

/-! ### SERVO_WEDGE (R344, R347 to R349, R353) -/

/-- |PES| above a percentage of track pitch. -/
def pesAbove (pes : Int) (pct : Nat) : Bool := decide (pct * 4096 < pes.natAbs * 100)

/-- Store PES; the object holds 16 bits, and the spec does not say what it shows beyond them: a free value. -/
def storePes (n : Nat) (p : Int) (s : Dev) : Dev :=
  if -32768 ≤ p ∧ p ≤ 32767 then s.setVal Fam.lensPes n (p % 65536).toNat
  else (s.setVal Fam.lensPes n (Config.freeNat s.fresh % 65536)).draw

/-- The current of a wedge: the spec gives no number for it (log entry 11); in a seek it is within its limit (R349). -/
def vcmCurrent (s : Dev) (n : Nat) : BitVec 16 :=
  let limit := 32768 * s.val Fam.lensServoSeekCurrentPct / 100
  if s.val Fam.lensServoState n % 4 = 1 then BitVec.ofInt 16 ((Config.freeNat s.fresh % (2 * limit) : Nat) - (limit : Int))
  else BitVec.ofNat 16 (Config.freeNat s.fresh)

/-- The VCM block of a wedge. -/
def sendVcm (n wedge : Nat) (s : Dev) : Dev := (lensFrame n [.vcm wedge (vcmCurrent s n)] s).draw

/-- R344: the wedge's SAM is not found. -/
def wedgeMissed (n : Nat) (s : Dev) : Dev :=
  let l := s.lens n
  let w := (l.lastWedge + 1) % 384
  let s := (s.setLens n { l with missed := l.missed + 1, lastWedge := w, settleRead := 0, settleWrite := 0 }).bump Fam.lensSamMissed n
  sendVcm n w (shutterEvent n w true s)

/-- R353, R355: the shutter's conditions at a wedge that was found. -/
def shutterCheck (n : Nat) (w : Wedge) (pes : Int) (s : Dev) : Dev :=
  let limit := s.val Fam.lensShutterPes n
  let off := pesAbove pes limit
  let spin := w.number == 0 && decide (s.val Fam.lensSpindleTolPpm < w.periodPpm)
  if (s.lens n).region.isSome && (off || spin) then
    let cyl := s.val Fam.lensCylinder n
    let s := shutterEvent n w.number true s
    if pesAbove pes (2 * limit) then
      s.setLens n { s.lens n with verifyDue := some (if 0 < pes then cyl + 1 else cyl - 1, (s.lens n).head, w.number) }
    else s
  else s

/-- The servo state that a wedge leaves: seeking until the first wedge within the limit, settling again after an excursion (R349). -/
def followState (n : Nat) (s : Dev) : Dev :=
  let l := s.lens n
  setServoState n (if 2 ≤ l.settleRead then 3 else if 0 < l.settleRead ∨ 2 ≤ s.val Fam.lensServoState n % 4 then 2 else 1) s

def wedgeFound (n : Nat) (w : Wedge) (s : Dev) : Dev :=
  let l := s.lens n
  let pes := pesOf w (s.val Fam.lensCylinder n)
  let count (old limit : Nat) : Nat := if pesAbove pes limit then 0 else min (old + 1) 255
  let s := s.setLens n { l with
    missed := 0, lastWedge := w.number, sampleCount := w.count
    settleRead := count l.settleRead (s.val Fam.lensServoReadSettlePes)
    settleWrite := count l.settleWrite (s.val Fam.lensServoWriteSettlePes) }
  let s := followState n (storePes n pes s)
  let s := sendVcm n w.number (shutterCheck n w pes s)
  if s.executing then serve n w.number s else s

/-- R344: servo bits in which a SAM differs from its pattern. -/
def samErrors (sam : BitVec 16) : Nat := ((List.range 16).filter fun i => sam.getLsbD i != (0x1E5B : BitVec 16).getLsbD i).length

def servoWedge (n : Nat) (w : Wedge) (s : Dev) : Dev :=
  let l := s.lens n
  if !l.up || l.parked then s
  else if samErrors w.sam ≤ 1 ∧ 0 < w.tAA ∧ w.number < 384 then wedgeFound n w s
  else wedgeMissed n s

def execServoWedge (n : Nat) (w : Wedge) (s : State) : Host.Outcome State Fault Refusal :=
  onDev s (fun s => if s.coreUp && decide (n < 24) then servoWedge n w s else s)

/-- SERVO_LOST (R352): after 16 missed wedges. -/
def servoLost (n : Nat) (s : Dev) : Dev :=
  let l := s.lens n
  if l.up && decide (16 ≤ l.missed) then
    let s := lensCmd n 0x0A 0 (lensPark n (lensShutter n s))
    let s := s.setLens n { s.lens n with missed := 0, settleRead := 0, settleWrite := 0 }
    setServoState n 0 (s.bump Fam.lensServoLost n)
  else s

def execServoLost (n : Nat) (s : State) : Host.Outcome State Fault Refusal :=
  onDev s (fun s => if s.working && decide (n < 24) then servoLost n s else s)

/-! ### SHUTTER_REWRITE, SHOCK_HOLD_END, ADJACENT_VERIFY (R354, R355) -/

/-- The revolution has ended; one in which a shock holds the writes does not count. -/
def shutterRewrite (n : Nat) (s : Dev) : Dev :=
  let l := s.lens n
  if l.rewrite.isEmpty then s
  else match inService s n with
    | none => s.setLens n l.idle
    | some c =>
      let revs := if l.shockHold then l.shutterRevs else l.shutterRevs + 1
      let s := s.setLens n { l with left := rewriteLeft l c, rewrite := [], shutterRevs := revs }
      if s.val Fam.lensShutterRetries ≤ revs ∧ l.shockHold = false then endWriteCmd n .other s else s

def execShutterRewrite (n : Nat) (s : State) : Host.Outcome State Fault Refusal :=
  onDev s (fun s => if s.executing && decide (n < 24) then shutterRewrite n s else s)

def execShockHoldEnd (n : Nat) (s : State) : Host.Outcome State Fault Refusal :=
  onDev s (fun s => if s.coreUp && decide (n < 24) then s.setLens n { s.lens n with shockHold := false } else s)

/-- The member block that a sector of a track holds. -/
def pbaAt (l : Lens) (cyl head sector : Nat) : Option Nat :=
  match l.realloc.find? fun e => e.2.1 == cyl && e.2.2.1 == head && e.2.2.2.1 == sector with
  | some e => some e.1
  | none =>
    let rec go (base : Nat) : List (Nat × ZoneEntry) → Option Nat
      | [] => none
      | (_, z) :: r =>
        let per := l.surfaces * z.sectors
        if z.first ≤ cyl ∧ cyl < z.first + zoneData z then
          let pba := base + (cyl - z.first) * per + head * z.sectors + sector
          if (tfind l.realloc pba).isSome then none else some pba
        else go (base + zoneData z * per) r
    go 0 (zoneList l)

/-- Sectors of a track with bits in the regions around a wedge. -/
def sectorsAround (l : Lens) (cyl w : Nat) : List Nat :=
  match (zoneList l).find? fun e => decide (e.2.first ≤ cyl) && decide (cyl ≤ e.2.last) with
  | some (_, z) => (List.range (trackLayout z.rate z.sectors).length).filter fun i =>
      (sectorRegions z.rate z.sectors i).any fun r => r == (w + 383) % 384 || r == w
  | none => []

/-- The array layer repairs the live blocks that the sector's facet holds there (R183). -/
def repairAt (m pba : Nat) (s : Dev) : Dev :=
  match facetAt s m pba with
  | none => s
  | some (a, x, beam, f, off) =>
    let g := x.geomOf (beam / 64)
    let hit (b : Nat × Nat × Nat) : Bool :=
      let p := Geom.place x.shift (blockSlot b.2.2)
      (g.mirror || p.1 == f) && p.2 == off
    ((liveBlocks s a beam).filter hit).foldl (fun s b => startJob .repair b.1 b.2.1 ⟨a, beam, b.2.2⟩ s) s

/-- `notClean`: the sectors of the adjacent track that were not CLEAN, RECOVERED with their bytes or FAILED. -/
def adjacentVerify (n : Nat) (notClean : List (Nat × Option Block)) (s : Dev) : Dev :=
  let l := s.lens n
  match l.verifyDue with
  | none => s
  | some (cyl, head, w) =>
    let secs := sectorsAround l cyl w
    let s := s.setLens n { l with verifyDue := none }
    let s := (s.addVal Fam.lensAdjacentVerifies n secs.length).addVal Fam.lensSectorsRead n secs.length
    settle ((notClean.filter fun e => secs.contains e.1).foldl (fun s e =>
      let s := s.bump (if e.2.isSome then Fam.lensRecovered else Fam.lensFailed) n
      match pbaAt l cyl head e.1 with
      | none => s
      | some pba =>
        let k := s.lens n
        repairAt (lensMember n) pba (s.setLens n { k with reported := k.reported.filter (·.1 != pba) ++ [(pba, e.2)] })) s)

def execAdjacentVerify (n : Nat) (notClean : List (Nat × Option Block)) (s : State) : Host.Outcome State Fault Refusal :=
  onDev s (fun s => if s.executing && decide (n < 24) then adjacentVerify n notClean s else s)

/-! ### Cadence (R356 to R358) -/

/-- One step from `c` towards `t`. -/
def cadenceStep (c t : Nat) : Nat := if c < t then c + 1200 else if t < c then c - 1200 else c

/-- The cadence that R356 asks for: of the array's state, of the fixed policy, or of utilisation `u`, percent. -/
def cadenceWish (s : Dev) (x : Arr) (u : Nat) (downOk : Bool) : Nat :=
  let st := arrayState s x
  let c := x.cadence
  if st = 2 ∨ st = 3 ∨ st = 4 then 7200
  else if s.val Fam.lensCadencePolicy = 0 then s.val Fam.lensCadenceFixed
  else if s.val Fam.lensCadenceUpPct < u then 7200
  else
    let lower := cadenceStep c 4800
    if u < s.val Fam.lensCadenceDownPct ∧ downOk = true ∧ u * c < s.val Fam.lensCadenceUpPct * lower then lower else c

/-- CADENCE_DECIDE: `util` gives the members' utilisation over the last second; `downOk` says that it stayed low for 60 s. -/
def cadenceDecide (a : Nat) (util : List (Nat × Nat)) (downOk : Bool) (s : Dev) : Dev :=
  let s := util.foldl (fun s e => if e.1 < 24 then s.setVal Fam.lensUtilisationPct e.1 (min e.2 100) else s) s
  match s.arr? a with
  | none => s
  | some x =>
    let u := listMax (util.map (·.2))
    let st := arrayState s x
    let forced := st == 2 || st == 3 || st == 4
    let spaced := x.cadenceAt == 0 || decide (x.cadenceAt + 60000000000 ≤ s.tm.now + 1)
    let to_ := cadenceStep x.cadence (cadenceWish s x u downOk)
    if isPlatter (x.geom.members.headD 0) && x.cadenceTo.isNone && to_ != x.cadence && (forced || spaced) then
      s.setArr a { x with cadenceTo := some to_ }
    else s

def execCadenceDecide (a : Nat) (util : List (Nat × Nat)) (downOk : Bool) (s : State) : Host.Outcome State Fault Refusal :=
  onDev s (fun s => if s.executing then cadenceDecide a util downOk s else s)

/-- Channels of an array whose link is up. -/
def arrayChannels (s : Dev) (x : Arr) : List Nat := (x.allMembers.filterMap chanOf_).filter fun n => (s.lens n).up

/-- CADENCE_DRAINED: commands in progress have completed and no write gate is active. -/
def cadenceDrained (a : Nat) (s : Dev) : Dev :=
  match s.arr? a with
  | none => s
  | some x =>
    match x.cadenceTo with
    | none => s
    | some rpm =>
      let chans := arrayChannels s x
      if chans.any (fun n => (inService s n).isSome) then s else chans.foldl (fun s n => sendSpindle n rpm s) s

def execCadenceDrained (a : Nat) (s : State) : Host.Outcome State Fault Refusal :=
  onDev s (fun s => if s.executing then cadenceDrained a s else s)

/-- Step 6: SET_CLOCK for the zone under the head. -/
def retune (rpm : Nat) (s : Dev) (n : Nat) : Dev :=
  let l := s.lens n
  match (zoneList l).find? fun e => decide (e.2.first ≤ s.val Fam.lensCylinder n) && decide (s.val Fam.lensCylinder n ≤ e.2.last) with
  | some (_, z) =>
    let s := lensCmd n 0x03 (BitVec.ofNat 44 (zoneClock z rpm)) s
    s.setLens n { s.lens n with clock := zoneClock z rpm }
  | none => s

/-- CADENCE_SETTLED: HEALTH bit 8 stands on every member; the held commands go on. -/
def cadenceSettled (a : Nat) (s : Dev) : Dev :=
  match s.arr? a with
  | none => s
  | some x =>
    match x.cadenceTo with
    | none => s
    | some rpm =>
      let chans := arrayChannels s x
      if chans.all (fun n => (s.lens n).atSpeed && s.val Fam.lensCadenceRpm n == rpm) then
        chans.foldl (retune rpm) (s.setArr a { x with cadence := rpm, cadenceTo := none, cadenceAt := s.tm.now + 1 })
      else s

def execCadenceSettled (a : Nat) (s : State) : Host.Outcome State Fault Refusal :=
  onDev s (fun s => if s.executing then cadenceSettled a s else s)

/-- SPINUP_TIMEOUT (R358). -/
def spinupTimeout (n : Nat) (s : Dev) : Dev :=
  let l := s.lens n
  if l.up && l.spinning && !l.atSpeed then settle (memberFails (lensMember n) 1 (s.setLens n { l with spinning := false })) else s

def execSpinupTimeout (n : Nat) (s : State) : Host.Outcome State Fault Refusal :=
  onDev s (fun s => if s.working && decide (n < 24) then spinupTimeout n s else s)

end Sys2Proof.Machine
end

