-- ==== Sys2Proof/Machine/Dispatch.lean ====
section
/-!
DEFINITION. What each command does: one arm per constructor of Instr, each one direct call of its meaning.
-/

namespace Sys2Proof.Machine

def exec (i : Instr) (s : State) : Host.Outcome State Fault Refusal :=
  match i with
  | .porNAssert => Sys2Proof.Machine.execPorNAssert s
  | .porNRelease bootMode pairId => Sys2Proof.Machine.execPorNRelease bootMode pairId s
  | .sbPhyResetRelease => Sys2Proof.Machine.execSbPhyResetRelease s
  | .plcaConfig => Sys2Proof.Machine.execPlcaConfig s
  | .imageVerifyComplete slot img => Sys2Proof.Machine.execImageVerifyComplete slot img s
  | .coreRstNRelease => Sys2Proof.Machine.execCoreRstNRelease s
  | .coreRstNAssert => Sys2Proof.Machine.execCoreRstNAssert s
  | .corePowerLoss => Sys2Proof.Machine.execCorePowerLoss s
  | .selfTestComplete failed katFails => Sys2Proof.Machine.execSelfTestComplete failed katFails s
  | .ddrTrained modules => Sys2Proof.Machine.execDdrTrained modules s
  | .enumWaitExpire vault0 vault1 imageMib => Sys2Proof.Machine.execEnumWaitExpire vault0 vault1 imageMib s
  | .recoveryComplete array => Sys2Proof.Machine.execRecoveryComplete array s
  | .modeRequestFocus who => Sys2Proof.Machine.execModeRequestFocus who s
  | .modeRequestSolo who => Sys2Proof.Machine.execModeRequestSolo who s
  | .focusDrainComplete => Sys2Proof.Machine.execFocusDrainComplete s
  | .eclipseDestageComplete => Sys2Proof.Machine.execEclipseDestageComplete s
  | .eclipseDestageFailed => Sys2Proof.Machine.execEclipseDestageFailed s
  | .softReset who value => Sys2Proof.Machine.execSoftReset who value s
  | .softResetComplete => Sys2Proof.Machine.execSoftResetComplete s
  | .fabricPeakReset who => Sys2Proof.Machine.execFabricPeakReset who s
  | .stageTimeRefresh ps => Sys2Proof.Machine.execStageTimeRefresh ps s
  | .sagSensorBelow sensor => Sys2Proof.Machine.execSagSensorBelow sensor s
  | .sagDeepCut sensor => Sys2Proof.Machine.execSagDeepCut sensor s
  | .sagRecoveryStep => Sys2Proof.Machine.execSagRecoveryStep s
  | .thermalThreshold t tjC sensor => Sys2Proof.Machine.execThermalThreshold t tjC sensor s
  | .thermalActionEnd t tjC => Sys2Proof.Machine.execThermalActionEnd t tjC s
  | .thermalTrip => Sys2Proof.Machine.execThermalTrip s
  | .thermalRestart => Sys2Proof.Machine.execThermalRestart s
  | .supplyCollapse => Sys2Proof.Machine.execSupplyCollapse s
  | .collapseRestart bootMode pairId => Sys2Proof.Machine.execCollapseRestart bootMode pairId s
  | .hpPerstNAssert port => Sys2Proof.Machine.execHpPerstNAssert port s
  | .hpPerstNRelease port => Sys2Proof.Machine.execHpPerstNRelease port s
  | .hostLinkDown port hotReset => Sys2Proof.Machine.execHostLinkDown port hotReset s
  | .hostLinkUp port speed width => Sys2Proof.Machine.execHostLinkUp port speed width s
  | .flr f => Sys2Proof.Machine.execFlr f s
  | .vfEnableClear port => Sys2Proof.Machine.execVfEnableClear port s
  | .receivedErrorTlp f e => Sys2Proof.Machine.execReceivedErrorTlp f e s
  | .completionTimeout f r => Sys2Proof.Machine.execCompletionTimeout f r s
  | .ideIntegrityFailure port stream => Sys2Proof.Machine.execIdeIntegrityFailure port stream s
  | .ideKeySetSwitch port stream => Sys2Proof.Machine.execIdeKeySetSwitch port stream s
  | .ideKmKeyProgram port stream session keySet key assoc => Sys2Proof.Machine.execIdeKmKeyProgram port stream session keySet key assoc s
  | .doeDiscovery port index => Sys2Proof.Machine.execDoeDiscovery port index s
  | .getVersion port => Sys2Proof.Machine.execGetVersion port s
  | .getCapabilities port => Sys2Proof.Machine.execGetCapabilities port s
  | .negotiateAlgorithms port => Sys2Proof.Machine.execNegotiateAlgorithms port s
  | .getDigests port => Sys2Proof.Machine.execGetDigests port s
  | .getCertificate port slot offset length => Sys2Proof.Machine.execGetCertificate port slot offset length s
  | .challenge port slot nonce => Sys2Proof.Machine.execChallenge port slot nonce s
  | .getMeasurements port index nonce => Sys2Proof.Machine.execGetMeasurements port index nonce s
  | .keyExchange port share => Sys2Proof.Machine.execKeyExchange port share s
  | .finish port session verified => Sys2Proof.Machine.execFinish port session verified s
  | .heartbeat port session => Sys2Proof.Machine.execHeartbeat port session s
  | .keyUpdate port session => Sys2Proof.Machine.execKeyUpdate port session s
  | .endSession port session => Sys2Proof.Machine.execEndSession port session s
  | .msixPendingSend f vector => Sys2Proof.Machine.execMsixPendingSend f vector s
  | .registerWrite t => Sys2Proof.Machine.execRegisterWrite t s
  | .sqTailDoorbell r q value => Sys2Proof.Machine.execSqTailDoorbell r q value s
  | .cqHeadDoorbell r q value => Sys2Proof.Machine.execCqHeadDoorbell r q value s
  | .createCq r q => Sys2Proof.Machine.execCreateCq r q s
  | .createSq r q => Sys2Proof.Machine.execCreateSq r q s
  | .deleteSq r q => Sys2Proof.Machine.execDeleteSq r q s
  | .deleteCq r q => Sys2Proof.Machine.execDeleteCq r q s
  | .sqShutdownDrained f q => Sys2Proof.Machine.execSqShutdownDrained f q s
  | .sqShutdownFinish f q cids => Sys2Proof.Machine.execSqShutdownFinish f q cids s
  | .inlinePush r q slot whole e => Sys2Proof.Machine.execInlinePush r q slot whole e s
  | .sqFetch f q => Sys2Proof.Machine.execSqFetch f q s
  | .sqFetchComplete f q entries => Sys2Proof.Machine.execSqFetchComplete f q entries s
  | .overflowDrain f q => Sys2Proof.Machine.execOverflowDrain f q s
  | .coalesceTimerExpire f q => Sys2Proof.Machine.execCoalesceTimerExpire f q s
  | .read ctx => Sys2Proof.Machine.execRead ctx s
  | .write ctx => Sys2Proof.Machine.execWrite ctx s
  | .flush ctx => Sys2Proof.Machine.execFlush ctx s
  | .trim ctx => Sys2Proof.Machine.execTrim ctx s
  | .writeZeroes ctx => Sys2Proof.Machine.execWriteZeroes ctx s
  | .copy ctx => Sys2Proof.Machine.execCopy ctx s
  | .fence ctx => Sys2Proof.Machine.execFence ctx s
  | .abort ctx => Sys2Proof.Machine.execAbort ctx s
  | .queryVolume ctx => Sys2Proof.Machine.execQueryVolume ctx s
  | .queryDarkMap ctx => Sys2Proof.Machine.execQueryDarkMap ctx s
  | .irisAdmit tenant cls => Sys2Proof.Machine.execIrisAdmit tenant cls s
  | .queueCreateCq => Sys2Proof.Machine.execQueueCreateCq s
  | .queueCreateSq => Sys2Proof.Machine.execQueueCreateSq s
  | .queueDeleteSq => Sys2Proof.Machine.execQueueDeleteSq s
  | .queueDeleteCq => Sys2Proof.Machine.execQueueDeleteCq s
  | .volumeCreate => Sys2Proof.Machine.execVolumeCreate s
  | .volumeDelete => Sys2Proof.Machine.execVolumeDelete s
  | .volumeResize => Sys2Proof.Machine.execVolumeResize s
  | .volumeSet => Sys2Proof.Machine.execVolumeSet s
  | .arrayCreate table => Sys2Proof.Machine.execArrayCreate table s
  | .arrayDelete => Sys2Proof.Machine.execArrayDelete s
  | .arrayReshapeStart table => Sys2Proof.Machine.execArrayReshapeStart table s
  | .arrayReshapePause => Sys2Proof.Machine.execArrayReshapePause s
  | .arrayReshapeResume => Sys2Proof.Machine.execArrayReshapeResume s
  | .arrayRebuildStart => Sys2Proof.Machine.execArrayRebuildStart s
  | .arrayRebuildPause => Sys2Proof.Machine.execArrayRebuildPause s
  | .arrayRebuildResume => Sys2Proof.Machine.execArrayRebuildResume s
  | .domain => Sys2Proof.Machine.execDomain s
  | .spare => Sys2Proof.Machine.execSpare s
  | .release => Sys2Proof.Machine.execRelease s
  | .fail => Sys2Proof.Machine.execFail s
  | .vault => Sys2Proof.Machine.execVault s
  | .tenantSet => Sys2Proof.Machine.execTenantSet s
  | .tenantDelete => Sys2Proof.Machine.execTenantDelete s
  | .functionBind => Sys2Proof.Machine.execFunctionBind s
  | .functionUnbind => Sys2Proof.Machine.execFunctionUnbind s
  | .tenantIsolate => Sys2Proof.Machine.execTenantIsolate s
  | .isolationComplete => Sys2Proof.Machine.execIsolationComplete s
  | .tenantRelease => Sys2Proof.Machine.execTenantRelease s
  | .keyLoad wrapped => Sys2Proof.Machine.execKeyLoad wrapped s
  | .keyUnload => Sys2Proof.Machine.execKeyUnload s
  | .firmwareDownload piece img => Sys2Proof.Machine.execFirmwareDownload piece img s
  | .downloadWriterExpire slot => Sys2Proof.Machine.execDownloadWriterExpire slot s
  | .firmwareActivate => Sys2Proof.Machine.execFirmwareActivate s
  | .activationDrainComplete => Sys2Proof.Machine.execActivationDrainComplete s
  | .activationDrainTimeout => Sys2Proof.Machine.execActivationDrainTimeout s
  | .activationResume stallUs => Sys2Proof.Machine.execActivationResume stallUs s
  | .svnCommit who value => Sys2Proof.Machine.execSvnCommit who value s
  | .pairStart partnerLead partnerSolo => Sys2Proof.Machine.execPairStart partnerLead partnerSolo s
  | .pairDissolve => Sys2Proof.Machine.execPairDissolve s
  | .pairSwap => Sys2Proof.Machine.execPairSwap s
  | .swapDrainComplete => Sys2Proof.Machine.execSwapDrainComplete s
  | .swapDrainTimeout => Sys2Proof.Machine.execSwapDrainTimeout s
  | .handover epoch => Sys2Proof.Machine.execHandover epoch s
  | .meterRingSet => Sys2Proof.Machine.execMeterRingSet s
  | .meterRollover => Sys2Proof.Machine.execMeterRollover s
  | .timeSet => Sys2Proof.Machine.execTimeSet s
  | .meterSnapshot => Sys2Proof.Machine.execMeterSnapshot s
  | .capacityTick => Sys2Proof.Machine.execCapacityTick s
  | .meterRingWrite => Sys2Proof.Machine.execMeterRingWrite s
  | .meterRingHead who value => Sys2Proof.Machine.execMeterRingHead who value s
  | .readAroundTrigger job => Sys2Proof.Machine.execReadAroundTrigger job s
  | .prismKat who => Sys2Proof.Machine.execPrismKat who s
  | .prismKatComplete failed partnerFailed => Sys2Proof.Machine.execPrismKatComplete failed partnerFailed s
  | .scrubBeam array inst epoch segment offset => Sys2Proof.Machine.execScrubBeam array inst epoch segment offset s
  | .hostDataReadComplete ctx unit data => Sys2Proof.Machine.execHostDataReadComplete ctx unit data s
  | .unitPlace ctx unit => Sys2Proof.Machine.execUnitPlace ctx unit s
  | .beamCloseTimer array beam => Sys2Proof.Machine.execBeamCloseTimer array beam s
  | .beamCommit array beam => Sys2Proof.Machine.execBeamCommit array beam s
  | .checkpointTimer => Sys2Proof.Machine.execCheckpointTimer s
  | .checkpointComplete => Sys2Proof.Machine.execCheckpointComplete s
  | .journalBatchTimer array => Sys2Proof.Machine.execJournalBatchTimer array s
  | .cleanerSelect array segment => Sys2Proof.Machine.execCleanerSelect array segment s
  | .segmentFree array segment => Sys2Proof.Machine.execSegmentFree array segment s
  | .powerFail => Sys2Proof.Machine.execPowerFail s
  | .dumpQuiesced => Sys2Proof.Machine.execDumpQuiesced s
  | .dumpStreamComplete => Sys2Proof.Machine.execDumpStreamComplete s
  | .vaultFlushComplete => Sys2Proof.Machine.execVaultFlushComplete s
  | .dumpSealed dumpUs => Sys2Proof.Machine.execDumpSealed dumpUs s
  | .dumpVaultFailed vault => Sys2Proof.Machine.execDumpVaultFailed vault s
  | .vaultTest => Sys2Proof.Machine.execVaultTest s
  | .vaultTestComplete r0 r1 => Sys2Proof.Machine.execVaultTestComplete r0 r1 s
  | .holdupAttest who => Sys2Proof.Machine.execHoldupAttest who s
  | .attestExpire => Sys2Proof.Machine.execAttestExpire s
  | .trackingSlot channel lane correction => Sys2Proof.Machine.execTrackingSlot channel lane correction s
  | .patrolScrub ddr corrected uncorrectable => Sys2Proof.Machine.execPatrolScrub ddr corrected uncorrectable s
  | .memberTimeout tag => Sys2Proof.Machine.execMemberTimeout tag s
  | .probeIssue member => Sys2Proof.Machine.execProbeIssue member s
  | .absentFailTimeout member => Sys2Proof.Machine.execAbsentFailTimeout member s
  | .rebuildDelayExpire array slot => Sys2Proof.Machine.execRebuildDelayExpire array slot s
  | .epochBarrierComplete array => Sys2Proof.Machine.execEpochBarrierComplete array s
  | .facetRebuildStep array segment => Sys2Proof.Machine.execFacetRebuildStep array segment s
  | .meridianSweepStep array segment => Sys2Proof.Machine.execMeridianSweepStep array segment s
  | .holdRetryTimer array => Sys2Proof.Machine.execHoldRetryTimer array s
  | .hotplugArrival port half levels speed width => Sys2Proof.Machine.execHotplugArrival port half levels speed width s
  | .controllerReady c => Sys2Proof.Machine.execControllerReady c s
  | .memberCommandComplete tag status data => Sys2Proof.Machine.execMemberCommandComplete tag status data s
  | .abortWaitExpire member => Sys2Proof.Machine.execAbortWaitExpire member s
  | .readyLimitExpire member => Sys2Proof.Machine.execReadyLimitExpire member s
  | .memberReturnTimeout member => Sys2Proof.Machine.execMemberReturnTimeout member s
  | .memberPathError port half members => Sys2Proof.Machine.execMemberPathError port half members s
  | .memberLinkDownTimeout member => Sys2Proof.Machine.execMemberLinkDownTimeout member s
  | .memberCriticalWarning member bits => Sys2Proof.Machine.execMemberCriticalWarning member bits s
  | .smartPoll member tempC => Sys2Proof.Machine.execSmartPoll member tempC s
  | .lensUpstreamFrame chan seq epoch flags crc blocks => Sys2Proof.Machine.execLensUpstreamFrame chan seq epoch flags crc blocks s
  | .lensLinkUp chan version serialLow serialHigh surfaces tables copies label => Sys2Proof.Machine.execLensLinkUp chan version serialLow serialHigh surfaces tables copies label s
  | .lensLinkLoss chan => Sys2Proof.Machine.execLensLinkLoss chan s
  | .feDownstreamFrame chan link seq epoch crc blocks => Sys2Proof.Machine.execFeDownstreamFrame chan link seq epoch crc blocks s
  | .feOwnerLossDetect chan => Sys2Proof.Machine.execFeOwnerLossDetect chan s
  | .feHeadRetract chan => Sys2Proof.Machine.execFeHeadRetract chan s
  | .feEpochForget chan => Sys2Proof.Machine.execFeEpochForget chan s
  | .feSpindleStop chan => Sys2Proof.Machine.execFeSpindleStop chan s
  | .nop chan tag => Sys2Proof.Machine.execNop chan tag s
  | .readReg chan tag reg => Sys2Proof.Machine.execReadReg chan tag reg s
  | .writeReg chan tag reg value => Sys2Proof.Machine.execWriteReg chan tag reg value s
  | .setClock chan tag khz => Sys2Proof.Machine.execSetClock chan tag khz s
  | .setRead chan tag gain boost offset => Sys2Proof.Machine.execSetRead chan tag gain boost offset s
  | .setPrecomp chan tag s1 s2 s3 => Sys2Proof.Machine.execSetPrecomp chan tag s1 s2 s3 s
  | .selectHead chan tag head => Sys2Proof.Machine.execSelectHead chan tag head s
  | .startWrite chan tag count => Sys2Proof.Machine.execStartWrite chan tag count s
  | .endWrite chan tag => Sys2Proof.Machine.execEndWrite chan tag s
  | .spindle chan tag rpm accel => Sys2Proof.Machine.execSpindle chan tag rpm accel s
  | .load chan tag => Sys2Proof.Machine.execLoad chan tag s
  | .park chan tag => Sys2Proof.Machine.execPark chan tag s
  | .setShock chan tag threshold => Sys2Proof.Machine.execSetShock chan tag threshold s
  | .feWriteEnd chan cause => Sys2Proof.Machine.execFeWriteEnd chan cause s
  | .sectorDecode chan r => Sys2Proof.Machine.execSectorDecode chan r s
  | .sectorReread chan pba => Sys2Proof.Machine.execSectorReread chan pba s
  | .irJobStart array relation => Sys2Proof.Machine.execIrJobStart array relation s
  | .adaptUpdate chan zone head fir gain offset asym => Sys2Proof.Machine.execAdaptUpdate chan zone head fir gain offset asym s
  | .zoneTableFlush chan => Sys2Proof.Machine.execZoneTableFlush chan s
  | .servoWedge chan w => Sys2Proof.Machine.execServoWedge chan w s
  | .servoLost chan => Sys2Proof.Machine.execServoLost chan s
  | .shutterRewrite chan => Sys2Proof.Machine.execShutterRewrite chan s
  | .shockHoldEnd chan => Sys2Proof.Machine.execShockHoldEnd chan s
  | .adjacentVerify chan notClean => Sys2Proof.Machine.execAdjacentVerify chan notClean s
  | .cadenceDecide array utilisation downOk => Sys2Proof.Machine.execCadenceDecide array utilisation downOk s
  | .cadenceDrained array => Sys2Proof.Machine.execCadenceDrained array s
  | .cadenceSettled array => Sys2Proof.Machine.execCadenceSettled array s
  | .spinupTimeout chan => Sys2Proof.Machine.execSpinupTimeout chan s
  | .reallocate chan pba content clean => Sys2Proof.Machine.execReallocate chan pba content clean s
  | .reallocTableWrite chan => Sys2Proof.Machine.execReallocTableWrite chan s
  | .renewSend => Sys2Proof.Machine.execRenewSend s
  | .renewReceive epoch seq => Sys2Proof.Machine.execRenewReceive epoch seq s
  | .renewAck seq => Sys2Proof.Machine.execRenewAck seq s
  | .renewalMissed => Sys2Proof.Machine.execRenewalMissed s
  | .leaseExpireLead => Sys2Proof.Machine.execLeaseExpireLead s
  | .streamAckTimeout => Sys2Proof.Machine.execStreamAckTimeout s
  | .leaseExpireMirror => Sys2Proof.Machine.execLeaseExpireMirror s
  | .guardElapsed => Sys2Proof.Machine.execGuardElapsed s
  | .fenceTimeout member => Sys2Proof.Machine.execFenceTimeout member s
  | .takeoverComplete gapUs => Sys2Proof.Machine.execTakeoverComplete gapUs s
  | .segmentEmbargoEnd => Sys2Proof.Machine.execSegmentEmbargoEnd s
  | .streamPacket seq item => Sys2Proof.Machine.execStreamPacket seq item s
  | .streamAck seq mismatch => Sys2Proof.Machine.execStreamAck seq mismatch s
  | .mirrorLinkUp serial strap width => Sys2Proof.Machine.execMirrorLinkUp serial strap width s
  | .mirrorLinkRetrain width => Sys2Proof.Machine.execMirrorLinkRetrain width s
  | .partnerLeave => Sys2Proof.Machine.execPartnerLeave s
  | .resyncComplete => Sys2Proof.Machine.execResyncComplete s
  | .resyncLost => Sys2Proof.Machine.execResyncLost s
  | .copyStart r address => Sys2Proof.Machine.execCopyStart r address s
  | .copyAbort r => Sys2Proof.Machine.execCopyAbort r s
  | .copyRingBase r base => Sys2Proof.Machine.execCopyRingBase r base s
  | .copyRingHead r value => Sys2Proof.Machine.execCopyRingHead r value s
  | .copyDescriptorFetched chan raw => Sys2Proof.Machine.execCopyDescriptorFetched chan raw s
  | .copyBurstComplete chan source writeOk => Sys2Proof.Machine.execCopyBurstComplete chan source writeOk s
  | .copyStagingGranted chan => Sys2Proof.Machine.execCopyStagingGranted chan s
  | .txWord r w => Sys2Proof.Machine.execTxWord r w s
  | .txDoorbell r bits => Sys2Proof.Machine.execTxDoorbell r bits s
  | .rxPop r value => Sys2Proof.Machine.execRxPop r value s
  | .rxDoorbellClear r bits => Sys2Proof.Machine.execRxDoorbellClear r bits s
  | .firmwareTakeWord f => Sys2Proof.Machine.execFirmwareTakeWord f s
  | .firmwarePostWord f w => Sys2Proof.Machine.execFirmwarePostWord f w s
  | .faultOnset source detail => Sys2Proof.Machine.execFaultOnset source detail s
  | .faultLiveEnd source => Sys2Proof.Machine.execFaultLiveEnd source s
  | .faultClear who source value => Sys2Proof.Machine.execFaultClear who source value s
  | .faultClearAll who => Sys2Proof.Machine.execFaultClearAll who s
  | .firstFaultClear who => Sys2Proof.Machine.execFirstFaultClear who s
  | .faultInjectPulse who source sev detail withReal => Sys2Proof.Machine.execFaultInjectPulse who source sev detail withReal s
  | .faultInjectHold who source sev detail withReal => Sys2Proof.Machine.execFaultInjectHold who source sev detail withReal s
  | .faultInjectRelease who source => Sys2Proof.Machine.execFaultInjectRelease who source s
  | .blackBoxWrite => Sys2Proof.Machine.execBlackBoxWrite s
  | .bboxErase who value => Sys2Proof.Machine.execBboxErase who value s
  | .lastGaspTest ok => Sys2Proof.Machine.execLastGaspTest ok s
  | .dictSlotGet slot => Sys2Proof.Machine.execDictSlotGet slot s
  | .dictSlotSet slot => Sys2Proof.Machine.execDictSlotSet slot s
  | .mailboxDictGet f => Sys2Proof.Machine.execMailboxDictGet f s
  | .mailboxDictSet f => Sys2Proof.Machine.execMailboxDictSet f s
  | .take who => Sys2Proof.Machine.execTake who s
  | .renew who => Sys2Proof.Machine.execRenew who s
  | .claimRelease who => Sys2Proof.Machine.execClaimRelease who s
  | .force who => Sys2Proof.Machine.execForce who s
  | .claimExpire => Sys2Proof.Machine.execClaimExpire s
  | .settingsStore who value => Sys2Proof.Machine.execSettingsStore who value s
  | .settingsStoreComplete verified => Sys2Proof.Machine.execSettingsStoreComplete verified s
  | .factoryReset who value => Sys2Proof.Machine.execFactoryReset who value s
  | .get m targets => Sys2Proof.Machine.execGet m targets s
  | .discoveryGet tag sender port targets => Sys2Proof.Machine.execDiscoveryGet tag sender port targets s
  | .set m index sub value => Sys2Proof.Machine.execSet m index sub value s
  | .store m => Sys2Proof.Machine.execStore m s
  | .claim m action => Sys2Proof.Machine.execClaim m action s
  | .subscribe m minSev kinds udpPort lifetime => Sys2Proof.Machine.execSubscribe m minSev kinds udpPort lifetime s
  | .subscriptionExpire index => Sys2Proof.Machine.execSubscriptionExpire index s
  | .fileRead m file offset length => Sys2Proof.Machine.execFileRead m file offset length s
  | .fileWrite m file offset data => Sys2Proof.Machine.execFileWrite m file offset data s
  | .fileCommit m file img => Sys2Proof.Machine.execFileCommit m file img s
  | .neighbourDiscovery e => Sys2Proof.Machine.execNeighbourDiscovery e s
  | .icmpv6Echo target sender data => Sys2Proof.Machine.execIcmpv6Echo target sender data s
  | .sync gm originNs arriveNs twoStep => Sys2Proof.Machine.execSync gm originNs arriveNs twoStep s
  | .followUp gm originNs => Sys2Proof.Machine.execFollowUp gm originNs s
  | .delayReq sentNs => Sys2Proof.Machine.execDelayReq sentNs s
  | .delayResp gm receiveNs => Sys2Proof.Machine.execDelayResp gm receiveNs s
  | .announce gm domain rank => Sys2Proof.Machine.execAnnounce gm domain rank s
  | .announceTimeout => Sys2Proof.Machine.execAnnounceTimeout s
  | .vfEnableSet port count => Sys2Proof.Machine.execVfEnableSet port count s
  | .mirrorLinkDown => Sys2Proof.Machine.execMirrorLinkDown s
  | .notReadyRetry tag => Sys2Proof.Machine.execNotReadyRetry tag s
  | .cstsRdyFall member => Sys2Proof.Machine.execCstsRdyFall member s
  | .feCommandDone chan => Sys2Proof.Machine.execFeCommandDone chan s
  | .thermalTripWaitExpire => Sys2Proof.Machine.execThermalTripWaitExpire s
  | .eclipseParkDelayExpire => Sys2Proof.Machine.execEclipseParkDelayExpire s
  | .firmwareRaiseDoorbell f bits => Sys2Proof.Machine.execFirmwareRaiseDoorbell f bits s
  | .firmwareTakeDoorbell f bits => Sys2Proof.Machine.execFirmwareTakeDoorbell f bits s

end Sys2Proof.Machine
end

