-- ==== Sys2Proof/Machine/Step.lean ====
section
/-!
DEFINITION. One step: the command at the front of the queue, or one microsecond of idling.
-/

namespace Sys2Proof.Machine

/-- The queue's rest. -/
def State.rest (s : State) : State := { s with pending := s.pending.tail }

/-- One step of the block. -/
def step (s : State) : Host.Outcome State Fault Refusal :=
  match s.pending with
  | [] => .next { s with dev := tick s.dev }
  | c :: _ => exec c s.rest

/-- The command table gives no row any bits, so no word spells a command. -/
def State.withFetchWord (s : State) (nbits w : Nat) : State :=
  match Sys2Proof.decodeTableWord nbits w with
  | some c => { s with pending := c :: s.pending }
  | none => s

end Sys2Proof.Machine
end

