-- ==== Sys2Proof/WellFormed.lean ====
section
/-!
DEFINITION. Well-formed commands: every number an operand gives lies in the range the spec gives it (R44, R67, R259, R313, R411, R434,
R445). A command out of range is no command of this device; what the model does with one is that nothing of that number exists.
-/

namespace Sys2Proof

/-- A number below a bound. -/
def below (n v : Nat) : Bool := decide (v < n)

/-- R44. -/
def Fn.wf (f : Fn) : Bool := below 16 f.port && below 65 f.fn

/-- R57: stream 0 is the link stream, 1 to 16 are selective. -/
def Req.wf (r : Req) : Bool := r.toFn.wf && r.stream.all (below 17)

/-- Table 2.2: a base address register that the function has. -/
def CfgReg.wf (c : CfgReg) : Bool :=
  match c with
  | .bar n => below 6 n
  | .vfBar n => below 6 n
  | .deviceControl | .deviceControl2 | .linkControl | .aerUncStatus | .aerCorrStatus | .aerCorrMask | .aerControl => true

/-- R11: tenants 0x000 to 0xFFF. -/
def Master.wf (m : Master) : Bool :=
  match m with
  | .tenant t => below 4096 t
  | .admin => true
  | .sideband => true
  | .firmware => true

/-- Index and subindex of Table 16.3. -/
def targetWf (t : Nat × Nat) : Bool := below 65536 t.1 && below 256 t.2

/-- R51: offsets within the BARs; widths in bytes. -/
def RegWrite.wf (r : RegWrite) : Bool :=
  match r with
  | .bar0 r off width _ => r.wf && below 0x100000 off && below 9 width
  | .bar2 off width _ => below 0x1000000 off && below 9 width
  | .busMaster f _ => f.wf
  | .msixControl f _ _ => f.wf
  | .aerMask f _ => f.wf
  | .aerSeverity f _ => f.wf
  | .config f reg _ => f.wf && reg.wf
  | .object who index sub _ => who.wf && targetWf (index, sub)

/-- The check of a command. -/
def Instr.wf (i : Instr) : Bool :=
  match i with
  | .porNAssert => true
  | .porNRelease bootMode _ => below 4 bootMode
  | .sbPhyResetRelease => true
  | .plcaConfig => true
  | .imageVerifyComplete slot _ => below 2 slot
  | .coreRstNRelease => true
  | .coreRstNAssert => true
  | .corePowerLoss => true
  | .selfTestComplete _ _ => true
  | .ddrTrained _ => true
  | .enumWaitExpire _ _ _ => true
  | .recoveryComplete array => below 64 array
  | .modeRequestFocus who => who.wf
  | .modeRequestSolo who => who.wf
  | .focusDrainComplete => true
  | .eclipseDestageComplete => true
  | .eclipseDestageFailed => true
  | .softReset who _ => who.wf
  | .softResetComplete => true
  | .fabricPeakReset who => who.wf
  | .stageTimeRefresh _ => true
  | .sagSensorBelow sensor => below 16 sensor
  | .sagDeepCut sensor => below 16 sensor
  | .sagRecoveryStep => true
  | .thermalThreshold _ _ sensor => below 16 sensor
  | .thermalActionEnd _ _ => true
  | .thermalTrip => true
  | .thermalRestart => true
  | .supplyCollapse => true
  | .collapseRestart bootMode _ => below 4 bootMode
  | .hpPerstNAssert port => below 16 port
  | .hpPerstNRelease port => below 16 port
  | .hostLinkDown port _ => below 16 port
  | .hostLinkUp port _ _ => below 16 port
  | .flr f => f.wf
  | .vfEnableClear port => below 16 port
  | .receivedErrorTlp f _ => f.wf
  | .completionTimeout f _ => f.wf
  | .ideIntegrityFailure port stream => below 16 port && below 17 stream
  | .ideKeySetSwitch port stream => below 16 port && below 17 stream
  | .ideKmKeyProgram port stream _ keySet _ assoc => below 16 port && below 17 stream && below 2 keySet && decide (assoc.addrs.length ≤ 2)
  | .doeDiscovery port _ => below 16 port
  | .getVersion port => below 16 port
  | .getCapabilities port => below 16 port
  | .negotiateAlgorithms port => below 16 port
  | .getDigests port => below 16 port
  | .getCertificate port slot _ _ => below 16 port && below 8 slot
  | .challenge port slot _ => below 16 port && below 8 slot
  | .getMeasurements port _ _ => below 16 port
  | .keyExchange port _ => below 16 port
  | .finish port _ _ => below 16 port
  | .heartbeat port _ => below 16 port
  | .keyUpdate port _ => below 16 port
  | .endSession port _ => below 16 port
  | .msixPendingSend f vector => f.wf && below 2048 vector
  | .registerWrite t => t.wf
  | .sqTailDoorbell r q _ => r.wf && below 1024 q
  | .cqHeadDoorbell r q _ => r.wf && below 1024 q
  | .createCq r q => r.wf && below 1024 q
  | .createSq r q => r.wf && below 1024 q
  | .deleteSq r q => r.wf && below 1024 q
  | .deleteCq r q => r.wf && below 1024 q
  | .sqShutdownDrained f q => f.wf && below 1024 q
  | .sqShutdownFinish f q _ => f.wf && below 1024 q
  | .inlinePush r q slot _ _ => r.wf && below 1024 q && below 8 slot
  | .sqFetch f q => f.wf && below 1024 q
  | .sqFetchComplete f q _ => f.wf && below 1024 q
  | .overflowDrain f q => f.wf && below 1024 q
  | .coalesceTimerExpire f q => f.wf && below 1024 q
  | .read _ => true
  | .write _ => true
  | .flush _ => true
  | .trim _ => true
  | .writeZeroes _ => true
  | .copy _ => true
  | .fence _ => true
  | .abort _ => true
  | .queryVolume _ => true
  | .queryDarkMap _ => true
  | .irisAdmit _ cls => below 4 cls
  | .queueCreateCq => true
  | .queueCreateSq => true
  | .queueDeleteSq => true
  | .queueDeleteCq => true
  | .volumeCreate => true
  | .volumeDelete => true
  | .volumeResize => true
  | .volumeSet => true
  | .arrayCreate _ => true
  | .arrayDelete => true
  | .arrayReshapeStart _ => true
  | .arrayReshapePause => true
  | .arrayReshapeResume => true
  | .arrayRebuildStart => true
  | .arrayRebuildPause => true
  | .arrayRebuildResume => true
  | .domain => true
  | .spare => true
  | .release => true
  | .fail => true
  | .vault => true
  | .tenantSet => true
  | .tenantDelete => true
  | .functionBind => true
  | .functionUnbind => true
  | .tenantIsolate => true
  | .isolationComplete => true
  | .tenantRelease => true
  | .keyLoad _ => true
  | .keyUnload => true
  | .firmwareDownload _ _ => true
  | .downloadWriterExpire slot => below 2 slot
  | .firmwareActivate => true
  | .activationDrainComplete => true
  | .activationDrainTimeout => true
  | .activationResume _ => true
  | .svnCommit who _ => who.wf
  | .pairStart _ _ => true
  | .pairDissolve => true
  | .pairSwap => true
  | .swapDrainComplete => true
  | .swapDrainTimeout => true
  | .handover _ => true
  | .meterRingSet => true
  | .meterRollover => true
  | .timeSet => true
  | .meterSnapshot => true
  | .capacityTick => true
  | .meterRingWrite => true
  | .meterRingHead who _ => who.wf
  | .readAroundTrigger _ => true
  | .prismKat who => who.wf
  | .prismKatComplete _ _ => true
  | .scrubBeam array _ _ _ offset => below 64 array && below 64 offset
  | .hostDataReadComplete _ _ _ => true
  | .unitPlace _ _ => true
  | .beamCloseTimer array _ => below 64 array
  | .beamCommit array _ => below 64 array
  | .checkpointTimer => true
  | .checkpointComplete => true
  | .journalBatchTimer array => below 64 array
  | .cleanerSelect array _ => below 64 array
  | .segmentFree array _ => below 64 array
  | .powerFail => true
  | .dumpQuiesced => true
  | .dumpStreamComplete => true
  | .vaultFlushComplete => true
  | .dumpSealed _ => true
  | .dumpVaultFailed v => below 2 v
  | .vaultTest => true
  | .vaultTestComplete _ _ => true
  | .holdupAttest who => who.wf
  | .attestExpire => true
  | .trackingSlot channel _ _ => below 12 channel
  | .patrolScrub _ _ _ => true
  | .memberTimeout _ => true
  | .probeIssue member => below 2048 member
  | .absentFailTimeout member => below 2048 member
  | .rebuildDelayExpire array slot => below 64 array && below 32 slot
  | .epochBarrierComplete array => below 64 array
  | .facetRebuildStep array _ => below 64 array
  | .meridianSweepStep array _ => below 64 array
  | .holdRetryTimer array => below 64 array
  | .hotplugArrival port half _ _ _ => below 32 port && below 2 half
  | .controllerReady _ => true
  | .memberCommandComplete _ _ _ => true
  | .abortWaitExpire member => below 2048 member
  | .readyLimitExpire member => below 2048 member
  | .memberReturnTimeout member => below 2048 member
  | .memberPathError port half _ => below 32 port && below 2 half.1
  | .memberLinkDownTimeout member => below 2048 member
  | .memberCriticalWarning member _ => below 2048 member
  | .smartPoll member _ => below 2048 member
  | .lensUpstreamFrame chan _ _ _ _ blocks => below 24 chan && decide (blocks.length ≤ 31)
  | .lensLinkUp chan _ _ _ surfaces _ copies _ => below 24 chan && below 33 surfaces && decide (copies.length ≤ 2)
  | .lensLinkLoss chan => below 24 chan
  | .feDownstreamFrame chan link _ _ _ blocks => below 24 chan && below 2 link && decide (blocks.length ≤ 31)
  | .feOwnerLossDetect chan => below 24 chan
  | .feHeadRetract chan => below 24 chan
  | .feEpochForget chan => below 24 chan
  | .feSpindleStop chan => below 24 chan
  | .nop chan tag => below 24 chan && below 256 tag
  | .readReg chan tag _ => below 24 chan && below 256 tag
  | .writeReg chan tag _ _ => below 24 chan && below 256 tag
  | .setClock chan tag _ => below 24 chan && below 256 tag
  | .setRead chan tag _ _ _ => below 24 chan && below 256 tag
  | .setPrecomp chan tag _ _ _ => below 24 chan && below 256 tag
  | .selectHead chan tag head => below 24 chan && below 256 tag && below 256 head
  | .startWrite chan tag _ => below 24 chan && below 256 tag
  | .endWrite chan tag => below 24 chan && below 256 tag
  | .spindle chan tag _ _ => below 24 chan && below 256 tag
  | .load chan tag => below 24 chan && below 256 tag
  | .park chan tag => below 24 chan && below 256 tag
  | .setShock chan tag _ => below 24 chan && below 256 tag
  | .feWriteEnd chan _ => below 24 chan
  | .sectorDecode chan _ => below 24 chan
  | .sectorReread chan _ => below 24 chan
  | .irJobStart array _ => below 64 array
  | .adaptUpdate chan zone head _ _ _ _ => below 24 chan && below 64 zone && below 256 head
  | .zoneTableFlush chan => below 24 chan
  | .servoWedge chan _ => below 24 chan
  | .servoLost chan => below 24 chan
  | .shutterRewrite chan => below 24 chan
  | .shockHoldEnd chan => below 24 chan
  | .adjacentVerify chan _ => below 24 chan
  | .cadenceDecide array _ _ => below 64 array
  | .cadenceDrained array => below 64 array
  | .cadenceSettled array => below 64 array
  | .spinupTimeout chan => below 24 chan
  | .reallocate chan _ _ _ => below 24 chan
  | .reallocTableWrite chan => below 24 chan
  | .renewSend => true
  | .renewReceive _ _ => true
  | .renewAck _ => true
  | .renewalMissed => true
  | .leaseExpireLead => true
  | .streamAckTimeout => true
  | .leaseExpireMirror => true
  | .guardElapsed => true
  | .fenceTimeout _ => true
  | .takeoverComplete _ => true
  | .segmentEmbargoEnd => true
  | .streamPacket _ _ => true
  | .streamAck _ _ => true
  | .mirrorLinkUp _ _ _ => true
  | .mirrorLinkRetrain _ => true
  | .partnerLeave => true
  | .resyncComplete => true
  | .resyncLost => true
  | .copyStart r _ => r.wf
  | .copyAbort r => r.wf
  | .copyRingBase r _ => r.wf
  | .copyRingHead r _ => r.wf
  | .copyDescriptorFetched chan _ => below 16 chan
  | .copyBurstComplete chan _ _ => below 16 chan
  | .copyStagingGranted chan => below 16 chan
  | .txWord r _ => r.wf
  | .txDoorbell r _ => r.wf
  | .rxPop r _ => r.wf
  | .rxDoorbellClear r _ => r.wf
  | .firmwareTakeWord f => f.wf
  | .firmwarePostWord f _ => f.wf
  | .faultOnset source _ => below 640 source
  | .faultLiveEnd source => below 640 source
  | .faultClear who source _ => who.wf && below 640 source
  | .faultClearAll who => who.wf
  | .firstFaultClear who => who.wf
  | .faultInjectPulse who source _ _ _ => who.wf && below 640 source
  | .faultInjectHold who source _ _ _ => who.wf && below 640 source
  | .faultInjectRelease who source => who.wf && below 640 source
  | .blackBoxWrite => true
  | .bboxErase who _ => who.wf
  | .lastGaspTest _ => true
  | .dictSlotGet slot => below 8 slot
  | .dictSlotSet slot => below 8 slot
  | .mailboxDictGet f => f.wf
  | .mailboxDictSet f => f.wf
  | .take who => who.wf
  | .renew who => who.wf
  | .claimRelease who => who.wf
  | .force who => who.wf
  | .claimExpire => true
  | .settingsStore who _ => who.wf
  | .settingsStoreComplete _ => true
  | .factoryReset who _ => who.wf
  | .get m targets => below 4 m.keySlot && targets.all targetWf
  | .discoveryGet _ _ port targets => below 16 port && targets.all targetWf
  | .set m index sub _ => below 4 m.keySlot && targetWf (index, sub)
  | .store m => below 4 m.keySlot
  | .claim m _ => below 4 m.keySlot
  | .subscribe m _ _ _ _ => below 4 m.keySlot
  | .subscriptionExpire index => below 4 index
  | .fileRead m _ _ _ => below 4 m.keySlot
  | .fileWrite m _ _ _ => below 4 m.keySlot
  | .fileCommit m _ _ => below 4 m.keySlot
  | .neighbourDiscovery _ => true
  | .icmpv6Echo _ _ _ => true
  | .sync _ _ _ _ => true
  | .followUp _ _ => true
  | .delayReq _ => true
  | .delayResp _ _ => true
  | .announce _ _ _ => true
  | .announceTimeout => true
  | .vfEnableSet port _ => below 16 port
  | .mirrorLinkDown => true
  | .notReadyRetry _ => true
  | .cstsRdyFall member => below 2048 member
  | .feCommandDone chan => below 24 chan
  | .thermalTripWaitExpire => true
  | .eclipseParkDelayExpire => true
  | .firmwareRaiseDoorbell f _ => f.wf
  | .firmwareTakeDoorbell f _ => f.wf

end Sys2Proof
end

