-- ==== Sys2Proof/Safety.lean ====
section
/-!
DEFINITION. The words of the statements: a queue of well-formed commands, runs of several steps, an access the arbiter accepts, an admin
command about to start.
-/

namespace Sys2Proof.Machine

/-- Every command that waits is well-formed. -/
abbrev State.queueWf (s : State) : Prop := ∀ c ∈ s.pending, c.wf = true

/-- `n` steps, which all answer a next state; a fault or a refusal ends the run. -/
def runSteps : Nat → State → Host.Outcome State Fault Refusal
  | 0, s => .next s
  | n + 1, s =>
    match step s with
    | .next t => runSteps n t
    | .fault e => .fault e
    | .refused r => .refused r

/-- The commands of a list, each run by itself on the device. -/
def runList : List Instr → State → Host.Outcome State Fault Refusal
  | [], s => .next s
  | c :: r, s =>
    match exec c s with
    | .next t => runList r t
    | .fault e => .fault e
    | .refused r => .refused r

/-- A write of a whole object by a master passes every test of the arbiter that does not depend on the value (R430). -/
abbrev Dev.accepts (s : Dev) (who : Master) (fam inst : Nat) : Prop :=
  masterUp s who = true ∧ writeTest s who fam inst (famRow fam).length = 0

/-- The result of an accepted dictionary write is shown to its master. -/
def shown (who : Master) (s : Dev) : Dev := emit (.dict who 0 []) s

/-- This memory request arrives and is accepted (R58, Table 2.8). -/
abbrev Dev.reaches (s : Dev) (r : Req) : Prop := portServes s r.port = true ∧ requestAccepted s r = true

/-- The admin command `c` with this opcode is the next to start, and nothing holds it (R107, check 3 of Table 4.1). -/
abbrev Dev.adminNext (s : Dev) (op : Nat) (c : Ctx) : Prop :=
  s.adminHead = some c ∧ c.phase = .admitted ∧ eOpcode c.raw = op ∧ s.hostRuns = true ∧ checkMode s c.raw = none
    ∧ c.stopping = false

/-- The device with this command marked as started. -/
def Dev.starts (s : Dev) (c : Ctx) : Dev := s.modCtx c.id fun x => { x with phase := .started }

/-- The host command `c` with this opcode may start: admitted, not waiting, not stopped, check 5 of Table 4.1 passes again for a command
that reads or changes blocks, and deficit round robin serves it next (R140). -/
abbrev Dev.cmdNext (s : Dev) (id op : Nat) (c : Ctx) : Prop :=
  s.ctx? id = some c ∧ c.phase = .admitted ∧ c.waitOn = none ∧ c.stopping = false ∧ eOpcode c.raw = op ∧ s.hostRuns = true
    ∧ recheck s c = none ∧ (laneTurn c s).isSome = true

/-- The device once its lane has served the command. -/
def Dev.inTurn (s : Dev) (c : Ctx) : Dev := (laneTurn c s).getD s

/-- R230: the keys a command works with, as they are when it starts. -/
def Dev.keysNow (s : Dev) (c : Ctx) : List (BitVec 512) := (namedVolumes c.raw).filterMap fun v => (s.vol? v).bind (·.key)

/-- The command as started. -/
def Dev.startedCtx (s : Dev) (c : Ctx) : Ctx := { c with phase := .started, keys := (s.inTurn c).keysNow c }

/-- The device in which it is started. -/
def Dev.startsCmd (s : Dev) (c : Ctx) (id : Nat) : Dev :=
  (s.inTurn c).modCtx id fun x => { x with phase := .started, keys := (s.inTurn c).keysNow c }

/-- The volume an item of a beam belongs to. -/
def itemVolume (i : Item) : Nat := match i with | .block _ v .. => v | .delta v .. => v

/-- The dictionary object that a command writes: its master, family and instance. -/
def writeRow : Instr → Option (Master × Nat × Nat)
  | .modeRequestFocus who => some (who, Fam.deviceModeRequest, 0)
  | .modeRequestSolo who => some (who, Fam.deviceModeRequest, 0)
  | .softReset who _ => some (who, Fam.deviceSoftReset, 0)
  | .fabricPeakReset who => some (who, Fam.fabricPeakReset, 0)
  | .prismKat who => some (who, Fam.prismKat, 0)
  | .meterRingHead who _ => some (who, Fam.meterRingHead, 0)
  | .holdupAttest who => some (who, Fam.pcacheHoldupAttest, 0)
  | .svnCommit who _ => some (who, Fam.bootSvnCommit, 0)
  | .faultClear who n _ => some (who, Fam.faultStatus, n)
  | .faultClearAll who => some (who, Fam.faultClearAll, 0)
  | .firstFaultClear who => some (who, Fam.faultFirstClear, 0)
  | .faultInjectPulse who n _ _ _ => some (who, Fam.faultInject, n)
  | .faultInjectHold who n _ _ _ => some (who, Fam.faultInject, n)
  | .faultInjectRelease who n => some (who, Fam.faultInject, n)
  | .bboxErase who _ => some (who, Fam.bboxErase, 0)
  | .take who => some (who, Fam.claimRequest, 0)
  | .renew who => some (who, Fam.claimRequest, 0)
  | .claimRelease who => some (who, Fam.claimRequest, 0)
  | .force who => some (who, Fam.claimRequest, 0)
  | .settingsStore who _ => some (who, Fam.settingsStore, 0)
  | .factoryReset who _ => some (who, Fam.settingsFactoryReset, 0)
  | _ => none

/-- Rows that start a command of a host: an opcode of the admin queue or of a tenant queue. -/
def hostRow : Instr → Bool
  | .read _ | .write _ | .trim _ | .writeZeroes _ | .copy _ | .flush _ | .fence _ | .abort _ | .queryVolume _ | .queryDarkMap _
  | .volumeCreate | .volumeDelete | .volumeResize | .volumeSet | .keyLoad _ | .keyUnload | .arrayCreate _ | .arrayDelete
  | .arrayRebuildStart | .arrayRebuildPause | .arrayRebuildResume | .arrayReshapeStart _ | .arrayReshapePause | .arrayReshapeResume
  | .domain | .spare | .release | .fail | .vault | .firmwareDownload .. | .firmwareActivate | .pairStart .. | .pairDissolve
  | .queueCreateCq | .queueCreateSq | .queueDeleteSq | .queueDeleteCq | .tenantSet | .tenantDelete | .functionBind | .functionUnbind
  | .tenantIsolate | .tenantRelease | .meterRingSet | .meterRollover | .timeSet => true
  | _ => false

/-- Rows that a front-end carries out (R313 to R322). -/
def frontEndRow : Instr → Bool
  | .feDownstreamFrame .. | .feOwnerLossDetect _ | .feHeadRetract _ | .feEpochForget _ | .feSpindleStop _ | .feWriteEnd ..
  | .feCommandDone _ | .nop .. | .readReg .. | .writeReg .. | .setClock .. | .setRead .. | .setPrecomp .. | .selectHead ..
  | .startWrite .. | .endWrite .. | .spindle .. | .load .. | .park .. | .setShock .. => true
  | _ => false

/-- What a front-end always satisfies: a write has its tag, a settling clock its tag, an owner its epoch, and every register its
range (Table 11.5). -/
structure FrontEnd.Legal (x : FrontEnd) : Prop where
  write  : x.gate = x.writeTag.isSome
  settle : x.settling = x.clockTag.isSome
  owner  : x.ownerLink.isSome = x.eMax.isSome
  link   : ∀ l, x.ownerLink = some l → l < 2
  epoch  : ∀ e, x.eMax = some e → e < 65536
  clock  : x.clockKhz = 0 ∨ (600000 ≤ x.clockKhz ∧ x.clockKhz ≤ 3600000)
  shifts : x.precomp.1 ≤ 31 ∧ x.precomp.2.1 ≤ 31 ∧ x.precomp.2.2 ≤ 31
  head   : x.head < 32
  bytes  : x.gain < 256 ∧ x.boost < 256 ∧ x.offset < 256 ∧ x.shock < 256 ∧ x.accel < 256
  words  : x.rpm < 65536 ∧ x.startCount < 2 ^ 44

/-- A Falfer request of this type and payload is accepted (R445). -/
abbrev Dev.heard (s : Dev) (m : FalferMsg) (type : Nat) (payload : List Byte) : Prop :=
  sbReady s = true ∧ genuine s m type payload = true ∧ seqFresh s m = true

/-- The device with the sequence of an accepted request noted. -/
def Dev.noted (s : Dev) (m : FalferMsg) : Dev := { s with sb := { s.sb with seqIn := tset s.sb.seqIn m.keySlot m.seq 0 } }

/-- `n` microseconds without a command. -/
def idleFor : Nat → Dev → Dev
  | 0, s => s
  | n + 1, s => idleFor n (tick s)

end Sys2Proof.Machine
end

