-- ==== Sys2Proof/Certificates/Slice0/Obligations.lean ====
section
/-!
DEFINITION. The statements about the model, for the provers.
-/

open Sys2Proof Sys2Proof.Machine

/-- POR_N_ASSERT leaves no mode, POR_N low, CORE_PWR_EN low, device time 0, no source latched, no first fault, the write claim free,
no subscription. POR_N_RELEASE samples the straps (no effect while POR_N is high), Periscope loads the settings and signals 0x253.
CORE_RST_N_ASSERT and CORE_POWER_LOSS make the device DARK, assert MP_PERST_N and leave no transition, queue, function, copy channel
or member command. CORE_RST_N_RELEASE starts the core in boot stage 2 and only raises the level while CORE_PWR_EN is low.
THERMAL_TRIP waits for a dump, starts one, or trips; THERMAL_TRIP_WAIT_EXPIRE trips; THERMAL_RESTART lets verification begin.
SUPPLY_COLLAPSE counts, writes its record and leaves Periscope in reset; COLLAPSE_RESTART is a POR_N release. The commands whose own
effect it gives as the next state that exec answers, under conditions on the state and the operands alone: porNAssert, porNRelease,
coreRstNAssert, corePowerLoss, coreRstNRelease, thermalTrip, thermalTripWaitExpire, thermalRestart, supplyCollapse, collapseRestart. -/
def Obligations.ResetPinsAndTripEnterDark : Prop :=
  (∀ s, ∃ d : Dev, exec .porNAssert s = .next { s with dev := d } ∧ (d.pw.mode = none ∧ d.pw.porHigh = false ∧ d.pw.corePwrEn = false ∧ d.tm = TimeState.zero ∧ d.fh.src = [] ∧ d.fh.first = none
      ∧ d.fh.queue = [] ∧ d.mt = Meter.off ∧ d.dc.holder = 0 ∧ d.sb.subs = [] ∧ d.out.getLast? = some (.pin "CORE_PWR_EN" false)))
  ∧ (∀ s m p, s.dev.pw.porHigh = true → exec (.porNRelease m p) s = .next s)
  ∧ (∀ s m p, s.dev.pw.porHigh = false → ∃ d : Dev, exec (.porNRelease m p) s = .next { s with dev := raise 0x253 0 false (loadSettings d) }
      ∧ d.pw.mode = some .dark ∧ d.pw.porHigh = true ∧ d.pw.bootMode = m % 4 ∧ d.pw.pairId = p ∧ d.val Fam.bootStage = 1
      ∧ d.val Fam.bootStraps = m % 4 + 4 * b2n p)
  ∧ (∀ s, exec .coreRstNAssert s = .next { s with dev := coreStops { s.dev with pw := { s.dev.pw with coreRstHigh := false } } }
      ∧ exec .corePowerLoss s = .next { s with dev := coreStops { s.dev with pw := { s.dev.pw with coreRstHigh := false } } })
  ∧ (∀ s c, c = .coreRstNAssert ∨ c = .corePowerLoss → corePowered s.dev = true → s.dev.pw.mode.isSome = true → ∃ d : Dev, exec c s = .next { s with dev := d } ∧ (d.pw.coreRstHigh = false ∧ d.pw.mpPerstLow = true ∧ d.pw.trans = none ∧ d.pw.coreStarting = false ∧ d.cm = Commands.empty
        ∧ d.fns = [] ∧ d.chans = [] ∧ d.staging = none ∧ d.mb.cmds = [] ∧ d.mb.jobs = [] ∧ d.val Fam.bootStage = 1
        ∧ d.pw.mode = some .dark ∧ d.out.getLast? = some (.pin "MP_PERST_N" false)))
  ∧ (∀ s, s.dev.pw.corePwrEn = false → exec .coreRstNRelease s = .next { s with dev := { s.dev with pw := { s.dev.pw with coreRstHigh := true } } })
  ∧ (∀ s, s.dev.periscope = true → s.dev.pw.corePwrEn = true → s.dev.inMode .dark = true → s.dev.val Fam.bootStage = 2 →
      s.dev.pw.coreStarting = false → exec .coreRstNRelease s = .next { s with dev := ({ s.dev with pw := { s.dev.pw with coreRstHigh := true, coreStarting := true } }).setVal Fam.bootStage 0 3 })
  ∧ (∀ s, s.dev.periscope = true → s.dev.pw.tripped = false →
      (s.dev.val Fam.pcacheDumpState = 1 ∨ s.dev.val Fam.pcacheDumpState = 2) →
      exec .thermalTrip s = .next { s with dev := { s.dev with pw := { s.dev.pw with tripPending := true } } })
  ∧ (∀ s, s.dev.periscope = true → s.dev.pw.tripped = false → s.dev.val Fam.pcacheDumpState = 0 → corePowered s.dev = true →
      s.dev.pw.ddrReady = true → windowHolds s.dev = true → s.dev.pc.image = none → ∃ d : Dev, exec .thermalTrip s = .next { s with dev := d } ∧ (d.pw = { s.dev.pw with tripPending := true } ∧ d.pc.quiet = true ∧ d.val Fam.pcacheDumpState = 1))
  ∧ (∀ s, s.dev.periscope = true → s.dev.pw.tripped = false → s.dev.val Fam.pcacheDumpState ≠ 1 →
      s.dev.val Fam.pcacheDumpState ≠ 2 →
      ¬ (corePowered s.dev = true ∧ s.dev.pw.ddrReady = true ∧ windowHolds s.dev = true ∧ s.dev.val Fam.pcacheDumpState = 0
        ∧ s.dev.pc.image.isNone = true) → ∃ d : Dev, exec .thermalTrip s = .next { s with dev := d } ∧ (d = trip s.dev ∧ d.pw.corePwrEn = false ∧ d.pw.tripped = true))
  ∧ (∀ s, s.dev.pw.tripPending = true → ∃ d : Dev, exec .thermalTripWaitExpire s = .next { s with dev := d } ∧ (d.pw.corePwrEn = false ∧ d.pw.tripPending = false ∧ d.pw.tripped = true ∧ d.out.getLast? = some (.pin "CORE_PWR_EN" false)))
  ∧ (∀ s, s.dev.periscope = true → s.dev.pw.tripped = true →
      exec .thermalRestart s = .next { s with dev := { s.dev with pw := { s.dev.pw with tripped := false, triedSlots := [] } } })
  ∧ (∀ s, s.dev.periscope = true → s.dev.val Fam.powerCollapses + 1 < 2 ^ 32 → ∃ d : Dev, exec .supplyCollapse s = .next { s with dev := d } ∧ (d.val Fam.powerCollapses = s.dev.val Fam.powerCollapses + 1 ∧ d.fh.head = s.dev.fh.head + 1
      ∧ (tget d.fh.ring ((s.dev.fh.head + 1) % 65536) []).getD 16 0 = 0x03 ∧ d.pw.mode = none ∧ d.pw.porHigh = true ∧ d.pw.collapsed = true ∧ d.tm = TimeState.zero ∧ d.fh.queue = [] ∧ d.fh.src = []))
  ∧ (∀ s m p, s.dev.pw.porHigh = true → s.dev.pw.collapsed = true → ∃ d : Dev,
      exec (.collapseRestart m p) s = .next { s with dev := raise 0x253 0 false (loadSettings d) } ∧ d.pw.mode = some .dark ∧ d.pw.collapsed = false
        ∧ d.pw.bootMode = m % 4 ∧ d.pw.pairId = p ∧ d.val Fam.bootStage = 1)

/-- A slot that passes verification drives CORE_PWR_EN high, its version and svn run, boot.stage goes to 2 (3 where CORE_RST_N is
high already); a slot that fails latches 0x002 with the slot as detail, and where no slot is left to try CORE_PWR_EN is low with a
BOOT record. A passed self-test goes to stage 4, a failed block is raised as 0x000 or 0x001, failed engines by their own sources and,
where nothing else failed, as 0x000. Trained DDR goes to stage 5, releases MP_PERST_N and takes the core's settings; a bad population
is a self-test failure. ENUM_WAIT_EXPIRE assembles in stage 5 with the image that the two vault headers give; a header whose CRC
fails is none or a CRC failure. RECOVERY_COMPLETE closes out an array whose units are placed and whose pages are written, starts the
checkpoint where pages are due, and counts an OFFLINE array as finished. SB_PHY_RST_N is released and PLCA written by one MDIO write.
The commands whose own effect it gives as the next state that exec answers, under conditions on the state and the operands alone:
imageVerifyComplete, selfTestComplete, ddrTrained, enumWaitExpire, recoveryComplete, sbPhyResetRelease, plcaConfig. -/
def Obligations.BootAdvancesStageByStage : Prop :=
  (∀ s slot i, s.dev.periscope = true → s.dev.inMode .dark = true → s.dev.val Fam.bootStage = 1 → s.dev.pw.coreStarting = false →
      s.dev.pw.tripped = false → s.dev.pw.corePwrEn = false → nextSlot s.dev = some slot → imageValid s.dev i = true →
      (s.dev.imageSlot slot).st ≠ 1 → ∃ d : Dev, exec (.imageVerifyComplete slot (some i)) s = .next { s with dev := d } ∧ (d.pw.corePwrEn = true ∧ d.fw.version = i.fwVersion ∧ d.fw.svn = i.svn ∧ d.val Fam.bootBootedSlot = slot
          ∧ d.val Fam.bootStage = (if s.dev.pw.coreRstHigh then 3 else 2) ∧ d.pw.coreStarting = s.dev.pw.coreRstHigh))
  ∧ (∀ s slot img, s.dev.periscope = true → s.dev.inMode .dark = true → s.dev.val Fam.bootStage = 1 → s.dev.pw.coreStarting = false →
      s.dev.pw.tripped = false → s.dev.pw.corePwrEn = false → nextSlot s.dev = some slot →
      (∀ i, img = some i → imageValid s.dev i = false) → ∃ d : Dev, exec (.imageVerifyComplete slot img) s = .next { s with dev := d } ∧ (d = imageFails slot img s.dev ∧ (d.src 0x002).latched = true ∧ (d.src 0x002).detail = slot % 2 ^ 32
          ∧ d.pw.triedSlots = s.dev.pw.triedSlots ++ [slot]
          ∧ (nextSlot d = none → d.pw.corePwrEn = false ∧ d.fh.queue.getLast?.map (·.kind) = some 0x0A)))
  ∧ (∀ s, s.dev.pw.coreStarting = true → s.dev.val Fam.bootStage = 3 → ∃ d : Dev, exec (.selfTestComplete none 0) s = .next { s with dev := d } ∧ (d.pw = { s.dev.pw with selfTested := true } ∧ d.val Fam.bootStage = 4))
  ∧ (∀ s cal block k, s.dev.pw.coreStarting = true → s.dev.val Fam.bootStage = 3 → ∃ d : Dev,
      exec (.selfTestComplete (some (cal, block)) k) s = .next { s with dev := katFaults k (raise (if cal then 0x001 else 0x000) block false d) }
        ∧ d.val Fam.prismKatResult = k.toNat)
  ∧ (∀ s k, s.dev.pw.coreStarting = true → s.dev.val Fam.bootStage = 3 → k ≠ 0 → ∃ (d : Dev) (b : Nat),
      exec (.selfTestComplete none k) s = .next { s with dev := (katFaults k (raise 0x000 b false d)).draw } ∧ d.val Fam.prismKatResult = k.toNat)
  ∧ (∀ s gib two lr rate, s.dev.pw.coreStarting = true → s.dev.val Fam.bootStage = 4 → gib = 16 ∨ gib = 32 ∨ gib = 64 →
      rate ≤ (if two then 2933 else 3200) →
      ∃ d : Dev, exec (.ddrTrained (some (gib, two, lr, rate))) s = .next { s with dev := d } ∧ (d.pw = { s.dev.pw with ddrReady := true, mpPerstLow := false }
        ∧ (∀ t, (d.ten t).blocksWritten = (s.dev.ten t).blocksWritten) ∧ d.val Fam.ddrCapacityGib = 12 * gib * (if two then 2 else 1)
        ∧ d.val Fam.ddrConfig = gib + 256 * b2n two + 512 * b2n lr + 65536 * (rate / 100)
        ∧ d.val Fam.bootStage = 5 ∧ d.out = s.dev.out ++ [.pin "MP_PERST_N" true]))
  ∧ (∀ s, s.dev.pw.coreStarting = true → s.dev.val Fam.bootStage = 4 → exec (.ddrTrained none) s = .next { s with dev := raise 0x000 0 false s.dev })
  ∧ (∀ s h0 h1 lead, s.dev.pw.coreStarting = true → s.dev.val Fam.bootStage = 5 → ∃ d : Dev,
      d = noteImageSeq h1 (noteImageSeq h0 s.dev) ∧ exec (.enumWaitExpire h0 h1 lead) s = .next { s with dev := assemble (judgeImage s.dev lead h0 h1).1 (judgeImage s.dev lead h0 h1).2 (fieldAt h0.bytes 0x20 4) 2 d })
  ∧ (∀ (d : Dev) lead h, (crc32c (h.bytes.take 0xFFC)).toNat ≠ fieldAt h.bytes 0xFFC 4 → headState d lead h = 0 ∨ headState d lead h = 4)
  ∧ (∀ s a x, s.dev.arr? a = some x → x.offline = 0 → x.recovery.isSome = true → x.recovered = true → s.dev.executing = true →
      (pagesDue s.dev a = false → exec (.recoveryComplete a) s = .next { s with dev := recoveryEnds a (closeOut a s.dev) })
      ∧ (pagesDue s.dev a = true → exec (.recoveryComplete a) s = .next { s with dev := startCheckpoint s.dev }))
  ∧ (∀ s a x, s.dev.arr? a = some x → x.offline ≠ 0 → s.dev.inMode .focus = true →
      exec (.recoveryComplete a) s = .next { s with dev := recoveryEnds a s.dev })
  ∧ (∀ a (d : Dev), d.pc.image = none →
      recoveryEnds a d = settle { d with pw := { d.pw with recovering := d.pw.recovering.filter (· != a) } })
  ∧ (∀ s, s.dev.periscope = true → exec .sbPhyResetRelease s = .next { s with dev := { s.dev with
      pw := { s.dev.pw with sbPhyRstHigh := true }, out := s.dev.out ++ [.pin "SB_PHY_RST_N" true] } })
  ∧ (∀ s, s.dev.periscope = true → s.dev.pw.sbPhyRstHigh = true → exec .plcaConfig s = .next { s with dev := { s.dev with out := s.dev.out ++
      [.mdio (s.dev.val Fam.sbPhyPlcaReg) (256 * s.dev.val Fam.sbPlcaCount + s.dev.val Fam.sbPlcaNode)] } })

/-- An accepted MODE_REQUEST_FOCUS is refused with reason 2 during a transition, 3 in ECLIPSE with a severity-4 source latched, 1
from DARK, FOCUS or MIRROR; from SOLO or LEAD it clears the reason, starts the drain and forces the open beams closed; in ECLIPSE it
starts the destage, but while a dump runs it is refused with reason 5 (the model's choice, log entry 82). MODE_REQUEST_SOLO gives
reason 2, 1, 4 or 5, or enters SOLO (which reason of several is the model's choice, log entry 75). FOCUS_DRAIN_COMPLETE,
ECLIPSE_DESTAGE_COMPLETE end their transitions; ECLIPSE_DESTAGE_COMPLETE does nothing while a unit or beam is left;
ECLIPSE_DESTAGE_FAILED shows reason 5 and stays, and in a soft reset leaves with the data kept. SOFT_RESET takes 0x5EF7 alone;
SOFT_RESET_COMPLETE goes to FOCUS, from ECLIPSE by way of the destage, and shows reason 3 with a severity-4 source latched, 5 while a
dump runs. ECLIPSE_PARK_DELAY_EXPIRE parks the channels still owned. The commands whose own effect it gives as the next state that
exec answers, under conditions on the state and the operands alone: modeRequestFocus, modeRequestSolo, focusDrainComplete,
eclipseDestageComplete, eclipseDestageFailed, eclipseParkDelayExpire, softReset, softResetComplete. -/
def Obligations.ModeRequestsFollowTheTransitionTable : Prop :=
  (∀ s who, s.dev.accepts who Fam.deviceModeRequest 0 → s.dev.transiting = true →
      exec (.modeRequestFocus who) s = .next { s with dev := shown who (s.dev.setVal Fam.deviceModeRefusal 0 2) })
  ∧ (∀ s who, s.dev.accepts who Fam.deviceModeRequest 0 → s.dev.transiting = false → s.dev.inMode .eclipse = true →
      s.dev.noSev4 = false → exec (.modeRequestFocus who) s = .next { s with dev := shown who (s.dev.setVal Fam.deviceModeRefusal 0 3) })
  ∧ (∀ s who, s.dev.accepts who Fam.deviceModeRequest 0 → s.dev.transiting = false → s.dev.inMode .eclipse = true →
      s.dev.noSev4 = true → s.dev.dumping = false →
      exec (.modeRequestFocus who) s = .next { s with dev := shown who (beginDestage false (s.dev.setVal Fam.deviceModeRefusal 0 0)) })
  ∧ (∀ s who, s.dev.accepts who Fam.deviceModeRequest 0 → s.dev.transiting = false → s.dev.inMode .eclipse = true →
      s.dev.noSev4 = true → s.dev.dumping = true → exec (.modeRequestFocus who) s = .next { s with dev := shown who (s.dev.setVal Fam.deviceModeRefusal 0 5) })
  ∧ (∀ s who, s.dev.accepts who Fam.deviceModeRequest 0 → s.dev.transiting = false → s.dev.serving = true →
      exec (.modeRequestFocus who) s = .next { s with dev := (shown who ((tkeys s.dev.arrays).foldl (fun d a => forceClose a (fun b => !b.internal) d)
        ((s.dev.setVal Fam.deviceModeRefusal 0 0).setTrans (some .focusDrain)))) })
  ∧ (∀ s who, s.dev.accepts who Fam.deviceModeRequest 0 → s.dev.transiting = false →
      (s.dev.inMode .dark = true ∨ s.dev.inMode .focus = true ∨ s.dev.inMode .mirror = true) →
      exec (.modeRequestFocus who) s = .next { s with dev := shown who (s.dev.setVal Fam.deviceModeRefusal 0 1) })
  ∧ (∀ s who, s.dev.accepts who Fam.deviceModeRequest 0 → s.dev.transiting = true →
      exec (.modeRequestSolo who) s = .next { s with dev := shown who (s.dev.setVal Fam.deviceModeRefusal 0 2) })
  ∧ (∀ s who, s.dev.accepts who Fam.deviceModeRequest 0 → s.dev.transiting = false → s.dev.inMode .focus = false →
      exec (.modeRequestSolo who) s = .next { s with dev := shown who (s.dev.setVal Fam.deviceModeRefusal 0 1) })
  ∧ (∀ s who, s.dev.accepts who Fam.deviceModeRequest 0 → s.dev.transiting = false → s.dev.inMode .focus = true →
      s.dev.flag Fam.pairEnable = true → exec (.modeRequestSolo who) s = .next { s with dev := shown who (s.dev.setVal Fam.deviceModeRefusal 0 4) })
  ∧ (∀ s who, s.dev.accepts who Fam.deviceModeRequest 0 → s.dev.transiting = false → s.dev.inMode .focus = true →
      s.dev.flag Fam.pairEnable = false → s.dev.pw.recovering ≠ [] →
      exec (.modeRequestSolo who) s = .next { s with dev := shown who (s.dev.setVal Fam.deviceModeRefusal 0 5) })
  ∧ (∀ s who, s.dev.accepts who Fam.deviceModeRequest 0 → s.dev.transiting = false → s.dev.inMode .focus = true →
      s.dev.flag Fam.pairEnable = false → s.dev.pw.recovering = [] →
      exec (.modeRequestSolo who) s = .next { s with dev := shown who (settle (enterSolo 0 (s.dev.setVal Fam.deviceModeRefusal 0 0))) })
  ∧ (∀ s, s.dev.pw.trans = some .focusDrain → s.dev.cm.ctxs = [] → (∀ e ∈ s.dev.arrays, e.2.beams = []) →
      exec .focusDrainComplete s = .next { s with dev := focusEntry (changeMode .focus 0 0xFFFF 0xFF (standDown (flushTables (s.dev.setTrans none)))) })
  ∧ (∀ s soft, s.dev.inMode .eclipse = true → s.dev.pw.trans = some (.eclipseDestage soft) →
      (∀ e ∈ s.dev.arrays, e.2.beams = [] ∧ e.2.keptUnits = []) →
      exec .eclipseDestageComplete s = .next { s with dev := leaveEclipse (if soft then 6 else 0) true s.dev })
  ∧ (∀ s soft, s.dev.inMode .eclipse = true → s.dev.pw.trans = some (.eclipseDestage soft) → s.dev.val Fam.bootStage = 0 →
      (∃ e ∈ s.dev.arrays, e.2.beams ≠ [] ∨ e.2.keptUnits ≠ []) → exec .eclipseDestageComplete s = .next s)
  ∧ (∀ s, s.dev.pw.trans = some (.eclipseDestage true) → s.dev.inMode .eclipse = true →
      exec .eclipseDestageFailed s = .next { s with dev := leaveEclipse 6 false (abandonAll s.dev) })
  ∧ (∀ s, s.dev.pw.trans = some (.eclipseDestage false) → s.dev.inMode .eclipse = true → ∃ d : Dev, d.pw.trans = none ∧ d.pw.mode = some .eclipse ∧
      d = abandonAll ((s.dev.setVal Fam.deviceModeRefusal 0 5).setTrans none) ∧
      exec .eclipseDestageFailed s = .next { s with dev := d.lensUp.foldl (fun e n => lensPark n (lensShutter n e)) d })
  ∧ (∀ s, s.dev.pw.parkPending = true → ∃ d : Dev, d = { s.dev with pw := { s.dev.pw with parkPending := false } } ∧
      exec .eclipseParkDelayExpire s = .next { s with dev := (d.lensUp.filter fun n => (d.lens n).owner).foldl (fun e n => lensPark n e) d })
  ∧ (∀ s who v, s.dev.accepts who Fam.deviceSoftReset 0 → v ≠ 0x5EF7 → exec (.softReset who v) s = .next { s with dev := emit (.dict who rUnavailable []) (refuseWrite s.dev) })
  ∧ (∀ s who m, s.dev.accepts who Fam.deviceSoftReset 0 → s.dev.softResetting = false → s.dev.pw.mode = some m →
      s.dev.fw.activating = none → exec (.softReset who 0x5EF7) s = .next { s with dev := shown who (s.dev.setTrans (some (.softReset m))) })
  ∧ (∀ s m, s.dev.pw.trans = some (.softReset m) → s.dev.inMode .eclipse = true → s.dev.noSev4 = false →
      exec .softResetComplete s = .next { s with dev := (s.dev.setTrans none).setVal Fam.deviceModeRefusal 0 3 })
  ∧ (∀ s m, s.dev.pw.trans = some (.softReset m) → s.dev.inMode .eclipse = false → m ≠ .focus → ∃ d : Dev,
      d = performHeldOps (abortCommands (standDown (s.dev.setTrans none))) ∧
      exec .softResetComplete s = .next { s with dev := (focusEntry (changeMode .focus 6 0xFFFF 0xFF
        ((tkeys d.arrays).foldl (fun e a => forceClose a (fun b => !b.internal) e) d))) })
  ∧ (∀ s, s.dev.pw.trans = some (.softReset .focus) → s.dev.inMode .eclipse = false → ∃ d : Dev,
      d = performHeldOps (abortCommands (standDown (s.dev.setTrans none))) ∧
      exec .softResetComplete s = .next { s with dev := recoveryRestart ((tkeys d.arrays).foldl (fun e a => forceClose a (fun b => !b.internal) e) d) })
  ∧ (∀ s m, s.dev.pw.trans = some (.softReset m) → s.dev.inMode .eclipse = true → s.dev.noSev4 = true → s.dev.dumping = false →
      ∃ d : Dev, d = beginDestage true (s.dev.setTrans none) ∧
      exec .softResetComplete s = .next { s with dev := if destageEnded d then leaveEclipse 6 true d else d })
  ∧ (∀ s m, s.dev.pw.trans = some (.softReset m) → s.dev.inMode .eclipse = true → s.dev.noSev4 = true → s.dev.dumping = true →
      exec .softResetComplete s = .next { s with dev := (s.dev.setTrans none).setVal Fam.deviceModeRefusal 0 5 })

/-- SAG_SENSOR_BELOW with admission at 100 percent counts one cut, gives 50 percent and makes source 0x004 + i signal; SAG_DEEP_CUT
counts and gives 25; SAG_RECOVERY_STEP rises one step, 25 to 50 or 50 to 100. THERMAL_THRESHOLD above alert drives THERM_ALERT_N low,
above the limit caps thermal admission at 50 and 5 degrees above it at 25 with source 0x014, at shutdown signals 0x015;
THERMAL_ACTION_END undoes each once 3 degrees below. pacer.admission_pct is the lower of the two percentages. The stage time
saturates at 65535, keeps its peak, and the peak reset takes the present value. The commands whose own effect it gives as the next
state that exec answers, under conditions on the state and the operands alone: sagSensorBelow, sagDeepCut, sagRecoveryStep,
thermalThreshold, thermalActionEnd, fabricPeakReset, stageTimeRefresh. -/
def Obligations.PacerTakesTheLowerAdmission : Prop :=
  (∀ s i, i < 16 → corePowered s.dev = true → s.dev.pw.sagBelow.contains i = false → s.dev.pw.sagPct = 100 → ∃ d : Dev,
      exec (.sagSensorBelow i) s = .next { s with dev := raise (0x004 + i) i false d } ∧ d.pw.sagPct = 50 ∧ d.pw.sagBelow = s.dev.pw.sagBelow ++ [i]
        ∧ d.val Fam.pacerAdmissionPct = min 50 s.dev.pw.thermPct)
  ∧ (∀ s i, i < 16 → corePowered s.dev = true → s.dev.pw.sagBelow.contains i = false → s.dev.pw.sagPct ≠ 100 →
      exec (.sagSensorBelow i) s = .next { s with dev := (raise (0x004 + i) i false
        { s.dev with pw := { s.dev.pw with sagBelow := s.dev.pw.sagBelow ++ [i] } }) })
  ∧ (∀ s i, s.dev.pw.sagBelow.contains i = true → s.dev.pw.sagPct = 50 → s.dev.val Fam.pacerDeepEvents + 1 < 2 ^ 32 →
      ∃ d : Dev, exec (.sagDeepCut i) s = .next { s with dev := d } ∧ (d.pw = { s.dev.pw with sagPct := 25 } ∧ d.val Fam.pacerAdmissionPct = min 25 s.dev.pw.thermPct
        ∧ d.val Fam.pacerDeepEvents = s.dev.val Fam.pacerDeepEvents + 1))
  ∧ (∀ s, corePowered s.dev = true → s.dev.pw.sagPct < 100 → ∃ d : Dev, exec .sagRecoveryStep s = .next { s with dev := d } ∧ (d.pw.sagBelow = []
      ∧ d.pw.sagPct = (if s.dev.pw.sagPct = 25 then 50 else 100) ∧ d.val Fam.pacerAdmissionPct = min d.pw.sagPct s.dev.pw.thermPct))
  ∧ (∀ s tj k, corePowered s.dev = true → (s.dev.val Fam.thermalAlertC : Int) < tj →
      exec (.thermalThreshold .alert tj k) s = .next { s with dev := thermAlert true (showTj tj s.dev) })
  ∧ (∀ s tj k, corePowered s.dev = true → (s.dev.val Fam.thermalLimitC : Int) < tj → ∃ d : Dev,
      exec (.thermalThreshold .limit tj k) s = .next { s with dev := raise 0x014 k false d } ∧ d.pw = { s.dev.pw with thermPct := min s.dev.pw.thermPct 50 }
        ∧ d.val Fam.pacerAdmissionPct = min s.dev.pw.sagPct (min s.dev.pw.thermPct 50))
  ∧ (∀ s tj k, corePowered s.dev = true → (s.dev.val Fam.thermalLimitC : Int) + 5 < tj → ∃ d : Dev,
      exec (.thermalThreshold .limitPlus5 tj k) s = .next { s with dev := raise 0x014 k false d } ∧ d.pw = { s.dev.pw with thermPct := 25 }
        ∧ d.val Fam.pacerAdmissionPct = min s.dev.pw.sagPct 25)
  ∧ (∀ s tj k, corePowered s.dev = true → (s.dev.val Fam.thermalShutdownC : Int) ≤ tj →
      exec (.thermalThreshold .shutdown tj k) s = .next { s with dev := raise 0x015 k false (showTj tj s.dev) })
  ∧ (∀ s tj, corePowered s.dev = true → tj + 3 ≤ (s.dev.val Fam.thermalAlertC : Int) →
      exec (.thermalActionEnd .alert tj) s = .next { s with dev := thermAlert false (showTj tj s.dev) })
  ∧ (∀ s tj, corePowered s.dev = true → tj + 3 ≤ (s.dev.val Fam.thermalLimitC : Int) → ∃ d : Dev,
      exec (.thermalActionEnd .limit tj) s = .next { s with dev := hubFall 0x014 d } ∧ d.pw = { s.dev.pw with thermPct := 100 }
        ∧ d.val Fam.pacerAdmissionPct = min s.dev.pw.sagPct 100)
  ∧ (∀ s tj, corePowered s.dev = true → tj + 3 ≤ (s.dev.val Fam.thermalShutdownC : Int) →
      exec (.thermalActionEnd .shutdown tj) s = .next { s with dev := hubFall 0x015 (showTj tj s.dev) })
  ∧ (∀ s who, s.dev.accepts who Fam.fabricPeakReset 0 → exec (.fabricPeakReset who) s = .next { s with dev := shown who (s.dev.setVal Fam.fabricStagePsPeak 0 (s.dev.val Fam.fabricStagePs)) })
  ∧ (∀ s ps, corePowered s.dev = true → ∃ d : Dev, exec (.stageTimeRefresh ps) s = .next { s with dev := d } ∧ (d.val Fam.fabricStagePs = min ps 65535
      ∧ d.val Fam.fabricStagePsPeak = max (min ps 65535) (s.dev.val Fam.fabricStagePsPeak)
      ∧ d = { s.dev with vals := d.vals }))

/-- A real onset of an existing source is raised with its detail. The end of a signal makes live fall unless a hold stands, and
leaves latched. A clear of a source that is not live clears latched, real, injected and latched_sev; of one that is live it sets
clear_denied, counts, and clears nothing. fault.clear_all visits every source raised. fault.first_clear empties the register unless
its source is latched (then refused). An injection takes the least of its severity and fault.inject_max; a pulse leaves a hold
standing; released, a held injection ends. The commands whose own effect it gives as the next state that exec answers, under
conditions on the state and the operands alone: faultOnset, faultLiveEnd, faultClear, faultClearAll, firstFaultClear,
faultInjectPulse, faultInjectHold, faultInjectRelease. -/
def Obligations.FaultHubCommandsAct : Prop :=
  (∀ s n w, n < 0x280 → srcReserved n = false → exec (.faultOnset n w) s = .next { s with dev := settle (raise n w.toNat false s.dev) })
  ∧ (∀ s n, n < 0x280 → s.dev.periscope = true → (s.dev.src n).injLive ≤ 1 → ∃ d : Dev, exec (.faultLiveEnd n) s = .next { s with dev := d } ∧ ((d.src n).live = false ∧ (d.src n).latched = (s.dev.src n).latched ∧ (d.src n).latchedSev = (s.dev.src n).latchedSev
        ∧ (d.src n).count = (s.dev.src n).count ∧ ∀ k, k ≠ n → d.src k = s.dev.src k))
  ∧ (∀ s who n, s.dev.accepts who Fam.faultStatus n → (s.dev.src n).live = false → ∃ d : Dev, exec (.faultClear who n 2) s = .next { s with dev := d } ∧ ((d.src n).latched = false ∧ (d.src n).realOnset = false ∧ (d.src n).injectedOnset = false ∧ (d.src n).latchedSev = 0
        ∧ (d.src n).count = (s.dev.src n).count ∧ (d.src n).onset = (s.dev.src n).onset))
  ∧ (∀ s who n, s.dev.accepts who Fam.faultStatus n → (s.dev.src n).live = true →
      s.dev.val Fam.faultClearRefused + 1 < 2 ^ 32 → ∃ d : Dev, exec (.faultClear who n 2) s = .next { s with dev := d } ∧ (d.src n = { s.dev.src n with clearDenied := true }
        ∧ d.val Fam.faultClearRefused = s.dev.val Fam.faultClearRefused + 1 ∧ ∀ k, k ≠ n → d.src k = s.dev.src k))
  ∧ (∀ s who n, s.dev.accepts who Fam.faultStatus n → exec (.faultClear who n 0x80) s = .next { s with dev := shown who (s.dev.setSrc n { s.dev.src n with clearDenied := false }) })
  ∧ (∀ s who, s.dev.accepts who Fam.faultClearAll 0 → exec (.faultClearAll who) s = .next { s with dev := shown who ((tkeys s.dev.fh.src).foldl (fun d n => clearLatched (clearMaster who) n d) s.dev) })
  ∧ (∀ s who, s.dev.accepts who Fam.faultFirstClear 0 → (∀ r, s.dev.fh.first = some r → (s.dev.src r.1).latched = false) →
      exec (.firstFaultClear who) s = .next { s with dev := shown who { s.dev with fh := { s.dev.fh with first := none } } })
  ∧ (∀ s who r, s.dev.accepts who Fam.faultFirstClear 0 → s.dev.fh.first = some r → (s.dev.src r.1).latched = true →
      exec (.firstFaultClear who) s = .next { s with dev := emit (.dict who rUnavailable []) (refuseWrite s.dev) })
  ∧ (∀ s who n sev w, s.dev.accepts who Fam.faultInject n → s.dev.flag Fam.faultInjectEnable = true → s.dev.canSignal n = true →
      (s.dev.src n).realLive = false → ∃ d e : Dev, d = s.dev.setSrc n { s.dev.src n with injLive := if (s.dev.src n).injLive = 2 then 2 else 1 }
        ∧ e = hubOnset n (BitVec.toNat w) false true (min (sev % 8) (s.dev.val Fam.faultInjectMax)) false d
        ∧ exec (.faultInjectPulse who n sev w false) s = .next { s with dev := shown who (settle (if 3 ≤ min (sev % 8) (s.dev.val Fam.faultInjectMax) then isolate n w.toNat e else e)) })
  ∧ (∀ s who n sev w, s.dev.accepts who Fam.faultInject n → s.dev.flag Fam.faultInjectEnable = true → s.dev.canSignal n = true →
      (s.dev.src n).realLive = true → ∃ d : Dev, exec (.faultInjectHold who n sev w false) s = .next { s with dev := d } ∧ ((d.src n).injLive = 2 ∧ (d.src n).injectedOnset = true ∧ (d.src n).latched = true
          ∧ (d.src n).latchedSev = (s.dev.src n).latchedSev ∧ d.pw = s.dev.pw))
  ∧ (∀ s who n sev w, s.dev.accepts who Fam.faultInject n → s.dev.flag Fam.faultInjectEnable = true → s.dev.canSignal n = true →
      (s.dev.src n).realLive = false → ∃ d e : Dev, d = s.dev.setSrc n { s.dev.src n with injLive := 2 }
        ∧ e = hubOnset n (BitVec.toNat w) false true (min (sev % 8) (s.dev.val Fam.faultInjectMax)) false d
        ∧ exec (.faultInjectHold who n sev w false) s = .next { s with dev := shown who (settle (if 3 ≤ min (sev % 8) (s.dev.val Fam.faultInjectMax) then isolate n w.toNat e else e)) })
  ∧ (∀ s who n, s.dev.accepts who Fam.faultInject n → injectRefusal n s.dev = 0 → (s.dev.src n).injLive = 2 →
      (s.dev.src n).realLive = false →
      exec (.faultInjectRelease who n) s = .next { s with dev := shown who (s.dev.setSrc n { s.dev.src n with injLive := 0, cleared := s.dev.tm.device }) })

/-- For every source, detail and severity: after a real onset the source is latched and live with its real bit set, its count is one
more up to the limit of 32 bits, its detail is the one given, its onset time is kept if it was latched already and else is device
time, its latched severity is the greater of the old one and the severity acted on, the first-fault register is filled if it was
empty and unchanged if not, and no other source changes. With severity 4 in FOCUS, SOLO, LEAD or MIRROR the device is in ECLIPSE
afterwards with the source shown. -/
def Obligations.OnsetLatchesCountsAndActs : Prop :=
  (∀ n detail sev own (d : Dev), let e := hubOnset n detail true false sev own d
    (e.src n).latched = true ∧ (e.src n).realLive = true ∧ (e.src n).realOnset = true
      ∧ (e.src n).count = min ((d.src n).count + 1) (max 0xFFFFFFFF (d.src n).count) ∧ (e.src n).detail = detail % 2 ^ 32
      ∧ (e.src n).onset = (if (d.src n).latched then (d.src n).onset else d.tm.device)
      ∧ (e.src n).latchedSev = max (d.src n).latchedSev (actionTaken n sev)
      ∧ (∀ k, k ≠ n → e.src k = d.src k)
      ∧ (∀ r, d.fh.first = some r → e.fh.first = some r) ∧ (d.fh.first = none → (e.fh.first.map (·.1)) = some n))
  ∧ (∀ n detail own (d : Dev), (d.inMode .focus = true ∨ d.inMode .solo = true ∨ d.inMode .lead = true ∨ d.inMode .mirror = true) →
      (hubOnset n detail true false 4 own d).pw.mode = some .eclipse
        ∧ (hubOnset n detail true false 4 own d).val Fam.deviceEclipseSource = n)

/-- BLACK_BOX_WRITE takes the oldest record that waits, gives it sequence head + 1 and writes its 64 bytes whole to slot (head + 1)
mod 65,536, leaving every other slot. An accepted erase with 0xE2A5 outside ECLIPSE leaves one record, sequence 1; any other value,
or ECLIPSE, refuses it and leaves the ring. LAST_GASP_TEST sets bbox.last_gasp_ok; a failure raises 0x01F and a pass ends it. The
commands whose own effect it gives as the next state that exec answers, under conditions on the state and the operands alone:
blackBoxWrite, bboxErase, lastGaspTest. -/
def Obligations.BlackBoxKeepsTheRing : Prop :=
  (∀ s r rest, s.dev.periscope = true → s.dev.fh.queue = r :: rest → ∃ d : Dev, exec .blackBoxWrite s = .next { s with dev := d } ∧ (d.fh.head = s.dev.fh.head + 1 ∧ d.fh.queue = rest ∧ (tget d.fh.ring ((s.dev.fh.head + 1) % 65536) []).length = 64
        ∧ (tget d.fh.ring ((s.dev.fh.head + 1) % 65536) []).take 16 = le 8 (s.dev.fh.head + 1) ++ le 8 r.time
        ∧ (∀ k, k ≠ (s.dev.fh.head + 1) % 65536 → tget d.fh.ring k [] = tget s.dev.fh.ring k [])
        ∧ d = { s.dev with fh := d.fh }))
  ∧ (∀ s who, s.dev.accepts who Fam.bboxErase 0 → s.dev.inMode .eclipse = false → ∃ d : Dev, exec (.bboxErase who 0xE2A5) s = .next { s with dev := d } ∧ (d.fh.head = 1 ∧ tkeys d.fh.ring = [1] ∧ (tget d.fh.ring 1 []).take 8 = le 8 1 ∧ d.fh.src = s.dev.fh.src))
  ∧ (∀ s who v, s.dev.accepts who Fam.bboxErase 0 → v ≠ 0xE2A5 ∨ s.dev.inMode .eclipse = true →
      exec (.bboxErase who v) s = .next { s with dev := emit (.dict who rUnavailable []) (refuseWrite s.dev) })
  ∧ (∀ s, s.dev.periscope = true → exec (.lastGaspTest true) s = .next { s with dev := hubFall 0x01F (s.dev.setVal Fam.bboxLastGaspOk 0 1) }
      ∧ exec (.lastGaspTest false) s = .next { s with dev := raise 0x01F 0 false (s.dev.setVal Fam.bboxLastGaspOk 0 0) })

/-- A good piece at offset 0 erases the slot for the admin writer, is noted, and completes OK; a final piece is followed by
verification, OK where it passes and INVALID_FIELD 0x10 where it fails. The writer's expiry frees the slot. FIRMWARE_ACTIVATE of a
verified slot starts state 1, an unverified one completes STATE_CONFLICT 0x40. Drained, the state is 2; the time-out ends the
activation with STATE_CONFLICT 0x42; on resume the image runs, boot.slot and boot.booted_slot name it, and the stall is shown; an
activation that ends notes its outcome and its stall. svn_commit takes a value from boot.min_svn to the running image's svn and
refuses any other. The commands whose own effect it gives as the next state that exec answers, under conditions on the state and the
operands alone: firmwareDownload, downloadWriterExpire, firmwareActivate, activationDrainComplete, activationDrainTimeout,
activationResume, svnCommit. -/
def Obligations.FirmwareSlotsAndActivation : Prop :=
  (∀ s c bytes img b, s.dev.adminNext 0x90 c → adminDescField c.raw = none → downloadField (s.dev.starts c) c.raw = none →
      s.dev.fw.activating = none → adminData c (eWord c.raw 2) bytes = .inl b → ∃ (n : Nat) (d e : Dev), n = eWord c.raw 0 % 2
        ∧ d = (if eWord c.raw 1 = 0 then eraseSlot n 1 (s.dev.starts c) else s.dev.starts c)
        ∧ e = setImageSlot n { d.imageSlot n with written := (d.imageSlot n).written ++ [(eWord c.raw 1, eWord c.raw 2)] } d
        ∧ exec (.firmwareDownload bytes img) s = .next { s with dev := (if bit (eWord c.raw 0) 8 then
            (if slotPasses e img then okWith c.id 0 (judgeSlot n img e) else badFieldAt c.id 0x10 (judgeSlot n img e))
          else okWith c.id 0 e) })
  ∧ (∀ s c bytes img, s.dev.adminNext 0x90 c → adminDescField c.raw = none → downloadField (s.dev.starts c) c.raw = none →
      s.dev.fw.activating.isSome = true →
      exec (.firmwareDownload bytes img) s = .next { s with dev := finish c.id 0x05 0x41 0 (s.dev.starts c) })
  ∧ (∀ s n, s.dev.periscope = true → n < 2 →
      exec (.downloadWriterExpire n) s = .next { s with dev := setImageSlot n { s.dev.imageSlot n with writer := 0 } s.dev })
  ∧ (∀ s c, s.dev.adminNext 0x91 c → stray c.raw 0 1 = false → (s.dev.imageSlot (eWord c.raw 0 % 2)).st = 2 →
      s.dev.fw.activating = none → ∃ d : Dev, exec .firmwareActivate s = .next { s with dev := d } ∧ (d.fw = { s.dev.fw with activating := some (eWord c.raw 0 % 2, c.id), stallStart := s.dev.tm.now } ∧ d.val Fam.fwActivationState = 1))
  ∧ (∀ s c, s.dev.adminNext 0x91 c → stray c.raw 0 1 = false → (s.dev.imageSlot (eWord c.raw 0 % 2)).st ≠ 2 →
      exec .firmwareActivate s = .next { s with dev := finish c.id 0x05 0x40 0 (s.dev.starts c) })
  ∧ (∀ s n id, s.dev.fw.activating = some (n, id) → s.dev.val Fam.fwActivationState = 1 → s.dev.executing = true →
      (∀ c ∈ s.dev.cm.ctxs, c.id = id) → exec .activationDrainComplete s = .next { s with dev := s.dev.setVal Fam.fwActivationState 0 2 })
  ∧ (∀ s, s.dev.val Fam.fwActivationState = 1 → s.dev.executing = true → exec .activationDrainTimeout s = .next { s with dev := endActivation 0x05 0x42 s.dev })
  ∧ (∀ slot status qual v (d : Dev), status < 256 → qual < 256 →
      (noteActivation slot status qual v d).val Fam.fwLastActivation = status + 256 * qual
      ∧ (noteActivation slot status qual v d).val Fam.fwLastStallUs = min ((d.tm.now - d.fw.stallStart) / 1000) 0xFFFFFFFF)
  ∧ (∀ s n id us, s.dev.fw.activating = some (n, id) →
      s.dev.val Fam.fwActivationState = 2 ∨ s.dev.val Fam.fwActivationState = 3 → s.dev.executing = true → ∃ d : Dev, exec (.activationResume us) s = .next { s with dev := d } ∧ (d.val Fam.bootSlot = n ∧ d.val Fam.bootBootedSlot = n
        ∧ d.val Fam.fwLastStallUs = min us 0xFFFFFFFF))
  ∧ (∀ s who v, s.dev.accepts who Fam.bootSvnCommit 0 → s.dev.coreUp = true → s.dev.val Fam.bootMinSvn ≤ v → v ≤ s.dev.fw.svn →
      exec (.svnCommit who v) s = .next { s with dev := shown who (s.dev.setVal Fam.bootMinSvn 0 v) })
  ∧ (∀ s who v, s.dev.accepts who Fam.bootSvnCommit 0 → v < s.dev.val Fam.bootMinSvn ∨ s.dev.fw.svn < v →
      exec (.svnCommit who v) s = .next { s with dev := emit (.dict who rUnavailable []) (refuseWrite s.dev) })

/-- POWER_FAIL stops a destage or soft reset under way in ECLIPSE, raises 0x003 and starts the dump in ECLIPSE with no image
standing. DUMP_QUIESCED abandons commands of members that are no vault, takes the next image sequence, powers the other ports down,
goes to state 2 and streams the window's bytes, unit by unit, to the vault and offset of each unit. DUMP_STREAM_COMPLETE writes each
vault's CRC table and sends Flush. VAULT_FLUSH_COMPLETE seals the headers. DUMP_SEALED with both sealed goes to state 3 and the image
stands; with a vault lacking it ends unsealed in state 4, recorded too. A failed vault is used no more and its header is not sealed.
The vault test runs and its rates are recorded; attestation and its expiry; each correction of a rank and byte lane, of read centring
and of write levelling, is held within plus or minus 32 steps, beyond it 0x06A + channel signals; an uncorrectable memory error
counts and raises the source of its row. The commands whose own effect it gives as the next state that exec answers, under conditions
on the state and the operands alone: powerFail, dumpQuiesced, dumpStreamComplete, vaultFlushComplete, dumpSealed, dumpVaultFailed,
vaultTest, vaultTestComplete, holdupAttest, attestExpire, trackingSlot, patrolScrub. -/
def Obligations.DumpVaultTestAndMemoryErrors : Prop :=
  (∀ s, s.dev.periscope = true → ∃ d e : Dev, e = (if s.dev.inMode .eclipse then powerFailStops s.dev else s.dev)
      ∧ d = hubReal 0x003 0 false { e with pw := { e.pw with pwrFailLow := true } }
      ∧ exec .powerFail s = .next { s with dev := if d.inMode .eclipse && d.pw.ddrReady then startDump false d else d })
  ∧ (∀ s, s.dev.val Fam.pcacheDumpState = 1 → ∃ d : Dev,
      exec .dumpQuiesced s = .next { s with dev := streamUnits (writeHeaders 0 ((powerDownPorts d).setVal Fam.pcacheDumpState 0 2)) }
      ∧ d = { s.dev with mb := d.mb, pc := d.pc } ∧ d.pc.imageSeq = s.dev.pc.imageSeq + 1 ∧ d.mb.cmds.length = s.dev.mb.cmds.length
      ∧ (∀ c ∈ d.mb.cmds, s.dev.pc.vaults.contains (some c.member) = false → c.dead = true))
  ∧ (∀ d : Dev, (streamUnits d).pc = d.pc ∧ (streamUnits d).vals = d.vals ∧ ∃ l, (streamUnits d).out = d.out ++ l
      ∧ ∀ o ∈ l, ∃ t m u off len, o = .windowUnit t m ((d.mem m).a0 + unitOffset u + off) u len (clip (u * mib + off) len (windowParts d))
          ∧ off + len ≤ mib ∧ u < d.pc.windowGib * 1024 ∧ d.pc.vaults.getD (u % 2) none = some m)
  ∧ (∀ s a, s.dev.val Fam.pcacheDumpState = 2 → s.dev.pc.vaults = [some a, none] → exec .dumpStreamComplete s = .next { s with dev := memberCtl a "Flush" s.dev.pc.imageSeq (vaultWrite a ((s.dev.mem a).a0 + 4096) (crcTable s.dev 0) s.dev) })
  ∧ (∀ s a b, s.dev.val Fam.pcacheDumpState = 2 → s.dev.pc.vaults = [some a, some b] → ∃ d : Dev,
      d = memberCtl a "Flush" s.dev.pc.imageSeq (vaultWrite a ((s.dev.mem a).a0 + 4096) (crcTable s.dev 0) s.dev)
      ∧ exec .dumpStreamComplete s = .next { s with dev := memberCtl b "Flush" d.pc.imageSeq (vaultWrite b ((d.mem b).a0 + 4096) (crcTable d 1) d) })
  ∧ (∀ s a b, s.dev.val Fam.pcacheDumpState = 2 → s.dev.pc.vaults = [some a, some b] →
      exec .vaultFlushComplete s = .next { s with dev := writeHeaders 1 s.dev })
  ∧ (∀ s a b us, s.dev.val Fam.pcacheDumpState = 2 → s.dev.pc.vaults = [some a, some b] → s.dev.pc.hdr0 = 1 → s.dev.pc.hdr1 = 1 →
      s.dev.pw.tripPending = false → ∃ d : Dev, exec (.dumpSealed us) s = .next { s with dev := d } ∧ (d.val Fam.pcacheDumpState = 3 ∧ d.pc = { s.dev.pc with image := some (s.dev.pc.windowGib * 1024) }
        ∧ d.fh.queue.length = s.dev.fh.queue.length + 1))
  ∧ (∀ s us, s.dev.val Fam.pcacheDumpState = 2 → s.dev.pc.vaults.any Option.isNone = true → s.dev.pw.tripPending = false →
      ∃ d : Dev, exec (.dumpSealed us) s = .next { s with dev := d } ∧ (d.val Fam.pcacheDumpState = 4 ∧ d.pc = s.dev.pc ∧ d.fh.queue.length = s.dev.fh.queue.length + 1))
  ∧ (∀ s v, v < 2 → s.dev.val Fam.pcacheDumpState = 1 ∨ s.dev.val Fam.pcacheDumpState = 2 →
      exec (.dumpVaultFailed v) s = .next { s with dev := { s.dev with pc := { s.dev.pc with
        vaults := s.dev.pc.vaults.set v none
        hdr0 := if v = 0 then 0 else s.dev.pc.hdr0
        hdr1 := if v = 1 then 0 else s.dev.pc.hdr1 } } })
  ∧ (∀ s a b, s.dev.executing = true → s.dev.pc.image = none → s.dev.pc.testing = false → s.dev.pc.vaults = [some a, some b] →
      exec .vaultTest s = .next { s with dev := { s.dev with
        pc := { s.dev.pc with testing := true }, out := s.dev.out ++ [.memberCtl a "vault test" 256, .memberCtl b "vault test" 256] } })
  ∧ (∀ s a b r0 r1, s.dev.executing = true → s.dev.pc.testing = true → s.dev.pc.vaults = [some a, some b] →
      exec (.vaultTestComplete r0 r1) s = .next { s with dev := (afterHoldup (certified s.dev) (({ s.dev with pc := { s.dev.pc with
        testing := false, r0 := min r0 65535, r1 := min r1 65535 } }).setVal Fam.pcacheVaultRateMbps 0
          (min r0 65535 + 65536 * min r1 65535))) })
  ∧ (∀ s who, s.dev.accepts who Fam.pcacheHoldupAttest 0 →
      exec (.holdupAttest who) s = .next { s with dev := shown who (settle { s.dev with pc := { s.dev.pc with attested := true } }) })
  ∧ (∀ s, s.dev.periscope = true → exec .attestExpire s = .next { s with dev := afterHoldup (certified s.dev) { s.dev with pc := { s.dev.pc with attested := false } } })
  ∧ (∀ s ch rank lane k l, s.dev.coreUp = true → s.dev.pw.ddrReady = true → ch < 12 → rank < 8 → lane < 9 → -32 ≤ k → k ≤ 32 →
      -32 ≤ l → l ≤ 32 → ∃ d : Dev, exec (.trackingSlot ch (rank, lane) (k, l)) s = .next { s with dev := d } ∧ (((tget d.ms.correction (trackKey ch rank lane 0) 32 : Nat) : Int) = k + 32
        ∧ ((tget d.ms.correction (trackKey ch rank lane 1) 32 : Nat) : Int) = l + 32
        ∧ (∀ j, j ≠ trackKey ch rank lane 0 → j ≠ trackKey ch rank lane 1 → tget d.ms.correction j 32 = tget s.dev.ms.correction j 32)
        ∧ d = { s.dev with ms := d.ms }))
  ∧ (∀ s ch rank lane k l, s.dev.coreUp = true → s.dev.pw.ddrReady = true → ch < 12 → rank < 8 → lane < 9 → 32 < k →
      -32 ≤ l → l ≤ 32 → ∃ d e : Dev, tget d.ms.correction (trackKey ch rank lane 0) 32 = 64
        ∧ e = raise (0x06A + ch) lane false d ∧ exec (.trackingSlot ch (rank, lane) (k, l)) s = .next { s with dev := { e with ms := { e.ms with correction := tset e.ms.correction (trackKey ch rank lane 1) (l + 32).toNat 32 } } })
  ∧ (∀ s ddr e detail, s.dev.coreUp = true → s.dev.pw.ddrReady = true → ∃ d : Dev,
      exec (.patrolScrub ddr 0 (some (e, detail))) s = .next { s with dev := settle (raise (0x060 + memRow e) detail false (memAction e d)) }
        ∧ d.pc = s.dev.pc ∧ d.mb = s.dev.mb ∧ d.cm = s.dev.cm)

/-- HP_PERST_N_ASSERT resets the port, takes the admin claim with the admin port, and signals 0x082 + 4n where a link was up.
HP_PERST_N_RELEASE makes the port ready to train where the mode trains it. HOST_LINK_DOWN resets the port: link down, no stream, no
session; a hot reset signals nothing, a link-down is the surprise link down of AER, counts and signals. HOST_LINK_UP trains the speed
and width given, within the port's limit, and ends the signal. FLR resets the function, and with a PF clears its VFs; one that
arrives during the same function's or its PF's is absorbed; VF_ENABLE_SET brings VFs into being with present summaries,
VF_ENABLE_CLEAR removes them. The commands whose own effect it gives as the next state that exec answers, under conditions on the
state and the operands alone: hpPerstNAssert, hpPerstNRelease, hostLinkDown, hostLinkUp, flr, vfEnableSet, vfEnableClear. -/
def Obligations.HostPortsResetAndTrain : Prop :=
  (∀ s n, n < 16 → ∃ c d e : Dev, c = (if n = s.dev.pw.adminPort then loseClaim s.dev else s.dev)
      ∧ d = (if c.coreUp then portReset n c else c) ∧ e = d.setPort n { d.port n with perstLow := true, readyToTrain := false }
      ∧ exec (.hpPerstNAssert n) s = .next { s with dev := if (s.dev.port n).linkUp && e.coreUp then raise (0x082 + 4 * n) 0 false e else e })
  ∧ (∀ d : Dev, (loseClaim d).dc.holder ≠ 1)
  ∧ (∀ s n, n < 16 → s.dev.coreUp = false → ∃ d : Dev, exec (.hpPerstNAssert n) s = .next { s with dev := d } ∧ (d = { s.dev with ports := d.ports, dc := d.dc }
      ∧ (n = s.dev.pw.adminPort → d.dc.holder ≠ 1) ∧ (∀ k, k ≠ n → d.port k = s.dev.port k)))
  ∧ (∀ s n, n < 16 → exec (.hpPerstNRelease n) s = .next { s with dev := (s.dev.setPort n { s.dev.port n with
      perstLow := false, readyToTrain := s.dev.coreUp && s.dev.pw.hostTerminated }) })
  ∧ (∀ s n, n < 16 → s.dev.coreUp = true → (s.dev.port n).linkUp = true → ∃ d : Dev, exec (.hostLinkDown n true) s = .next { s with dev := d } ∧ ((d.port n).linkUp = false ∧ (d.port n).speed = 0 ∧ (d.port n).width = 0 ∧ (d.port n).ide = [] ∧ (d.port n).sessions = []
        ∧ (d.port n).spdmStage = 0 ∧ (d.port n).readyToTrain = !(d.port n).perstLow ∧ d.val Fam.hostPortLink n = 0))
  ∧ (∀ s n, n < 16 → s.dev.coreUp = true → (s.dev.port n).linkUp = true → ∃ d : Dev, d = portReset n (aerError ⟨n, 0⟩ (fatalErrorBit .surpriseDown) false none s.dev)
      ∧ exec (.hostLinkDown n false) s = .next { s with dev := (raise (0x082 + 4 * n) 0 false
        ((d.setPort n { d.port n with readyToTrain := !(d.port n).perstLow }).bump Fam.hostPortLinkDowns n)) })
  ∧ (∀ s n speed width, n < 16 → s.dev.coreUp = true → s.dev.pw.hostTerminated = true → (s.dev.port n).readyToTrain = true →
      (s.dev.port n).perstLow = false → (s.dev.port n).linkUp = false → 1 ≤ speed → speed ≤ s.dev.val Fam.hostPortMaxSpeed n →
      width = 1 ∨ width = 2 ∨ width = 4 → ∃ d : Dev, exec (.hostLinkUp n speed width) s = .next { s with dev := d } ∧ (d.port n = { (settleReserve n s.dev).port n with linkUp := true, speed := speed, width := width, readyToTrain := false }
          ∧ d.val Fam.hostPortLink n = speed + 16 * width + 256 + 512 * b2n ((tfind (s.dev.port n).ide 0).any (·.secure))
          ∧ (d.src (0x082 + 4 * n)).realLive = false))
  ∧ (∀ s f, (s.dev.fnS f).inFlr = true ∨ (s.dev.fnS ⟨f.port, 0⟩).inFlr = true → exec (.flr f) s = .next s)
  ∧ (∀ s f, portServes s.dev f.port = true → s.dev.fnExists f = true → (s.dev.fnS f).inFlr = false →
      (s.dev.fnS ⟨f.port, 0⟩).inFlr = false → ∃ d e : Dev, d = (if s.dev.isAdmin f then loseClaim s.dev else s.dev)
        ∧ e = markFlr f (functionReset ((d.fnS f).busMaster && !d.inMode .eclipse) f d)
        ∧ exec (.flr f) s = .next { s with dev := if f.fn = 0 then clearVfs f.port e else e })
  ∧ (∀ s n k, portServes s.dev n = true → (s.dev.port n).vfs = 0 → k ≤ (s.dev.port n).totalVfs →
      exec (.vfEnableSet n k) s = .next { s with dev := (((List.range k).map fun v => (⟨n, v + 1⟩ : Fn)).foldl presentSummary
        (s.dev.setPort n { s.dev.port n with vfs := k })) })
  ∧ (∀ s n, portServes s.dev n = true → ∃ d : Dev, exec (.vfEnableClear n) s = .next { s with dev := d } ∧ (d = clearVfs n s.dev ∧ (d.port n).vfs = 0))

/-- Each error of Table 2.8: link-correctable errors and unexpected completions set their AER status and end there; an unsupported
request counts, and a read gets an Unsupported Request completion; ECRC (where its checking is enabled), poisoned and fatal errors
raise 0x080 + 4n with their AER bit; a device read that brought nothing back fails where it was asked for; a missing completion is
AER bit 14. An uncorrectable error sets its status bit and, unless masked, sends one message, ERR_FATAL exactly where its severity
bit says so. A pending vector that may leave is sent once and is pending no more. An IDE failure of a Secure stream ends its Secure
state, counts and raises 0x081 + 4n; a switch takes the other key set once it holds a key; a key set programmed in a secured session
makes the stream Secure, and of a Secure stream gives the set not in use (log entry 72). The commands whose own effect it gives as
the next state that exec answers, under conditions on the state and the operands alone: receivedErrorTlp, completionTimeout,
msixPendingSend, ideIntegrityFailure, ideKeySetSwitch, ideKmKeyProgram. -/
def Obligations.HostErrorsAndLinkEncryption : Prop :=
  (∀ s f, portServes s.dev f.port = true →
      (∀ e, exec (.receivedErrorTlp f (.linkCorrectable e)) s = .next { s with dev := aerCorrectable f (linkErrorBit e) s.dev })
      ∧ exec (.receivedErrorTlp f .unexpectedCompletion) s = .next { s with dev := aerReport f 16 true none s.dev }
      ∧ exec (.receivedErrorTlp f .poisonedWrite) s = .next { s with dev := aerError f 12 true none s.dev }
      ∧ (∀ e, exec (.receivedErrorTlp f (.fatal e)) s = .next { s with dev := aerError f (fatalErrorBit e) false none s.dev })
      ∧ (∀ r, (s.dev.fnS f).cfg.ecrcCheck = false → exec (.receivedErrorTlp f (.ecrc r)) s = .next s)
      ∧ ((s.dev.fnS f).cfg.ecrcCheck = true → exec (.receivedErrorTlp f (.ecrc none)) s = .next { s with dev := aerError f 19 false none s.dev })
      ∧ exec (.receivedErrorTlp f (.unsupportedRequest true)) s = .next { s with dev := unsupported f s.dev }
      ∧ ∃ t : TlpAttr, exec (.receivedErrorTlp f (.unsupportedRequest false)) s = .next { s with dev := emit (.urCompletion f t) (unsupported f s.dev) })
  ∧ (∀ s f r, portServes s.dev f.port = true →
      ((s.dev.fnS f).cfg.ecrcCheck = true → exec (.receivedErrorTlp f (.ecrc (some r))) s = .next { s with dev := readFailed r (aerError f 19 false none s.dev) })
      ∧ exec (.receivedErrorTlp f (.badCompletion true r)) s = .next { s with dev := readFailed r (aerError f 12 true none s.dev) }
      ∧ exec (.receivedErrorTlp f (.badCompletion false r)) s = .next { s with dev := readFailed r s.dev }
      ∧ exec (.completionTimeout f r) s = .next { s with dev := readFailed r (aerError f 14 false none s.dev) })
  ∧ (∀ f b adv h (d : Dev), b < 32 → ((aerReport f b adv h d).fnS f).cfg.aerUncStatus.getLsbD b = true
      ∧ ((d.fnS f).aerMask.getLsbD b = true → (aerReport f b adv h d).out = d.out)
      ∧ ((d.fnS f).aerMask.getLsbD b = false → ∃ k, (aerReport f b adv h d).out = d.out ++ [.aer f true b k]
          ∧ (k = 2 ↔ (d.fnS f).aerFatal.getLsbD b = true)))
  ∧ (linkErrorBit .receiverError = 0 ∧ linkErrorBit .badTlp = 6 ∧ linkErrorBit .badDllp = 7 ∧ linkErrorBit .replayRollover = 8
      ∧ linkErrorBit .replayTimeout = 12 ∧ fatalErrorBit .surpriseDown = 5 ∧ fatalErrorBit .flowControl = 13
      ∧ fatalErrorBit .receiverOverflow = 17 ∧ fatalErrorBit .malformedTlp = 18)
  ∧ (∀ s f v, (s.dev.fnS f).pba.contains v = true → msixAllowed s.dev f v = true → ∃ d : Dev, exec (.msixPendingSend f v) s = .next { s with dev := d } ∧ (d.out = s.dev.out ++ [.msix f v (s.dev.attr f false true)] ∧ (d.fnS f).pba = (s.dev.fnS f).pba.filter (· != v)
        ∧ d = { s.dev with out := d.out, fns := d.fns }))
  ∧ (∀ s n i x, tfind (s.dev.port n).ide i = some x → x.secure = true → portServes s.dev n = true → ∃ d : Dev,
      d = setStream n i { x with secure := false, key0 := none, key1 := none } s.dev
        ∧ tfind (d.port n).ide i = some { x with secure := false, key0 := none, key1 := none }
        ∧ exec (.ideIntegrityFailure n i) s = .next { s with dev := raise (0x081 + 4 * n) i false (d.bump Fam.hostPortIdeFailures n) })
  ∧ (∀ s n i x, tfind (s.dev.port n).ide i = some x → x.secure = true → portServes s.dev n = true →
      ((x.keyOf (1 - x.keySet % 2)).isSome = true → ∃ d : Dev, exec (.ideKeySetSwitch n i) s = .next { s with dev := d } ∧ (tfind (d.port n).ide i = some { x with keySet := 1 - x.keySet % 2 }
          ∧ (∀ j, j ≠ i → tfind (d.port n).ide j = tfind (s.dev.port n).ide j)))
      ∧ (x.keyOf (1 - x.keySet % 2) = none → exec (.ideKeySetSwitch n i) s = .next s))
  ∧ (∀ s n i session k key (g : IdeAssoc), portServes s.dev n = true → i ≤ 16 → k ≤ 1 → g.addrs.length ≤ 2 →
      (s.dev.port n).sessions.contains (session, true) = true →
      ((∀ x, tfind (s.dev.port n).ide i = some x → x.secure = false) → ∃ d : Dev, exec (.ideKmKeyProgram n i session k key g) s = .next { s with dev := d } ∧ (∃ x, tfind (d.port n).ide i = some x ∧ x.secure = true ∧ x.keySet = k ∧ x.keyOf k = some key ∧ x.keyOf (1 - k) = none
          ∧ x.ridLo = g.ridLo ∧ x.ridHi = g.ridHi ∧ x.addrs = g.addrs ∧ (∀ j, j ≠ i → tfind (d.port n).ide j = tfind (s.dev.port n).ide j)))
      ∧ (∀ x, tfind (s.dev.port n).ide i = some x → x.secure = true →
        (x.keySet = k → exec (.ideKmKeyProgram n i session k key g) s = .next s)
        ∧ (x.keySet ≠ k → ∃ d : Dev, exec (.ideKmKeyProgram n i session k key g) s = .next { s with dev := d } ∧ (tfind (d.port n).ide i = some (x.setKey k key)
          ∧ (∀ j, j ≠ i → tfind (d.port n).ide j = tfind (s.dev.port n).ide j)))))

/-- DOE discovery gives the entry asked for. GET_VERSION restarts negotiation at 1.2; GET_CAPABILITIES, NEGOTIATE_ALGORITHMS advance
it by one; digests, certificates of slot 0, challenges of slot 0, measurements, key exchange, finish, heartbeat, key update and end
of session answer once it is complete. A request before its stage gets ERROR UnexpectedRequest and changes nothing else; a
certificate or challenge of another slot gets InvalidRequest. Key exchange opens at most two sessions per port; a verified FINISH
secures its session; a session ended is gone; a session not held gets InvalidSession. The bytes of the answers that the spec does not
give are free (log entry 63). The commands whose own effect it gives as the next state that exec answers, under conditions on the
state and the operands alone: doeDiscovery, getVersion, getCapabilities, negotiateAlgorithms, getDigests, getCertificate, challenge,
getMeasurements, keyExchange, finish, heartbeat, keyUpdate, endSession. -/
def Obligations.AttestationAnswersInOrder : Prop :=
  (∀ s n i, portServes s.dev n = true → exec (.doeDiscovery n i) s = .next { s with dev := { s.dev with out := s.dev.out ++ [.doe n 0 (doeAnswer i)] } })
  ∧ (∀ s n, portServes s.dev n = true → exec (.getVersion n) s = .next { s with dev := emit (.doe n 0x04 [0x12]) (s.dev.setPort n { s.dev.port n with spdmStage := 1 }) })
  ∧ (∀ s n, portServes s.dev n = true → 1 ≤ (s.dev.port n).spdmStage → ∃ d : Dev, exec (.getCapabilities n) s = .next { s with dev := d } ∧ ((d.port n).spdmStage = max 2 (s.dev.port n).spdmStage ∧ d.out.length = s.dev.out.length + 1))
  ∧ (∀ s n, portServes s.dev n = true → 2 ≤ (s.dev.port n).spdmStage → ∃ d : Dev, exec (.negotiateAlgorithms n) s = .next { s with dev := d } ∧ ((d.port n).spdmStage = max 3 (s.dev.port n).spdmStage ∧ d.out.length = s.dev.out.length + 1))
  ∧ (∀ s n, portServes s.dev n = true → 3 ≤ (s.dev.port n).spdmStage → ∀ off len nonce,
      exec (.getDigests n) s = .next { s with dev := emit (.doe n 0x01 (Config.spdmBytes 0x01 0)) s.dev }
      ∧ exec (.getCertificate n 0 off len) s = .next { s with dev := emit (.doe n 0x02 (((Config.spdmBytes 0x02 0).drop off).take len)) s.dev }
      ∧ exec (.challenge n 0 nonce) s = .next { s with dev := emit (.doe n 0x03 (Config.spdmBytes 0x03 nonce.toNat)) s.dev }
      ∧ exec (.getMeasurements n 0 nonce) s = .next { s with dev := emit (.doe n 0x60 (le 1 4 ++ Config.spdmBytes 0xE0 nonce.toNat)) s.dev }
      ∧ (∀ i, 1 ≤ i → i ≤ 4 → exec (.getMeasurements n i nonce) s = .next { s with dev := emit (.doe n 0x60 (measurementBytes s.dev i ++ Config.spdmBytes 0xE0 nonce.toNat)) s.dev })
      ∧ (∀ slot, slot ≠ 0 → exec (.getCertificate n slot off len) s = .next { s with dev := emit (.doe n 0x7F [0x01]) s.dev }
          ∧ exec (.challenge n slot nonce) s = .next { s with dev := emit (.doe n 0x7F [0x01]) s.dev }))
  ∧ (∀ s n share, portServes s.dev n = true → 3 ≤ (s.dev.port n).spdmStage → (s.dev.port n).sessions.length < 2 →
      ∃ d : Dev, exec (.keyExchange n share) s = .next { s with dev := d } ∧ (∃ id, (d.port n).sessions = (s.dev.port n).sessions ++ [(id, false)]
        ∧ d.out.length = s.dev.out.length + 1))
  ∧ (∀ s n share, portServes s.dev n = true → 3 ≤ (s.dev.port n).spdmStage → 2 ≤ (s.dev.port n).sessions.length →
      exec (.keyExchange n share) s = .next { s with dev := emit (.doe n 0x7F [0x0A]) s.dev })
  ∧ (∀ s n id, portServes s.dev n = true → 3 ≤ (s.dev.port n).spdmStage → (s.dev.port n).sessions.contains (id, false) = true →
      ∃ d : Dev, exec (.finish n id true) s = .next { s with dev := d } ∧ ((d.port n).sessions.contains (id, true) = true
        ∧ (d.port n).sessions.contains (id, false) = false))
  ∧ (∀ s n id, portServes s.dev n = true → 3 ≤ (s.dev.port n).spdmStage → (s.dev.port n).sessions.contains (id, true) = true →
      exec (.heartbeat n id) s = .next { s with dev := emit (.doe n 0x68 []) s.dev } ∧ exec (.keyUpdate n id) s = .next { s with dev := emit (.doe n 0x69 []) s.dev }
        ∧ ∃ d : Dev, exec (.endSession n id) s = .next { s with dev := d } ∧ ((d.port n).sessions = (s.dev.port n).sessions.filter (·.1 != id)))
  ∧ (∀ s n id, portServes s.dev n = true → 3 ≤ (s.dev.port n).spdmStage → (s.dev.port n).sessions.contains (id, true) = false →
      exec (.heartbeat n id) s = .next { s with dev := emit (.doe n 0x7F [0x02]) s.dev } ∧ exec (.endSession n id) s = .next { s with dev := emit (.doe n 0x7F [0x02]) s.dev })
  ∧ (∀ s n id, portServes s.dev n = true → 3 ≤ (s.dev.port n).spdmStage → (s.dev.port n).sessions.contains (id, true) = false →
      exec (.keyUpdate n id) s = .next { s with dev := emit (.doe n 0x7F [0x02]) s.dev })
  ∧ (∀ s n id v, portServes s.dev n = true → 3 ≤ (s.dev.port n).spdmStage → (s.dev.port n).sessions.contains (id, false) = false →
      exec (.finish n id v) s = .next { s with dev := emit (.doe n 0x7F [0x02]) s.dev })
  ∧ (∀ s n, portServes s.dev n = true → (s.dev.port n).spdmStage < 1 → exec (.getCapabilities n) s = .next { s with dev := emit (.doe n 0x7F [0x04]) s.dev })
  ∧ (∀ s n, portServes s.dev n = true → (s.dev.port n).spdmStage < 2 → exec (.negotiateAlgorithms n) s = .next { s with dev := emit (.doe n 0x7F [0x04]) s.dev })
  ∧ (∀ s n c, portServes s.dev n = true → (s.dev.port n).spdmStage < 3 → (c = .getDigests n ∨ (∃ k off len, c = .getCertificate n k off len)
        ∨ (∃ k v, c = .challenge n k v) ∨ (∃ k v, c = .getMeasurements n k v) ∨ (∃ b, c = .keyExchange n b) ∨ (∃ k b, c = .finish n k b)
        ∨ (∃ k, c = .heartbeat n k) ∨ (∃ k, c = .keyUpdate n k) ∨ ∃ k, c = .endSession n k) →
      exec c s = .next { s with dev := emit (.doe n 0x7F [0x04]) s.dev })

/-- On an accepted 32-bit write to BAR0 of a function: summary_events clears the bits written as 1; event_vector takes bits 10:0; of
a bound function an SQ base is taken while the SQ is ABSENT and left while it is not, a CQ's coalescing is taken while the CQ is
ABSENT, and the doorbells do what their rows do. From the mailbox page to the inline windows a write of another width or alignment
has no effect; one to an inline window is a rejected slot write; one past the end of the BAR is an Unsupported Request, a 32-bit one
to a field of the identity page counts as refused, and of an unbound function's mailbox page none has an effect. Bus Master Enable,
MSI-X control, AER mask, severity and status, and ASPM L1 are taken in configuration space. BAR2 data bytes of a slot that is not
busy are taken. An object is written as the arbiter rules. The commands whose own effect it gives as the next state that exec
answers, under conditions on the state and the operands alone: registerWrite. -/
def Obligations.RegisterWritesTouchTheirFields : Prop :=
  (∀ s r v f, s.dev.reaches r → f = r.toFn → ∃ d : Dev, exec (.registerWrite (.bar0 r 0x1004 4 v)) s = .next { s with dev := d } ∧ ((d.fnS f).events = (s.dev.fnS f).events &&& ~~~(v.setWidth 32) ∧ (d.fnS f).summary = (s.dev.fnS f).summary
        ∧ d = { s.dev with fns := d.fns } ∧ ∀ g, packFn g ≠ packFn f → d.fnS g = s.dev.fnS g))
  ∧ (∀ s r v, s.dev.reaches r → exec (.registerWrite (.bar0 r 0x1008 4 v)) s = .next { s with dev := s.dev.setFn r.toFn { s.dev.fnS r.toFn with eventVector := v.toNat % 2048 } })
  ∧ (∀ s r q v f, s.dev.reaches r → f = r.toFn → unbound s.dev f = false → f.fn = 0 → q < 1024 →
      ((s.dev.q f q).sqState = .absent → exec (.registerWrite (.bar0 r (0x10000 + 64 * q + 8) 8 v)) s = .next { s with dev := s.dev.setQ f q { s.dev.q f q with sqBase := v } })
      ∧ ((s.dev.q f q).sqState ≠ .absent → exec (.registerWrite (.bar0 r (0x10000 + 64 * q + 8) 8 v)) s = .next s))
  ∧ (∀ s r q v f, s.dev.reaches r → f = r.toFn → unbound s.dev f = false → f.fn ≠ 0 → q < 64 → (s.dev.q f q).cqState = .absent →
      exec (.registerWrite (.bar0 r (0x4000 + 64 * q + 0x20) 4 v)) s = .next { s with dev := (s.dev.setQ f q { s.dev.q f q with
        coalTime := bits (v.toNat % 2 ^ 32) 15 8, coalCount := bits (v.toNat % 2 ^ 32) 7 0 }) })
  ∧ (∀ s r q v f, s.dev.reaches r → f = r.toFn → unbound s.dev f = false → f.fn = 0 → q < 1024 →
      exec (.registerWrite (.bar0 r (0x10000 + 64 * q) 4 v)) s = .next { s with dev := ringTail f q (v.toNat % 2 ^ 32) s.dev }
      ∧ exec (.registerWrite (.bar0 r (0x10000 + 64 * q + 4) 4 v)) s = .next { s with dev := ringHead f q (v.toNat % 2 ^ 32) s.dev })
  ∧ (∀ s r off width v, s.dev.reaches r →
      (0x2000 ≤ off → off < inlineWindows r.toFn → off + width ≤ bar0Size r.toFn → ¬(width = 4 ∧ off % 4 = 0) →
        ¬(width = 8 ∧ off % 8 = 0) → exec (.registerWrite (.bar0 r off width v)) s = .next s)
      ∧ (inlineWindows r.toFn ≤ off → off < inlineWindows r.toFn + 512 * queueLimit r.toFn → off + width ≤ bar0Size r.toFn →
        unbound s.dev r.toFn = false → exec (.registerWrite (.bar0 r off width v)) s = .next { s with dev := bumpQ r.toFn ((off - inlineWindows r.toFn) / 512) Fam.qInlineRejected s.dev })
      ∧ (bar0Size r.toFn < off + width → exec (.registerWrite (.bar0 r off width v)) s = .next { s with dev := unsupported r.toFn s.dev })
      ∧ (off % 4 = 0 → off < 0x030 → off ≠ 0x014 → exec (.registerWrite (.bar0 r off 4 v)) s = .next { s with dev := refuseWrite s.dev })
      ∧ (0x2000 ≤ off → off < 0x3000 → unbound s.dev r.toFn = true → exec (.registerWrite (.bar0 r off 4 v)) s = .next s))
  ∧ (∀ s f, portServes s.dev f.port = true → s.dev.fnExists f = true → ∀ a b m v, ∃ x : FnState, x = s.dev.fnS f ∧
      exec (.registerWrite (.busMaster f a)) s = .next { s with dev := setBusMaster f a s.dev }
      ∧ exec (.registerWrite (.msixControl f a b)) s = .next { s with dev := s.dev.setFn f { x with msixEnable := a, fnMask := b } }
      ∧ exec (.registerWrite (.aerMask f m)) s = .next { s with dev := s.dev.setFn f { x with aerMask := m } }
      ∧ exec (.registerWrite (.aerSeverity f m)) s = .next { s with dev := s.dev.setFn f { x with aerFatal := m } }
      ∧ exec (.registerWrite (.config f .aerUncStatus v)) s = .next { s with dev := s.dev.setFn f { x with cfg := { x.cfg with aerUncStatus := x.cfg.aerUncStatus &&& ~~~v } } }
      ∧ (f.fn = 0 → exec (.registerWrite (.config f .linkControl v)) s = .next { s with dev := s.dev.setFn f { x with cfg := { x.cfg with linkControl := v.setWidth 16 &&& 2 } } }))
  ∧ (∀ s n i v, s.dev.reaches s.dev.adminReq → n < 8 → i < 64 → (s.dev.slot n).busy = false →
      exec (.registerWrite (.bar2 (0x1000 + 0x200 * n + 0x100 + 4 * i) 4 v)) s = .next { s with dev := s.dev.setSlot n { s.dev.slot n with data := putBytes (s.dev.slot n).data (4 * i) (le 4 v.toNat) } })
  ∧ (∀ s who index sub b, masterUp s.dev who = true → exec (.registerWrite (.object who index sub b)) s = .next { s with dev := emit (.dict who (writeObject who index sub b s.dev).1 []) (writeObject who index sub b s.dev).2 })

/-- On a reachable function: a tail value for an ACTIVE or STOPPED SQ is accepted when bits 31:17 are 0, its index is below the depth
and count(sq_head, v) is at most the depth; accepted, it becomes the tail if its count is at least the present one and otherwise has
no effect; not accepted, it is ignored and counted in the slot of the queue number, nowhere if it holds none. The head doorbell
likewise, where count(v, cq_tail) may not exceed count(cq_head, cq_tail). A tail doorbell to an ABSENT SQ and a head doorbell to an
ABSENT CQ are ignored and counted in the slot if one is held. The commands whose own effect it gives as the next state that exec
answers, under conditions on the state and the operands alone: sqTailDoorbell, cqHeadDoorbell. -/
def Obligations.DoorbellsAcceptByTheRules : Prop :=
  (∀ s r f q (v : Word) x, s.dev.reaches r → f = r.toFn → q < queueLimit f → x = s.dev.q f q → x.sqState = .active ∨ x.sqState = .stopped →
      (v.toNat < 2 ^ 17 → v.toNat % 65536 < x.sqDepth → rCount x.sqDepth x.sqHead v.toNat ≤ x.sqDepth →
        (rCount x.sqDepth x.sqHead x.sqTail ≤ rCount x.sqDepth x.sqHead v.toNat → ∃ d : Dev, exec (.sqTailDoorbell r q v) s = .next { s with dev := d } ∧ ((d.q f q).sqTail = v.toNat ∧ (d.q f q).sqHead = x.sqHead ∧ (d.q f q).sqState = x.sqState
              ∧ d = { s.dev with cm := { s.dev.cm with qs := d.cm.qs, nextStamp := d.cm.nextStamp } }
              ∧ ∀ g k, qKey g k ≠ qKey f q → d.q g k = s.dev.q g k))
        ∧ (rCount x.sqDepth x.sqHead v.toNat < rCount x.sqDepth x.sqHead x.sqTail → exec (.sqTailDoorbell r q v) s = .next s))
      ∧ (2 ^ 17 ≤ v.toNat ∨ x.sqDepth ≤ v.toNat % 65536 ∨ x.sqDepth < rCount x.sqDepth x.sqHead v.toNat →
          exec (.sqTailDoorbell r q v) s = .next { s with dev := match x.slot with | some k => s.dev.bump Fam.qDoorbellErrors k | none => s.dev }))
  ∧ (∀ s r f q (v : Word) x, s.dev.reaches r → f = r.toFn → q < queueLimit f → x = s.dev.q f q → x.cqState ≠ .absent →
      (v.toNat < 2 ^ 17 → v.toNat % 65536 < x.cqDepth →
        rCount x.cqDepth v.toNat x.cqTail ≤ rCount x.cqDepth x.cqHead x.cqTail →
        exec (.cqHeadDoorbell r q v) s = .next { s with dev := s.dev.setQ f q { x with cqHead := v.toNat } })
      ∧ (2 ^ 17 ≤ v.toNat ∨ x.cqDepth ≤ v.toNat % 65536
          ∨ rCount x.cqDepth x.cqHead x.cqTail < rCount x.cqDepth v.toNat x.cqTail →
          exec (.cqHeadDoorbell r q v) s = .next { s with dev := match x.slot with | some k => s.dev.bump Fam.qDoorbellErrors k | none => s.dev }))
  ∧ (∀ s r f q (v : Word) x, s.dev.reaches r → f = r.toFn → q < queueLimit f → x = s.dev.q f q →
      (x.sqState = .absent → exec (.sqTailDoorbell r q v) s = .next { s with dev := match x.slot with | some k => s.dev.bump Fam.qDoorbellErrors k | none => s.dev })
      ∧ (x.cqState = .absent → exec (.cqHeadDoorbell r q v) s = .next { s with dev := match x.slot with | some k => s.dev.bump Fam.qDoorbellErrors k | none => s.dev }))

/-- On a reachable function: a slot that meets every condition of Table 3.5 advances sq_tail by one position with a stamp, as a
doorbell would, is counted as accepted, and its content is held for its place in the ring; a slot that does not is discarded and
counted in inline_rejected of its slot, and nothing else changes. The commands whose own effect it gives as the next state that exec
answers, under conditions on the state and the operands alone: inlinePush. -/
def Obligations.InlineSlotsAreTakenOrCounted : Prop :=
  (∀ s r f q slot whole e, s.dev.reaches r → f = r.toFn → q < queueLimit f → inlineOk s.dev f q slot whole e.raw = true → ∃ (x y : QState) (d : Dev),
      x = s.dev.q f q ∧ d = submit f q (rNext x.sqDepth x.sqTail) 1 s.dev ∧ y = d.q f q ∧ y.sqTail = rNext x.sqDepth x.sqTail
        ∧ y.stamps = x.stamps ++ [s.dev.cm.nextStamp]
        ∧ exec (.inlinePush r q slot whole e) s = .next { s with dev := (consumeInline f q (bumpQ f q Fam.qInlineAccepted
            (d.setQ f q { y with inlineHeld := y.inlineHeld ++ [(x.sqTail, { entry := e, covers := flushCovers d f q e.raw })] }))) })
  ∧ (∀ s r f q slot whole e, s.dev.reaches r → f = r.toFn → q < queueLimit f → inlineOk s.dev f q slot whole e.raw = false →
      exec (.inlinePush r q slot whole e) s = .next { s with dev := match (s.dev.q f q).slot with | some k => s.dev.bump Fam.qInlineRejected k | none => s.dev })

/-- Through the page, an op on a queue number with no op in progress is checked and performed, its status in setup_result; through
QUEUE_CREATE and QUEUE_DELETE the same op completes the admin command; an op while one runs is ignored on the page and STATE_CONFLICT
0x23 as a command. Shutdown of a DRAINING SQ is noted as drained, then finishes. A check that fails leaves its status in setup_result
either way. SQ_FETCH, once inline entries consumed have gone on, reads up to eight entries from sq_head; a failed read stops the SQ
and marks queue_error; one with nothing outstanding does nothing. OVERFLOW_DRAIN writes stored completions; the coalescing timer
signals what is unsignalled. The commands whose own effect it gives as the next state that exec answers, under conditions on the
state and the operands alone: createCq, createSq, deleteSq, deleteCq, queueCreateCq, queueCreateSq, queueDeleteSq, queueDeleteCq,
sqShutdownDrained, sqShutdownFinish, sqFetch, sqFetchComplete, overflowDrain, coalesceTimerExpire. -/
def Obligations.QueuesAreCreatedAndDeleted : Prop :=
  (∀ s r f q, s.dev.reaches r → f = r.toFn → q < queueLimit f → opBusy s.dev f q = false → opsHeld s.dev = false →
      (createCqCheck s.dev f q (s.dev.q f q) = none →
        exec (.createCq r q) s = .next { s with dev := setupResult f q 0 (makeCq f q (s.dev.q f q) s.dev) })
      ∧ (createSqCheck s.dev f q (s.dev.q f q) = none →
        exec (.createSq r q) s = .next { s with dev := setupResult f q 0 (makeSq f q (s.dev.q f q) s.dev) })
      ∧ (∀ e, createCqCheck s.dev f q (s.dev.q f q) = some e →
        exec (.createCq r q) s = .next { s with dev := s.dev.setQ f q { s.dev.q f q with setupResult := e.1 } })
      ∧ (∀ e, createSqCheck s.dev f q (s.dev.q f q) = some e →
        exec (.createSq r q) s = .next { s with dev := s.dev.setQ f q { s.dev.q f q with setupResult := e.1 } })
      ∧ ((s.dev.q f q).sqState ≠ .absent → ∃ d : Dev, exec (.deleteSq r q) s = .next { s with dev := d } ∧ ((d.q f q).sqState = .draining
        ∧ (d.q f q).setupResult = 0xFF
        ∧ ∀ g k, qKey g k ≠ qKey f q → qKey g k ≠ qKey f (s.dev.q f q).boundCq → d.q g k = s.dev.q g k))
      ∧ ((s.dev.q f q).cqState ≠ .absent → cqBound s.dev f q = false →
        exec (.deleteCq r q) s = .next { s with dev := setupResult f q 0 (removeCq f q s.dev) })
      ∧ ((s.dev.q f q).cqState ≠ .absent → cqBound s.dev f q = true → exec (.deleteCq r q) s = .next { s with dev := s.dev.setQ f q { s.dev.q f q with setupResult := 0x05 } }))
  ∧ (∀ s r f q, s.dev.reaches r → f = r.toFn → q < queueLimit f → opBusy s.dev f q = true →
      exec (.createCq r q) s = .next s ∧ exec (.createSq r q) s = .next s ∧ exec (.deleteSq r q) s = .next s ∧ exec (.deleteCq r q) s = .next s)
  ∧ (∀ s c f q, s.dev.adminNext 0x80 c → (f, q) = namedQueue c.raw → queueField c.raw [1, 2] = none → opBusy s.dev f q = false →
      (eWord c.raw 1 ≠ 2 → createCqCheck (s.dev.starts c) f q (createPage c.raw true (s.dev.q f q)) = none →
        exec .queueCreateCq s = .next { s with dev := (okWith c.id 0 (setupResult f q 0
          (makeCq f q (createPage c.raw true (s.dev.q f q)) (s.dev.starts c)))) })
      ∧ (∀ e, eWord c.raw 1 ≠ 2 → createCqCheck (s.dev.starts c) f q (createPage c.raw true (s.dev.q f q)) = some e →
        exec .queueCreateCq s = .next { s with dev := finish c.id e.1 e.2 0 (setupResult f q e.1 (s.dev.starts c)) })
      ∧ (∀ e, eWord c.raw 1 = 2 → createSqCheck (s.dev.starts c) f q (createPage c.raw false (s.dev.q f q)) = some e →
        exec .queueCreateSq s = .next { s with dev := finish c.id e.1 e.2 0 (setupResult f q e.1 (s.dev.starts c)) })
      ∧ (eWord c.raw 1 = 2 → createSqCheck (s.dev.starts c) f q (createPage c.raw false (s.dev.q f q)) = none →
        exec .queueCreateSq s = .next { s with dev := (okWith c.id 0 (setupResult f q 0
          (makeSq f q (createPage c.raw false (s.dev.q f q)) (s.dev.starts c)))) }))
  ∧ (∀ s c f q, s.dev.adminNext 0x81 c → (f, q) = namedQueue c.raw → queueField c.raw [3, 4] = none →
      (opBusy s.dev f q = true → eWord c.raw 1 = 3 → exec .queueDeleteSq s = .next { s with dev := finish c.id 0x05 0x23 0 (s.dev.starts c) })
      ∧ (opBusy s.dev f q = false → eWord c.raw 1 = 3 → (s.dev.q f q).sqState ≠ .absent →
          exec .queueDeleteSq s = .next { s with dev := startShutdown f q (some c.id) (s.dev.starts c) })
      ∧ (opBusy s.dev f q = false → eWord c.raw 1 ≠ 3 → deleteCqCheck (s.dev.starts c) f q = none →
          exec .queueDeleteCq s = .next { s with dev := okWith c.id 0 (setupResult f q 0 (removeCq f q (s.dev.starts c))) })
      ∧ (∀ e, opBusy s.dev f q = false → eWord c.raw 1 ≠ 3 → deleteCqCheck (s.dev.starts c) f q = some e →
          exec .queueDeleteCq s = .next { s with dev := finish c.id e.1 e.2 0 (setupResult f q e.1 (s.dev.starts c)) }))
  ∧ (∀ s f q, (s.dev.q f q).sqState = .draining → s.dev.hostRuns = true → ∃ d : Dev, exec (.sqShutdownDrained f q) s = .next { s with dev := d } ∧ (d.q f q = { s.dev.q f q with drained := true } ∧ d = { s.dev with cm := d.cm, mb := d.mb }))
  ∧ (∀ s f q cids, (s.dev.q f q).sqState = .draining → (s.dev.q f q).drained = true → s.dev.hostRuns = true →
      s.dev.ctxsOf f q = [] → (s.dev.q f q).sqCount = 0 → ∀ d, d = abortReady f q 0x08 s.dev → cqClear d f q = true →
      exec (.sqShutdownFinish f q cids) s = .next { s with dev := freeSq f q d })
  ∧ (∀ s f q d x, s.dev.sqRuns f q = true → (s.dev.q f q).fetching = 0 → d = consumeInline f q s.dev → x = d.q f q →
      d.sqRuns f q = true → x.fetching = 0 → x.inlineReady = [] → 0 < fetchCount d f q → ∃ e : Dev, exec (.sqFetch f q) s = .next { s with dev := e } ∧ (e.out = d.out ++ [.hostRead f (x.sqBase.toNat + 64 * (x.sqHead % 65536)) (64 * fetchCount d f q) (d.attr f false false)]
          ∧ e.q f q = { x with fetching := fetchCount d f q } ∧ e = { d with out := e.out, cm := e.cm }))
  ∧ (∀ s f q, (s.dev.q f q).fetching ≠ 0 → (s.dev.q f q).sqState = .active → ∃ d : Dev, exec (.sqFetchComplete f q none) s = .next { s with dev := d } ∧ ((d.q f q).sqState = .stopped ∧ (d.fnS f).queueErr.contains q = true ∧ (d.fnS f).summary.getLsbD 2 = true))
  ∧ (∀ s f q e, (s.dev.q f q).fetching = 1 → s.dev.sqRuns f q = true → s.dev.room f q 1 = true → ∃ d : Dev,
      d = s.dev.setQ f q { s.dev.q f q with fetching := 0 }
        ∧ exec (.sqFetchComplete f q (some [e])) s = .next { s with dev := consumeInline f q (consumeNext f q e d) })
  ∧ (∀ s f q, s.dev.hostRuns = true → exec (.overflowDrain f q) s = .next { s with dev := (settleHeld (drainCq
      ((s.dev.q f q).overflow.length + (s.dev.q f q).parked.length + 1) f q s.dev)) })
  ∧ (∀ s f q, (s.dev.q f q).cqState ≠ .absent → (s.dev.q f q).irqEn = true → 0 < (s.dev.q f q).unsignalled →
      exec (.coalesceTimerExpire f q) s = .next { s with dev := raiseVector f (s.dev.q f q).vector (s.dev.setQ f q { s.dev.q f q with unsignalled := 0 }) })

/-- READ begins every block of its range where it stands (READ and WRITE in their turn of the port). WRITE asks for its host data
unit by unit, with one atomic unit per entry of R123. TRIM and WRITE_ZEROES are placed as one range delta. COPY takes a free copy
channel of 12 to 15 and begins every source block; with none free it stays admitted. FLUSH and FENCE wait, FLUSH closing the beams it
covers. ABORT of nothing completes OK with 1; a target not started ends with status 0x06, qualifier 0, a started one with qualifier
1, and ABORT answers 0 once that entry is written; of a finished target it answers 2. QUERY writes the volume record, 64 bytes, or
the dark map and its count, and fails with TRANSFER_ERROR where no write can be made. A command whose volume is no longer fit
completes with its failed check and starts nothing; the deletion of its volume does not stop it. The commands whose own effect it
gives as the next state that exec answers, under conditions on the state and the operands alone: read, write, trim, writeZeroes,
copy, flush, fence, abort, queryVolume, queryDarkMap. -/
def Obligations.HostCommandsStartTheirWork : Prop :=
  (∀ s id c, s.dev.cmdNext id opRead c → ∃ d : Dev,
      d = (s.dev.startsCmd c id).modCtx c.id (fun x => { x with blocks := List.replicate (eNblk c.raw) .reading })
        ∧ exec (.read id) s = .next { s with dev := settle ((List.range (eNblk c.raw)).foldl (fun e i => readBlockAt c.id i e) d) })
  ∧ (∀ s id c, s.dev.cmdNext id opWrite c → ∃ us : List (Nat × Nat), us = commandUnits s.dev c.raw ∧ ∃ d : Dev, exec (.write id) s = .next { s with dev := d } ∧ (d = { s.dev with cm := d.cm, out := d.out, ports := d.ports } ∧ (d.ctx? id).map (·.phase) = some .started
        ∧ (d.ctx? id).map (fun x => x.units.map fun p => (p.lba, p.len)) = some us))
  ∧ (∀ s id c, s.dev.cmdNext id opTrim c → exec (.trim id) s = .next { s with dev := startDelta (s.dev.startedCtx c) (s.dev.startsCmd c id) })
  ∧ (∀ s id c, s.dev.cmdNext id opZeroes c → exec (.writeZeroes id) s = .next { s with dev := startDelta (s.dev.startedCtx c) (s.dev.startsCmd c id) })
  ∧ (∀ s id c, s.dev.cmdNext id opCopy c → freeCopyChannel s.dev = none → ∃ d : Dev, exec (.copy id) s = .next { s with dev := d } ∧ (d = { s.dev with cm := d.cm } ∧ (d.ctx? id).map (·.phase) = some .admitted))
  ∧ (∀ s id c n, s.dev.cmdNext id opCopy c → freeCopyChannel s.dev = some n → ∃ d : Dev,
      (d.chan n).st = 2 ∧ (d.chan n).ctx = some c.id ∧ (d.ctx? id).map (·.chan) = some (some n)
        ∧ exec (.copy id) s = .next { s with dev := (settle (copyProgress c.id
            ((List.range (eNblk c.raw)).foldl (fun e i => copyBlockAt c.id i e) d))) })
  ∧ (∀ s id c, s.dev.cmdNext id opFlush c →
      exec (.flush id) s = .next { s with dev := settle (forceCovered c.covers (beginWait c.id c.id (s.dev.startsCmd c id))) })
  ∧ (∀ s id c, s.dev.cmdNext id opFence c → exec (.fence id) s = .next { s with dev := settleHeld (beginWait c.id c.id (s.dev.startsCmd c id)) })
  ∧ (∀ s id c e l, s.dev.cmdNext id opAbort c → e = s.dev.startsCmd c id →
      l = abortTargets e c.fn (eWord c.raw 0 % 1024) (eWord c.raw 1 % 65536) →
      (l = [] → exec (.abort id) s = .next { s with dev := okWith c.id 1 e })
      ∧ (∀ st, l = [(st, none)] → exec (.abort id) s = .next { s with dev := abortAnswer c.id st 2 e })
      ∧ (∀ st t, l = [(st, some t)] →
        (t.phase = .ended ∨ (t.phase = .started ∧ isAdminOp (eOpcode t.raw) = true) → exec (.abort id) s = .next { s with dev := abortAnswer c.id st 2 e })
        ∧ (t.phase = .started → isAdminOp (eOpcode t.raw) = false →
          exec (.abort id) s = .next { s with dev := abortAnswer c.id st 0 (finish t.id 0x06 1 0 (dropWork t.id e)) })
        ∧ (t.phase ≠ .started → t.phase ≠ .ended → exec (.abort id) s = .next { s with dev := abortAnswer c.id st 0 (finish t.id 0x06 0 0 e) })))
  ∧ (∀ s id c v, s.dev.cmdNext id opQuery c → eWord c.raw 0 % 256 = 0 → s.dev.vol? (eVolume c.raw) = some v →
      ((s.dev.fnS c.fn).busMaster = true → exec (.queryVolume id) s = .next { s with dev := (okWith c.id 64
        (bufferWrite c.fn c.raw c.segs 0 (volumeRecordQuery (s.dev.startsCmd c id) v) (s.dev.startsCmd c id))) })
      ∧ ((s.dev.fnS c.fn).busMaster = false → exec (.queryVolume id) s = .next { s with dev := finish c.id 0x0E 0x03 0 (s.dev.startsCmd c id) }))
  ∧ (∀ s id c, s.dev.cmdNext id opQuery c → eWord c.raw 0 % 256 = 1 → (s.dev.fnS c.fn).busMaster = true → exec (.queryDarkMap id) s = .next { s with dev := (okWith c.id ((List.range (eNblk c.raw)).filter
          fun i => entryDark (mapGet s.dev (eVolume c.raw) (eLba c.raw + i))).length
        (bufferWrite c.fn c.raw c.segs 0 (darkMap s.dev (eVolume c.raw) (eLba c.raw) (eNblk c.raw)) (s.dev.startsCmd c id))) })
  ∧ (∀ s id c r, s.dev.ctx? id = some c → c.phase = .admitted → c.waitOn = none → c.stopping = false → s.dev.hostRuns = true →
      recheck s.dev c = some r →
      (eOpcode c.raw = opRead → exec (.read id) s = .next { s with dev := finish id r.1 r.2.1 r.2.2 s.dev })
      ∧ (eOpcode c.raw = opWrite → exec (.write id) s = .next { s with dev := finish id r.1 r.2.1 r.2.2 s.dev })
      ∧ (eOpcode c.raw = opTrim → exec (.trim id) s = .next { s with dev := finish id r.1 r.2.1 r.2.2 s.dev })
      ∧ (eOpcode c.raw = opZeroes → exec (.writeZeroes id) s = .next { s with dev := finish id r.1 r.2.1 r.2.2 s.dev })
      ∧ (eOpcode c.raw = opCopy → exec (.copy id) s = .next { s with dev := finish id r.1 r.2.1 r.2.2 s.dev }))
  ∧ (∀ s c, checkState s c.fn c.raw = some (0x05, 0x15, 0) → recheck s c = none)

/-- For a tenant that is not isolated: with the head of its list of a class not of class 0, the command is admitted if the operation
bucket holds at least 1 and the byte bucket at least the lesser of the cost and its depth (a rate of 0 never refuses), the tenant's
levels, refilled to now, lose exactly 1 and the cost; it leaves Iris; no other tenant changes. If a bucket does not allow it, nothing
changes. Class 0 that the port's reservation cannot serve is demoted to class 1 and counted. The commands whose own effect it gives
as the next state that exec answers, under conditions on the state and the operands alone: irisAdmit. -/
def Obligations.IrisAdmitsByTheBuckets : Prop :=
  (∀ s t cls c x, irisHead s.dev (some t) cls = some c → s.dev.hostRuns = true → isolatedFn s.dev c.fn = false →
      x = (s.dev.ten t).refilled s.dev.tm.now → eClass c.raw ≠ 0 →
      (x.admits (byteCost c.raw) = true → ∃ d : Dev, exec (.irisAdmit (some t) cls) s = .next { s with dev := d } ∧ (d.ten t = x.charge (byteCost c.raw) ∧ c.id ∉ d.cm.irisQ ∧ (∀ u, u ≠ t → d.ten u = s.dev.ten u)
            ∧ (d.ctx? c.id).map (fun y => (y.phase, y.cls, y.demoted))
                = (s.dev.ctx? c.id).map (fun _ => (Phase.admitted, eClass c.raw, false))
            ∧ d = { s.dev with tenants := d.tenants, cm := d.cm, ports := d.ports }))
      ∧ (x.admits (byteCost c.raw) = false → exec (.irisAdmit (some t) cls) s = .next s))
  ∧ (∀ s cls c, irisHead s.dev none cls = some c → s.dev.hostRuns = true → eClass c.raw = 0 →
      drawReserve s.dev c.fn.port (towardsHost c.raw) (byteCost c.raw) = none → ∃ d : Dev, exec (.irisAdmit none cls) s = .next { s with dev := d } ∧ ((d.ctx? c.id).map (fun y => (y.phase, y.cls, y.demoted)) = (s.dev.ctx? c.id).map (fun _ => (Phase.admitted, 1, true))))
  ∧ (∀ (x : Tenant) bytes, x.opRate ≠ 0 → x.byteRate ≠ 0 → x.admits bytes = true →
      1000000000 ≤ x.opLevel ∧ ((min bytes x.byteDepthB : Nat) : Int) * 1000000000 ≤ x.byteLevel
        ∧ (x.charge bytes).opLevel = x.opLevel - 1000000000
        ∧ (x.charge bytes).byteLevel = x.byteLevel - (bytes : Int) * 1000000000)

/-- A valid TENANT_SET defines the tenant with the entry's rates and depths; TENANT_DELETE of an undefined tenant is OK, of an owner
is 0x14, else the tenant is no more defined, keeps its counters, and they go with the next snapshot. FUNCTION_BIND binds and sets the
quota, FUNCTION_UNBIND undoes it, both 0x24 while slots are held. TENANT_ISOLATE marks the tenant and ends what has not started;
ISOLATION_COMPLETE ends the rest and answers the count; TENANT_RELEASE undoes it. TIME_SET steps unlocked time. METER_RING_SET places
the ring; ROLLOVER marks; a snapshot takes the next sequence; CAPACITY_TICK adds the blocks held; METER_RING_WRITE writes the oldest
snapshot whole if there is room; the head is checked as a CQ head. The commands whose own effect it gives as the next state that exec
answers, under conditions on the state and the operands alone: tenantSet, tenantDelete, functionBind, functionUnbind, tenantIsolate,
isolationComplete, tenantRelease, timeSet, meterRingHead, meterRingSet, meterRollover, meterSnapshot, capacityTick, meterRingWrite. -/
def Obligations.TenantsFunctionsAndMeters : Prop :=
  (∀ s c, s.dev.adminNext 0x8B c → bit (eWord c.raw 0) 31 = false → tenantField c.raw = none → s.dev.mt.enabled = false →
      exec .tenantSet s = .next { s with dev := (okWith c.id 0 ((s.dev.starts c).setTen (eWord c.raw 0 % 4096)
        ((s.dev.ten (eWord c.raw 0 % 4096)).replace c.raw s.dev.tm.now))) })
  ∧ (∀ (x : Tenant) raw now, (x.replace raw now).defined = true ∧ (x.replace raw now).opRate = eWord raw 1
      ∧ (x.replace raw now).opDepth = eWord raw 2 ∧ (x.replace raw now).byteRate = eWord raw 3
      ∧ (x.replace raw now).byteDepth = eWord raw 4 ∧ (x.replace raw now).opLevel ≤ (eWord raw 2 * 1000000000 : Nat)
      ∧ (x.replace raw now).blocksRead = x.blocksRead ∧ (x.replace raw now).commands = x.commands)
  ∧ (∀ s c t, s.dev.adminNext 0x8B c → bit (eWord c.raw 0) 31 = true → stray c.raw 0 0x80000FFF = false →
      t = eWord c.raw 0 % 4096 →
      ((s.dev.ten t).defined = false → exec .tenantDelete s = .next { s with dev := okWith c.id 0 (s.dev.starts c) })
      ∧ ((s.dev.ten t).defined = true → ownsAny s.dev t = true → exec .tenantDelete s = .next { s with dev := finish c.id 0x05 0x14 0 (s.dev.starts c) })
      ∧ ((s.dev.ten t).defined = true → ownsAny s.dev t = false → exec .tenantDelete s = .next { s with dev := (okWith c.id 0 ((s.dev.starts c).setTen t
          { Tenant.undefined.withCounters (s.dev.ten t) with deleting := true })) }))
  ∧ (∀ x : Tenant, (Tenant.undefined.withCounters x).defined = false ∧ (Tenant.undefined.withCounters x).isolated = false
      ∧ (Tenant.undefined.withCounters x).blocksRead = x.blocksRead ∧ (Tenant.undefined.withCounters x).commands = x.commands)
  ∧ (∀ s c, s.dev.adminNext 0x8C c → bit (eWord c.raw 0) 31 = false → bindTarget s.dev c.raw = false →
      stray c.raw 1 0xFFF = false → (s.dev.ten (eWord c.raw 1 % 4096)).defined = true → eWord c.raw 2 ≠ 0 →
      eWord c.raw 2 ≤ queueLimit (bindFn c.raw) → slotsHeld s.dev (bindFn c.raw) = 0 → ∃ d : Dev, d = (s.dev.starts c).setFn (bindFn c.raw)
          { s.dev.fnS (bindFn c.raw) with bound := some (eWord c.raw 1 % 4096), quota := eWord c.raw 2 }
        ∧ exec .functionBind s = .next { s with dev := (okWith c.id 0 (if d.fnExists (bindFn c.raw) then
            setSummary 1 (isolatedFn d (bindFn c.raw)) d (bindFn c.raw) else d)) })
  ∧ (∀ s c, s.dev.adminNext 0x8C c → bit (eWord c.raw 0) 31 = true → bindTarget s.dev c.raw = false →
      (0 < slotsHeld s.dev (bindFn c.raw) → exec .functionUnbind s = .next { s with dev := finish c.id 0x05 0x24 0 (s.dev.starts c) })
      ∧ (slotsHeld s.dev (bindFn c.raw) = 0 → ∃ d : Dev, d = (s.dev.starts c).setFn (bindFn c.raw)
            { s.dev.fnS (bindFn c.raw) with bound := none, quota := 0 }
          ∧ exec .functionUnbind s = .next { s with dev := (okWith c.id 0 (if d.fnExists (bindFn c.raw) then
              setSummary 1 false d (bindFn c.raw) else d)) }))
  ∧ (∀ s c t, s.dev.adminNext 0x8D c → t = eWord c.raw 0 % 4096 → stray c.raw 0 0xFFF = false → (s.dev.ten t).defined = true →
      ((s.dev.ten t).isolated = true → exec .tenantIsolate s = .next { s with dev := okWith c.id 0 (s.dev.starts c) })
      ∧ ((s.dev.ten t).isolated = false → ∃ d : Dev, exec .tenantIsolate s = .next { s with dev := d } ∧ (d.cm.isolating.map (fun r => (r.1, r.2.1)) = some (t, c.id))))
  ∧ (∀ s t id n, s.dev.cm.isolating = some (t, id, n) → s.dev.hostRuns = true → (tenantCtxs s.dev t).filter (·.stopping) = [] →
      exec .isolationComplete s = .next { s with dev := (okWith id n (s.dev.allFns.foldl
        (fun e f => if (e.fnS f).bound = some t then setSummary 1 true e f else e)
        { s.dev with cm := { s.dev.cm with isolating := none } })) })
  ∧ (∀ s c t, s.dev.adminNext 0x8E c → t = eWord c.raw 0 % 4096 → stray c.raw 0 0xFFF = false → (s.dev.ten t).defined = true →
      exec .tenantRelease s = .next { s with dev := (okWith c.id 0 (s.dev.allFns.foldl
        (fun e f => if (e.fnS f).bound = some t then setSummary 1 false e f else e)
        ((s.dev.starts c).setTen t { s.dev.ten t with isolated := false }))) })
  ∧ (∀ s c, s.dev.adminNext 0x97 c → eWord c.raw 2 < 1000000000 → s.dev.val Fam.timeSource ≠ 2 → exec .timeSet s = .next { s with dev := (okWith c.id 0 ((stepTime ((eWord c.raw 0 + 2 ^ 32 * eWord c.raw 1) * 1000000000 + eWord c.raw 2)
        (s.dev.starts c)).setVal Fam.timeSource 0 1)) })
  ∧ (∀ s c, s.dev.adminNext 0x95 c → (eWord c.raw 0 + 2 ^ 32 * eWord c.raw 1) % 4096 = 0 → stray c.raw 2 0xFFFF = false →
      1 ≤ eWord c.raw 2 → (definedTenants s.dev).length ≤ eWord c.raw 2 + 1 → stray c.raw 3 0x800007FF = false → ∃ d : Dev,
        d.mt.depth = eWord c.raw 2 + 1 ∧ d.mt.base.toNat = eWord c.raw 0 + 2 ^ 32 * eWord c.raw 1
          ∧ d.mt.enabled = bit (eWord c.raw 3) 31 ∧ d.val Fam.meterRingHead = 0 ∧ d.val Fam.meterRingTail = 0
          ∧ exec .meterRingSet s = .next { s with dev := okWith c.id 0 d })
  ∧ (∀ s c, s.dev.adminNext 0x96 c → stray c.raw 0 0x80000FFF = false → bit (eWord c.raw 0) 31 = false →
      (s.dev.ten (eWord c.raw 0 % 4096)).defined = true → exec .meterRollover s = .next { s with dev := (okWith c.id 0 ((s.dev.starts c).setTen
        (eWord c.raw 0 % 4096) { s.dev.ten (eWord c.raw 0 % 4096) with rollover := true })) })
  ∧ (∀ s, metersWritten s.dev = true → s.dev.mt.lastMinute < s.dev.tm.device / 60000000000 →
      ∃ (e d : Dev) (seq : Nat) (recs : List (Nat × Tenant × List Byte)), e = s.dev.bump Fam.meterSequence
        ∧ seq = e.val Fam.meterSequence
        ∧ recs = (e.tenants.filter fun x => x.2.defined || x.2.deleting).map (fun x => (x.1, x.2, meterRecord e seq x.1 x.2))
        ∧ d = enterBacklog seq (recs.map (·.2.2)) (recs.foldl (fun y r => y.setTen r.1 (r.2.1.afterSnapshot r.2.2)) e)
        ∧ exec .meterSnapshot s = .next { s with dev := (streamSend (.snapshot seq (recs.map fun r => (r.1, r.2.2)))
            (notice 2 none (noticePayload 0xFFFF 0 2 s.dev.tm.device (seq % 2 ^ 32) (seq / 2 ^ 32)) { d with
              mt := { d.mt with lastMinute := s.dev.tm.device / 60000000000, stepped := false, takeover := false, eclipsed := false } })) })
  ∧ (∀ s, metersWritten s.dev = false → exec .meterSnapshot s = .next s)
  ∧ (∀ s, s.dev.coreUp = true → s.dev.inMode .eclipse = false → s.dev.inMode .mirror = false → exec .capacityTick s = .next { s with dev := ((definedTenants s.dev).foldl
      (fun e t => e.setTen t { e.ten t with capSeconds := ((e.ten t).capSeconds + e.tenantBlocks t) % 2 ^ 64 }) s.dev) })
  ∧ (∀ s q recs r, s.dev.mt.backlog = (q, recs) :: r → s.dev.mt.enabled = true → metersWritten s.dev = true →
      rCount s.dev.mt.depth (s.dev.val Fam.meterRingHead) (s.dev.val Fam.meterRingTail) + recs.length ≤ s.dev.mt.depth →
      ∃ d : Dev, d = recs.foldl writeMeterRecord { s.dev with mt := { s.dev.mt with backlog := r } }
        ∧ exec .meterRingWrite s = .next { s with dev := raiseVector d.adminFn d.mt.vector d })
  ∧ (∀ s who v, s.dev.accepts who Fam.meterRingHead 0 →
      (meterHeadOk (BitVec.toNat v) s.dev = true → exec (.meterRingHead who v) s = .next { s with dev := shown who (s.dev.setVal Fam.meterRingHead 0 v.toNat) })
      ∧ (meterHeadOk (BitVec.toNat v) s.dev = false → exec (.meterRingHead who v) s = .next { s with dev := emit (.dict who rUnavailable []) (refuseWrite s.dev) }))

/-- Host data that came back makes its unit ready, encrypted; a failed read fails the unit with 0x0E, qualifier 2; data read again
for a placed unit takes the place of what stood. A ready unit is placed. The close timer forces its beam closed. A beam that is ready
commits, and what waited for room is placed again. The checkpoint starts and, complete, advances the map generation; a page that
reached no copy is due again and its array's horizon stays. A dirty journal is written. The cleaner takes the SEALED segment with the
fewest live blocks; named another, it does nothing. A releasable segment is freed in SOLO and LEAD alone. A class-0 read that is late
is read around, within the array's limit. The commands whose own effect it gives as the next state that exec answers, under
conditions on the state and the operands alone: hostDataReadComplete, unitPlace, beamCloseTimer, beamCommit, checkpointTimer,
checkpointComplete, journalBatchTimer, cleanerSelect, segmentFree, readAroundTrigger. -/
def Obligations.BeamsMapAndCleanerSteps : Prop :=
  (∀ s id k c p, s.dev.ctx? id = some c → c.units[k]? = some p → c.phase = .started → eOpcode c.raw = opWrite → p.st = .reading →
      s.dev.hostRuns = true →
      exec (.hostDataReadComplete id k .fail) s = .next { s with dev := settle (modPiece id k (.failed 0x0E 2) s.dev) }
      ∧ (∀ b, exec (.hostDataReadComplete id k (.bytes b)) s = .next { s with dev := (modPiece id k (.ready ((List.range p.len).map fun i =>
          (.inl (xtsEncrypt (c.keys.headD 0) (p.lba + i) (fitBytes 4096 (b.drop (4096 * i)))) : Sum Block Bool)) 0)
            (match c.tenant with | some t => meterEnc t p.len s.dev | none => s.dev)) }))
  ∧ (∀ s id k c p seq v h, s.dev.ctx? id = some c → c.units[k]? = some p → p.st = .placed seq → p.again = true →
      s.dev.vol? (eVolume c.raw) = some v → s.dev.hostRuns = true →
      exec (.hostDataReadComplete id k h) s = .next { s with dev := settle (readAgain v.array seq id k c p h s.dev) })
  ∧ (∀ s id k c, s.dev.ctx? id = some c → c.phase = .started → s.dev.hostRuns = true →
      (eOpcode c.raw ≠ 0x84 → c.stopping = false → ∀ e,
        e = (match s.dev.vol? (eVolume c.raw) with | some v => replaceAll v.array s.dev | none => s.dev) →
        exec (.unitPlace id k) s = .next { s with dev := settle (forceOrdered (placePiece id k e)) })
      ∧ (eOpcode c.raw = 0x84 → exec (.unitPlace id k) s = .next { s with dev := settle (placeShrink c s.dev) }))
  ∧ (∀ s a n, s.dev.executing = true → exec (.beamCloseTimer a n) s = .next { s with dev := settle (forceClose a (fun b => b.num == n) s.dev) })
  ∧ (∀ s a n x b, s.dev.arr? a = some x → x.beams.find? (·.num == n) = some b → commitReady s.dev x b = true →
      exec (.beamCommit a n) s = .next { s with dev := replaceAll a (commitBeam a b s.dev) })
  ∧ (∀ s a n x b, s.dev.arr? a = some x → x.beams.find? (·.num == n) = some b → commitReady s.dev x b = false →
      exec (.beamCommit a n) s = .next s)
  ∧ (∀ s, s.dev.executing = true → s.dev.memberIo = true → s.dev.ms.checkpoint = false → ∃ d : Dev, exec .checkpointTimer s = .next { s with dev := d } ∧ (d.ms.checkpoint = true ∧ d.ms.dirtyPages = []))
  ∧ (∀ s, s.dev.executing = true → s.dev.ms.checkpoint = true → pagesBusy s.dev = false → ∃ d : Dev,
      exec .checkpointComplete s = .next { s with dev := (s.dev.arrays.map (·.1)).foldl moveHorizon d } ∧ d.ms.checkpoint = false
        ∧ d.ms.mapGen = s.dev.ms.mapGen + 1 ∧ d.ms.unwritten = []
        ∧ (∀ p ∈ s.dev.ms.unwritten, p.1 < 16384 → p ∈ d.ms.dirtyPages)
        ∧ (∀ a, d.arr? a = (s.dev.arr? a).map fun x =>
            if (s.dev.ms.unwritten.map fun p => ownerArray s.dev p.1).contains a then { x with ckpt := none } else x))
  ∧ (∀ a x m (d : Dev), d.arr? a = some x → x.ckpt = some m → ∃ y : Arr, moveHorizon d a = writeJournal a (d.setArr a y)
      ∧ y.ckpt = (x.passHorizon m).ckpt ∧ y.openList = (x.passHorizon m).openList ∧ y.horizon = (x.passHorizon m).horizon
      ∧ (∀ i ∈ y.outage, i ∈ (x.passHorizon m).outage ∧ memberServes d ((x.passHorizon m).geom.members.getD i 0x800) = false))
  ∧ (∀ s a x, s.dev.arr? a = some x → x.jdirty ≠ [] → s.dev.executing = true → exec (.journalBatchTimer a) s = .next { s with dev := writeJournal a s.dev })
  ∧ (∀ s a x g, s.dev.arr? a = some x → sweepsRun s.dev x = true → x.cleanerHold = false →
      x.freeSegments * 100 < s.dev.val Fam.cleanerStartFreePct * x.segs → cleanerChoice x = some g →
      exec (.cleanerSelect a g) s = .next { s with dev := (settle (cleanAll a (s.dev.setArr a { x with
        seg := tset x.seg g { x.segment g with st := .cleaning } Segment.free, cleaning := x.cleaning ++ [g] }))) })
  ∧ (∀ s a x g h, s.dev.arr? a = some x → cleanerChoice x = some g → sweepsRun s.dev x = false ∨ h ≠ g → exec (.cleanerSelect a h) s = .next s)
  ∧ (∀ (x : Arr) g, cleanerChoice x = some g → ∀ e ∈ x.seg, e.2.st = .sealed → x.beforeHorizon e.1 = true →
      ∃ v ∈ x.seg, v.1 = g ∧ v.2.st = .sealed ∧ v.2.live ≤ e.2.live)
  ∧ (∀ s a g x, s.dev.arr? a = some x → segmentReleasable s.dev a x g = true → s.dev.serving = true → s.dev.executing = true →
      ∃ d : Dev, d = (x.geomOf g).members.foldl (fun e m => if memberServes e m && !isPlatter m then
          memberCtl m "Deallocate" ((e.mem m).a0 + g * 64 * 2 ^ x.shift) e else e) s.dev
        ∧ exec (.segmentFree a g) s = .next { s with dev := (settle (replaceAll a
            (sendSegment a g (d.setArr a { x with seg := tdel x.seg g, cleaning := x.cleaning.filter (· != g) })))) })
  ∧ (∀ s a g, s.dev.serving = false → exec (.segmentFree a g) s = .next s)
  ∧ (∀ s id j x l, s.dev.job? id = some j → s.dev.arr? j.loc.array = some x → jobClassZero s.dev j = true →
      isPlatter (x.geom.members.headD 0) = false → s.dev.executing = true →
      l = (j.reading s.dev x).filter (!j.extra.contains ·) → l ≠ [] →
      (∀ b, (survivors (j.geom x) (j.erased s.dev x b ++ (l.filter (·.2 == b)).map (·.1))).isSome = true) →
      (s.dev.val Fam.arrayReadaroundMax j.loc.array ≤ readArounds s.dev j.loc.array →
        exec (.readAroundTrigger id) s = .next { s with dev := s.dev.bump Fam.arrayReadaroundSkipped j.loc.array })
      ∧ (readArounds s.dev j.loc.array < s.dev.val Fam.arrayReadaroundMax j.loc.array → exec (.readAroundTrigger id) s = .next { s with dev := (settle (advanceWork
          (advanceJob id ((s.dev.bump Fam.arrayReadarounds j.loc.array).modJob id fun j' => { j' with around := true, extra := j'.extra ++ l })))) }))

/-- A valid VOLUME_CREATE makes a READY volume of the capacity, tenant and array named, writable, with nothing mapped, and with a key
of the device's own only if asked. VOLUME_DELETE makes it DELETING for this command, which ends once its deltas have committed; twice
is 0x15. VOLUME_RESIZE to a larger capacity takes extents; to a smaller one places one range delta of the blocks beyond it, and is
0x14 while commands name the volume. VOLUME_SET sets read-only and write-back. A key that unwraps is taken, stored if asked; equal
halves or a wrong check value are INVALID_FIELD 0x10. KEY_UNLOAD removes the key and the stored one and keeps the check value.
VOLUME_SET, KEY_LOAD and KEY_UNLOAD of a DELETING volume are 0x15. The commands whose own effect it gives as the next state that exec
answers, under conditions on the state and the operands alone: volumeCreate, volumeDelete, volumeResize, volumeSet, keyLoad,
keyUnload. -/
def Obligations.VolumesAndKeysAreManaged : Prop :=
  (∀ s c v e, s.dev.adminNext 0x82 c → v = wVolume c.raw → stray c.raw 0 0x3F3FFF = false → s.dev.vol? v = none →
      (s.dev.arr? (bits (eWord c.raw 0) 21 16)).isSome = true → s.dev.arrayOffline (bits (eWord c.raw 0) 21 16) = false → stray c.raw 1 0xFFF = false →
      (s.dev.ten (eWord c.raw 1 % 4096)).defined = true → capacityBad s.dev (wCapacity c.raw) 0 = false → stray c.raw 4 1 = false →
      addExtents v (volumeExtents (wCapacity c.raw)) (s.dev.starts c) = some e → ∃ (d : Dev) (x : Vol),
        d = (if bit (eWord c.raw 4) 0 then e.draw else e) ∧ x.st = .ready ∧ x.capacity = wCapacity c.raw
        ∧ x.tenant = eWord c.raw 1 % 4096 ∧ x.array = bits (eWord c.raw 0) 21 16 ∧ x.readOnly = false ∧ x.writeBack = false
        ∧ x.map = [] ∧ x.allocated = 0 ∧ x.key.isSome = bit (eWord c.raw 4) 0 ∧ x.stored = x.key ∧ x.kcv = x.key.map keyCheckValue
        ∧ exec .volumeCreate s = .next { s with dev := okWith c.id 0 (writeCatalogue (sendVolume v (d.setVol v x))) })
  ∧ (∀ s c v x, s.dev.adminNext 0x83 c → v = wVolume c.raw → s.dev.vol? v = some x → stray c.raw 0 0x3FFF = false →
      (x.st = .deleting → exec .volumeDelete s = .next { s with dev := finish c.id 0x05 0x15 0 (s.dev.starts c) })
      ∧ (x.st = .ready → exec .volumeDelete s = .next { s with dev := settle (dropKept v ((s.dev.starts c).setVol v { x with st := .deleting, deleter := some c.id })) }))
  ∧ (∀ s c v x cap, s.dev.adminNext 0x84 c → v = wVolume c.raw → cap = wCapacity c.raw → s.dev.vol? v = some x →
      stray c.raw 0 0x3FFF = false → capacityBad s.dev cap (pagesOf x.capacity) = false → x.st = .ready →
      (∀ e, x.capacity ≤ cap → addExtents v (volumeExtents cap - volumeExtents x.capacity) (s.dev.starts c) = some e →
        exec .volumeResize s = .next { s with dev := resizeDone c.id v cap e })
      ∧ (cap < x.capacity → volumeBusy s.dev v = true → exec .volumeResize s = .next { s with dev := finish c.id 0x05 0x14 0 (s.dev.starts c) })
      ∧ (cap < x.capacity → volumeBusy s.dev v = false → ∃ (p : Piece) (c' : Ctx), p.lba = cap ∧ p.len = x.capacity - cap
          ∧ p.st = .ready [] 0 ∧ c'.id = c.id ∧ c'.raw = c.raw ∧ c'.units = [p] ∧ exec .volumeResize s = .next { s with dev := settle (placeShrink c' ((s.dev.starts c).modCtx c.id fun y => { y with units := [p] })) }))
  ∧ (∀ s c x, s.dev.adminNext 0x85 c → s.dev.vol? (eVolume c.raw) = some x → stray c.raw 0 0x101 = false →
      (x.st = .deleting → exec .volumeSet s = .next { s with dev := finish c.id 0x05 0x15 0 (s.dev.starts c) })
      ∧ (x.st = .ready → exec .volumeSet s = .next { s with dev := (settle (okWith c.id 0 (writeCatalogue (sendVolume (eVolume c.raw) ((s.dev.starts c).setVol
        (eVolume c.raw) { x with readOnly := bit (eWord c.raw 0) 0, writeBack := bit (eWord c.raw 0) 8 }))))) }))
  ∧ (∀ s c bytes x, s.dev.adminNext 0x8F c → bit (eWord c.raw 0) 17 = false → adminDescField c.raw = none →
      keyVolume s.dev c.raw = some x → x.st = .deleting → exec (.keyLoad bytes) s = .next { s with dev := finish c.id 0x05 0x15 0 (s.dev.starts c) })
  ∧ (∀ s c bytes x b, s.dev.adminNext 0x8F c → bit (eWord c.raw 0) 17 = false → adminDescField c.raw = none →
      keyVolume s.dev c.raw = some x → x.st = .ready → adminData c 72 bytes = .inl b →
      match keyUnwrap (le 32 Config.deviceKek.toNat) b with
      | none => exec (.keyLoad bytes) s = .next { s with dev := finish c.id 0x02 0x10 0 (s.dev.starts c) }
      | some k => ∀ key : BitVec 512, key = BitVec.ofNat 512 (unle k) →
        (key.extractLsb' 0 256 = key.extractLsb' 256 256 ∨ (0 < x.allocated ∧ x.kcv.isSome = true ∧ x.kcv ≠ some (keyCheckValue key)) →
          exec (.keyLoad bytes) s = .next { s with dev := finish c.id 0x02 0x10 0 (s.dev.starts c) })
        ∧ (key.extractLsb' 0 256 ≠ key.extractLsb' 256 256 →
          (x.allocated = 0 ∨ x.kcv = none ∨ x.kcv = some (keyCheckValue key)) → ∃ y : Vol, y.key = some key
          ∧ y.kcv = some (keyCheckValue key) ∧ y.stored = (if bit (eWord c.raw 0) 16 then some key else x.stored)
          ∧ y.map = x.map ∧ y.capacity = x.capacity ∧ ∀ d, d = streamSend (.key (wVolume c.raw) (some key))
              ((s.dev.starts c).setVol (wVolume c.raw) y) →
            exec (.keyLoad bytes) s = .next { s with dev := okWith c.id 0 (if bit (eWord c.raw 0) 16 then writeCatalogue d else d) }))
  ∧ (∀ s c x, s.dev.adminNext 0x8F c → bit (eWord c.raw 0) 17 = true → keyVolume s.dev c.raw = some x →
      (x.st = .deleting → exec .keyUnload s = .next { s with dev := finish c.id 0x05 0x15 0 (s.dev.starts c) })
      ∧ (x.st = .ready → exec .keyUnload s = .next { s with dev := (okWith c.id 0 (writeCatalogue (streamSend (.key (wVolume c.raw) none)
        ((s.dev.starts c).setVol (wVolume c.raw) { x with key := none, stored := none })))) }))

/-- A valid ARRAY_CREATE places an array of the members named, epoch 1, write sequence 1, its size the result word. ARRAY_DELETE
without volumes removes it, releases its members and ends a waiting command with 0x10; with volumes it is 0x14. REBUILD with no
failed slot is OK; otherwise it takes the epoch barrier for the spare named, the first fitting one (0x1B with none), or for a
relocation. Pause and resume set the sweep's state. RESHAPE takes the barrier for the new geometry, and is refused 0x10 when OFFLINE,
0x11 while rebuilding, 0x12 while reshaping. The commands whose own effect it gives as the next state that exec answers, under
conditions on the state and the operands alone: arrayCreate, arrayDelete, arrayRebuildStart, arrayRebuildPause, arrayRebuildResume,
arrayReshapePause, arrayReshapeResume, arrayReshapeStart. -/
def Obligations.ArraysAreCreatedRebuiltReshaped : Prop :=
  (∀ s c bytes b a shift g l e, s.dev.adminNext 0x86 c → adminDescField c.raw = none → a = eWord c.raw 0 % 64 →
      shift = (if bits (eWord c.raw 1) 20 16 = 0 then 17 else bits (eWord c.raw 1) 20 16) →
      g = wordGeom (bit (eWord c.raw 0) 8) (bits (eWord c.raw 1) 7 0) (bits (eWord c.raw 1) 10 8) → geomOk g shift = true →
      stray c.raw 1 0x1F07FF = false → stray c.raw 0 0x33F = false → s.dev.arr? a = none → adminData c (2 * g.width) bytes = .inl b →
      l = tableEntries g.width b → tableBad s.dev shift l = false → 3 ≤ (mapMembers s.dev).length →
      addExtents (arrayOwner a) (arrayExtents (segmentsOf s.dev shift l)) (s.dev.starts c) = some e → ∃ (d : Dev) (x : Arr),
        d.arr? a = some x ∧ x.geom.members = l ∧ x.geom.epoch = 1 ∧ x.geom.mirror = g.mirror ∧ x.shift = shift ∧ x.nextSeq = 1
        ∧ x.segs = segmentsOf s.dev shift l ∧ x.beams = [] ∧ x.offline = 0 ∧ x.writeThrough = bit (eWord c.raw 0) 9
        ∧ exec (.arrayCreate bytes) s = .next { s with dev := okWith c.id (segmentsOf s.dev shift l) (issueJournal a (writeCatalogue d)) })
  ∧ (∀ s c a x, s.dev.adminNext 0x87 c → a = eWord c.raw 0 % 64 → s.dev.arr? a = some x → stray c.raw 0 0x3F = false →
      ((s.dev.vols.any fun v => v.2.array == a) = true → exec .arrayDelete s = .next { s with dev := finish c.id 0x05 0x14 0 (s.dev.starts c) })
      ∧ ((s.dev.vols.any fun v => v.2.array == a) = false → ∃ d e : Dev, d.arrays = tdel s.dev.arrays a
          ∧ e = x.allMembers.foldl (fun y m => releaseMember m y) (writeCatalogue (dropExtents (arrayOwner a) d))
          ∧ (x.barrier = none → exec .arrayDelete s = .next { s with dev := okWith c.id 0 e })
          ∧ (∀ k w, x.barrier = some (k, some w) → exec .arrayDelete s = .next { s with dev := okWith c.id 0 (finish w 0x05 0x10 0 e) })))
  ∧ (∀ s c a x, s.dev.adminNext 0x89 c → bits (eWord c.raw 0) 13 12 = 0 → a = eWord c.raw 0 % 64 → s.dev.arr? a = some x →
      rebuildField s.dev c.raw = false → bits (eWord c.raw 0) 9 8 = 1 → stray c.raw 1 0xFF07FF = false →
      bits (eWord c.raw 1) 23 16 = 0xFF → bits (eWord c.raw 1) 10 0 = 0x7FF → x.offline = 0 → x.reshaping = false →
      x.rebuilding = false →
      (x.failed s.dev = [] → exec .arrayRebuildStart s = .next { s with dev := okWith c.id 0 (s.dev.starts c) })
      ∧ (x.failed s.dev ≠ [] → sparesFor s.dev a x = [] → exec .arrayRebuildStart s = .next { s with dev := finish c.id 0x05 0x1B 0 (s.dev.starts c) })
      ∧ (∀ f fs sp sps, x.failed s.dev = f :: fs → sparesFor s.dev a x = sp :: sps →
          exec .arrayRebuildStart s = .next { s with dev := takeBarrier a (.facet f sp) (some c.id) (s.dev.starts c) }))
  ∧ (∀ s c a x, s.dev.adminNext 0x89 c → bits (eWord c.raw 0) 13 12 = 0 → a = eWord c.raw 0 % 64 → s.dev.arr? a = some x →
      rebuildField s.dev c.raw = false → bits (eWord c.raw 0) 9 8 = 0 → relocationFits s.dev a x (x.failed s.dev) = true →
      x.offline = 0 → x.reshaping = false → x.rebuilding = false → x.failed s.dev ≠ [] →
      exec .arrayRebuildStart s = .next { s with dev := takeBarrier a .relocation (some c.id) (s.dev.starts c) })
  ∧ (∀ s c a x, s.dev.adminNext 0x89 c → a = eWord c.raw 0 % 64 → s.dev.arr? a = some x → rebuildField s.dev c.raw = false →
      x.offline = 0 → x.reshaping = false → x.rebuilding = true → x.sweep.isSome = true →
      (bits (eWord c.raw 0) 13 12 = 1 → exec .arrayRebuildPause s = .next { s with dev := okWith c.id 0 ((s.dev.starts c).setArr a { x with paused := true }) })
      ∧ (bits (eWord c.raw 0) 13 12 = 2 → exec .arrayRebuildResume s = .next { s with dev := okWith c.id 0 ((s.dev.starts c).setArr a { x with paused := false }) }))
  ∧ (∀ s c a x, s.dev.adminNext 0x88 c → a = eWord c.raw 0 % 64 → s.dev.arr? a = some x → stray c.raw 0 0x313F = false →
      x.offline = 0 → x.sweep = some .reshape →
      (bits (eWord c.raw 0) 13 12 = 1 → exec .arrayReshapePause s = .next { s with dev := okWith c.id 0 ((s.dev.starts c).setArr a { x with paused := true }) })
      ∧ (bits (eWord c.raw 0) 13 12 = 2 → exec .arrayReshapeResume s = .next { s with dev := okWith c.id 0 ((s.dev.starts c).setArr a { x with paused := false }) }))
  ∧ (∀ s c bytes a x, s.dev.adminNext 0x88 c → bits (eWord c.raw 0) 13 12 = 0 → a = eWord c.raw 0 % 64 → s.dev.arr? a = some x →
      stray c.raw 0 0x313F = false →
      (x.offline ≠ 0 → exec (.arrayReshapeStart bytes) s = .next { s with dev := finish c.id 0x05 0x10 0 (s.dev.starts c) })
      ∧ (x.offline = 0 → x.reshaping = true → exec (.arrayReshapeStart bytes) s = .next { s with dev := finish c.id 0x05 0x12 0 (s.dev.starts c) })
      ∧ (x.offline = 0 → x.reshaping = false → x.rebuilding = true →
          exec (.arrayReshapeStart bytes) s = .next { s with dev := finish c.id 0x05 0x11 0 (s.dev.starts c) })
      ∧ (∀ g g' b l, x.offline = 0 → x.reshaping = false → x.rebuilding = false → arrayState s.dev x ≠ 4 →
          g = wordGeom (bit (eWord c.raw 0) 8) (bits (eWord c.raw 1) 7 0) (bits (eWord c.raw 1) 10 8) → geomOk g x.shift = true →
          stray c.raw 1 0x7FF = false → adminDescField c.raw = none → adminData c (2 * g.width) bytes = .inl b →
          l = tableEntries g.width b → g' = { g with k := if g.mirror then 1 else g.k, members := l } →
          reshapeTableBad s.dev x l = false → capacityFits s.dev a x (g'.blocks x.shift) = true →
          exec (.arrayReshapeStart bytes) s = .next { s with dev := takeBarrier a (.reshape g') (some c.id) (s.dev.starts c) }))

/-- Once no beam is open or uncommitted a checkpoint is started until one has passed every beam; then the active segment is sealed,
the new geometry or target is begun, the waiting command is answered, the journal is written and what waited is placed again; where a
relocation no longer fits or no spare is left, the barrier is given up. A facet step with nothing lacking ends the sweep; else it
begins the lowest segment that lacks the facet, or goes on with the one begun; named another segment, it does nothing. A meridian
step passes a segment that is FREE or of the current epoch, waits at an open one, and cleans any other; one of another segment than
the meridian's does nothing. The hold is tried again. The rebuild delay starts the automatic rebuild. A scrub reads a committed beam
whole, named with the array's instance and the segment's epoch; another waits for it. The commands whose own effect it gives as the
next state that exec answers, under conditions on the state and the operands alone: epochBarrierComplete, facetRebuildStep,
meridianSweepStep, holdRetryTimer, rebuildDelayExpire, scrubBeam. -/
def Obligations.BarriersAndSweepsAdvance : Prop :=
  (∀ s a x k ctx, s.dev.arr? a = some x → x.barrier = some (k, ctx) → x.beams = [] → s.dev.executing = true → x.offline = 0 →
      (x.allPassed = false → exec (.epochBarrierComplete a) s = .next { s with dev := startCheckpoint s.dev })
      ∧ (x.allPassed = true → barrierPlan s.dev a x k = none → exec (.epochBarrierComplete a) s = .next { s with dev := barrierFails a k ctx s.dev })
      ∧ (∀ p, x.allPassed = true → barrierPlan s.dev a x k = some p →
        ∃ (d : Dev) (y : Arr) (r : Dev × Nat), d = s.dev.setArr a y.sealSegments ∧ y.active = none
        ∧ y.openList = [] ∧ y.horizon = 0 ∧ y.barrier = x.barrier ∧ y.geom = x.geom ∧ y.seg = x.seg
        ∧ (∀ slot spare, p = .facet slot spare → r = beginFacet a slot spare d)
        ∧ (p = .relocation → r = beginMeridian a (narrower x.geom (x.failed d)) .relocation d)
        ∧ (∀ g, p = .reshape g → r = beginMeridian a g .reshape d)
        ∧ ∀ e, e = sendSweep a (writeJournal a (ctx.elim r.1 (fun id => okWith id r.2 r.1))) →
            exec (.epochBarrierComplete a) s = .next { s with dev := settle (replaceAll a ((e.arrays.map (·.1)).foldl deriveArray e)) }))
  ∧ (∀ (d : Dev) a x slot spare g, ((d.mem spare).st = .spare → barrierPlan d a x (.facet slot spare) = some (.facet slot spare))
      ∧ (relocationFits d a x (x.failed d) = false → barrierPlan d a x .relocation = none)
      ∧ barrierPlan d a x (.reshape g) = some (.reshape g))
  ∧ (∀ s a x k ctx, s.dev.arr? a = some x → x.barrier = some (k, ctx) → x.beams ≠ [] → exec (.epochBarrierComplete a) s = .next s)
  ∧ (∀ s a seg x slot m up, s.dev.arr? a = some x → x.sweep = some (.facet slot m up) → sweepsRun s.dev x = true → x.paused = false →
      x.onHold = false → (s.dev.mem m).st = .target →
      (x.rebuild.isSome = true → exec (.facetRebuildStep a seg) s = .next { s with dev := settle (advanceWork s.dev) })
      ∧ (x.rebuild = none → x.lacking slot = [] → exec (.facetRebuildStep a seg) s = .next { s with dev := settle (endFacetSweep a m s.dev) })
      ∧ (∀ g rest, x.rebuild = none → x.lacking slot = g :: rest → (seg ≠ g → exec (.facetRebuildStep a seg) s = .next s) ∧ ∃ r : Rebuild, r.seg = g ∧ r.slot = slot ∧ r.target = m
          ∧ r.done = [] ∧ r.checked = false ∧ r.fixes = [] ∧ r.writing = false
          ∧ exec (.facetRebuildStep a g) s = .next { s with dev := settle (advanceWork (s.dev.setArr a { x with rebuild := some r })) }))
  ∧ (∀ s a g x, s.dev.arr? a = some x → x.sweep = some .relocation ∨ x.sweep = some .reshape → sweepsRun s.dev x = true →
      x.paused = false → x.onHold = false → x.barrier = none → g = s.dev.val Fam.arrayMeridian a →
      ((x.segment g).st = .free ∨ (x.segment g).epoch = x.geom.epoch → exec (.meridianSweepStep a g) s = .next { s with dev := settle (passMeridian a x s.dev) })
      ∧ ((x.segment g).st = .opened → (x.segment g).epoch ≠ x.geom.epoch → exec (.meridianSweepStep a g) s = .next s)
      ∧ (∀ h, h ≠ g → exec (.meridianSweepStep a h) s = .next s)
      ∧ ((x.segment g).st = .sealed → (x.segment g).epoch ≠ x.geom.epoch →
        x.cleaning.contains g = false → exec (.meridianSweepStep a g) s = .next { s with dev := (settle (cleanSegment a g true (s.dev.setArr a
          (({ x with cleaning := x.cleaning ++ [g] }).setSegment g { x.segment g with st := .cleaning })))) }))
  ∧ (∀ s a x y, s.dev.arr? a = some x → (∀ slot m up, x.sweep = some (.facet slot m up) → (s.dev.mem m).st ≠ .slow) →
      y = { x with onHold := false, cleanerHold := false
                   rebuild := x.rebuild.map fun r => if r.writing then r else { r with checked := false } } →
      ((x.cleanerHold || x.onHold) = true → sweepsRun s.dev y = true →
        exec (.holdRetryTimer a) s = .next { s with dev := settle (advanceWork (cleanAll a (s.dev.setArr a y))) })
      ∧ ((x.cleanerHold || x.onHold) = false ∨ sweepsRun s.dev y = false → exec (.holdRetryTimer a) s = .next { s with dev := s.dev.setArr a y }))
  ∧ (∀ s a slot x, s.dev.arr? a = some x → x.rebuildDue.contains slot = true → (x.failed s.dev).contains slot = true →
      s.dev.serving = true → exec (.rebuildDelayExpire a slot) s = .next { s with dev := autoRebuild a (s.dev.setArr a { x with rebuildDue := x.rebuildDue.filter (· != slot) }) })
  ∧ (∀ s a seg off x e, s.dev.arr? a = some x → sweepsRun s.dev x = true → s.dev.val Fam.arrayScrubIntervalH a ≠ 0 → off < 64 →
      e = (x.segment seg).epoch → (x.segment seg).beams.contains off = true →
      ((∀ b ∈ x.reads, b.use ≠ .scrub) → exec (.scrubBeam a x.inst e seg off) s = .next { s with dev := settle (advanceScrub a (advanceScrub a (beginRead a .scrub (64 * seg + off) s.dev))) })
      ∧ ((∃ b ∈ x.reads, b.use = .scrub) → exec (.scrubBeam a x.inst e seg off) s = .next s)
      ∧ (∀ i j, i ≠ x.inst ∨ j ≠ e → exec (.scrubBeam a i j seg off) s = .next s))

/-- DOMAIN writes the label's domain of a present member. SPARE of an ONLINE, unassigned member makes it a SPARE with its dedication;
RELEASE makes a spare or an unassigned ONLINE member ONLINE and undedicated, and begins the probes of a FAILED one without a slot;
FAIL of a slot's holder makes it FAILED and starts the automatic rebuild; VAULT of an ONLINE, unassigned solid member writes role 3.
A member that does not fit gives STATE_CONFLICT 0x14. The commands whose own effect it gives as the next state that exec answers,
under conditions on the state and the operands alone: domain, spare, release, fail, vault. -/
def Obligations.MemberSetMovesMembers : Prop :=
  (∀ s c m w, s.dev.adminNext 0x8A c → stray c.raw 0 0xF7FF = false → m = bits (eWord c.raw 0) 10 0 → w = eWord c.raw 1 →
      (bits (eWord c.raw 0) 15 12 = 0 → stray c.raw 1 0xFF = false → (s.dev.mem m).st ≠ .absent → exec .domain s = .next { s with dev := okWith c.id 0 (writeLabel m { (s.dev.mem m).labelOr m s.dev.ident.serial with domain := w % 256 } (s.dev.starts c)) })
      ∧ (bits (eWord c.raw 0) 15 12 = 0 → stray c.raw 1 0xFF = false → (s.dev.mem m).st = .absent →
        exec .domain s = .next { s with dev := finish c.id 0x05 0x14 0 (s.dev.starts c) })
      ∧ (bits (eWord c.raw 0) 15 12 = 1 → stray c.raw 1 0x13F = false → (s.dev.mem m).st = .online → unassigned s.dev m = true →
        ∃ d : Dev, d = writeLabel m { (s.dev.mem m).labelOr m s.dev.ident.serial with role := 2 } (s.dev.starts c)
          ∧ exec .spare s = .next { s with dev := (okWith c.id 0 (memberMove m .spare 3
            (d.setMem m { d.mem m with dedicated := if bit w 8 then some (w % 64) else none }))) })
      ∧ (bits (eWord c.raw 0) 15 12 = 1 → stray c.raw 1 0x13F = false → unassigned s.dev m = false →
        exec .spare s = .next { s with dev := finish c.id 0x05 0x14 0 (s.dev.starts c) })
      ∧ (bits (eWord c.raw 0) 15 12 = 2 → (s.dev.mem m).st = .spare → exec .release s = .next { s with dev := (okWith c.id 0 (memberMove m .online 3
          (unassignLabel m ((s.dev.starts c).setMem m { s.dev.mem m with dedicated := none })))) })
      ∧ (bits (eWord c.raw 0) 15 12 = 2 → (s.dev.mem m).st = .failed → holdsSlot s.dev m = false → exec .release s = .next { s with dev := okWith c.id 0 ((s.dev.starts c).setMem m { s.dev.mem m with releasing := true, probes := 0 }) })
      ∧ (∀ a slot, bits (eWord c.raw 0) 15 12 = 3 → slotHeld s.dev m = some (a, slot) → (s.dev.mem m).st ≠ .failed →
          exec .fail s = .next { s with dev := okWith c.id 0 (autoRebuild a (dropDelay a slot (memberMove m .failed 3 (s.dev.starts c)))) })
      ∧ (bits (eWord c.raw 0) 15 12 = 3 → slotHeld s.dev m = none → exec .fail s = .next { s with dev := finish c.id 0x05 0x14 0 (s.dev.starts c) })
      ∧ (bits (eWord c.raw 0) 15 12 = 4 → (s.dev.mem m).st = .online → unassigned s.dev m = true → isPlatter m = false →
          exec .vault s = .next { s with dev := okWith c.id 0 (writeLabel m { (s.dev.mem m).labelOr m s.dev.ident.serial with role := 3 } (s.dev.starts c)) })
      ∧ (bits (eWord c.raw 0) 15 12 = 4 → isPlatter m = true → exec .vault s = .next { s with dev := finish c.id 0x05 0x14 0 (s.dev.starts c) }))

/-- A completion takes its command from the list and acts by Table 10.5; an error status counts and has the Error Information log
read; NOT READY leaves it and the retry issues it again. A timeout counts, moves the member on and gives the command up. The abort
wait resets the controller; CC.EN is set once RDY has fallen; past the limit the member is reset through its link; past the return
time it is gone. A probe reads the label of a SLOW member. The absent time-out fails a slot's holder. A new link is shown, half 1
only on a divided port; a controller is admitted, rejected by its first unmet requirement, or turned away from a full directory or
below the third level; one whose reset has ended has its queues again. A path error, a link that stays down, critical-warning bits, a
fatal status and the temperature do as stated. The commands whose own effect it gives as the next state that exec answers, under
conditions on the state and the operands alone: memberCommandComplete, notReadyRetry, memberTimeout, abortWaitExpire, cstsRdyFall,
readyLimitExpire, memberReturnTimeout, probeIssue, absentFailTimeout, hotplugArrival, controllerReady, memberLinkDownTimeout,
memberPathError, memberCriticalWarning, smartPoll. -/
def Obligations.MemberCommandsEndAndEscalate : Prop :=
  (∀ s tag c data, s.dev.coreUp = true → s.dev.mb.cmds.find? (·.tag == tag) = some c → c.dead = false →
      (s.dev.inMode .eclipse && c.forHost) = false →
      exec (.memberCommandComplete tag .success data) s = .next { s with dev := settle (cmdDone c data (takeCmd c s.dev)) }
      ∧ exec (.memberCommandComplete tag .notReady data) s = .next { s with dev := noteError c.member s.dev }
      ∧ exec (.memberCommandComplete tag .abortRequested data) s = .next { s with dev := settle (cmdWithout c false (takeCmd c (noteError c.member s.dev))) }
      ∧ (c.write = false → exec (.memberCommandComplete tag .unrecoveredRead data) s = .next { s with dev := settle (cmdWithout c true (takeCmd c (noteError c.member s.dev))) })
      ∧ (c.why ≠ .tie → exec (.memberCommandComplete tag .reservationConflict data) s = .next { s with dev := settle (reservationConflict (memberCtl c.member "Get Log Page" 0x80 (takeCmd c (noteError c.member s.dev)))) })
      ∧ (c.write = true → exec (.memberCommandComplete tag .other data) s = .next { s with dev := settle (memberFails c.member 1 (cmdWithout c false (takeCmd c (noteError c.member s.dev)))) }))
  ∧ (∀ m (d : Dev), isPlatter m = false → noteError m d = memberCtl m "Get Log Page" 0x01 (d.bump Fam.memberErrors m))
  ∧ (∀ s tag c, s.dev.mb.cmds.find? (·.tag == tag) = some c → c.dead = false → c.waiting = false → s.dev.executing = true →
      s.dev.memberIo = true → exec (.notReadyRetry tag) s = .next { s with dev := sendCmd c s.dev })
  ∧ (∀ s tag, s.dev.coreUp = true → s.dev.inMode .eclipse = false → exec (.memberTimeout tag) s = .next { s with dev := memberTimeout tag s.dev })
  ∧ (∀ tag c (d : Dev), d.mb.cmds.find? (fun c => c.tag == tag && !c.expired && !c.waiting) = some c → isPlatter c.member = true →
      (d.mem c.member).st = .online → 1 < d.val Fam.memberFailTimeouts → (d.mem c.member).timeoutAt = [] → ∃ e : Dev,
        e = (d.bump Fam.memberTimeouts c.member).setMem c.member { d.mem c.member with timeoutAt := [d.tm.now] }
          ∧ memberTimeout tag d = settle (cmdExpired c (memberMove c.member .slow 0 e)))
  ∧ (∀ s m t r, s.dev.working = true → (s.dev.mem m).esc = .aborting (t :: r) → ∃ d : Dev, exec (.abortWaitExpire m) s = .next { s with dev := d } ∧ (d.mem m = { s.dev.mem m with esc := .disabling, queues := false } ∧ d.out = s.dev.out ++ [.memberCtl m "clear CC.EN" 0]))
  ∧ (∀ s m, s.dev.working = true → (s.dev.mem m).esc = .disabling → exec (.cstsRdyFall m) s = .next { s with dev := memberCtl m "set CC.EN" 0 (s.dev.setMem m { s.dev.mem m with esc := .enabling }) })
  ∧ (∀ s m, s.dev.working = true → (s.dev.mem m).esc = .disabling ∨ (s.dev.mem m).esc = .enabling → ∃ d : Dev, exec (.readyLimitExpire m) s = .next { s with dev := d } ∧ (d.mem m = { s.dev.mem m with esc := .relinking } ∧ d.out = s.dev.out ++ [.memberCtl m "function level reset" 0,
        .memberCtl m (if (s.dev.mem m).levels = 0 then "MP_PERST_N pulse" else "hot reset") (s.dev.mem m).port]))
  ∧ (∀ s m, s.dev.working = true → (s.dev.mem m).esc = .relinking → exec (.memberReturnTimeout m) s = .next { s with dev := memberGone m 2 s.dev })
  ∧ (∀ s m, (s.dev.mem m).st = .slow → (s.dev.mem m).queues = true → (s.dev.mem m).unfenced = false → s.dev.executing = true →
      (∀ c ∈ s.dev.mb.cmds, c.member = m → c.dead = true ∨ c.why ≠ .probe ∧ c.why ≠ .fence ∧ c.why ≠ .label) →
      exec (.probeIssue m) s = .next { s with dev := issue m false 0 4096 [] .probe s.dev })
  ∧ (∀ s m, s.dev.working = true → (s.dev.mem m).st = .absent → holdsSlot s.dev m = true →
      exec (.absentFailTimeout m) s = .next { s with dev := settle (memberMove m .failed 2 s.dev) })
  ∧ (∀ s port half levels bus speed width, halfExists s.dev port half = true → s.dev.unstopped = true → portsRun s.dev = true →
      levels ≤ 3 → 1 ≤ speed → speed ≤ 5 →
      width = 1 ∨ width = 2 ∨ (width = 4 ∧ s.dev.mb.bifurcated.contains port = false) → (∀ m, (s.dev.mem m).esc ≠ .disabling) →
      exec (.hotplugArrival port half (levels, bus) speed width) s = .next { s with dev := halfUp port half (setMportLink port half (speed % 16 + width % 16 * 16 + 256) s.dev) })
  ∧ (∀ s port half levels bus speed width, s.dev.mb.bifurcated.contains port = false → half ≠ 0 →
      exec (.hotplugArrival port half (levels, bus) speed width) s = .next s)
  ∧ (∀ s c, portsRun s.dev = true → s.dev.unstopped = true → s.dev.mb.dir.find? (·.2 == identOf c) = none →
      exec (.controllerReady c) s = .next { s with dev := admitMember c s.dev })
  ∧ (∀ s c m i, portsRun s.dev = true → s.dev.unstopped = true → s.dev.mb.dir.find? (·.2 == identOf c) = some (m, i) →
      (s.dev.mem m).st ≠ .absent → (s.dev.mem m).esc = .enabling → c.rdyInTime = true →
      exec (.controllerReady c) s = .next { s with dev := resetDone m (halfUp (s.dev.mem m).port (s.dev.mem m).half s.dev) })
  ∧ (∀ c : Controller, (c.nguid ≠ 0 → identOf c = c.nguid) ∧ (c.nguid = 0 → identOf c = c.eui64.setWidth 128))
  ∧ (∀ (c : Controller) (d : Dev), c.nvme = true → halfExists d c.port c.half = true → 3 < c.levels →
      admitMember c d = raise (0x0C1 + 2 * c.port) (c.bus % 256) false d)
  ∧ (∀ (c : Controller) m r (d : Dev), c.nvme = true → halfExists d c.port c.half = true → c.levels ≤ 3 →
      d.mb.dir.find? (·.2 == identOf c) = none →
      (directoryIndex d (identOf c) = some m → rejectCode d c false = some r → admitMember c d =
        ({ d with mb := { d.mb with dir := tput d.mb.dir m (identOf c) } }).setVal Fam.memberReject m r)
      ∧ (directoryIndex d (identOf c) = some m → rejectCode d c false = none → c.foreignResv = false →
          admitMember c d = settle (joinMember m c.label (setUp m c (nameMember m c d))))
      ∧ (directoryIndex d (identOf c) = some m → rejectCode d c false = none → c.foreignResv = true →
          admitMember c d = settle (joinMember m c.label (setUp m c (clearForeign m (nameMember m c d)))))
      ∧ (directoryIndex d (identOf c) = none → rejectCode d c false = none → admitMember c d =
          raise 0x235 (c.port % 32 + c.half % 2 * 32 + c.bus % 256 * 256) false (d.bump Fam.mportDirFullRejects)))
  ∧ (∀ s m, portsRun s.dev = true → isPlatter m = false → (s.dev.mem m).st ≠ .absent → (s.dev.mem m).queues = false →
      exec (.memberLinkDownTimeout m) s = .next { s with dev := memberGone m 2 s.dev })
  ∧ (∀ s port half e l, portsRun s.dev = true → halfExists s.dev port half = true →
      exec (.memberPathError port (half, e) l) s = .next { s with dev := pathError port half e l s.dev })
  ∧ (∀ s m b, portsRun s.dev = true → isPlatter m = false → (s.dev.mem m).st ≠ .absent →
      (b.toNat % 8 ≠ 0 → b.toNat / 8 % 8 = 0 → exec (.memberCriticalWarning m (.warning b)) s = .next { s with dev := raise 0x234 (m + b.toNat * 2 ^ 24) false (memberCtl m "Asynchronous Event Request" 0 s.dev) })
      ∧ (b.toNat % 8 = 0 → b.toNat / 8 % 8 ≠ 0 → exec (.memberCriticalWarning m (.warning b)) s = .next { s with dev := settle (memberFails m 1 (memberCtl m "Asynchronous Event Request" 0 s.dev)) })
      ∧ exec (.memberCriticalWarning m .fatal) s = .next { s with dev := settle (memberFails m 1 s.dev) })
  ∧ (∀ s m t, s.dev.coreUp = true → s.dev.inMode .eclipse = false → isPlatter m = false → (s.dev.mem m).st ≠ .absent →
      exec (.smartPoll m t) s = .next { s with dev := (memberCtl m "Get Log Page" 0x02 s.dev).setVal Fam.memberTempC m (t % 65536).toNat })

/-- On each of the 24 channels: NOP, READ_REG (with its data first), WRITE_REG at 0x800 and above, SET_READ, SPINDLE, SET_SHOCK and
END_WRITE are acknowledged with 0. A clock outside 600,000 to 3,600,000 kHz, a precompensation above 31 or a head the module has not
got is result 2 and changes nothing; neither clock nor head may change while a write is active (4). START_WRITE is 4 while a write is
active, unloaded, while the heads move or without a clock (log entry 34), 3 when its count is more than a millisecond ahead, and else
opens the gate and is acknowledged when the write ends. SET_CLOCK, LOAD and PARK are acknowledged by FE_COMMAND_DONE. The result of a
write to a read-only register and of a START_WRITE that ends in a fault is free. A write that ends drives the bits that were due; a
fault is latched. Where the state shown has changed, a HEALTH block follows. The commands whose own effect it gives as the next state
that exec answers, under conditions on the state and the operands alone: nop, readReg, writeReg, setClock, setRead, setPrecomp,
selectHead, load, startWrite, endWrite, spindle, setShock, park, feWriteEnd, feCommandDone. -/
def Obligations.FrontEndCommandsAreAcknowledged : Prop :=
  (∀ s n tag reg v, n < 24 → exec (.nop n tag) s = .next { s with dev := feShow n s.dev (feAck n tag 0 s.dev) }
      ∧ exec (.readReg n tag reg) s = .next { s with dev := feShow n s.dev (feAck n tag 0 (feUp n (.readData (tag % 256) (feRegister n (s.dev.fe n) (reg % 4096))) s.dev)) }
      ∧ (0x800 ≤ reg % 4096 → exec (.writeReg n tag reg v) s = .next { s with dev := (feShow n s.dev (feAck n tag 0 (s.dev.setFe n
          { s.dev.fe n with regs := tput (s.dev.fe n).regs (reg % 4096) v.toNat }))) })
      ∧ (reg % 4096 < 0x800 → ∃ r, exec (.writeReg n tag reg v) s = .next { s with dev := feShow n s.dev (feAck n tag r s.dev.draw) }))
  ∧ (∀ s n tag khz, n < 24 → (s.dev.fe n).gate = true → exec (.setClock n tag khz) s = .next { s with dev := feShow n s.dev (feAck n tag 4 s.dev) })
  ∧ (∀ s n tag khz, n < 24 → (s.dev.fe n).gate = false → (s.dev.fe n).clockTag = none →
      (khz < 600000 ∨ 3600000 < khz → exec (.setClock n tag khz) s = .next { s with dev := feShow n s.dev (feAck n tag 2 s.dev) })
      ∧ (600000 ≤ khz → khz ≤ 3600000 → exec (.setClock n tag khz) s = .next { s with dev := feShow n s.dev (s.dev.setFe n { s.dev.fe n with clockKhz := khz, settling := true, clockTag := some tag }) }))
  ∧ (∀ s n tag g b o, n < 24 → exec (.setRead n tag g b o) s = .next { s with dev := (feShow n s.dev (feAck n tag 0
      (s.dev.setFe n { s.dev.fe n with gain := g.toNat, boost := b.toNat, offset := o.toNat }))) })
  ∧ (∀ s n tag a b c, n < 24 →
      (31 < a.toNat ∨ 31 < b.toNat ∨ 31 < c.toNat → exec (.setPrecomp n tag a b c) s = .next { s with dev := feShow n s.dev (feAck n tag 2 s.dev) })
      ∧ (a.toNat ≤ 31 → b.toNat ≤ 31 → c.toNat ≤ 31 → exec (.setPrecomp n tag a b c) s = .next { s with dev := feShow n s.dev (feAck n tag 0 (s.dev.setFe n { s.dev.fe n with precomp := (a.toNat, b.toNat, c.toNat) })) }))
  ∧ (∀ s n tag h, n < 24 →
      ((s.dev.fe n).gate = true → exec (.selectHead n tag h) s = .next { s with dev := feShow n s.dev (feAck n tag 4 s.dev) })
      ∧ ((s.dev.fe n).gate = false → (feRegister n (s.dev.fe n) 3).toNat ≤ h → exec (.selectHead n tag h) s = .next { s with dev := feShow n s.dev (feAck n tag 2 s.dev) })
      ∧ ((s.dev.fe n).gate = false → h < (feRegister n (s.dev.fe n) 3).toNat → exec (.selectHead n tag h) s = .next { s with dev := feShow n s.dev (feAck n tag 0 (s.dev.setFe n { s.dev.fe n with head := h, switched := true })) }))
  ∧ (∀ s n tag count x, n < 24 → x = s.dev.fe n →
      (x.gate = true ∨ x.loaded = false ∨ x.moving.isSome = true ∨ x.clockKhz = 0 → exec (.startWrite n tag count) s = .next { s with dev := feShow n s.dev (feAck n tag 4 s.dev) })
      ∧ (x.gate = false → x.loaded = true → x.moving = none → 0 < x.clockKhz → x.clockKhz < feAhead x count →
          exec (.startWrite n tag count) s = .next { s with dev := feShow n s.dev (feAck n tag 3 s.dev) })
      ∧ (x.gate = false → x.loaded = true → x.moving = none → 0 < x.clockKhz → feAhead x count ≤ x.clockKhz → exec (.startWrite n tag count) s = .next { s with dev := (feShow n s.dev (s.dev.setFe n { x with
            gate := true, writeTag := some tag, startCount := count % 2 ^ 44, data := [], faulted := false })) }))
  ∧ (∀ s n tag t, n < 24 → ((s.dev.fe n).gate = false → exec (.endWrite n tag) s = .next { s with dev := feShow n s.dev (feAck n tag 0 s.dev) })
      ∧ ((s.dev.fe n).gate = true → (s.dev.fe n).writeTag = some t → exec (.endWrite n tag) s = .next { s with dev := (feShow n s.dev (feAck n tag 0 (feAck n t 0 ((feDrive false n s.dev).setFe n
            { s.dev.fe n with gate := false, writeTag := none, data := [] })))) }))
  ∧ (∀ s n tag rpm acc, n < 24 → exec (.spindle n tag rpm acc) s = .next { s with dev := feShow n s.dev (feAck n tag 0 (s.dev.setFe n { s.dev.fe n with rpm := rpm % 65536, accel := acc % 256 })) })
  ∧ (∀ s n tag v, n < 24 → exec (.setShock n tag v) s = .next { s with dev := feShow n s.dev (feAck n tag 0 (s.dev.setFe n { s.dev.fe n with shock := v.toNat })) })
  ∧ (∀ s n tag, n < 24 → (s.dev.fe n).moving = none →
      exec (.load n tag) s = .next { s with dev := feShow n s.dev (s.dev.setFe n { s.dev.fe n with moving := some (true, tag) }) }
      ∧ ((s.dev.fe n).gate = false → exec (.park n tag) s = .next { s with dev := feShow n s.dev (s.dev.setFe n { s.dev.fe n with moving := some (false, tag) }) }))
  ∧ (∀ s n c t, n < 24 → ((s.dev.fe n).gate = false → c ≠ .shock → exec (.feWriteEnd n c) s = .next s)
      ∧ ((s.dev.fe n).gate = true → (s.dev.fe n).writeTag = some t → c = .count0 ∨ c = .endWrite → exec (.feWriteEnd n c) s = .next { s with dev := (feShow n s.dev (feAck n t 0 ((feDrive (c == .count0) n s.dev).setFe n
            { s.dev.fe n with gate := false, writeTag := none, data := [] }))) })
      ∧ (∀ k, (s.dev.fe n).gate = true → (s.dev.fe n).writeTag = some t → feWriteCause c = some k →
          ∃ (r : Nat) (d e : Dev), d = (if c = .shock then s.dev.setFe n { s.dev.fe n with shockSeen := true } else s.dev)
            ∧ e = feUp n (.writeFault k) (((feDrive false n d).setFe n { d.fe n with faulted := true }).draw)
            ∧ exec (.feWriteEnd n c) s = .next { s with dev := (feShow n s.dev (feAck n t r
              (e.setFe n { e.fe n with gate := false, writeTag := none, data := [] }))) }))
  ∧ (∀ n (d e : Dev), ((e.fe n).shown = (d.fe n).shown → feShow n d e = e) ∧ ((e.fe n).shown ≠ (d.fe n).shown → feShow n d e = feHealth n e))
  ∧ (feWriteCause .underrun = some 1 ∧ feWriteCause .gap = some 1 ∧ feWriteCause .shock = some 2 ∧ feWriteCause .driverFault = some 3
      ∧ feWriteCause .ownerChange = some 4 ∧ feWriteCause .linkLoss = some 5)
  ∧ (∀ s n t, n < 24 → ((s.dev.fe n).settling = true → (s.dev.fe n).clockTag = some t → exec (.feCommandDone n) s = .next { s with dev := feShow n s.dev (feAck n t 0 (s.dev.setFe n { s.dev.fe n with clockTag := none, settling := false })) })
      ∧ (∀ up, (s.dev.fe n).settling = false → (s.dev.fe n).moving = some (up, t) → exec (.feCommandDone n) s = .next { s with dev := feShow n s.dev (feAck n t 0 (s.dev.setFe n { s.dev.fe n with moving := none, loaded := up })) }))

/-- A frame whose crc is not the CRC-24 of its blocks and control fields does nothing. The first frame makes its link the owner and
its epoch E_max, and its blocks are obeyed. An older epoch, or the same one on the other link, is not obeyed. The owner's frame at
E_max is obeyed. A newer epoch from the other link ends a write with cause 4 and moves ownership. On owner loss a write ends with
cause 5 and the hold begins; the heads retract, without a hold they stay; after 1 s the epoch is forgotten; after 30 s of hold the
spindle stops. The results the retract overtakes are free. The commands whose own effect it gives as the next state that exec
answers, under conditions on the state and the operands alone: feDownstreamFrame, feOwnerLossDetect, feHeadRetract, feSpindleStop,
feEpochForget. -/
def Obligations.FrontEndFollowsItsOwner : Prop :=
  (∀ s n link seq epoch crc blocks, n < 24 → link < 2 → crc ≠ downCrc seq epoch blocks →
      exec (.feDownstreamFrame n link seq epoch crc blocks) s = .next s)
  ∧ (∀ s n link seq epoch blocks x y, n < 24 → link < 2 → epoch < 65536 → x = s.dev.fe n → feInOrder x link (seq % 256) = true →
      y = (if link = 0 then { x with seqA := some (seq % 256) } else { x with seqB := some (seq % 256) }) →
      (x.eMax = none → exec (.feDownstreamFrame n link seq epoch (downCrc seq epoch blocks) blocks) s = .next { s with dev := (feShow n s.dev (blocks.foldl (fun d b => downBlock n d b)
          (s.dev.setFe n { y with eMax := some epoch, ownerLink := some link, lossHold := false }))) })
      ∧ (x.eMax = some epoch → x.ownerLink = some link →
          exec (.feDownstreamFrame n link seq epoch (downCrc seq epoch blocks) blocks) s = .next { s with dev := (feShow n s.dev (blocks.foldl (fun d b => downBlock n d b)
            (s.dev.setFe n { y with lossHold := false }))) })
      ∧ (∀ e, x.eMax = some e → epochNewer epoch e = false → x.ownerLink ≠ some link ∨ epoch ≠ e →
          exec (.feDownstreamFrame n link seq epoch (downCrc seq epoch blocks) blocks) s = .next { s with dev := feShow n s.dev (s.dev.setFe n y) })
      ∧ (y.shown = x.shown)
      ∧ (∀ e, x.eMax = some e → epochNewer epoch e = true → x.ownerLink = some link →
          exec (.feDownstreamFrame n link seq epoch (downCrc seq epoch blocks) blocks) s = .next { s with dev := (feShow n s.dev (blocks.foldl (fun d b => downBlock n d b)
            (s.dev.setFe n { y with eMax := some epoch, lossHold := false }))) })
      ∧ (∀ e d, x.eMax = some e → epochNewer epoch e = true → x.ownerLink ≠ some link →
          d = writeEnds n .ownerChange (s.dev.setFe n y) →
          exec (.feDownstreamFrame n link seq epoch (downCrc seq epoch blocks) blocks) s = .next { s with dev := (feShow n s.dev (blocks.foldl (fun d b => downBlock n d b)
            (d.setFe n { d.fe n with eMax := some epoch, ownerLink := some link, lossHold := false }))) }))
  ∧ (∀ a b, a < 65536 → b < 65536 → (epochNewer a b = true ↔ a ≠ b ∧ (a + 65536 - b) % 65536 < 32768))
  ∧ (∀ s n, n < 24 → ((s.dev.fe n).ownerLink = none → exec (.feOwnerLossDetect n) s = .next s)
      ∧ ((s.dev.fe n).ownerLink.isSome = true → ∃ d, d = writeEnds n .linkLoss s.dev
          ∧ exec (.feOwnerLossDetect n) s = .next { s with dev := feShow n s.dev (d.setFe n { d.fe n with lossHold := true }) }))
  ∧ (∀ s n x, n < 24 → x = s.dev.fe n → (x.lossHold = false → exec (.feHeadRetract n) s = .next s ∧ exec (.feSpindleStop n) s = .next s)
      ∧ (x.lossHold = true → x.moving = none → exec (.feHeadRetract n) s = .next { s with dev := feShow n s.dev (s.dev.setFe n { x with loaded := false, moving := none }) })
      ∧ (∀ t, x.lossHold = true → x.moving = some (false, t) → exec (.feHeadRetract n) s = .next { s with dev := feShow n s.dev (feAck n t 0 (s.dev.setFe n { x with loaded := false, moving := none })) })
      ∧ (∀ t, x.lossHold = true → x.moving = some (true, t) → ∃ r, exec (.feHeadRetract n) s = .next { s with dev := feShow n s.dev (feAck n t r (s.dev.setFe n { x with loaded := false, moving := none }).draw) })
      ∧ (x.lossHold = true → exec (.feSpindleStop n) s = .next { s with dev := feShow n s.dev (s.dev.setFe n { x with rpm := 0 }) })
      ∧ exec (.feEpochForget n) s = .next { s with dev := feShow n s.dev (s.dev.setFe n { x with eMax := none, ownerLink := none, seqA := none, seqB := none }) })

/-- A frame with a bad crc counts and ends the run of accepted ones. A good one sets sequence, owner, gate and park, marks a gap
where a sequence is missing, then each block acts; an epoch newer than ours makes a LEAD FENCED. A front-end of another version is
refused; with block lock and 16 frames the registers are read; version 1 loads the zone and reallocation tables as read, sends
SPINDLE and joins the member, at once or when commands go out again, or fails it where a surface cannot be served. Link loss keeps
the tables and drops the member. A sector read ends CLEAN at the first pass, RECOVERED at steps 2 and 3; a missed mark or a failure
rereads it; shock, loss or off track read it again without counting. A decode ends in data only if syndrome, CRC and every tag field
pass. A recovery job runs its rounds once the whole relation has been read; a facet that passes leaves F with its bytes, one that
never does is FAILED. The commands whose own effect it gives as the next state that exec answers, under conditions on the state and
the operands alone: lensUpstreamFrame, lensLinkUp, lensLinkLoss, sectorDecode, sectorReread, irJobStart. -/
def Obligations.LensLinksAndSectorReads : Prop :=
  (∀ s n seq epoch flags crc blocks, n < 24 → s.dev.coreUp = true →
      (crc ≠ upCrc seq epoch flags blocks → exec (.lensUpstreamFrame n seq epoch flags crc blocks) s = .next { s with dev := (s.dev.setLens n { s.dev.lens n with accepted := 0, blockLock := true }).bump Fam.lensCrcFrames n })
      ∧ (∀ e l, l = (s.dev.lens n).gapped seq → e = blocks.foldl (fun d b => upBlock n d b) (s.dev.setLens n { l with
            lastSeq := some seq, accepted := min 16 (l.accepted + 1), blockLock := true
            owner := bit flags 0, parked := bit flags 3, gate := bit flags 2 }) →
          (epochNewer epoch (e.val Fam.lensOwnerEpoch) = true → bit flags 0 = false → e.inMode .lead = true →
            exec (.lensUpstreamFrame n seq epoch flags (upCrc seq epoch flags blocks) blocks) s = .next { s with dev := enterFenced none e })
          ∧ (epochNewer epoch (e.val Fam.lensOwnerEpoch) = false ∨ bit flags 0 = true ∨ e.inMode .lead = false →
            exec (.lensUpstreamFrame n seq epoch flags (upCrc seq epoch flags blocks) blocks) s = .next { s with dev := e })))
  ∧ (∀ (l : Lens) q p seq, l.lastSeq = some q → (seq = (q + 1) % 256 → l.gapped seq = l)
      ∧ (seq ≠ (q + 1) % 256 → l.gapAt = none → l.nextSample = some p → (l.gapped seq).gapAt = some p))
  ∧ (∀ n (d : Dev) tag op, (d.lens n).waiting.find? (·.1 == tag) = some (tag, op) → op ≠ 0x07 → op ≠ 0x0A →
      upBlock n d (.ack tag 0) = d.setLens n { d.lens n with waiting := (d.lens n).waiting.erase (tag, op) })
  ∧ (∀ s n version low high serial surfaces tables copies label k q, n < 24 → s.dev.coreUp = true → (s.dev.lens n).up = false →
      (s.dev.lens n).blockLock = true → 16 ≤ (s.dev.lens n).accepted → serial = moduleSerial low high →
      q = (List.range 6).foldl (fun y r => lensCmd n 0x01 (BitVec.ofNat 44 r) y) s.dev →
      k = loadRealloc serial.toNat copies (loadTables (surfaceTables surfaces tables) (q.lens n)) →
      (version ≠ 1 → exec (.lensLinkUp n version low high surfaces tables copies label) s = .next { s with dev := q.setLens n { q.lens n with versionRefused := true } })
      ∧ (version = 1 → ∃ d : Dev, (d.lens n).up = true ∧ (d.lens n).surfaces = surfaces ∧ (d.lens n).headers = k.headers
          ∧ (d.lens n).zones = k.zones ∧ (d.lens n).realloc = k.realloc ∧ (d.lens n).retired = k.retired ∧ (d.lens n).journal = k.journal
          ∧ (d.lens n).parked = (s.dev.lens n).parked ∧ (d.lens n).spinning = true ∧ (d.lens n).atSpeed = false
          ∧ d.val Fam.lensFeSerial n = serial.toNat ∧ d.val Fam.lensCadenceRpm n = cadenceOf d (lensMember n)
          ∧ (d.mem (lensMember n)).label = label ∧ (d.mem (lensMember n)).queues = true
          ∧ (s.dev.working = false → exec (.lensLinkUp n version low high surfaces tables copies label) s = .next { s with dev := d.setLens n { d.lens n with joinDue := some (label, (surfaceTables surfaces tables).all Option.isSome) } })
          ∧ (s.dev.working = true → (surfaceTables surfaces tables).all Option.isSome = true →
              exec (.lensLinkUp n version low high surfaces tables copies label) s = .next { s with dev := settle (joinMember (lensMember n) label d) })
          ∧ (s.dev.working = true → (surfaceTables surfaces tables).all Option.isSome = false → exec (.lensLinkUp n version low high surfaces tables copies label) s = .next { s with dev := settle (memberMove (lensMember n) .failed 1 d) })))
  ∧ (∀ s n, n < 24 → s.dev.coreUp = true → ∃ d : Dev, d.lens n = (s.dev.lens n).lost ∧ d.mb = s.dev.mb ∧ d.arrays = s.dev.arrays
      ∧ d.vals = s.dev.vals ∧ (∀ e ∈ d.ls.irHeld, e.1.1 ≠ n)
      ∧ ((s.dev.lens n).up = false → exec (.lensLinkLoss n) s = .next { s with dev := d })
      ∧ ((s.dev.lens n).up = true → exec (.lensLinkLoss n) s = .next { s with dev := memberGone (lensMember n) 2 (d.bump Fam.lensLinkLosses n) }))
  ∧ (∀ s n r l p d, n < 24 → s.dev.executing = true → l = s.dev.lens n → p = r.tag.pba → l.up = true → l.parked = false →
      intendedTag s.dev n p = some r.tag → readsOf s.dev n p ≠ [] → l.rereads.find? (·.1 == p) = none →
      l.irWait.any (·.1 == p) = false → contentLost l p = false →
      d = s.dev.setLens n { l with rereads := l.rereads.filter (·.1 != p) } →
      (samplesLost l r.span = true ∨ offTrack s.dev r.pes = true → exec (.sectorDecode n r) s = .next { s with dev := dueAgain n p false 0 1 d })
      ∧ (samplesLost l r.span = false → offTrack s.dev r.pes = false →
          match decodeEnd (s.dev.val Fam.lensLdpcIter) (s.dev.val Fam.lensRecoveryRounds) r r.tag false
            (((placeNow l p).map (fragments l)).getD 0) with
          | .first u => exec (.sectorDecode n r) s = .next { s with dev := endSector n p 0 u (noteAdapt n r.tag r.shock d) }
          | .realigned u => exec (.sectorDecode n r) s = .next { s with dev := endSector n p 1 u (d.bump Fam.lensRealigned n) }
          | .recovery u => exec (.sectorDecode n r) s = .next { s with dev := endSector n p 1 u d }
          | .missed => exec (.sectorDecode n r) s = .next { s with dev := (if r.shock then dueAgain n p true 0 1 (d.bump Fam.lensSyncMissed n)
              else nextReread n p true 0 (d.bump Fam.lensSyncMissed n)) }
          | .failed => exec (.sectorDecode n r) s = .next { s with dev := if r.shock then dueAgain n p false 0 1 d else nextReread n p true 0 d }))
  ∧ (∀ i m r t w k,
      match decodeEnd i m r t w k with
      | .first u | .realigned u | .recovery u =>
        ∃ a : Attempt, attemptPasses a t = true ∧ a.tag = t ∧ a.crc = sectorCrc a.user t ∧ u = a.user
      | .missed | .failed => True)
  ∧ (∀ s n p wide count kind, n < 24 → s.dev.executing = true → (s.dev.lens n).rereads.find? (·.1 == p) = some (p, wide, count, kind) →
      (kind = 1 → exec (.sectorReread n p) s = .next { s with dev := dueAgain n p wide count 0 s.dev })
      ∧ (kind = 2 → exec (.sectorReread n p) s = .next { s with dev := dueAgain n p true (count + 1) 0 s.dev }))
  ∧ (∀ s a rel x beam off l, s.dev.coreUp = true → irFirst s.dev a = some (x, beam, off) → l = relationSectors s.dev x beam off →
      (relationHolds s.dev x beam = true → s.dev.executing = true → poolFits rel = true → rel.map (·.1) = List.range l.length →
        relationRead s.dev l rel = true → ∀ r, r = irRun a beam (s.dev.val Fam.lensIrRounds) 0 (irParts s.dev l rel)
          (s.dev.bump Fam.lensIrJobs) → exec (.irJobStart a rel) s = .next { s with dev := irRelease l (r.1.foldl (fun d p => irEnd d p) r.2) })
      ∧ (relationHolds s.dev x beam = true → s.dev.executing = true → relationRead s.dev l rel = false → exec (.irJobStart a rel) s = .next s)
      ∧ (relationHolds s.dev x beam = false ∨ s.dev.executing = false → exec (.irJobStart a rel) s = .next { s with dev := irAbandon l s.dev }))
  ∧ (∀ (d : Dev) p a q r t, p.left = some ((a, q) :: r) → intendedTag d p.sector.1 p.sector.2 = some t →
      irDecode d p = if attemptPasses a t then { p with llrs := hardLlrs a.user, left := none, saved := some a.user }
        else { p with llrs := q.map clip31, left := some r })
  ∧ (∀ (d : Dev) p, irWaits d p.sector.1 p.sector.2 = true → p.saved = none → ∃ e : Dev, irEnd d p = endSector p.sector.1 p.sector.2 2 [] e)

/-- An update that a sector passing at step 1 has made due moves the live entry, sends SET_READ, and raises the channel's source with
zone and head when a limit held it; every tap moves by at most 2 from the live value and stays within 16 of the stored one. The flush
makes the live tables the stored ones, with the next generation of each changed header (log entry 32), at most once in the flush
interval. A reported block with content is written to the spare chosen and its entry applied when it reads back; a spare that does
not is retired; while a cadence change holds the commands it waits; without content the entry carries the content-lost flag; without
a spare it is counted out and raised. The table write, when it is due, takes the module's entries from the journal and writes the
older copy. The commands whose own effect it gives as the next state that exec answers, under conditions on the state and the
operands alone: adaptUpdate, zoneTableFlush, reallocate, reallocTableWrite. -/
def Obligations.ZoneTablesAndReallocation : Prop :=
  (∀ s n zone head fir g o a stored live r d, n < 24 → zone < 64 → s.dev.executing = true → s.dev.val Fam.lensAdaptEnable ≠ 0 →
      (s.dev.lens n).up = true → tfind (s.dev.lens n).zones (head * 64 + zone) = some (stored, live) →
      (s.dev.lens n).adaptDue.contains (head * 64 + zone) = true → r = adaptEntry stored live fir g o a → d = lensCmd n 0x04 (setReadOperand r.1) (s.dev.setLens n { s.dev.lens n with
        adaptDue := (s.dev.lens n).adaptDue.filter (· != head * 64 + zone), zones := tput (s.dev.lens n).zones (head * 64 + zone) (stored, r.1) }) →
      (r.2 = false → exec (.adaptUpdate n zone head fir g o a) s = .next { s with dev := d })
      ∧ (r.2 = true → exec (.adaptUpdate n zone head fir g o a) s = .next { s with dev := raise (0x200 + 2 * n) (zone + 256 * head) false (d.bump Fam.lensAdaptClamped n) }))
  ∧ (∀ s n zone head fir g o a, n < 24 → zone < 64 → s.dev.executing = true →
      (s.dev.lens n).adaptDue.contains (head * 64 + zone) = false → exec (.adaptUpdate n zone head fir g o a) s = .next s)
  ∧ (∀ (stored live : ZoneEntry) fir g o a i, i < 10 → (live.fir.getD i 0 - stored.fir.getD i 0).natAbs ≤ 16 →
      ((adaptEntry stored live fir g o a).1.fir.getD i 0 - live.fir.getD i 0).natAbs ≤ 2
      ∧ ((adaptEntry stored live fir g o a).1.fir.getD i 0 - stored.fir.getD i 0).natAbs ≤ 16)
  ∧ (∀ (stored live : ZoneEntry) fir g o a, (live.gain - stored.gain).natAbs ≤ 16 →
      ((adaptEntry stored live fir g o a).1.gain - live.gain).natAbs ≤ 1
      ∧ ((adaptEntry stored live fir g o a).1.gain - stored.gain).natAbs ≤ 16)
  ∧ (∀ s n, n < 24 → s.dev.working = true → (s.dev.lens n).up = true → (∃ e ∈ (s.dev.lens n).zones, e.2.1 ≠ e.2.2) →
      flushElapsed s.dev (s.dev.lens n).flushedAt = true → ∃ d : Dev, exec (.zoneTableFlush n) s = .next { s with dev := d } ∧ ((d.lens n).flushedAt = some s.dev.tm.now ∧ (d.lens n).zones = (s.dev.lens n).zones.map (fun e => (e.1, (e.2.2, e.2.2)))
        ∧ (d.lens n).realloc = (s.dev.lens n).realloc ∧ (d.lens n).journal = (s.dev.lens n).journal
        ∧ ∀ e ∈ (s.dev.lens n).zones, e.2.1 ≠ e.2.2 → tget (d.lens n).headers (e.1 / 64) ZoneHeader.none
            = { tget (s.dev.lens n).headers (e.1 / 64) ZoneHeader.none with
                generation := (tget (s.dev.lens n).headers (e.1 / 64) ZoneHeader.none).generation + 1 }))
  ∧ (∀ s n, n < 24 → s.dev.working = true → (∀ e ∈ (s.dev.lens n).zones, e.2.1 = e.2.2) → exec (.zoneTableFlush n) s = .next s)
  ∧ (∀ s n t, n < 24 → (s.dev.lens n).flushedAt = some t → s.dev.tm.now < t + s.dev.val Fam.lensTableFlushMin * 60000000000 →
      exec (.zoneTableFlush n) s = .next s)
  ∧ (∀ s n pba content clean dec p z, n < 24 → s.dev.executing = true →
      (s.dev.lens n).reported.find? (·.1 == pba) = some (pba, dec) → placeNow (s.dev.lens n) pba = some p →
      (s.dev.lens n).journal.length < 1024 → (s.dev.lens n).up = true → liveZone (s.dev.lens n) 0 p.zone = some z →
      cadenceHeld s.dev (lensMember n) = false →
      ((s.dev.lens n).realloc.length + (s.dev.lens n).retired.length < 262144 →
        (chooseSpare (s.dev.lens n) z p.head = none → exec (.reallocate n pba content clean) s = .next { s with dev := noSpare n pba p.zone s.dev })
        ∧ (∀ sp, chooseSpare (s.dev.lens n) z p.head = some sp →
          (dec = none → content = none → exec (.reallocate n pba content clean) s = .next { s with dev := applyRealloc n pba sp true s.dev })
          ∧ (∀ b, (dec <|> content) = some b → b.length = 4096 → clean = true → exec (.reallocate n pba content clean) s = .next { s with dev := applyRealloc n pba sp false (emit (.lensTrack n (.spare pba sp.1 sp.2.1 sp.2.2) b) s.dev) })
          ∧ (∀ b, (dec <|> content) = some b → clean = false → exec (.reallocate n pba content clean) s = .next { s with dev := ((emit (.lensTrack n (.spare pba sp.1 sp.2.1 sp.2.2) b) s.dev).setLens n
                (retireSpare (s.dev.val Fam.lensFeSerial n) (s.dev.lens n) sp)) })))
      ∧ (262144 ≤ (s.dev.lens n).realloc.length + (s.dev.lens n).retired.length →
        exec (.reallocate n pba content clean) s = .next { s with dev := noSpare n pba p.zone s.dev }))
  ∧ (∀ s n pba content clean, n < 24 → s.dev.executing = true → cadenceHeld s.dev (lensMember n) = true →
      exec (.reallocate n pba content clean) s = .next s)
  ∧ (∀ (l : Lens) z head c h i, freeSpare l z head = some (c, h, i) →
      h = head ∧ i < z.sectors ∧ z.first + zoneData z ≤ c ∧ (c, h, i) ∉ l.retired ∧ ∀ e ∈ l.realloc, (e.2.1, e.2.2.1, e.2.2.2.1) ≠ (c, h, i))
  ∧ (∀ s n, tableDue s.dev n = false → exec (.reallocTableWrite n) s = .next s)
  ∧ (∀ s n l second gen, n < 24 → s.dev.working = true → l = s.dev.lens n → l.up = true → tableDue s.dev n = true →
      l.journal.any (·.1 == s.dev.val Fam.lensFeSerial n) = true → second = decide (l.copyB < l.copyA) → gen = max l.copyA l.copyB + 1 →
      ∃ d : Dev, exec (.reallocTableWrite n) s = .next { s with dev := d } ∧ ((d.lens n).journal = l.journal.filter (·.1 != s.dev.val Fam.lensFeSerial n)
        ∧ d.out = s.dev.out ++ [.lensTrack n (.reallocCopy second (if l.surfaces ≤ 1 then 0 else b2n second) gen
            (copyCrc gen ((reallocTable l).flatMap ReallocEntry.bytes))) ((reallocTable l).flatMap ReallocEntry.bytes)]
        ∧ (d.lens n).realloc = l.realloc ∧ max (d.lens n).copyA (d.lens n).copyB = max l.copyA l.copyB + 1
        ∧ (l.copyA ≤ l.copyB → (d.lens n).copyB = l.copyB) ∧ (l.copyB < l.copyA → (d.lens n).copyA = l.copyA)))

/-- A wedge found stores PES, counts the settles, clears the missed count, notes the sample count and sends the VCM current; one not
found counts, stops a write and clears the settles. After 16 missed, the heads park and LOAD is sent. The rewrite of a revolution
takes up the affected blocks, and a write past the limit fails. The shock hold ends. An adjacent verify with all sectors CLEAN counts
them. A degraded array's cadence rises one step at a time; the change waits for its commands, sends SPINDLE, and ends when every
member has its speed. A spindle that does not reach its speed fails the member. The commands whose own effect it gives as the next
state that exec answers, under conditions on the state and the operands alone: servoWedge, servoLost, shutterRewrite, shockHoldEnd,
adjacentVerify, cadenceDecide, cadenceDrained, cadenceSettled, spinupTimeout. -/
def Obligations.ServoShutterAndCadence : Prop :=
  (∀ s n w l pes, n < 24 → s.dev.coreUp = true → l = s.dev.lens n → pes = pesOf w (s.dev.val Fam.lensCylinder n) →
      (l.up = false ∨ l.parked = true → exec (.servoWedge n w) s = .next s)
      ∧ (l.up = true → l.parked = false → samErrors w.sam ≤ 1 → 0 < w.tAA → w.number < 384 → l.region = none → -32768 ≤ pes → pes ≤ 32767 →
          ∃ (e : Dev) (i : BitVec 16), e.lens n = { l with
              missed := 0, lastWedge := w.number, sampleCount := w.count, txSeq := (l.txSeq + 1) % 256
              settleRead := if pesAbove pes (s.dev.val Fam.lensServoReadSettlePes) then 0 else min (l.settleRead + 1) 255
              settleWrite := if pesAbove pes (s.dev.val Fam.lensServoWriteSettlePes) then 0 else min (l.settleWrite + 1) 255 }
            ∧ e.val Fam.lensPes n = (pes % 65536).toNat ∧ e.out = s.dev.out
                ++ [.lensDown n (downFrameOf l.txSeq (s.dev.val Fam.lensOwnerEpoch) [.vcm w.number i])]
            ∧ e.ls.fe = s.dev.ls.fe ∧ e.mb = s.dev.mb ∧ e.arrays = s.dev.arrays
            ∧ exec (.servoWedge n w) s = .next { s with dev := if s.dev.executing then serve n w.number e else e })
      ∧ (l.up = true → l.parked = false → 1 < samErrors w.sam ∨ w.tAA = 0 ∨ 384 ≤ w.number → l.region = none → ∃ e : Dev,
          exec (.servoWedge n w) s = .next { s with dev := e } ∧ e.lens n = { l with
            missed := l.missed + 1, lastWedge := (l.lastWedge + 1) % 384, settleRead := 0, settleWrite := 0
            txSeq := (l.txSeq + 1) % 256 }))
  ∧ (∀ n (w : Wedge) pes (d : Dev), (d.lens n).region.isSome = true → pesAbove pes (d.val Fam.lensShutterPes n) = true →
      pesAbove pes (2 * d.val Fam.lensShutterPes n) = false → shutterCheck n w pes d = shutterEvent n w.number true d)
  ∧ (∀ s n, n < 24 → s.dev.working = true →
      ((s.dev.lens n).missed < 16 → exec (.servoLost n) s = .next s)
      ∧ ((s.dev.lens n).up = true → 16 ≤ (s.dev.lens n).missed → ∃ d : Dev, exec (.servoLost n) s = .next { s with dev := d } ∧ ((d.lens n).parked = true ∧ (d.lens n).gate = false ∧ (d.lens n).region = none ∧ (d.lens n).missed = 0
          ∧ (d.lens n).settleRead = 0 ∧ (d.lens n).settleWrite = 0 ∧ d.val Fam.lensServoState n % 256 = 0)))
  ∧ (∀ s n c l, n < 24 → s.dev.executing = true → l = s.dev.lens n → inService s.dev n = some c → l.rewrite ≠ [] → ∃ d : Dev,
      d = s.dev.setLens n { l with
        left := rewriteLeft l c, rewrite := [], shutterRevs := if l.shockHold then l.shutterRevs else l.shutterRevs + 1 }
      ∧ (s.dev.val Fam.lensShutterRetries ≤ l.shutterRevs + 1 → l.shockHold = false → exec (.shutterRewrite n) s = .next { s with dev := endWriteCmd n .other d })
      ∧ (l.shutterRevs + 1 < s.dev.val Fam.lensShutterRetries ∨ l.shockHold = true → exec (.shutterRewrite n) s = .next { s with dev := d }))
  ∧ (∀ s n, n < 24 → s.dev.coreUp = true → exec (.shockHoldEnd n) s = .next { s with dev := s.dev.setLens n { s.dev.lens n with shockHold := false } })
  ∧ (∀ s n l cyl head w, n < 24 → s.dev.executing = true → l = s.dev.lens n → l.verifyDue = some (cyl, head, w) →
      exec (.adjacentVerify n []) s = .next { s with dev := (settle (((s.dev.setLens n { l with verifyDue := none }).addVal Fam.lensAdjacentVerifies n
        (sectorsAround l cyl w).length).addVal Fam.lensSectorsRead n (sectorsAround l cyl w).length)) })
  ∧ (∀ s a x downOk, s.dev.executing = true → s.dev.arr? a = some x → isPlatter (x.geom.members.headD 0) = true →
      (x.cadenceTo.isSome = true → exec (.cadenceDecide a [] downOk) s = .next s)
      ∧ (x.cadenceTo = none → arrayState s.dev x = 2 ∨ arrayState s.dev x = 3 ∨ arrayState s.dev x = 4 → x.cadence < 7200 →
          exec (.cadenceDecide a [] downOk) s = .next { s with dev := s.dev.setArr a { x with cadenceTo := some (x.cadence + 1200) } })
      ∧ (x.cadenceTo = none → arrayState s.dev x = 1 → s.dev.val Fam.lensCadencePolicy = 0 → s.dev.val Fam.lensCadenceFixed = x.cadence →
          exec (.cadenceDecide a [] downOk) s = .next s))
  ∧ (∀ s a x rpm, s.dev.executing = true → s.dev.arr? a = some x → x.cadenceTo = some rpm →
      ((∃ n ∈ arrayChannels s.dev x, (inService s.dev n).isSome = true) → exec (.cadenceDrained a) s = .next s)
      ∧ ((∀ n ∈ arrayChannels s.dev x, inService s.dev n = none) → exec (.cadenceDrained a) s = .next { s with dev := (arrayChannels s.dev x).foldl (fun d n => sendSpindle n rpm d) s.dev })
      ∧ ((∀ n ∈ arrayChannels s.dev x, (s.dev.lens n).atSpeed = true ∧ s.dev.val Fam.lensCadenceRpm n = rpm) →
          exec (.cadenceSettled a) s = .next { s with dev := ((arrayChannels s.dev x).foldl (fun d n => retune rpm d n)
            (s.dev.setArr a { x with cadence := rpm, cadenceTo := none, cadenceAt := s.dev.tm.now + 1 })) })
      ∧ ((∃ n ∈ arrayChannels s.dev x, (s.dev.lens n).atSpeed = false) → exec (.cadenceSettled a) s = .next s))
  ∧ (∀ s n, n < 24 → s.dev.working = true → (s.dev.lens n).up = true → (s.dev.lens n).spinning = true →
      ((s.dev.lens n).atSpeed = false → exec (.spinupTimeout n) s = .next { s with dev := settle (memberFails (lensMember n) 1 (s.dev.setLens n { s.dev.lens n with spinning := false })) })
      ∧ ((s.dev.lens n).atSpeed = true → exec (.spinupTimeout n) s = .next s))

/-- PAIR_START, next to start, is refused 0x30 with the pair disabled or the straps equal (then refusal 1), 0x03 in a transition,
0x01 while recovering (refusal 2), 0x32 with the link down and FORCE clear, 0x31 in SOLO before resynchronisation ends; it begins
resynchronisation when the partner serves, and otherwise contends; a LEAD or MIRROR answers 0. DISSOLVE, 0x03 in a transition or the
guard (log entry 75), takes a LEAD to SOLO and a MIRROR out of the pair. SWAP on a LEAD starts the drain, on a MIRROR asks the LEAD;
a LEAD that is asked drains too. A drained swap sends HANDOVER with the next epoch and makes this device a MIRROR; a swap timed out
is 0x03. HANDOVER makes a MIRROR contend. The commands whose own effect it gives as the next state that exec answers, under
conditions on the state and the operands alone: pairStart, pairDissolve, pairSwap, swapDrainComplete, swapDrainTimeout, handover,
partnerLeave. -/
def Obligations.PairFormsDissolvesAndSwaps : Prop :=
  (∀ s c pl ps d, s.dev.adminNext 0x92 c → stray c.raw 0 1 = false → d = s.dev.starts c →
      (s.dev.val Fam.pairEnable = 0 → exec (.pairStart pl ps) s = .next { s with dev := conflict c.id 0x30 d })
      ∧ (s.dev.val Fam.pairEnable ≠ 0 →
        (strapsEqual s.dev = true → exec (.pairStart pl ps) s = .next { s with dev := conflict c.id 0x30 (d.setVal Fam.pairRefusal 0 1) })
        ∧ (strapsEqual s.dev = false → s.dev.transiting = true → exec (.pairStart pl ps) s = .next { s with dev := conflict c.id 0x03 d })
        ∧ (strapsEqual s.dev = false → s.dev.transiting = false →
          (s.dev.inMode .focus = true →
            (s.dev.pw.recovering ≠ [] → exec (.pairStart pl ps) s = .next { s with dev := conflict c.id 0x01 (d.setVal Fam.pairRefusal 0 2) })
            ∧ (s.dev.pw.recovering = [] →
              (s.dev.pr.linkUp = false → eWord c.raw 0 % 2 = 0 → exec (.pairStart pl ps) s = .next { s with dev := conflict c.id 0x32 d })
              ∧ (s.dev.pr.linkUp = false → eWord c.raw 0 % 2 = 1 → exec (.pairStart pl ps) s = .next { s with dev := startTie .focus (some c.id) d })
              ∧ (s.dev.pr.linkUp = true → pl = true ∨ ps = true → exec (.pairStart pl ps) s = .next { s with dev := beginResync pl c.id d })
              ∧ (s.dev.pr.linkUp = true → pl = false → ps = false → exec (.pairStart pl ps) s = .next { s with dev := startTie .focus (some c.id) d })))
          ∧ (s.dev.inMode .solo = true →
            (s.dev.pr.partnerReady = true → exec (.pairStart pl ps) s = .next { s with dev := startTie .solo (some c.id) d })
            ∧ (s.dev.pr.partnerReady = false → exec (.pairStart pl ps) s = .next { s with dev := conflict c.id 0x31 d }))
          ∧ (s.dev.inMode .lead = true ∨ s.dev.inMode .mirror = true → exec (.pairStart pl ps) s = .next { s with dev := okWith c.id 0 d }))))
  ∧ (∀ source ctx (d : Dev), (startTie source ctx d).pw.trans = some (.tie source ctx) ∧ (startTie source ctx d).pr.claim = nextEpoch d
      ∧ ownEpoch (startTie source ctx d) = ownEpoch d ∧ (startTie source ctx d).val Fam.pairState = 5
      ∧ (startTie source ctx d).pr.guarding = false ∧ ownEpoch d < nextEpoch d)
  ∧ (∀ s c d e, s.dev.adminNext 0x93 c → s.dev.val Fam.pairEnable ≠ 0 → strapsEqual s.dev = false → s.dev.pw.trans = none →
      s.dev.pr.guarding = false → d = s.dev.starts c → e = (if s.dev.pr.linkUp then pairMsg "LEAVE" 0 0 d else d) →
      (s.dev.inMode .lead = true → exec .pairDissolve s = .next { s with dev := okWith c.id 0 (settle (setPairState 0 (enterSolo 3 (forgetPartner e)))) })
      ∧ (s.dev.inMode .mirror = true → exec .pairDissolve s = .next { s with dev := okWith c.id 0 (leavePair e) })
      ∧ (s.dev.inMode .focus = true → s.dev.val Fam.pairState = 1 ∨ s.dev.val Fam.pairState = 2 →
          exec .pairDissolve s = .next { s with dev := okWith c.id 0 (leavePair (endResync (fun id => conflict id 0x31) e)) })
      ∧ (s.dev.inMode .focus = true → s.dev.val Fam.pairState = 0 → exec .pairDissolve s = .next { s with dev := okWith c.id 0 d })
      ∧ (s.dev.inMode .solo = true → exec .pairDissolve s = .next { s with dev := okWith c.id 0 d }))
  ∧ (∀ s c, s.dev.adminNext 0x93 c → s.dev.val Fam.pairEnable = 0 → exec .pairDissolve s = .next { s with dev := conflict c.id 0x30 (s.dev.starts c) })
  ∧ (∀ s c, s.dev.adminNext 0x93 c → s.dev.val Fam.pairEnable ≠ 0 → strapsEqual s.dev = false →
      s.dev.pw.trans.isSome = true ∨ s.dev.pr.guarding = true → exec .pairDissolve s = .next { s with dev := conflict c.id 0x03 (s.dev.starts c) })
  ∧ (∀ s c d, s.dev.adminNext 0x94 c → d = s.dev.starts c →
      (s.dev.val Fam.pairEnable = 0 ∨ (s.dev.inMode .lead = false ∧ s.dev.inMode .mirror = false) →
        exec .pairSwap s = .next { s with dev := conflict c.id 0x30 d })
      ∧ (s.dev.val Fam.pairEnable ≠ 0 → strapsEqual s.dev = false → s.dev.transiting = true →
          s.dev.inMode .lead = true ∨ s.dev.inMode .mirror = true → exec .pairSwap s = .next { s with dev := conflict c.id 0x03 d })
      ∧ (s.dev.val Fam.pairEnable ≠ 0 → strapsEqual s.dev = false → s.dev.transiting = false → s.dev.inMode .lead = true →
          (s.dev.val Fam.pairState ≠ 3 → exec .pairSwap s = .next { s with dev := conflict c.id 0x31 d })
          ∧ (s.dev.val Fam.pairState = 3 → s.dev.pr.lease = false → exec .pairSwap s = .next { s with dev := conflict c.id 0x32 d })
          ∧ (s.dev.val Fam.pairState = 3 → s.dev.pr.lease = true → exec .pairSwap s = .next { s with dev := ((tkeys d.arrays).foldl
              (fun e a => forceClose a (fun b => !b.internal) e) (d.setTrans (some (.swap (some c.id))))) }))
      ∧ (s.dev.val Fam.pairEnable ≠ 0 → strapsEqual s.dev = false → s.dev.transiting = false → s.dev.inMode .mirror = true →
          (s.dev.pr.caughtUp = false → exec .pairSwap s = .next { s with dev := conflict c.id 0x31 d })
          ∧ (s.dev.pr.caughtUp = true → s.dev.pr.lease = true →
            exec .pairSwap s = .next { s with dev := pairMsg "SWAP" 0 0 (d.setTrans (some (.swapAsked c.id))) })))
  ∧ (∀ s, s.dev.adminHead = none → pairedLead s.dev = true → s.dev.pr.lease = true → s.dev.pr.linkUp = true →
      (s.dev.transiting = false → exec .pairSwap s = .next { s with dev := beginSwap none s.dev }) ∧ (s.dev.transiting = true → exec .pairSwap s = .next s))
  ∧ (∀ s, s.dev.pw.trans = some (.swap none) → swapDrained s.dev none = true → s.dev.executing = true → ∃ d : Dev,
      d = s.dev.lensUp.foldl (fun e n => lensShutter n e) (pairMsg "HANDOVER" (ownEpoch s.dev + 1) 0 (s.dev.setTrans none))
      ∧ exec .swapDrainComplete s = .next { s with dev := (sendOwnerEpoch (changeMode .mirror 4 0xFFFF 0xFF { d with
          pr := { d.pr with partnerReady := false, caughtUp := true, streamSeen := 0, held := [] } })) })
  ∧ (∀ s ctx, s.dev.pw.trans = some (.swap ctx) → swapDrained s.dev ctx = false → exec .swapDrainComplete s = .next s)
  ∧ (∀ s id, s.dev.executing = true →
      (s.dev.pw.trans = some (.swap (some id)) → exec .swapDrainTimeout s = .next { s with dev := conflict id 0x03 (s.dev.setTrans none) })
      ∧ (s.dev.pw.trans = some (.swap none) → exec .swapDrainTimeout s = .next { s with dev := pairMsg "SWAP_ABANDONED" 0 0 (s.dev.setTrans none) })
      ∧ (s.dev.pw.trans = some (.swapAsked id) → exec .swapDrainTimeout s = .next { s with dev := conflict id 0x03 (s.dev.setTrans none) }))
  ∧ (∀ s e id, s.dev.inMode .mirror = true → s.dev.pw.trans = none ∨ s.dev.pw.trans = some (.swapAsked id) → exec (.handover e) s = .next { s with dev := (startTie .mirror (if s.dev.pw.trans = none then none else some id) { s.dev with
        pr := { s.dev.pr with partnerReady := true, partnerEpoch := max s.dev.pr.partnerEpoch (e - 1) } }) })
  ∧ (∀ s, s.dev.working = true →
      (s.dev.inMode .mirror = true → s.dev.contending = false → exec .partnerLeave s = .next { s with dev := leavePair s.dev })
      ∧ (s.dev.inMode .lead = true → s.dev.contending = false → exec .partnerLeave s = .next { s with dev := aloneLead s.dev })
      ∧ (s.dev.inMode .solo = true → exec .partnerLeave s = .next { s with dev := { s.dev with pr := { s.dev.pr with partnerReady := false, unacked := [] } } })
      ∧ (s.dev.inMode .focus = true → s.dev.val Fam.pairState = 2 → s.dev.pr.resync = none → exec .partnerLeave s = .next { s with dev := leavePair s.dev }))

/-- A link up shows serial, strap and width, with refusal 1 for equal straps; one narrower than x16 raises 0x242 and at x16 the
source falls. RENEW goes out with the next sequence from a LEAD that does not contend. A MIRROR answers each RENEW and restarts the
lease; a READY device becomes MIRROR. RENEW_ACK counts if newer. Lease expiry or a stream time-out make a paired LEAD withdraw its
gates and contend; on a MIRROR the lease ends and the guard runs, and after the guard it contends. The tie's time limit loses the
tie; a member's makes it SLOW. Takeover makes it LEAD, takes the arrays, records the gap and raises 0x244. After the embargo the
segments are free to use. The commands whose own effect it gives as the next state that exec answers, under conditions on the state
and the operands alone: mirrorLinkUp, mirrorLinkRetrain, mirrorLinkDown, renewSend, renewReceive, renewAck, renewalMissed,
leaseExpireLead, streamAckTimeout, leaseExpireMirror, guardElapsed, fenceTimeout, takeoverComplete, segmentEmbargoEnd. -/
def Obligations.LeaseLinkAndTakeover : Prop :=
  (∀ s serial strap, s.dev.coreUp = true → ∃ d : Dev, d = (({ s.dev with
        pr := { s.dev.pr with linkUp := true, width := 16, partnerStrap := strap } }).setVal Fam.pairPartnerSerial 0 serial.toNat).setVal
          Fam.pairLink 0 (33 + 64 * b2n strap)
      ∧ (strap = !s.dev.pw.pairId → exec (.mirrorLinkUp serial strap 16) s = .next { s with dev := hubFall 0x242 d })
      ∧ (strap = s.dev.pw.pairId → exec (.mirrorLinkUp serial strap 16) s = .next { s with dev := (hubFall 0x242 d).setVal Fam.pairRefusal 0 1 }))
  ∧ (∀ s w, s.dev.coreUp = true → s.dev.pr.linkUp = true → w < 16 → exec (.mirrorLinkRetrain w) s = .next { s with dev := (raise 0x242 w false
      (({ s.dev with pr := { s.dev.pr with width := w } }).setVal Fam.pairLink 0 (1 + 2 * w + 64 * b2n s.dev.pr.partnerStrap))) })
  ∧ (∀ s, s.dev.coreUp = true → exec .mirrorLinkDown s = .next { s with dev := (hubFall 0x242
      (({ s.dev with pr := { s.dev.pr with linkUp := false, width := 0 } }).setVal Fam.pairLink 0 (64 * b2n s.dev.pr.partnerStrap))) })
  ∧ (∀ s, s.dev.inMode .lead = true → s.dev.pr.linkUp = true → s.dev.contending = false → s.dev.softResetting = false →
      exec .renewSend s = .next { s with dev := (pairMsg "RENEW" (ownEpoch s.dev) (s.dev.pr.renewSeq + 1)
        { s.dev with pr := { s.dev.pr with renewSeq := s.dev.pr.renewSeq + 1 } }) })
  ∧ (∀ s e q, s.dev.inMode .mirror = true → s.dev.contending = false →
      (e ≤ ownEpoch s.dev → exec (.renewReceive e q) s = .next { s with dev := (pairMsg "RENEW_ACK" e q (setPairState 3 { s.dev with
          pr := { s.dev.pr with renewSeen := q, lease := true, guarding := false } })) })
      ∧ (ownEpoch s.dev < e → ∃ d : Dev, d = takeEpoch e s.dev ∧ ownEpoch d = e ∧ exec (.renewReceive e q) s = .next { s with dev := pairMsg "RENEW_ACK" e q (setPairState 3 { d with pr := { d.pr with renewSeen := q, lease := true, guarding := false } }) }))
  ∧ (∀ s e q, s.dev.inMode .focus = true → s.dev.val Fam.pairState = 2 → ∃ d : Dev,
      d = changeMode .mirror 3 0xFFFF 0xFF (setPairState 3 { s.dev with
        pr := { s.dev.pr with renewSeen := q, lease := true, guarding := false } }) ∧ d.pw.mode = some .mirror
      ∧ exec (.renewReceive e q) s = .next { s with dev := pairMsg "RENEW_ACK" e q (sendOwnerEpoch (takeEpoch e d)) })
  ∧ (∀ s q, s.dev.inMode .lead = true → s.dev.contending = false →
      (s.dev.pr.renewAcked < q → q ≤ s.dev.pr.renewSeq → exec (.renewAck q) s = .next { s with dev := { s.dev with pr := { s.dev.pr with renewAcked := q, lease := true } } })
      ∧ (q ≤ s.dev.pr.renewAcked ∨ s.dev.pr.renewSeq < q → exec (.renewAck q) s = .next s))
  ∧ (∀ s, (s.dev.inMode .mirror = true → exec .renewalMissed s = .next { s with dev := s.dev.bump Fam.pairRenewalsMissed })
      ∧ (s.dev.inMode .mirror = false → exec .renewalMissed s = .next s))
  ∧ (∀ s d, pairedLead s.dev = true → s.dev.pw.trans = none → d = { s.dev with pr := { s.dev.pr with lease := false } } →
      exec .leaseExpireLead s = .next { s with dev := startTie .lead none (d.lensUp.foldl (fun e n => lensShutter n e) d) }
      ∧ (s.dev.pr.unacked ≠ [] → exec .streamAckTimeout s = .next { s with dev := startTie .lead none (d.lensUp.foldl (fun e n => lensShutter n e) d) }))
  ∧ (∀ s, s.dev.pr.unacked = [] → exec .streamAckTimeout s = .next s)
  ∧ (∀ s, s.dev.inMode .mirror = true → s.dev.contending = false → s.dev.fw.activating = none →
      (s.dev.pr.guarding = false → exec .leaseExpireMirror s = .next { s with dev := setPairState 5 { s.dev with pr := { s.dev.pr with lease := false, guarding := true } } })
      ∧ (s.dev.pr.guarding = true → exec .leaseExpireMirror s = .next s))
  ∧ (∀ s, s.dev.inMode .mirror = true →
      (s.dev.pr.guarding = true → s.dev.pw.trans = none → exec .guardElapsed s = .next { s with dev := startTie .mirror none { s.dev with pr := { s.dev.pr with partnerReady := false } } })
      ∧ (s.dev.pr.guarding = false → exec .guardElapsed s = .next s))
  ∧ (∀ s source ctx, s.dev.pw.trans = some (.tie source ctx) → exec (.fenceTimeout none) s = .next { s with dev := tieLost source ctx s.dev })
  ∧ (∀ s m, s.dev.inMode .lead = true → memberServes s.dev m = true →
      ((s.dev.mem m).unfenced = true → exec (.fenceTimeout (some m)) s = .next { s with dev := memberMove m .slow 0 s.dev })
      ∧ ((s.dev.mem m).unfenced = false → isPlatter m = false → exec (.fenceTimeout (some m)) s = .next s))
  ∧ (∀ s gap, s.dev.pw.trans = some (.takeover none) → s.dev.working = true → s.dev.pr.partnerReady = false → ∃ a b c d : Dev,
      a = changeMode .lead 4 0xFFFF 0xFF ({ s.dev with pr := { s.dev.pr with guarding := false, caughtUp := false }
                                                       mt := { s.dev.mt with takeover := true } }.setTrans none)
      ∧ a.pw.mode = some .lead ∧ a.pw.trans = none
      ∧ b = (tkeys (setPairState 4 a).arrays).foldl takeArray (setPairState 4 a)
      ∧ c = { b with pr := { b.pr with held := [] } }
      ∧ d = beginService ((tkeys (setPairState 4 a).arrays).foldl deriveArray
        ((tkeys (setPairState 4 a).arrays).foldl (fun e n => replaceAll n (issueJournal n e)) c))
      ∧ ∀ e, e = (d.bump Fam.pairTakeovers).setVal Fam.pairLastGapUs 0 (min gap 0xFFFFFFFF) →
        exec (.takeoverComplete gap) s = .next { s with dev := settle (raise 0x244 gap true (pairRecord 0 (ownEpoch e) gap e)) })
  ∧ (∀ s d, d = { s.dev with arrays := s.dev.arrays.map fun e => (e.1, { e.2 with embargo := [] }) } →
      (s.dev.executing = false → exec .segmentEmbargoEnd s = .next { s with dev := d })
      ∧ (s.dev.executing = true → exec .segmentEmbargoEnd s = .next { s with dev := settle ((tkeys d.arrays).foldl (fun e a => replaceAll a e) d) }))

/-- A device that takes the stream applies the next packet, or keeps it until what it concerns has been copied, and acknowledges it;
one seen is acknowledged again, one out of order is not taken; a mismatch is acknowledged with 1, reported, raised as 0x240, and the
test starts. An acknowledgement clears the packets up to it; a mismatch gives the verdict to the test. Resynchronisation complete:
from a LEAD the device is MIRROR and the command ends 0, else it is READY and it ends 1; lost, the pair is left and 0x243 raised.
PRISM_KAT starts the test, or is absorbed into the one that runs; its end stores the result, counts, and raises each failing engine.
The commands whose own effect it gives as the next state that exec answers, under conditions on the state and the operands alone:
streamPacket, streamAck, resyncComplete, resyncLost, prismKat, prismKatComplete. -/
def Obligations.StreamResyncAndKnownAnswerTest : Prop :=
  (∀ s q i, takesStream s.dev = true →
      (q ≤ s.dev.pr.streamSeen → exec (.streamPacket q i) s = .next { s with dev := pairMsg "STREAM_ACK" q 0 s.dev })
      ∧ (s.dev.pr.streamSeen + 1 < q → exec (.streamPacket q i) s = .next s)
      ∧ (q = s.dev.pr.streamSeen + 1 → ∀ d, d = { s.dev with pr := { s.dev.pr with streamSeen := q } } →
        (itemMismatch i d = none → exec (.streamPacket q i) s = .next { s with dev := pairMsg "STREAM_ACK" q 0 (takeItem i d) })
        ∧ (∀ a b, itemMismatch i d = some (a, b) → exec (.streamPacket q i) s = .next { s with dev := startKat (raise 0x240 a false (pairMsg "MISMATCH" a b (pairMsg "STREAM_ACK" q 1 d))) })))
  ∧ (∀ s q i, takesStream s.dev = false → exec (.streamPacket q i) s = .next s)
  ∧ (∀ (d : Dev) i, d.pr.deferred = [] → (itemEarly d i = false → takeItem i d = applyItemOf i d)
      ∧ (itemEarly d i = true → takeItem i d = { d with pr := { d.pr with deferred := [i] } }))
  ∧ (∀ (d : Dev) m, applyItemOf (.arbiter m) d = d.setVal Fam.pairArbiter 0 m)
  ∧ (∀ (d : Dev) a v lba q bs, applyItemOf (.wbUnit a v lba q bs) d = { d with
      pr := { d.pr with held := d.pr.held ++ (unitItems v q lba bs).map fun i => (a, i) } })
  ∧ (∀ (d : Dev) v k x, d.vol? v = some x → ((applyItemOf (.key v k) d).vol? v).map (·.key) = some k)
  ∧ (∀ s q d, s.dev.serving = true → s.dev.contending = false →
      d = { s.dev with pr := { s.dev.pr with unacked := s.dev.pr.unacked.filter fun e => !decide (e.1 ≤ q) } } →
      ((∀ e ∈ s.dev.pr.unacked, q < e.1) → exec (.streamAck q none) s = .next { s with dev := settle d })
      ∧ exec (.streamAck q none) s = .next { s with dev := settle ((s.dev.pr.unacked.filter fun e => decide (e.1 ≤ q)).foldl (fun e i => itemAcked e i.2) d) }
      ∧ (∀ a b, (∀ e ∈ s.dev.pr.unacked, q < e.1) → ∃ x : Dev, x = modBeam a b (fun y => { y with mismatch := true }) d ∧
          exec (.streamAck q (some (a, b))) s = .next { s with dev := settle (startKat (raise 0x240 a true { x with pr := { x.pr with verdict := some (a, b) } })) }))
  ∧ (∀ s fromLead id d, s.dev.inMode .focus = true → s.dev.pr.resync = some (fromLead, id) →
      d = (replaceDirectory { s.dev with pr := { s.dev.pr with resync := none, caughtUp := true, lease := fromLead } }).setVal
        Fam.pairResyncPct 0 100 →
      (fromLead = true → exec .resyncComplete s = .next { s with dev := okWith id 0 (sendOwnerEpoch (changeMode .mirror 3 0xFFFF 0xFF (setPairState 3 d))) })
      ∧ (fromLead = false → exec .resyncComplete s = .next { s with dev := okWith id 1 (setPairState 2 d) }))
  ∧ (∀ s, (s.dev.inMode .solo = true → exec .resyncComplete s = .next { s with dev := { s.dev with pr := { s.dev.pr with partnerReady := true } } }
        ∧ exec .resyncLost s = .next { s with dev := { s.dev with pr := { s.dev.pr with partnerReady := false, unacked := [] } } })
      ∧ (s.dev.inMode .lead = true → s.dev.val Fam.pairState = 4 → s.dev.contending = false → exec .resyncComplete s = .next { s with dev := setPairState 3 { s.dev with pr := { s.dev.pr with partnerReady := true, lease := true } } }))
  ∧ (∀ s, (s.dev.inMode .focus = true → s.dev.val Fam.pairState = 2 → s.dev.pr.resync = none →
        exec .resyncLost s = .next { s with dev := raise 0x243 0 false (leavePair s.dev) })
      ∧ (∀ l id, s.dev.inMode .focus = true → s.dev.val Fam.pairState = 1 → s.dev.pr.resync = some (l, id) → exec .resyncLost s = .next { s with dev := raise 0x243 0 false (leavePair (conflict id 0x31 { s.dev with pr := { s.dev.pr with resync := none } })) })
      ∧ (s.dev.inMode .mirror = true → s.dev.contending = false → s.dev.pr.guarding = false →
        exec .resyncLost s = .next { s with dev := raise 0x243 0 false (leavePair s.dev) }))
  ∧ (∀ s who, s.dev.accepts who Fam.prismKat 0 →
      exec (.prismKat who) s = .next { s with dev := shown who { s.dev with pw := { s.dev.pw with katRunning := true } } })
  ∧ (∀ s failed p, s.dev.pw.katRunning = true → s.dev.coreUp = true → s.dev.pr.verdict = none → ∃ d : Dev,
      d = (({ s.dev with pw := { s.dev.pw with katRunning := false } }).setVal Fam.prismKatResult 0 failed.toNat).bump Fam.prismKatRuns
      ∧ exec (.prismKatComplete failed p) s = .next { s with dev := katFaults failed d }
      ∧ (failed = 0 → exec (.prismKatComplete failed p) s = .next { s with dev := d }))

/-- On a bound function with a channel, COPY_START on an IDLE channel with a ring, an aligned address and a tenant not isolated asks
for the descriptor at that address; otherwise it is counted as refused. COPY_ABORT marks a running chain, and one that waits for
staging ends at once. ring_base is taken only in IDLE with bits 11:0 zero, and clears both positions; ring_head as R79 says. A
fetched descriptor ends the chain 3 if the read failed, 6 aborting, 1 if invalid, 4 if it overlaps and is over 64 MiB; it moves
direct, or staged one at a time. A burst that completes writes its bytes; the last completes the descriptor; a failed one ends the
chain 5. Without Bus Master Enable a chain neither reads nor goes on; when the bit is set a held record is written, a running chain
goes on, and one that was aborted ends. The commands whose own effect it gives as the next state that exec answers, under conditions
on the state and the operands alone: copyStart, copyAbort, copyRingBase, copyRingHead, copyDescriptorFetched, copyBurstComplete,
copyStagingGranted, registerWrite. -/
def Obligations.CopyChainsRunAndEnd : Prop :=
  (∀ s r f (addr : Quad) c x, s.dev.reaches r → f = r.toFn → unbound s.dev f = false → chanOf s.dev f = some c → x = s.dev.chan c →
      (x.st = 1 → x.depthM1 ≠ 0 → addr.toNat % 64 = 0 → isolatedFn s.dev f = false → ∀ g, g = s.dev.setChan c { x with
          st := 2, hops := 0, work := .fetch addr.toNat, addr := addr.toNat, staged := false, record := none, next := none, buffer := [] } →
        exec (.copyStart r addr) s = .next { s with dev := if chanRuns s.dev c = true then readRing (chanFn s.dev c) addr.toNat 64 g else g })
      ∧ (x.st ≠ 1 ∨ x.depthM1 = 0 ∨ addr.toNat % 64 ≠ 0 ∨ isolatedFn s.dev f = true →
        exec (.copyStart r addr) s = .next { s with dev := s.dev.bump Fam.copyChanRefused c })
      ∧ (x.st = 2 → x.work ≠ .waitStage → exec (.copyAbort r) s = .next { s with dev := s.dev.setChan c { x with st := 4 } })
      ∧ (x.st = 2 → x.work = .waitStage → exec (.copyAbort r) s = .next { s with dev := endDesc c 6 0 false (s.dev.setChan c { x with st := 4 }) })
      ∧ (x.st ≠ 2 → exec (.copyAbort r) s = .next s)
      ∧ (x.st = 1 → addr.toNat % 4096 = 0 → exec (.copyRingBase r addr) s = .next { s with dev := s.dev.setChan c { x with base := addr, tail := 0, head := 0 } })
      ∧ (x.st ≠ 1 ∨ addr.toNat % 4096 ≠ 0 → exec (.copyRingBase r addr) s = .next s)
      ∧ (∀ v : Word, headOk (x.depthM1 + 1) x.head x.tail v.toNat = true →
        (x.st ≠ 3 → exec (.copyRingHead r v) s = .next { s with dev := s.dev.setChan c { x with head := v.toNat } })
        ∧ (x.st = 3 → exec (.copyRingHead r v) s = .next { s with dev := putRecord c (s.dev.setChan c { x with head := v.toNat }) }))
      ∧ (∀ v : Word, headOk (x.depthM1 + 1) x.head x.tail v.toNat = false →
        exec (.copyRingHead r v) s = .next { s with dev := s.dev.bump Fam.copyChanRefused c }))
  ∧ (∀ s (r : Req) (addr : Quad) (v : Word), s.dev.reaches r → chanOf s.dev r.toFn = none ∨ unbound s.dev r.toFn = true → exec (.copyStart r addr) s = .next s
      ∧ exec (.copyAbort r) s = .next s ∧ exec (.copyRingBase r addr) s = .next s ∧ exec (.copyRingHead r v) s = .next s)
  ∧ (∀ s c a x, x = s.dev.chan c → x.work = .fetch a → chanRuns s.dev c = true →
      exec (.copyDescriptorFetched c none) s = .next { s with dev := endChain c 3 0 false a 0 0 (s.dev.setChan c { x with desc := 0, staged := false }) }
      ∧ (∀ d e, e = s.dev.setChan c { x with desc := d, addr := a, staged := false } →
        (x.st = 4 → exec (.copyDescriptorFetched c (some d)) s = .next { s with dev := endDesc c 6 0 false e })
        ∧ (x.st ≠ 4 → s.dev.inMode .eclipse = true → exec (.copyDescriptorFetched c (some d)) s = .next { s with dev := endDesc c 7 0 false e })
        ∧ (x.st ≠ 4 → s.dev.inMode .eclipse = false → descInvalid d = true →
          exec (.copyDescriptorFetched c (some d)) s = .next { s with dev := endDesc c 1 0 false e })
        ∧ (x.st ≠ 4 → s.dev.inMode .eclipse = false → descInvalid d = false →
          (descOverlaps d = false → exec (.copyDescriptorFetched c (some d)) s = .next { s with dev := (askNext c
            (s.dev.setChan c { x with desc := d, addr := a, staged := false, work := .move 0 0 })) })
          ∧ (descOverlaps d = true → 64 * 2 ^ 20 < dTotal d → exec (.copyDescriptorFetched c (some d)) s = .next { s with dev := endDesc c 4 0 false e })
          ∧ (descOverlaps d = true → dTotal d ≤ 64 * 2 ^ 20 → s.dev.staging = none → exec (.copyDescriptorFetched c (some d)) s = .next { s with dev := askNext c (({ s.dev with staging := some c }).setChan c { x with desc := d, addr := a, staged := true, work := .move 0 0 }) })
          ∧ (descOverlaps d = true → dTotal d ≤ 64 * 2 ^ 20 → s.dev.staging.isSome = true →
              exec (.copyDescriptorFetched c (some d)) s = .next { s with dev := (s.dev.setChan c { x with
                desc := d, addr := a, staged := true, work := .waitStage }) }))))
  ∧ (∀ s c x w n e, x = s.dev.chan c → x.work = .move w w → x.staged = false → chanRuns s.dev c = true →
      n = burstLen x w w → burstCharge c n s.dev = some e → e.chan c = x →
      exec (.copyBurstComplete c .fail true) s = .next { s with dev := endDesc c 5 w false e }
      ∧ (∀ b, exec (.copyBurstComplete c (.bytes b) false) s = .next { s with dev := endDesc c 5 w true e })
      ∧ (∀ b g, g = ((sendData (chanFn e c) (dstAddr x.desc w) (fitBytes n b) e).addVal Fam.copyChanBytes c n).setChan c
            { x with work := .move (w + n) (w + n) } →
        (dTotal x.desc ≤ w + n → exec (.copyBurstComplete c (.bytes b) true) s = .next { s with dev := descDone c g })
        ∧ (w + n < dTotal x.desc → x.st = 4 → exec (.copyBurstComplete c (.bytes b) true) s = .next { s with dev := endDesc c 6 (w + n) false g })
        ∧ (w + n < dTotal x.desc → x.st = 2 → s.dev.inMode .eclipse = false →
            exec (.copyBurstComplete c (.bytes b) true) s = .next { s with dev := askNext c g })))
  ∧ (∀ s c src ok rd wr, (s.dev.chan c).work = .move rd wr → burstCharge c (burstLen (s.dev.chan c) rd wr) s.dev = none →
      (s.dev.chan c).st ≠ 4 → exec (.copyBurstComplete c src ok) s = .next s)
  ∧ (∀ s c x, x = s.dev.chan c → x.work = .waitStage →
      (s.dev.staging = none → s.dev.inMode .eclipse = false → exec (.copyStagingGranted c) s = .next { s with dev := askNext c (({ s.dev with staging := some c }).setChan c { x with work := .move 0 0 }) })
      ∧ (s.dev.staging.isSome = true → exec (.copyStagingGranted c) s = .next s))
  ∧ (∀ s c src ok rd wr, (s.dev.chan c).work = .move rd wr → chanRuns s.dev c = true →
      burstCharge c (burstLen (s.dev.chan c) rd wr) s.dev = none → (s.dev.chan c).st = 4 →
      exec (.copyBurstComplete c src ok) s = .next { s with dev := endDesc c 6 wr false s.dev })
  ∧ (∀ s c src ok raw, chanRuns s.dev c = false →
      exec (.copyBurstComplete c src ok) s = .next s ∧ exec (.copyDescriptorFetched c raw) s = .next s)
  ∧ (∀ s f, portServes s.dev f.port = true → s.dev.fnExists f = true →
      (∀ on, chanOf s.dev f = none ∨ on = false ∨ (s.dev.fnS f).busMaster = true →
        exec (.registerWrite (.busMaster f on)) s = .next { s with dev := s.dev.setFn f { s.dev.fnS f with busMaster := on } })
      ∧ (∀ c g, chanOf s.dev f = some c → (s.dev.fnS f).busMaster = false → g = s.dev.setFn f { s.dev.fnS f with busMaster := true } →
        ((s.dev.chan c).record.isSome = true → exec (.registerWrite (.busMaster f true)) s = .next { s with dev := putRecord c g })
        ∧ ((s.dev.chan c).record = none → (s.dev.chan c).st = 4 → exec (.registerWrite (.busMaster f true)) s = .next { s with dev := endRunning c 6 g })
        ∧ ((s.dev.chan c).record = none → (s.dev.chan c).st = 2 → s.dev.inMode .eclipse = false →
          exec (.registerWrite (.busMaster f true)) s = .next { s with dev := askNext c g })))

/-- For every descriptor with lines and a line length whose extents fit below 2^64: each byte the engine reads or writes lies in the
extent of its side; where the two extents do not intersect no source byte is a destination byte; a burst is at least one byte long,
does not pass the end of its line, and does not cross a 4 KiB boundary of its side. -/
def Obligations.ExtentsHoldEveryByteOfADescriptor : Prop :=
  (∀ d p, descInvalid d = false → p < dTotal d →
      (srcExtent d).1 ≤ (srcAddr d p : Int) ∧ (srcAddr d p : Int) < (srcExtent d).2
      ∧ (dstExtent d).1 ≤ (dstAddr d p : Int) ∧ (dstAddr d p : Int) < (dstExtent d).2)
  ∧ (∀ d p q, descInvalid d = false → descOverlaps d = false → p < dTotal d → q < dTotal d → srcAddr d p ≠ dstAddr d q)
  ∧ (∀ d p addr, descInvalid d = false → p < dTotal d → 0 < burstAt d p addr ∧ p % dLine d + burstAt d p addr ≤ dLine d
      ∧ addr % 4096 + burstAt d p addr ≤ 4096)
  ∧ (∀ d p i, descInvalid d = false → p < dTotal d → i < burstAt d p (srcAddr d p) → srcAddr d (p + i) = srcAddr d p + i)

/-- On a reachable, bound function: a word that finds fewer than eight waiting joins the tx queue with its stamp; one that finds
eight is dropped, counted, logged as a Completer Abort, and the mailbox is unchanged. tx_doorbell bits are set whatever waits. rx_pop
of 1 takes the oldest rx word; clearing rx_doorbell bits takes those bits alone, and the summary follows. The running firmware takes
a purge marker first, else the oldest tx word; posts into an rx queue with room and never into a full one; and raises and takes
doorbell bits. The commands whose own effect it gives as the next state that exec answers, under conditions on the state and the
operands alone: txWord, txDoorbell, rxDoorbellClear, rxPop, firmwareTakeWord, firmwarePostWord, firmwareRaiseDoorbell,
firmwareTakeDoorbell. -/
def Obligations.MailboxWordsAndDoorbells : Prop :=
  (∀ s r f w, s.dev.reaches r → f = r.toFn → unbound s.dev f = false →
      ((s.dev.fnS f).tx.length < 8 → exec (.txWord r w) s = .next { s with dev := (s.dev.setFn f { s.dev.fnS f with
          tx := (s.dev.fnS f).tx ++ [(w, stampOf s.dev f (b2n (s.dev.isAdmin f)))] }) })
      ∧ (8 ≤ (s.dev.fnS f).tx.length → exec (.txWord r w) s = .next { s with dev := (aerError f 15 false (some (tlpHeader s.dev))
          (s.dev.bump Fam.mboxPortRejected f.port).draw) })
      ∧ (8 ≤ (s.dev.fnS f).tx.length → ∃ d : Dev, exec (.txWord r w) s = .next { s with dev := d } ∧ ((d.fnS f).tx = (s.dev.fnS f).tx
          ∧ (d.fnS f).rx = (s.dev.fnS f).rx ∧ (d.fnS f).txDoorbell = (s.dev.fnS f).txDoorbell)))
  ∧ (∀ s r f b, s.dev.reaches r → f = r.toFn → unbound s.dev f = false →
      exec (.txDoorbell r b) s = .next { s with dev := s.dev.setFn f { s.dev.fnS f with txDoorbell := (s.dev.fnS f).txDoorbell ||| b } }
      ∧ exec (.rxDoorbellClear r b) s = .next { s with dev := refreshMailbox f (s.dev.setFn f { s.dev.fnS f with rxDoorbell := (s.dev.fnS f).rxDoorbell &&& ~~~b }) })
  ∧ (∀ s r w b, s.dev.reaches r → unbound s.dev r.toFn = true → exec (.txWord r w) s = .next s ∧ exec (.txDoorbell r b) s = .next s
      ∧ exec (.rxPop r b) s = .next s ∧ exec (.rxDoorbellClear r b) s = .next s)
  ∧ (∀ s r f (v : Word), s.dev.reaches r → f = r.toFn → unbound s.dev f = false → (s.dev.fnS f).owed = [] →
      (v.getLsbD 0 = true → exec (.rxPop r v) s = .next { s with dev := s.dev.setFn f { s.dev.fnS f with rx := (s.dev.fnS f).rx.drop 1 } })
      ∧ (v.getLsbD 0 = false → exec (.rxPop r v) s = .next s))
  ∧ (∀ s f, firmwareRuns s.dev = true →
      ((s.dev.fnS f).purges = [] → exec (.firmwareTakeWord f) s = .next { s with dev := (s.dev.setFn f { s.dev.fnS f with
          tx := (s.dev.fnS f).tx.drop 1, req := (s.dev.fnS f).req ++ (s.dev.fnS f).tx.take 1 }) })
      ∧ ((s.dev.fnS f).purges ≠ [] → exec (.firmwareTakeWord f) s = .next { s with dev := s.dev.setFn f { s.dev.fnS f with purges := (s.dev.fnS f).purges.drop 1 } }))
  ∧ (∀ s f w, firmwareRuns s.dev = true → (s.dev.fnS f).owed = [] →
      ((s.dev.fnS f).rx.length < 8 → exec (.firmwarePostWord f w) s = .next { s with dev := (s.dev.setFn f { s.dev.fnS f with
          rx := (s.dev.fnS f).rx ++ [(w, stampOf s.dev f 3)] }) })
      ∧ (8 ≤ (s.dev.fnS f).rx.length → exec (.firmwarePostWord f w) s = .next s))
  ∧ (∀ s f b, firmwareRuns s.dev = true →
      exec (.firmwareRaiseDoorbell f b) s = .next { s with dev := refreshMailbox f (s.dev.setFn f { s.dev.fnS f with rxDoorbell := (s.dev.fnS f).rxDoorbell ||| b }) }
      ∧ exec (.firmwareTakeDoorbell f b) s = .next { s with dev := s.dev.setFn f { s.dev.fnS f with txDoorbell := (s.dev.fnS f).txDoorbell &&& ~~~b } })
  ∧ (∀ s f b w, firmwareRuns s.dev = false → exec (.firmwareTakeWord f) s = .next s ∧ exec (.firmwareRaiseDoorbell f b) s = .next s
      ∧ exec (.firmwareTakeDoorbell f b) s = .next s ∧ exec (.firmwarePostWord f w) s = .next s)
  ∧ (∀ (d : Dev) (f : Fn) p, p < 4 → (d.fnS f).flrEpoch < 32 → f.fn < 128 → f.port < 16 →
      (stampOf d f p).toNat / 8192 = (d.fnS f).flrEpoch ∧ (stampOf d f p).toNat / 2048 % 4 = p
      ∧ (stampOf d f p).toNat / 16 % 128 = f.fn ∧ (stampOf d f p).toNat % 16 = f.port)

/-- For every access the arbiter accepts: TAKE is granted if the claim is free or held by the same master and RENEW to the holder,
with 10 s from now; each gives CLAIMED otherwise, counted, with no effect. RELEASE frees the claim for its holder and is OK with no
effect for another master. FORCE gives NO_RIGHT from the admin master; from side-band it moves the claim and latches 0x254 while the
admin function is unreachable, and gives UNAVAILABLE with no effect otherwise. CLAIM_EXPIRE frees it. While one of the two masters
holds it, a write by the other is refused with CLAIMED. Reads are never barred; tenant and firmware writes are never barred. The
commands whose own effect it gives as the next state that exec answers, under conditions on the state and the operands alone: take,
renew, claimRelease, force, claimExpire. -/
def Obligations.WriteClaimBelongsToOne : Prop :=
  (∀ s who d, s.dev.accepts who Fam.claimRequest 0 → claimant who ≠ 0 → d = { s.dev with
        dc := { s.dev.dc with holder := claimant who, expiry := s.dev.tm.now + 10000000000 } } →
      (s.dev.dc.holder = 0 ∨ s.dev.dc.holder = claimant who → exec (.take who) s = .next { s with dev := shown who d })
      ∧ (s.dev.dc.holder ≠ 0 → s.dev.dc.holder ≠ claimant who →
          exec (.take who) s = .next { s with dev := emit (.dict who rClaimed []) (refuseWrite s.dev) })
      ∧ (s.dev.dc.holder = claimant who → exec (.renew who) s = .next { s with dev := shown who d })
      ∧ (s.dev.dc.holder ≠ claimant who → exec (.renew who) s = .next { s with dev := emit (.dict who rClaimed []) (refuseWrite s.dev) })
      ∧ (s.dev.dc.holder = claimant who → exec (.claimRelease who) s = .next { s with dev := (shown who
          { s.dev with dc := { s.dev.dc with holder := 0, expiry := 0 } }) })
      ∧ (s.dev.dc.holder ≠ claimant who → exec (.claimRelease who) s = .next { s with dev := shown who s.dev }))
  ∧ (∀ s, s.dev.accepts .admin Fam.claimRequest 0 → exec (.force .admin) s = .next { s with dev := emit (.dict .admin rNoRight []) (refuseWrite s.dev) })
  ∧ (∀ s, s.dev.accepts .sideband Fam.claimRequest 0 →
      (adminUnreachable s.dev = false → exec (.force .sideband) s = .next { s with dev := emit (.dict .sideband rUnavailable []) (refuseWrite s.dev) })
      ∧ (adminUnreachable s.dev = true → ∃ d : Dev, d = s.dev.bump Fam.claimForced ∧ exec (.force .sideband) s = .next { s with dev := (shown .sideband
          (raise 0x254 0 false { d with dc := { d.dc with holder := 2, expiry := d.tm.now + 10000000000 } })) }))
  ∧ (∀ s, exec .claimExpire s = .next { s with dev := { s.dev with dc := { s.dev.dc with holder := 0, expiry := 0 } } })
  ∧ (∀ (d : Dev) who v, 1 ≤ v → v ≤ 4 → writeTest d who Fam.claimRequest 0 1 = 0 → claimRefusal who v d = 0 →
      writeFamily who Fam.claimRequest 0 [BitVec.ofNat 8 v] d = (rOk, claimAct who v d))
  ∧ (∀ (d : Dev) f i b, f ≠ Fam.claimRequest →
      (d.dc.holder = 2 → accessTest d .admin f i true = 0 → writeFamily .admin f i b d = (rClaimed, refuseWrite d))
      ∧ (d.dc.holder = 1 → accessTest d .sideband f i true = 0 → writeFamily .sideband f i b d = (rClaimed, refuseWrite d)))
  ∧ (∀ (d : Dev) who index sub h e, (readObject who index sub { d with dc := { d.dc with holder := h, expiry := e } }).1
      = (readObject who index sub d).1)
  ∧ (∀ (d : Dev) t x, claimBars d (.tenant t) x = false ∧ claimBars d .firmware x = false)

/-- A write of an exclusive object by the admin or the side-band master that does not hold the claim, and that the tests before it
let pass, gives CLAIMED, is counted and has no effect; claim.request is no exclusive object. The exclusive families are
settings.store, settings.factory_reset, bbox.erase, host.admin_port, pair.enable, pcache.vault[0] and [1], pcache.board_power_w,
pcache.holdup_energy_j, fault.inject_enable, fault[s].severity and sb.key[k], and no others. -/
def Obligations.ExclusiveObjectsNeedTheClaim : Prop :=
  (∀ f, f < catalogue.length → ((famRow f).exclusive = true ↔ f ∈ [Fam.settingsStore, Fam.settingsFactoryReset, Fam.bboxErase,
      Fam.hostAdminPort, Fam.pairEnable, Fam.pcacheVault0, Fam.pcacheVault1, Fam.pcacheBoardPowerW, Fam.pcacheHoldupEnergyJ,
      Fam.faultInjectEnable, Fam.faultSeverity, Fam.sbKey]))
  ∧ (∀ (d : Dev) f i b, (famRow f).exclusive = true → f ≠ Fam.claimRequest →
      (d.dc.holder ≠ 1 → accessTest d .admin f i true = 0 → writeFamily .admin f i b d = (rClaimed, refuseWrite d))
      ∧ (d.dc.holder ≠ 2 → accessTest d .sideband f i true = 0 → writeFamily .sideband f i b d = (rClaimed, refuseWrite d)))

/-- A write of an object ends with the first test that fails: NO_OBJECT for an instance that does not exist or is outside a tenant's
scope, READ_ONLY for an RO object whatever the rights entry shows, NO_RIGHT, CLAIMED, BAD_LENGTH, UNAVAILABLE for a core object in
DARK. Each command that writes an object is refused so, shows the code to its master, counts in dict.refused_writes and changes
nothing else; a master whose path is down has no effect at all. A slot's SET does the same. -/
def Obligations.RefusedWritesHaveNoEffect : Prop :=
  (∀ s c who f i, writeRow c = some (who, f, i) →
      (masterUp s.dev who = false → exec c s = .next s)
      ∧ (masterUp s.dev who = true → writeTest s.dev who f i (famRow f).length ≠ 0 →
          exec c s = .next { s with dev := emit (.dict who (writeTest s.dev who f i (famRow f).length) []) (refuseWrite s.dev) }))
  ∧ (∀ d : Dev, ∃ vals fresh, refuseWrite d = { d with vals := vals, fresh := fresh }
      ∧ ∀ f i, valKey f i ≠ valKey Fam.dictRefusedWrites 0 → (refuseWrite d).val f i = d.val f i)
  ∧ (∀ (d : Dev) who f i b r, r = famRow f →
      (r.instances ≤ i ∨ catalogue.length ≤ f → writeFamily who f i b d = (rNoObject, refuseWrite d))
      ∧ (i < r.instances → f < catalogue.length →
        (∀ t, who = .tenant t → inScope d t f i = false → writeFamily who f i b d = (rNoObject, refuseWrite d))
        ∧ ((∀ t, who = .tenant t → inScope d t f i = true) →
          (r.access = .RO → writeFamily who f i b d = (rReadOnly, refuseWrite d))
          ∧ (r.access ≠ .RO → bit (rightsOf who r.rights) 1 = false → writeFamily who f i b d = (rNoRight, refuseWrite d))
          ∧ (r.access ≠ .RO → bit (rightsOf who r.rights) 1 = true →
            (claimBars d who r.exclusive = true → f ≠ Fam.claimRequest → writeFamily who f i b d = (rClaimed, refuseWrite d))
            ∧ (claimBars d who r.exclusive = false ∨ f = Fam.claimRequest →
              (b.length ≠ r.length → writeFamily who f i b d = (rBadLength, refuseWrite d))
              ∧ (b.length = r.length → d.inMode .dark = true → r.periscope = false →
                writeFamily who f i b d = (rUnavailable, refuseWrite d))
              ∧ (b.length = r.length → d.inMode .dark = false ∨ r.periscope = true → valueRefusal who f i b d = 0 →
                writeFamily who f i b d = (rOk, writeEffect who f i b d)))))))

/-- On a reachable admin function a slot's GET that is not busy reads the object named and leaves result, length and value; SET
writes the value and leaves the result. A mailbox request is served in order: a GET word by the read and its reply words, a SET whose
value words have all come by the write, a word of another op by UNAVAILABLE; one whose words have not come waits, and a purge marker
is taken first. The commands whose own effect it gives as the next state that exec answers, under conditions on the state and the
operands alone: dictSlotGet, dictSlotSet, mailboxDictGet, mailboxDictSet. -/
def Obligations.SlotsAndMailboxReachTheObjects : Prop :=
  (∀ s n x, n < 8 → s.dev.reaches s.dev.adminReq → x = s.dev.slot n → x.busy = false →
      (∀ r, r = readObject .admin x.index x.sub s.dev → exec (.dictSlotGet n) s = .next { s with dev := (emit (.dict .admin r.1 r.2) (afterRead x.index x.sub
          (s.dev.setSlot n { x with
            result := r.1, rlength := r.2.length, data := if r.1 = 0 then r.2 ++ x.data.drop r.2.length else x.data }))) })
      ∧ (∀ r, r = writeObject .admin x.index x.sub (fitBytes x.length x.data) s.dev → exec (.dictSlotSet n) s = .next { s with dev := emit (.dict .admin r.1 []) (r.2.setSlot n { r.2.slot n with result := r.1 }) }))
  ∧ (∀ s n, n < 8 → s.dev.reaches s.dev.adminReq → (s.dev.slot n).busy = true →
      exec (.dictSlotGet n) s = .next s ∧ exec (.dictSlotSet n) s = .next s)
  ∧ (∀ s f w st rest, firmwareRuns s.dev = true → (s.dev.fnS f).purges = [] → mailWords (s.dev.fnS f) = (w, st) :: rest →
      (∀ who r, mOp w = 1 → mailMaster s.dev f st = some who → r = readObject who (mIndex w) (mSub w) s.dev →
        exec (.mailboxDictGet f) s = .next { s with dev := sendReply f (mReply w r.1 r.2.length :: valueWords r.2) (afterRead (mIndex w) (mSub w) (takeMail f 1 s.dev)) })
      ∧ (∀ who r, mOp w = 2 → mailMaster s.dev f st = some who → cdiv (mLength w) 8 ≤ rest.length →
          r = writeObject who (mIndex w) (mSub w)
            (fitBytes (mLength w) ((rest.take (cdiv (mLength w) 8)).flatMap fun e => le 8 e.1.toNat)) s.dev →
          exec (.mailboxDictSet f) s = .next { s with dev := sendReply f [mReply w r.1 0] (takeMail f (cdiv (mLength w) 8 + 1) r.2) })
      ∧ (mOp w = 1 → mailMaster s.dev f st = none → exec (.mailboxDictGet f) s = .next { s with dev := sendReply f [mReply w rNoObject 0] (afterRead (mIndex w) (mSub w) (takeMail f 1 s.dev)) })
      ∧ (mOp w = 2 → rest.length < cdiv (mLength w) 8 → exec (.mailboxDictSet f) s = .next s)
      ∧ (mOp w ≠ 1 → mOp w ≠ 2 → exec (.mailboxDictGet f) s = .next { s with dev := sendReply f [mReply w rUnavailable 0] (takeMail f 1 s.dev) }
          ∧ exec (.mailboxDictSet f) s = .next { s with dev := sendReply f [mReply w rUnavailable 0] (takeMail f 1 s.dev) }))
  ∧ (∀ s f, (s.dev.fnS f).purges ≠ [] → exec (.mailboxDictGet f) s = .next s ∧ exec (.mailboxDictSet f) s = .next s)

/-- An accepted SETTINGS_STORE of 0x5EA1 with none running starts a copy with a sequence one above both copies, destined for the copy
of the lower sequence; another value gives UNAVAILABLE, one that runs BUSY. Verified, the copy is whole and settings.sequence shows
its number; not verified, it is torn, the state is 2 and 0x250 is latched, and the other copy stands. FACTORY_RESET of 0xFAC7 in
DARK, FOCUS and ECLIPSE writes the defaults into both copies under the next two sequences and changes no value, key, record or
identity; elsewhere it gives UNAVAILABLE. While a store runs it gives BUSY (the model's reading, log entry 46). The commands whose
own effect it gives as the next state that exec answers, under conditions on the state and the operands alone: settingsStore,
settingsStoreComplete, factoryReset. -/
def Obligations.SettingsStoreAndFactoryReset : Prop :=
  (∀ s who, s.dev.accepts who Fam.settingsStore 0 →
      (s.dev.dc.storing = none → exec (.settingsStore who 0x5EA1) s = .next { s with dev := (shown who
        (({ s.dev with dc := { s.dev.dc with storing := some (newCopy s.dev) } }).setVal Fam.settingsState 0 1)) })
      ∧ (s.dev.dc.storing.isSome = true → exec (.settingsStore who 0x5EA1) s = .next { s with dev := emit (.dict who rBusy []) (refuseWrite s.dev) })
      ∧ (∀ v, v ≠ 0x5EA1 → exec (.settingsStore who v) s = .next { s with dev := emit (.dict who rUnavailable []) (refuseWrite s.dev) }))
  ∧ (∀ d : Dev, d.dc.copyA.seqIn < (newCopy d).2.seq ∧ d.dc.copyB.seqIn < (newCopy d).2.seq ∧ (newCopy d).2.valid = true
      ∧ ((newCopy d).1 = 0 → d.dc.copyA.seqIn ≤ d.dc.copyB.seqIn) ∧ ((newCopy d).1 ≠ 0 → d.dc.copyB.seqIn < d.dc.copyA.seqIn)
      ∧ (d.inMode .dark = false → (newCopy d).2.binds = storedBinds d ∧ (newCopy d).2.tenants = storedTenants d))
  ∧ (∀ s n c, s.dev.periscope = true → s.dev.dc.storing = some (n, c) → s.dev.dc.storeFor = none →
      (∃ d : Dev, exec (.settingsStoreComplete true) s = .next { s with dev := d } ∧ (d.dc = { s.dev.dc with
          storing := none, loaded := c, copyA := if n = 0 then c else s.dev.dc.copyA, copyB := if n = 0 then s.dev.dc.copyB else c }
        ∧ d.val Fam.settingsState = 0 ∧ d.val Fam.settingsSequence = c.seq ∧ d.out = s.dev.out))
      ∧ ∃ d : Dev, d = (setCopy n { c with valid := false }
          { s.dev with dc := { s.dev.dc with storing := none } }).setVal Fam.settingsState 0 2
        ∧ (n = 0 → d.dc.copyB = s.dev.dc.copyB) ∧ (n ≠ 0 → d.dc.copyA = s.dev.dc.copyA)
        ∧ ((raise 0x250 n false d).dc.storeFor = none → exec (.settingsStoreComplete false) s = .next { s with dev := raise 0x250 n false d }))
  ∧ (∀ s who q, s.dev.accepts who Fam.settingsFactoryReset 0 → q = max s.dev.dc.copyA.seqIn s.dev.dc.copyB.seqIn →
      (s.dev.inMode .dark = true ∨ s.dev.inMode .focus = true ∨ s.dev.inMode .eclipse = true → s.dev.dc.storing = none →
        exec (.factoryReset who 0xFAC7) s = .next { s with dev := (shown who (({ s.dev with dc := { s.dev.dc with
          copyA := { Settings.blank with seq := q + 1, valid := true }
          copyB := { Settings.blank with seq := q + 2, valid := true } } }).setVal Fam.settingsSequence 0 (q + 2))) })
      ∧ (s.dev.inMode .dark = true ∨ s.dev.inMode .focus = true ∨ s.dev.inMode .eclipse = true → s.dev.dc.storing.isSome = true →
        exec (.factoryReset who 0xFAC7) s = .next { s with dev := emit (.dict who rBusy []) (refuseWrite s.dev) })
      ∧ (s.dev.serving = true ∨ s.dev.inMode .mirror = true →
        exec (.factoryReset who 0xFAC7) s = .next { s with dev := emit (.dict who rUnavailable []) (refuseWrite s.dev) })
      ∧ (∀ v, v ≠ 0xFAC7 → exec (.factoryReset who v) s = .next { s with dev := emit (.dict who rUnavailable []) (refuseWrite s.dev) }))

/-- A request whose serial, slot or MAC fails, or whose sequence is not new, is discarded, counted and raised as 0x252. An accepted
one advances its slot's sequence; a message sent carries the next of the device's own and its MAC. GET of 1 to 16 targets is answered
with their values, of another count UNAVAILABLE; a discovery GET of the three identity objects without authentication, and of any
other it is discarded. SET answers with the write's result, and a key only under slot 0. STORE answers when the store ends, CLAIM
with holder and time left. SUBSCRIBE takes its own or the lowest free number, or UNAVAILABLE; lifetime 0 ends it. FILE reads the
black box; a write or commit of an image needs the claim. The commands whose own effect it gives as the next state that exec answers,
under conditions on the state and the operands alone: get, discoveryGet, set, store, claim, subscribe, subscriptionExpire, fileRead,
fileWrite, fileCommit. -/
def Obligations.SideBandRequestsAreAuthenticated : Prop :=
  (∀ s m l, sbReady s.dev = true →
      (genuine s.dev m 0x01 (targetBytes l) = false → exec (.get m l) s = .next { s with dev := raise 0x252 (m.sender.toNat % 2 ^ 32) false (s.dev.bump Fam.sbAuthFailures) })
      ∧ (genuine s.dev m 0x01 (targetBytes l) = true → seqFresh s.dev m = false → exec (.get m l) s = .next { s with dev := raise 0x252 (m.sender.toNat % 2 ^ 32) false ((s.dev.bump Fam.sbAuthFailures).bump Fam.sbReplays) }))
  ∧ (∀ s m l r, s.dev.heard m 0x01 (targetBytes l) → r = getTargets l (s.dev.noted m) →
      (0 < l.length → l.length ≤ 16 → exec (.get m l) s = .next { s with dev := falferReply m 0x01 rOk r.2 r.1 })
      ∧ (l.length = 0 ∨ 16 < l.length → exec (.get m l) s = .next { s with dev := falferReply m 0x01 rUnavailable [] (s.dev.noted m) }))
  ∧ (∀ l (d : Dev), (getTargets l d).2.length ≤ 1404 + 4 * l.length)
  ∧ (∀ (d : Dev) dest port k kind res tag pl q, q = tget d.sb.seqOut k 0 + 1 → (falferSend dest port k kind res tag pl d).out = d.out
      ++ [.falfer dest port k kind res tag q pl (some (falferMac (tget d.sb.keys k 0)
        (falferHead kind k res q d.ident.serial.toNat tag.toNat pl)))])
  ∧ (∀ s tag sender port l, sbReady s.dev = true →
      (l.all discoverable = true → 0 < l.length → l.length ≤ 16 → exec (.discoveryGet tag sender port l) s = .next { s with dev := { s.dev with out := s.dev.out ++ [.falfer sender port 0 0x81 rOk tag 0 (getTargets l s.dev).2 none] } })
      ∧ (l.all discoverable = false → exec (.discoveryGet tag sender port l) s = .next { s with dev := raise 0x252 (sender.toNat % 2 ^ 32) false (s.dev.bump Fam.sbAuthFailures) }))
  ∧ (∀ s m index sub b d r, s.dev.heard m 0x02 (le 2 index ++ le 1 sub ++ le 1 0 ++ b) → d = s.dev.noted m →
      r = writeObject .sideband index sub b d →
      (keyBarred m index sub b d = false → exec (.set m index sub b) s = .next { s with dev := falferReply m 0x02 r.1 [] r.2 })
      ∧ (keyBarred m index sub b d = true → exec (.set m index sub b) s = .next { s with dev := falferReply m 0x02 rUnavailable [] (refuseWrite d) }))
  ∧ (∀ s m d r, s.dev.heard m 0x03 [] → d = s.dev.noted m → r = writeFamily .sideband Fam.settingsStore 0 (le 2 0x5EA1) d →
      (r.1 = 0 → exec (.store m) s = .next { s with dev := { r.2 with dc := { r.2.dc with storeFor := some m } } })
      ∧ (r.1 ≠ 0 → exec (.store m) s = .next { s with dev := falferReply m 0x03 r.1 [] r.2 }))
  ∧ (∀ s m a r, s.dev.heard m 0x04 (le 1 a ++ le 3 0) → r = writeFamily .sideband Fam.claimRequest 0 (le 1 a) (s.dev.noted m) →
      exec (.claim m a) s = .next { s with dev := falferReply m 0x04 r.1 (le 1 r.2.dc.holder ++ le 1 0 ++ le 2 (readScalar r.2 Fam.claimRemainingMs 0)) r.2 })
  ∧ (∀ s m sev kinds udp life d, s.dev.heard m 0x05 (le 1 sev ++ le 1 kinds ++ le 2 udp ++ le 2 life) → d = s.dev.noted m →
      (∀ n, life = 0 → subscriptionOf s.dev m.sender udp = some n →
        exec (.subscribe m sev kinds udp life) s = .next { s with dev := falferReply m 0x05 rOk (le 1 n ++ le 3 0) (dropSubscription n d) })
      ∧ (0 < life → sev < 1 ∨ 4 < sev → exec (.subscribe m sev kinds udp life) s = .next { s with dev := falferReply m 0x05 rUnavailable [] d })
      ∧ (∀ n, 0 < life → 1 ≤ sev → sev ≤ 4 → (subscriptionOf s.dev m.sender udp <|> freeSubscription s.dev) = some n →
        exec (.subscribe m sev kinds udp life) s = .next { s with dev := (falferReply m 0x05 rOk (le 1 n ++ le 3 0)
          { d with sb := { d.sb with subs := tput d.sb.subs n (m.sender, udp, m.keySlot, sev, kinds) } }) })
      ∧ (0 < life → 1 ≤ sev → sev ≤ 4 → subscriptionOf s.dev m.sender udp = none → freeSubscription s.dev = none →
        exec (.subscribe m sev kinds udp life) s = .next { s with dev := falferReply m 0x05 rUnavailable [] d }))
  ∧ (∀ s n, s.dev.periscope = true → exec (.subscriptionExpire n) s = .next { s with dev := { s.dev with
      sb := { s.dev.sb with subs := tdel s.dev.sb.subs n } } })
  ∧ (∀ s m file off len, s.dev.heard m 0x06 (fileBytes 1 file len off []) →
      (file = 1 → len ≤ 1024 → off + len ≤ 4194304 → exec (.fileRead m file off len) s = .next { s with dev := falferReply m 0x06 rOk (ringBytes s.dev off len) (s.dev.noted m) })
      ∧ (file ≠ 1 ∨ 1024 < len ∨ 4194304 < off + len → exec (.fileRead m file off len) s = .next { s with dev := falferReply m 0x06 rUnavailable [] (s.dev.noted m) }))
  ∧ (∀ s m file off b d, s.dev.heard m 0x06 (fileBytes 2 file b.length off b) → d = s.dev.noted m →
      (file = 2 ∨ file = 3 → s.dev.dc.holder ≠ 2 → exec (.fileWrite m file off b) s = .next { s with dev := falferReply m 0x06 rClaimed [] d })
      ∧ (writeRefusal file off b.length s.dev = 0 → ∃ e : Dev, e = (if off = 0 then eraseSlot (file - 2) 2 d else d)
          ∧ exec (.fileWrite m file off b) s = .next { s with dev := (falferReply m 0x06 rOk [] (setImageSlot (file - 2) { e.imageSlot (file - 2) with
              written := (e.imageSlot (file - 2)).written ++ [(off, b.length)] } e)) }))
  ∧ (∀ s m file img, s.dev.heard m 0x06 (fileBytes 3 file 0 0 []) →
      (file = 2 ∨ file = 3 → s.dev.dc.holder ≠ 2 → exec (.fileCommit m file img) s = .next { s with dev := falferReply m 0x06 rClaimed [] (s.dev.noted m) })
      ∧ (fileRefusal file s.dev = 0 → ∃ e : Dev, e = judgeSlot (file - 2) img (s.dev.noted m) ∧ exec (.fileCommit m file img) s = .next { s with dev := falferReply m 0x06 (if (e.imageSlot (file - 2)).st = 2 then rOk else rUnavailable) [] e }))

/-- A start of address detection sends a solicitation and a conflict takes the address away; a solicitation of the device's own
address, and an echo to it, are answered. A one-step Sync of the grandmaster measures the offset; a two-step one waits for its
Follow_Up. Sixteen offsets in succession below 10 us lock the time; an offset above 1 ms steps time that is not locked and is
otherwise slewed. Delay_Req and Delay_Resp give half the sum of the two differences as path delay. The size of the step is the
model's reading (log entry 57). Announce takes a grandmaster of the domain, the same or a better one, and 0x253 falls; its time-out
begins holdover and raises 0x253. The commands whose own effect it gives as the next state that exec answers, under conditions on the
state and the operands alone: neighbourDiscovery, icmpv6Echo, sync, followUp, delayReq, delayResp, announce, announceTimeout. -/
def Obligations.TimeFollowsTheGrandmaster : Prop :=
  (∀ s, s.dev.periscope = true →
      (s.dev.pw.sbPhyRstHigh = true → exec (.neighbourDiscovery .start) s = .next { s with dev := { s.dev with
        sb := { s.dev.sb with dadConflict := false }, out := s.dev.out ++ [.sideband "NS" (ownAddress s.dev) []] } })
      ∧ exec (.neighbourDiscovery .conflict) s = .next { s with dev := { s.dev with sb := { s.dev.sb with dadConflict := true } } })
  ∧ (∀ s t sender data, sbReady s.dev = true →
      (t = ownAddress s.dev → exec (.neighbourDiscovery (.solicit t sender)) s = .next { s with dev := { s.dev with out := s.dev.out ++ [.sideband "NA" sender []] } }
        ∧ exec (.icmpv6Echo t sender data) s = .next { s with dev := { s.dev with out := s.dev.out ++ [.sideband "ECHO" sender data] } })
      ∧ (t ≠ ownAddress s.dev → exec (.neighbourDiscovery (.solicit t sender)) s = .next s ∧ exec (.icmpv6Echo t sender data) s = .next s))
  ∧ (∀ s gm rank origin arrive, sbReady s.dev = true → s.dev.tm.master = some (gm, rank) →
      exec (.sync gm origin arrive true) s = .next { s with dev := { s.dev with tm := { s.dev.tm with syncArrival := some arrive } } }
      ∧ exec (.sync gm origin arrive false) s = .next { s with dev := syncMeasured origin arrive s.dev }
      ∧ (∀ t, s.dev.tm.syncArrival = some t → exec (.followUp gm origin) s = .next { s with dev := syncMeasured origin t s.dev })
      ∧ (∀ g, g ≠ gm → exec (.sync g origin arrive false) s = .next s))
  ∧ (∀ origin (arrive : Nat) (d : Dev) off, off = (arrive : Int) - origin - d.tm.pathDelay →
      (syncMeasured origin arrive d).tm.masterToSlave = (arrive : Int) - origin ∧ (syncMeasured origin arrive d).tm.syncArrival = none
      ∧ (syncMeasured origin arrive d).val Fam.timeOffsetNs = i32 off
      ∧ (d.val Fam.timeSource ≠ 2 → 1000000 < off.natAbs → (syncMeasured origin arrive d).tm.goodSyncs = 0
        ∧ (0 ≤ (d.tm.device : Int) - off → (d.tm.device : Int) - off < 2 ^ 64 →
            ((syncMeasured origin arrive d).tm.device : Int) = d.tm.device - off))
      ∧ (off.natAbs < 10000 → (syncMeasured origin arrive d).tm.goodSyncs = d.tm.goodSyncs + 1
        ∧ (syncMeasured origin arrive d).tm.slew = -off ∧ (syncMeasured origin arrive d).tm.device = d.tm.device
        ∧ (15 ≤ d.tm.goodSyncs → (syncMeasured origin arrive d).val Fam.timeSource = 2
          ∧ (syncMeasured origin arrive d).tm.lastLocked = some d.tm.now)))
  ∧ (∀ s sent, sbReady s.dev = true → s.dev.tm.master.isSome = true → exec (.delayReq sent) s = .next { s with dev := { s.dev with
      tm := { s.dev.tm with delaySent := some sent }, out := s.dev.out ++ [.sideband "DELAY_REQ" 0 []] } })
  ∧ (∀ s gm rank t r, sbReady s.dev = true → s.dev.tm.master = some (gm, rank) → s.dev.tm.delaySent = some t →
      exec (.delayResp gm r) s = .next { s with dev := { s.dev with tm := { s.dev.tm with
        delaySent := none, pathDelay := (s.dev.tm.masterToSlave + (r - (t : Int))) / 2 } } })
  ∧ (∀ s gm domain rank, sbReady s.dev = true →
      (domain ≠ s.dev.val Fam.timeDomain → exec (.announce gm domain rank) s = .next s)
      ∧ (∀ g r, domain = s.dev.val Fam.timeDomain → s.dev.tm.master = some (g, r) → g ≠ gm → r ≤ rank →
          exec (.announce gm domain rank) s = .next s)
      ∧ (∀ g r, domain = s.dev.val Fam.timeDomain → s.dev.tm.master = some (g, r) → g ≠ gm → rank < r →
          exec (.announce gm domain rank) s = .next { s with dev := (hubFall 0x253 { s.dev with tm := { s.dev.tm with
            master := some (gm, rank), goodSyncs := 0, syncArrival := none, delaySent := none, masterToSlave := 0, pathDelay := 0 } }) })
      ∧ (∀ r, domain = s.dev.val Fam.timeDomain → s.dev.tm.master = some (gm, r) → exec (.announce gm domain rank) s = .next { s with dev := hubFall 0x253 { s.dev with tm := { s.dev.tm with master := some (gm, rank) } } }))
  ∧ (∀ s, s.dev.periscope = true → exec .announceTimeout s = .next { s with dev := (raise 0x253 0 false (({ s.dev with tm := { s.dev.tm with
      master := none, goodSyncs := 0, syncArrival := none, delaySent := none, slew := 0 } }).setVal Fam.timeSource 0 3)) })

/-- For every command c and state s with c at the front of its queue, step of s is exec of c on s with the queue's rest. The command
table gives its rows no bits: no word spells a command, and placing one changes nothing. (The queue is the model's own: log entries 1
and 2.) -/
def Obligations.StepTakesTheFrontCommand : Prop :=
  (∀ c r s, s.pending = c :: r → step s = exec c { s with pending := r })
  ∧ (∀ n w (s : State), decodeTableWord n w = none ∧ s.withFetchWord n w = s)

/-- For every command and every state, exec answers a next state whose queue is the queue before it. -/
def Obligations.EveryCommandAnswersANextState : Prop :=
  ∀ c s, ∃ d, exec c s = .next { s with dev := d }

/-- For every list of commands, every queue behind them and every device: stepping as often as the list is long answers a next state
that has the rest of the queue, and the device that the commands give when each is executed in turn by itself. What waits behind
never changes what a command does. -/
def Obligations.QueueRunsInOrder : Prop :=
  ∀ (cs rest : List Instr) (d : Dev), ∃ e : Dev,
    runSteps cs.length { pending := cs ++ rest, dev := d } = .next { pending := rest, dev := e }
    ∧ (∀ q, runList cs { pending := q, dev := d } = .next { pending := q, dev := e })

/-- From every state whose waiting commands are all well-formed, any number of steps answers a next state whose waiting commands are
all well-formed, and are the commands that waited but for those taken from the front. -/
def Obligations.QueueStaysWellFormed : Prop :=
  ∀ n (s : State), s.queueWf → ∃ t, runSteps n s = .next t ∧ t.queueWf ∧ t.pending = s.pending.drop n

/-- State.reset's queue is empty and well-formed. POR_N is low and the device has no mode; CORE_PWR_EN is low; device time is 0; no
fault source is latched and no first fault is set; the write claim is free; there is no subscription; no queue, no command, no
front-end owner; every object holds its default. What a unit holds at manufacture is the model's choice (log entries 5, 6 and 64). -/
def Obligations.ResetLeavesPorAsserted : Prop :=
  State.reset.pending = [] ∧ State.reset.queueWf ∧ State.reset.dev.pw.porHigh = false ∧ State.reset.dev.pw.mode = none
  ∧ State.reset.dev.pw.corePwrEn = false ∧ State.reset.dev.periscope = false ∧ State.reset.dev.tm.device = 0
  ∧ State.reset.dev.fh.src = [] ∧ State.reset.dev.fh.first = none ∧ State.reset.dev.dc.holder = 0 ∧ State.reset.dev.sb.subs = []
  ∧ State.reset.dev.cm.qs = [] ∧ State.reset.dev.cm.ctxs = []
  ∧ (∀ n, (State.reset.dev.fe n).Legal ∧ (State.reset.dev.fe n).ownerLink = none ∧ (State.reset.dev.lens n).up = false)
  ∧ (∀ f i, State.reset.dev.val f i = valDefault f i)

/-- The model's choice (log entry 1): with an empty queue and Periscope running, n steps answer a next state with an empty queue in
which the time since POR_N release has grown by n microseconds, and device time with it while nothing is left to slew and 64 bits
hold it. SB_PPS pulses once at each second of device time, and only front-ends send besides. The tenants' busy time (not in ECLIPSE),
the sample counts of the front-ends and the powered hours advance, and a write of a front-end for which no bit has come in time ends;
function-level resets in progress end, and an activation goes on from state 2 to 3 (log entries 73 and 75). With Periscope in reset
nothing changes. -/
def Obligations.IdleStepsLetTimePass : Prop :=
  (∀ n (d : Dev), d.periscope = true → ∃ e : Dev, runSteps n { pending := [], dev := d } = .next { pending := [], dev := e }
      ∧ e = idleFor n d ∧ e.tm.now = d.tm.now + 1000 * n
      ∧ e = { d with tm := e.tm, tenants := e.tenants, ls := { d.ls with fe := e.ls.fe }, vals := e.vals, fns := e.fns, out := e.out
                     fresh := e.fresh }
      ∧ (∀ f i, valKey f i ≠ valKey Fam.lifeHours 0 → valKey f i ≠ valKey Fam.fwActivationState 0 → e.val f i = d.val f i)
      ∧ e.val Fam.fwActivationState = (if 0 < n ∧ d.val Fam.fwActivationState = 2 then 3 else d.val Fam.fwActivationState)
      ∧ (∀ f, 0 < n → e.fnS f = { d.fnS f with inFlr := false })
      ∧ (d.inMode .eclipse = true → e.tenants = d.tenants)
      ∧ (∃ k l, e.out = d.out ++ l ∧ (l.filter fun o => match o with | .feUp .. | .feWrite .. => false | _ => true)
            = (List.replicate k [Out.pin "SB_PPS" true, Out.pin "SB_PPS" false]).flatten
          ∧ (d.tm.slew = 0 → d.tm.device + 1000 * n < 2 ^ 64 →
              k = (d.tm.device + 1000 * n) / 1000000000 - d.tm.device / 1000000000))
      ∧ (∀ c, (e.fe c).loaded = (d.fe c).loaded ∧ (e.fe c).head = (d.fe c).head ∧ (e.fe c).rpm = (d.fe c).rpm
          ∧ (e.fe c).eMax = (d.fe c).eMax ∧ (e.fe c).ownerLink = (d.fe c).ownerLink ∧ (e.fe c).clockKhz = (d.fe c).clockKhz
          ∧ ((d.fe c).gate = false → (e.fe c).gate = false) ∧ ((d.fe c).loaded = false → (e.fe c).samples = (d.fe c).samples))
      ∧ (∀ t, (e.ten t).blocksWritten = (d.ten t).blocksWritten ∧ (e.ten t).quota = (d.ten t).quota)
      ∧ (d.tm.slew = 0 → d.tm.device + 1000 * n < 2 ^ 64 → e.tm.device = d.tm.device + 1000 * n))
  ∧ (∀ n (d : Dev), d.periscope = false → runSteps n { pending := [], dev := d } = .next { pending := [], dev := d })

/-- In ECLIPSE, while a lease is contended or a takeover runs, while a dump keeps the device quiet, and during a soft reset, each of
the host and admin opcodes of the table leaves the device as it is: no command starts. -/
def Obligations.HostCommandsWaitWhileHeld : Prop :=
  (∀ c s, hostRow c = true → s.dev.hostRuns = false → exec c s = .next s)
  ∧ (∀ d : Dev, d.inMode .eclipse = true ∨ d.contending = true ∨ d.pc.quiet = true ∨ d.softResetting = true → d.hostRuns = false)

/-- From every state in which each front-end is legal (a write has its tag, a settling clock its tag, an owner link its epoch, and
every register its range of Table 11.5), a step that takes a row of the front-end family, or an idle step, leaves each front-end
legal. A frame may carry any number of commands, also ones the table does not list. -/
def Obligations.FrontEndsStayLegal : Prop :=
  (∀ c r s t, s.pending = c :: r → frontEndRow c = true → (∀ n, (s.dev.fe n).Legal) → step s = .next t → ∀ n, (t.dev.fe n).Legal)
  ∧ (∀ s t, s.pending = [] → (∀ n, (s.dev.fe n).Legal) → step s = .next t → ∀ n, (t.dev.fe n).Legal)

/-- For a ring of depth d from 2 to 65,536 and positions of 17 bits whose index is below d: pos(v) is below 2d; count(h, t) is
(pos(t) - pos(h) + 2d) mod 2d; it is 0 exactly for the same index and lap, and d exactly for the same index with laps that differ;
next(v) is v + 1 within the lap and at the last index the first position of the other lap, is a position again, and is one ahead of
v. A pair of positions whose count does not exceed d keeps so: the producer's step adds one to a count below d, the consumer's takes
one from a count above 0, and an accepted doorbell leaves a count of at most d. -/
def Obligations.RingCountsFollowTheRule : Prop :=
  ∀ d h t : Nat, 2 ≤ d → d ≤ 65536 → h < 131072 → t < 131072 → h % 65536 < d → t % 65536 < d →
    rPos d h = (h >>> 16) * d + (h &&& 0xFFFF) ∧ rPos d h < 2 * d
    ∧ (rCount d h t : Int) = ((rPos d t : Int) - rPos d h + 2 * d) % (2 * d)
    ∧ (rCount d h t = 0 ↔ h = t)
    ∧ (rCount d h t = d ↔ h % 65536 = t % 65536 ∧ h / 65536 ≠ t / 65536)
    ∧ rNext d h = (if h &&& 0xFFFF = d - 1 then (h ^^^ 0x10000) &&& 0x10000 else h + 1)
    ∧ rNext d h < 131072 ∧ rNext d h % 65536 < d ∧ rCount d h (rNext d h) = 1
    ∧ (rCount d h t < d → rCount d h (rNext d t) = rCount d h t + 1)
    ∧ (0 < rCount d h t → rCount d (rNext d h) t = rCount d h t - 1)
    ∧ (∀ v, tailOk d h v = true → rCount d h v ≤ d)
    ∧ (∀ v, headOk d h t v = true → rCount d h t ≤ d → rCount d v t ≤ d)

/-- For every 4 KiB of user data and every tag: the codeword has 37,120 bits, its first 33,024 are the user data, the CRC and the
tag, and the attempt that gives back these bits passes the decode for that tag; with its sync marks found it ends the read at step 1
with the data written. An attempt whose tag is not the intended one never passes. -/
def Obligations.WrittenSectorsReadBack : Prop :=
  (∀ (user : List Byte) (t : SectorTag), user.length = 4096 →
      (codeword user t).length = 37120 ∧ (codeword user t).take 33024 = infoBits user (sectorCrc user t) t
      ∧ ∃ a : Attempt, a.user = user ∧ a.crc = sectorCrc user t ∧ a.tag = t ∧ a.parity = (codeword user t).drop 33024
        ∧ attemptPasses a t = true
        ∧ ∀ (r : SectorRead) i m w k l, r.first = a :: l → 0 < i → k ≤ r.marks.length →
          (∀ b ∈ r.marks, (acceptMark (if w then 64 else 16) (markPlaces (if w then 64 else 16) b)).isSome = true) →
          decodeEnd i m r t w k = .first user)
  ∧ (∀ (a : Attempt) t, a.tag ≠ t → attemptPasses a t = false)

/-- The pattern is compared with the hard decisions at every position of the window; where it stands as written it differs in no bit.
Of the positions compared, those within the window that differ in at most 2 bits are candidates. The one accepted has the fewest
differing bits, among those is nearest the expected position, and of two that remain is the earlier; there is one exactly if there is
a candidate. A fragment without one, or fewer marks than fragments, makes the read a missed mark whatever the attempts say. The
window is 16 bits, and 64 once widened. -/
def Obligations.SyncMarkIsTheBestCandidate : Prop :=
  (∀ w l c, acceptMark w l = some c → c ∈ l ∧ c.2 ≤ 2 ∧ c.1.natAbs ≤ w ∧ ∀ e ∈ l, e.2 ≤ 2 → e.1.natAbs ≤ w →
      c.2 < e.2 ∨ (c.2 = e.2 ∧ (c.1.natAbs < e.1.natAbs ∨ (c.1.natAbs = e.1.natAbs ∧ c.1 ≤ e.1))))
  ∧ (∀ w l, acceptMark w l = none ↔ ∀ e ∈ l, ¬(e.2 ≤ 2 ∧ e.1.natAbs ≤ w))
  ∧ (∀ i m r t w k, (r.marks.length < k ∨ ∃ b ∈ r.marks, acceptMark (if w then 64 else 16) (markPlaces (if w then 64 else 16) b) = none) →
      decodeEnd i m r t w k = .missed)
  ∧ (∀ (pre post : List Bool) w, pre.length = 64 → w ≤ 64 → (0, 0) ∈ markPlaces w (pre ++ syncMark ++ post))
  ∧ (∀ w bits c, c ∈ markPlaces w bits → c.1.natAbs ≤ w)

/-- In each beam facet and slot determine each other. A slot of the data area lies wholly in one data facet and no two slots share a
byte. Header, data blocks and summary slots fit the data area, which has at most one slot to spare; each block's summary slot lies
after the data blocks. -/
def Obligations.FacetsTurnWithTheBeam : Prop :=
  (∀ (g : Geom) b j, j < g.width → g.slotOf b j < g.width ∧ g.facetOn b (g.slotOf b j) = j ∧ g.slotOf b (g.facetOn b j) = j)
  ∧ (∀ (g : Geom) shift s, 12 ≤ shift → s < g.slots shift →
      (Geom.place shift s).1 < g.dataFacets ∧ (Geom.place shift s).2 + 4096 ≤ 2 ^ shift ∧ (Geom.place shift s).2 % 4096 = 0
      ∧ ∀ u, Geom.place shift u = Geom.place shift s → u = s)
  ∧ (∀ (g : Geom) shift, 3 ≤ g.slots shift → 1 + g.blocks shift + summarySlots (g.blocks shift) ≤ g.slots shift
      ∧ g.slots shift ≤ 2 + g.blocks shift + summarySlots (g.blocks shift)
      ∧ ∀ n, n < g.blocks shift → blockSlot n ≤ g.blocks shift ∧ g.blocks shift < summarySlot g shift n
        ∧ summarySlot g shift n < g.slots shift)

/-- The survivors are k facets that are not lost, and there are none exactly when fewer than k remain; of a mirror one copy. For
every k from 2 to 64 and every data, the first parity is the exclusive or of the data facets, and one lost data facet is rebuilt from
the other k - 1 and the first parity; a facet that was read is itself; a lost copy of a mirror is any other. -/
def Obligations.LostFacetIsRebuilt : Prop :=
  (∀ (g : Geom) erased l, g.mirror = false → survivors g erased = some l →
      l.length = g.k ∧ l.Nodup ∧ ∀ f ∈ l, f < g.width ∧ f ∉ erased)
  ∧ (∀ (g : Geom) erased, g.mirror = false →
      (survivors g erased = none ↔ ((List.range g.width).filter fun f => !erased.contains f).length < g.k))
  ∧ (∀ (g : Geom) len f (data : Nat → List Byte), g.mirror = false → 2 ≤ g.k → g.k ≤ 64 → f < g.k →
      (∀ i, i < g.k → (data i).length = len) → reconstructFacet g len f
        ((((List.range g.k).filter (· != f)).map fun i => (i, data i))
          ++ [(g.k, parityOf 0 len ((List.range g.k).map fun i => (i, data i)))]) = data f)
  ∧ (∀ (g : Geom) len f have_ b, have_.find? (fun e => e.1 == f) = some (f, b) → reconstructFacet g len f have_ = b)
  ∧ (∀ (g : Geom) len f j b, g.mirror = true → reconstructFacet g len f [(j, b)] = b)

/-- For every range and every limit from 1: the atomic units, in order, are the range's blocks once each; each has at least one block
and at most the limit, and lies between two multiples of 64. -/
def Obligations.RangesCutIntoAtomicUnits : Prop :=
  ∀ fuel l lba n, 1 ≤ l → n / 64 + 2 ≤ fuel →
    ((atomicUnits fuel l lba n).flatMap fun u => List.range' u.1 u.2) = List.range' lba n
    ∧ ∀ u ∈ atomicUnits fuel l lba n, 0 < u.2 ∧ u.2 ≤ l ∧ u.2 ≤ 64 ∧ u.1 / 64 = (u.1 + u.2 - 1) / 64

/-- For every tenant, object and instance outside its scope: a read and a write give NO_OBJECT with no bytes, as for an instance that
does not exist, whatever the object holds, the rights entry says or the claim is; the write has no effect but its count. -/
def Obligations.TenantsCannotProbe : Prop :=
  (∀ (d : Dev) t f i b, inScope d t f i = false → writeFamily (.tenant t) f i b d = (rNoObject, refuseWrite d)
      ∧ writeFamily (.tenant t) f (famRow f).instances b d = (rNoObject, refuseWrite d))
  ∧ (∀ (d : Dev) t index sub f i, findObject index sub = some (f, i) → inScope d t f i = false →
      readObject (.tenant t) index sub d = (rNoObject, []))
  ∧ (∀ (d : Dev) t index sub, findObject index sub = none → readObject (.tenant t) index sub d = (rNoObject, []))

/-- Each command completes in every state of its condition. HP_PERST_N_ASSERT leaves the port in reset, not ready to train, and a
link it takes down down, before its signal; HP_PERST_N_RELEASE ends the reset; HOST_LINK_DOWN of either kind leaves the link down,
and without a link does nothing; HOST_LINK_UP brings it up at the speed and width trained; FLR of a VF leaves it in its reset, FLR of
a PF without VFs; VF_ENABLE_SET sets and VF_ENABLE_CLEAR clears the VFs; PATROL_SCRUB adds the words it corrected to the DDR's or the
Condenser's count; IDE_INTEGRITY_FAILURE ends the Secure state of its stream before its signal. The commands whose own effect it
gives as the next state that exec answers, under conditions on the state and the operands alone: hpPerstNAssert, hpPerstNRelease,
hostLinkDown, hostLinkUp, flr, vfEnableSet, vfEnableClear, patrolScrub, ideIntegrityFailure. -/
def Obligations.PortCommandsComplete : Prop :=
  (∀ s n, n < 16 → s.dev.coreUp = false ∨ (s.dev.port n).linkUp = false → ∃ d : Dev, exec (.hpPerstNAssert n) s = .next { s with dev := d } ∧ ((d.port n).perstLow = true ∧ (d.port n).readyToTrain = false))
  ∧ (∀ s n, n < 16 → s.dev.coreUp = true → (s.dev.port n).linkUp = true → ∃ d : Dev, exec (.hpPerstNAssert n) s = .next { s with dev := d } ∧ (∃ e : Dev, d = (if e.coreUp then raise (0x082 + 4 * n) 0 false e else e) ∧ (e.port n).perstLow = true ∧ (e.port n).linkUp = false))
  ∧ (∀ s n, n < 16 → ∃ d : Dev, exec (.hpPerstNRelease n) s = .next { s with dev := d } ∧ ((d.port n).perstLow = false
      ∧ (d.port n).readyToTrain = (s.dev.coreUp && s.dev.pw.hostTerminated) ∧ d = { s.dev with ports := d.ports }))
  ∧ (∀ s n, n < 16 → s.dev.coreUp = true → (s.dev.port n).linkUp = true → ∃ d : Dev, exec (.hostLinkDown n true) s = .next { s with dev := d } ∧ ((d.port n).linkUp = false ∧ (d.port n).readyToTrain = !(d.port n).perstLow))
  ∧ (∀ s n, n < 16 → s.dev.coreUp = true → (s.dev.port n).linkUp = true → ∃ d : Dev, exec (.hostLinkDown n false) s = .next { s with dev := d } ∧ (∃ e : Dev, d = raise (0x082 + 4 * n) 0 false e ∧ (e.port n).linkUp = false))
  ∧ (∀ s n hot, (s.dev.port n).linkUp = false → exec (.hostLinkDown n hot) s = .next s)
  ∧ (∀ s n speed width, n < 16 → s.dev.coreUp = true → s.dev.pw.hostTerminated = true → (s.dev.port n).readyToTrain = true →
      (s.dev.port n).perstLow = false → (s.dev.port n).linkUp = false → 1 ≤ speed → speed ≤ s.dev.val Fam.hostPortMaxSpeed n →
      width = 1 ∨ width = 2 ∨ width = 4 → ∃ d : Dev, exec (.hostLinkUp n speed width) s = .next { s with dev := d } ∧ ((d.port n).linkUp = true ∧ (d.port n).speed = speed ∧ (d.port n).width = width))
  ∧ (∀ s f, portServes s.dev f.port = true → s.dev.fnExists f = true → f.fn ≠ 0 → (s.dev.fnS f).inFlr = false →
      (s.dev.fnS ⟨f.port, 0⟩).inFlr = false → ∃ d : Dev, exec (.flr f) s = .next { s with dev := d } ∧ ((d.fnS f).inFlr = true))
  ∧ (∀ s n, portServes s.dev n = true → s.dev.fnExists ⟨n, 0⟩ = true → (s.dev.fnS ⟨n, 0⟩).inFlr = false →
      ∃ d : Dev, exec (.flr ⟨n, 0⟩) s = .next { s with dev := d } ∧ ((d.port n).vfs = 0))
  ∧ (∀ s n k, portServes s.dev n = true → (s.dev.port n).vfs = 0 → k ≤ (s.dev.port n).totalVfs →
      ∃ d : Dev, exec (.vfEnableSet n k) s = .next { s with dev := d } ∧ ((d.port n).vfs = k ∧ d = { s.dev with ports := d.ports, fns := d.fns }))
  ∧ (∀ s n, portServes s.dev n = true → ∃ d : Dev, exec (.vfEnableClear n) s = .next { s with dev := d } ∧ ((d.port n).vfs = 0))
  ∧ (∀ s ddr k, s.dev.coreUp = true → s.dev.pw.ddrReady = true →
      exec (.patrolScrub ddr k none) s = .next { s with dev := s.dev.addVal (if ddr then Fam.ddrCeCount else Fam.condenserCeCount) 0 k })
  ∧ (∀ s n i x, tfind (s.dev.port n).ide i = some x → x.secure = true → portServes s.dev n = true →
      ∃ d : Dev, exec (.ideIntegrityFailure n i) s = .next { s with dev := d } ∧ (∃ e : Dev, d = raise (0x081 + 4 * n) i false e
        ∧ (tfind (e.port n).ide i).any (·.secure) = false))

/-- A header written for a surface with 1 to 64 zones is read back from that surface's block, and is refused on another surface; a
zone entry whose fields are in their ranges, ten FIR taps, three targets and three precompensations, is read back from its 64 bytes;
a reallocation entry is read back from its 16 bytes, with its lost bit; a copy whose CRC is that of its generation and bytes is
valid, gives back the entries written to it in order, and of two copies only one with its own CRC is valid. Which bytes a copy's CRC
covers and what a header of another surface does are the model's choices (log entry 32). -/
def Obligations.LensTablesReadBack : Prop :=
  (∀ surface serial (h : ZoneHeader), surface < 256 → 1 ≤ h.zones → h.zones ≤ 64 → h.formatId < 2 ^ 32 → h.generation < 2 ^ 64 →
      (headerBytes surface serial h).length = 4096 ∧ headerParse surface (headerBytes surface serial h) = some h
        ∧ ∀ k, k ≠ surface → headerParse k (headerBytes surface serial h) = none)
  ∧ (∀ z : ZoneEntry, z.first < 2 ^ 32 → z.last < 2 ^ 32 → z.sectors < 2 ^ 16 → z.rate < 2 ^ 16 → z.boost < 256 →
      (-128 ≤ z.gain ∧ z.gain < 128) → (-128 ≤ z.offset ∧ z.offset < 128) → (-128 ≤ z.asym ∧ z.asym < 128) →
      z.fir.length = 10 → (∀ t ∈ z.fir, -32768 ≤ t ∧ t < 32768) → z.target.length = 3 → (∀ t ∈ z.target, -128 ≤ t ∧ t < 128) →
      z.precomp.length = 3 → (∀ t ∈ z.precomp, t < 256) →
      (zoneBytes z).length = 64 ∧ zoneParse (zoneBytes z) = some z)
  ∧ (∀ e : ReallocEntry, e.pba < 2 ^ 48 → e.head < 256 → e.cylinder < 2 ^ 32 → e.sector < 2 ^ 16 →
      e.bytes.length = 16 ∧ reallocParse e.bytes = some e)
  ∧ (∀ g (l : List ReallocEntry), (∀ e ∈ l, e.pba < 2 ^ 48 ∧ e.head < 256 ∧ e.cylinder < 2 ^ 32 ∧ e.sector < 2 ^ 16) →
      (∀ c : TableCopy, c.generation = g → c.bytes = l.flatMap ReallocEntry.bytes → TableCopy.entries c = l
        ∧ (TableCopy.valid c = true ↔ c.crc = copyCrc g c.bytes)))
end

