-- ==== Sys2Proof/Laws/Tables.lean ====
section
/-!
SUPPORT. Tables: what a read gives after a write, the same key written twice, and the canonical form that every write keeps.
-/

namespace Sys2Proof.Machine

variable {α : Type}

theorem tget_eq_tfind (t : Tbl α) (k : Nat) (d : α) : tget t k d = (tfind t k).getD d := by
  induction t with
  | nil => rfl
  | cons e r ih => obtain ⟨a, v⟩ := e; by_cases h : a = k <;> simp [tget, tfind, h, ih]

@[simp] theorem tfind_tdel_same (t : Tbl α) (k : Nat) : tfind (tdel t k) k = none := by
  induction t with
  | nil => rfl
  | cons e r ih => by_cases h : e.1 = k <;> simp_all [tdel, tfind]

theorem tfind_tdel_other (t : Tbl α) {j k : Nat} (h : j ≠ k) : tfind (tdel t k) j = tfind t j := by
  induction t with
  | nil => rfl
  | cons e r ih =>
    obtain ⟨a, v⟩ := e
    by_cases h1 : a = k
    · subst h1; simp_all [tdel, tfind, Ne.symm h]
    · by_cases h2 : a = j <;> simp_all [tdel, tfind]

theorem tfind_tins (t : Tbl α) (k j : Nat) (v : α) (h : tfind t k = none) :
    tfind (tins t k v) j = if j = k then some v else tfind t j := by
  induction t with
  | nil => by_cases hj : k = j <;> simp [tins, tfind, hj, eq_comm]
  | cons e r ih =>
    obtain ⟨a, w⟩ := e
    have ha : a ≠ k := by intro hk; simp [tfind, hk] at h
    have hr : tfind r k = none := by simpa [tfind, ha] using h
    by_cases hlt : k < a
    · simp only [tins, hlt, if_true, tfind]
      by_cases hj : k = j <;> simp [hj, eq_comm]
    · simp only [tins, hlt, if_false, tfind, ih hr]
      by_cases hj : a = j
      · have : j ≠ k := by rw [← hj]; exact ha
        simp [hj, this]
      · simp [hj]

theorem tfind_tput (t : Tbl α) (k j : Nat) (v : α) : tfind (tput t k v) j = if j = k then some v else tfind t j := by
  unfold tput
  rw [tfind_tins _ _ _ _ (tfind_tdel_same t k)]
  by_cases h : j = k <;> simp [h, tfind_tdel_other]

@[simp] theorem tfind_tput_same (t : Tbl α) (k : Nat) (v : α) : tfind (tput t k v) k = some v := by simp [tfind_tput]

theorem tfind_tput_other (t : Tbl α) {j k : Nat} (v : α) (h : j ≠ k) : tfind (tput t k v) j = tfind t j := by
  simp [tfind_tput, h]

theorem tget_tset [DecidableEq α] (t : Tbl α) (k j : Nat) (v d : α) :
    tget (tset t k v d) j d = if j = k then v else tget t j d := by
  rw [tget_eq_tfind, tget_eq_tfind]
  unfold tset
  by_cases hv : v = d
  · by_cases h : j = k <;> simp [hv, h, tfind_tdel_other]
  · simp only [hv, if_false, tfind_tins _ _ _ _ (tfind_tdel_same t k)]
    by_cases h : j = k <;> simp [h, tfind_tdel_other]

@[simp] theorem tget_tset_same [DecidableEq α] (t : Tbl α) (k : Nat) (v d : α) : tget (tset t k v d) k d = v := by
  simp [tget_tset]

theorem tget_tset_other [DecidableEq α] (t : Tbl α) {j k : Nat} (v d : α) (h : j ≠ k) :
    tget (tset t k v d) j d = tget t j d := by simp [tget_tset, h]

theorem tdel_cons_other {a k : Nat} (h : a ≠ k) (v : α) (r : Tbl α) : tdel ((a, v) :: r) k = (a, v) :: tdel r k := by
  simp [tdel, h]

theorem tdel_cons_same (k : Nat) (v : α) (r : Tbl α) : tdel ((k, v) :: r) k = tdel r k := by simp [tdel]

/-- A key that is absent may be dropped. -/
theorem tdel_of_tfind_none (t : Tbl α) (k : Nat) (h : tfind t k = none) : tdel t k = t := by
  induction t with
  | nil => rfl
  | cons e r ih =>
    obtain ⟨a, v⟩ := e
    have ha : a ≠ k := by intro hk; simp [tfind, hk] at h
    have hr : tfind r k = none := by simpa [tfind, ha] using h
    rw [tdel_cons_other ha, ih hr]

theorem tdel_tins (t : Tbl α) (k : Nat) (v : α) (h : tfind t k = none) : tdel (tins t k v) k = t := by
  induction t with
  | nil => simp [tins, tdel]
  | cons e r ih =>
    obtain ⟨a, w⟩ := e
    have ha : a ≠ k := by intro hk; simp [tfind, hk] at h
    have hr : tfind r k = none := by simpa [tfind, ha] using h
    by_cases hlt : k < a
    · rw [tins, if_pos hlt, tdel_cons_same, tdel_cons_other ha, tdel_of_tfind_none r k hr]
    · rw [tins, if_neg hlt, tdel_cons_other ha, ih hr]

@[simp] theorem tdel_tdel (t : Tbl α) (k : Nat) : tdel (tdel t k) k = tdel t k := by simp [tdel]

theorem tdel_tset [DecidableEq α] (t : Tbl α) (k : Nat) (v d : α) : tdel (tset t k v d) k = tdel t k := by
  unfold tset
  by_cases hv : v = d
  · simp [hv]
  · simp [hv, tdel_tins _ _ _ (tfind_tdel_same t k)]

/-- The last of two writes of one key decides. -/
@[simp] theorem tset_tset [DecidableEq α] (t : Tbl α) (k : Nat) (v w d : α) : tset (tset t k v d) k w d = tset t k w d := by
  have h := tdel_tset t k v d
  unfold tset at h ⊢
  simp only [h]

@[simp] theorem tput_tput (t : Tbl α) (k : Nat) (v w : α) : tput (tput t k v) k w = tput t k w := by
  unfold tput
  rw [tdel_tins _ _ _ (tfind_tdel_same t k)]

/-! ### Canonical form -/

theorem tsorted_cons (e : Nat × α) (r : Tbl α) :
    tsorted (e :: r) = true ↔ (∀ x ∈ r, e.1 < x.1) ∧ tsorted r = true := by
  simp [tsorted]

theorem tsorted_tdel (t : Tbl α) (k : Nat) (h : tsorted t = true) : tsorted (tdel t k) = true := by
  induction t with
  | nil => rfl
  | cons e r ih =>
    obtain ⟨h1, h2⟩ := (tsorted_cons e r).1 h
    by_cases he : e.1 = k
    · have : tdel (e :: r) k = tdel r k := by simp [tdel, he]
      rw [this]; exact ih h2
    · have : tdel (e :: r) k = e :: tdel r k := by simp [tdel, he]
      rw [this, tsorted_cons]
      exact ⟨fun x hx => h1 x (List.mem_of_mem_filter hx), ih h2⟩

theorem mem_tins {t : Tbl α} {k : Nat} {v : α} {x : Nat × α} (h : x ∈ tins t k v) : x = (k, v) ∨ x ∈ t := by
  induction t with
  | nil => simpa [tins] using h
  | cons e r ih =>
    by_cases hlt : k < e.1
    · simpa [tins, hlt] using h
    · simp only [tins, hlt, if_false, List.mem_cons] at h
      rcases h with h | h
      · exact .inr (by simp [h])
      · rcases ih h with h | h
        · exact .inl h
        · exact .inr (by simp [h])

theorem tsorted_tins (t : Tbl α) (k : Nat) (v : α) (h : tsorted t = true) (hk : tfind t k = none) :
    tsorted (tins t k v) = true := by
  induction t with
  | nil => simp [tins, tsorted]
  | cons e r ih =>
    obtain ⟨a, w⟩ := e
    obtain ⟨h1, h2⟩ := (tsorted_cons _ r).1 h
    have ha : a ≠ k := by intro hk'; simp [tfind, hk'] at hk
    have hr : tfind r k = none := by simpa [tfind, ha] using hk
    by_cases hlt : k < a
    · simp only [tins, hlt, if_true, tsorted_cons]
      refine ⟨fun x hx => ?_, h1, h2⟩
      rcases List.mem_cons.1 hx with hx | hx
      · simpa [hx] using hlt
      · exact Nat.lt_trans hlt (h1 x hx)
    · simp only [tins, hlt, if_false, tsorted_cons]
      refine ⟨fun x hx => ?_, ih h2 hr⟩
      rcases mem_tins hx with hx | hx
      · simp only [hx]; omega
      · exact h1 x hx

/-- A write of a table without default keeps its keys rising. -/
theorem tsorted_tput (t : Tbl α) (k : Nat) (v : α) (h : tsorted t = true) : tsorted (tput t k v) = true :=
  tsorted_tins _ _ _ (tsorted_tdel t k h) (tfind_tdel_same t k)

/-- A write of a table with a default keeps the canonical form. -/
theorem twf_tset [DecidableEq α] (t : Tbl α) (k : Nat) (v d : α) (h : twf t d = true) : twf (tset t k v d) d = true := by
  simp only [twf, Bool.and_eq_true, List.all_eq_true, decide_eq_true_eq] at h ⊢
  obtain ⟨hs, hd⟩ := h
  unfold tset
  by_cases hv : v = d
  · simp only [hv, if_true]
    exact ⟨tsorted_tdel t k hs, fun x hx => hd x (List.mem_of_mem_filter hx)⟩
  · simp only [hv, if_false]
    refine ⟨tsorted_tins _ _ _ (tsorted_tdel t k hs) (tfind_tdel_same t k), fun x hx => ?_⟩
    rcases mem_tins hx with hx | hx
    · simpa [hx] using hv
    · exact hd x (List.mem_of_mem_filter hx)

/-- Taking a key out keeps the canonical form. -/
theorem twf_tdel [DecidableEq α] (t : Tbl α) (k : Nat) (d : α) (h : twf t d = true) : twf (tdel t k) d = true := by
  simp only [twf, Bool.and_eq_true, List.all_eq_true, decide_eq_true_eq] at h ⊢
  exact ⟨tsorted_tdel t k h.1, fun x hx => h.2 x (List.mem_of_mem_filter hx)⟩

/-! ### Object keys -/

/-- Families number below 512, so different objects have different keys. -/
theorem valKey_inj {f i g j : Nat} (hf : f < 512) (hg : g < 512) : valKey f i = valKey g j ↔ f = g ∧ i = j := by
  unfold valKey; omega

end Sys2Proof.Machine
end

