-- ==== Sys2Proof/Laws/State.lean ====
section
/-!
SUPPORT. State: what each update leaves of each field, what a read gives after a write, and two writes of one place.
-/

namespace Sys2Proof.Machine

variable (s : Dev)

/-! ### setVal -/

@[simp] theorem setVal_fresh (f i v : Nat) : (s.setVal f i v).fresh = s.fresh := rfl
@[simp] theorem setVal_out (f i v : Nat) : (s.setVal f i v).out = s.out := rfl
@[simp] theorem setVal_pw (f i v : Nat) : (s.setVal f i v).pw = s.pw := rfl
@[simp] theorem setVal_tm (f i v : Nat) : (s.setVal f i v).tm = s.tm := rfl
@[simp] theorem setVal_fh (f i v : Nat) : (s.setVal f i v).fh = s.fh := rfl
@[simp] theorem setVal_ports (f i v : Nat) : (s.setVal f i v).ports = s.ports := rfl
@[simp] theorem setVal_fns (f i v : Nat) : (s.setVal f i v).fns = s.fns := rfl
@[simp] theorem setVal_cm (f i v : Nat) : (s.setVal f i v).cm = s.cm := rfl
@[simp] theorem setVal_tenants (f i v : Nat) : (s.setVal f i v).tenants = s.tenants := rfl
@[simp] theorem setVal_mt (f i v : Nat) : (s.setVal f i v).mt = s.mt := rfl
@[simp] theorem setVal_arrays (f i v : Nat) : (s.setVal f i v).arrays = s.arrays := rfl
@[simp] theorem setVal_vols (f i v : Nat) : (s.setVal f i v).vols = s.vols := rfl
@[simp] theorem setVal_mb (f i v : Nat) : (s.setVal f i v).mb = s.mb := rfl
@[simp] theorem setVal_pc (f i v : Nat) : (s.setVal f i v).pc = s.pc := rfl
@[simp] theorem setVal_ms (f i v : Nat) : (s.setVal f i v).ms = s.ms := rfl
@[simp] theorem setVal_ls (f i v : Nat) : (s.setVal f i v).ls = s.ls := rfl
@[simp] theorem setVal_pr (f i v : Nat) : (s.setVal f i v).pr = s.pr := rfl
@[simp] theorem setVal_chans (f i v : Nat) : (s.setVal f i v).chans = s.chans := rfl
@[simp] theorem setVal_staging (f i v : Nat) : (s.setVal f i v).staging = s.staging := rfl
@[simp] theorem setVal_dc (f i v : Nat) : (s.setVal f i v).dc = s.dc := rfl
@[simp] theorem setVal_sb (f i v : Nat) : (s.setVal f i v).sb = s.sb := rfl
@[simp] theorem setVal_fw (f i v : Nat) : (s.setVal f i v).fw = s.fw := rfl
@[simp] theorem setVal_ident (f i v : Nat) : (s.setVal f i v).ident = s.ident := rfl

/-! ### draw -/

@[simp] theorem draw_out : (s.draw).out = s.out := rfl
@[simp] theorem draw_vals : (s.draw).vals = s.vals := rfl
@[simp] theorem draw_pw : (s.draw).pw = s.pw := rfl
@[simp] theorem draw_tm : (s.draw).tm = s.tm := rfl
@[simp] theorem draw_fh : (s.draw).fh = s.fh := rfl
@[simp] theorem draw_ports : (s.draw).ports = s.ports := rfl
@[simp] theorem draw_fns : (s.draw).fns = s.fns := rfl
@[simp] theorem draw_cm : (s.draw).cm = s.cm := rfl
@[simp] theorem draw_tenants : (s.draw).tenants = s.tenants := rfl
@[simp] theorem draw_mt : (s.draw).mt = s.mt := rfl
@[simp] theorem draw_arrays : (s.draw).arrays = s.arrays := rfl
@[simp] theorem draw_vols : (s.draw).vols = s.vols := rfl
@[simp] theorem draw_mb : (s.draw).mb = s.mb := rfl
@[simp] theorem draw_pc : (s.draw).pc = s.pc := rfl
@[simp] theorem draw_ms : (s.draw).ms = s.ms := rfl
@[simp] theorem draw_ls : (s.draw).ls = s.ls := rfl
@[simp] theorem draw_pr : (s.draw).pr = s.pr := rfl
@[simp] theorem draw_chans : (s.draw).chans = s.chans := rfl
@[simp] theorem draw_staging : (s.draw).staging = s.staging := rfl
@[simp] theorem draw_dc : (s.draw).dc = s.dc := rfl
@[simp] theorem draw_sb : (s.draw).sb = s.sb := rfl
@[simp] theorem draw_fw : (s.draw).fw = s.fw := rfl
@[simp] theorem draw_ident : (s.draw).ident = s.ident := rfl

/-! ### emit -/

@[simp] theorem emit_fresh (o : Out) : (emit o s).fresh = s.fresh := rfl
@[simp] theorem emit_vals (o : Out) : (emit o s).vals = s.vals := rfl
@[simp] theorem emit_pw (o : Out) : (emit o s).pw = s.pw := rfl
@[simp] theorem emit_tm (o : Out) : (emit o s).tm = s.tm := rfl
@[simp] theorem emit_fh (o : Out) : (emit o s).fh = s.fh := rfl
@[simp] theorem emit_ports (o : Out) : (emit o s).ports = s.ports := rfl
@[simp] theorem emit_fns (o : Out) : (emit o s).fns = s.fns := rfl
@[simp] theorem emit_cm (o : Out) : (emit o s).cm = s.cm := rfl
@[simp] theorem emit_tenants (o : Out) : (emit o s).tenants = s.tenants := rfl
@[simp] theorem emit_mt (o : Out) : (emit o s).mt = s.mt := rfl
@[simp] theorem emit_arrays (o : Out) : (emit o s).arrays = s.arrays := rfl
@[simp] theorem emit_vols (o : Out) : (emit o s).vols = s.vols := rfl
@[simp] theorem emit_mb (o : Out) : (emit o s).mb = s.mb := rfl
@[simp] theorem emit_pc (o : Out) : (emit o s).pc = s.pc := rfl
@[simp] theorem emit_ms (o : Out) : (emit o s).ms = s.ms := rfl
@[simp] theorem emit_ls (o : Out) : (emit o s).ls = s.ls := rfl
@[simp] theorem emit_pr (o : Out) : (emit o s).pr = s.pr := rfl
@[simp] theorem emit_chans (o : Out) : (emit o s).chans = s.chans := rfl
@[simp] theorem emit_staging (o : Out) : (emit o s).staging = s.staging := rfl
@[simp] theorem emit_dc (o : Out) : (emit o s).dc = s.dc := rfl
@[simp] theorem emit_sb (o : Out) : (emit o s).sb = s.sb := rfl
@[simp] theorem emit_fw (o : Out) : (emit o s).fw = s.fw := rfl
@[simp] theorem emit_ident (o : Out) : (emit o s).ident = s.ident := rfl

/-! ### setPort -/

@[simp] theorem setPort_fresh (n : Nat) (p : HostPort) : (s.setPort n p).fresh = s.fresh := rfl
@[simp] theorem setPort_out (n : Nat) (p : HostPort) : (s.setPort n p).out = s.out := rfl
@[simp] theorem setPort_vals (n : Nat) (p : HostPort) : (s.setPort n p).vals = s.vals := rfl
@[simp] theorem setPort_pw (n : Nat) (p : HostPort) : (s.setPort n p).pw = s.pw := rfl
@[simp] theorem setPort_tm (n : Nat) (p : HostPort) : (s.setPort n p).tm = s.tm := rfl
@[simp] theorem setPort_fh (n : Nat) (p : HostPort) : (s.setPort n p).fh = s.fh := rfl
@[simp] theorem setPort_fns (n : Nat) (p : HostPort) : (s.setPort n p).fns = s.fns := rfl
@[simp] theorem setPort_cm (n : Nat) (p : HostPort) : (s.setPort n p).cm = s.cm := rfl
@[simp] theorem setPort_tenants (n : Nat) (p : HostPort) : (s.setPort n p).tenants = s.tenants := rfl
@[simp] theorem setPort_mt (n : Nat) (p : HostPort) : (s.setPort n p).mt = s.mt := rfl
@[simp] theorem setPort_arrays (n : Nat) (p : HostPort) : (s.setPort n p).arrays = s.arrays := rfl
@[simp] theorem setPort_vols (n : Nat) (p : HostPort) : (s.setPort n p).vols = s.vols := rfl
@[simp] theorem setPort_mb (n : Nat) (p : HostPort) : (s.setPort n p).mb = s.mb := rfl
@[simp] theorem setPort_pc (n : Nat) (p : HostPort) : (s.setPort n p).pc = s.pc := rfl
@[simp] theorem setPort_ms (n : Nat) (p : HostPort) : (s.setPort n p).ms = s.ms := rfl
@[simp] theorem setPort_ls (n : Nat) (p : HostPort) : (s.setPort n p).ls = s.ls := rfl
@[simp] theorem setPort_pr (n : Nat) (p : HostPort) : (s.setPort n p).pr = s.pr := rfl
@[simp] theorem setPort_chans (n : Nat) (p : HostPort) : (s.setPort n p).chans = s.chans := rfl
@[simp] theorem setPort_staging (n : Nat) (p : HostPort) : (s.setPort n p).staging = s.staging := rfl
@[simp] theorem setPort_dc (n : Nat) (p : HostPort) : (s.setPort n p).dc = s.dc := rfl
@[simp] theorem setPort_sb (n : Nat) (p : HostPort) : (s.setPort n p).sb = s.sb := rfl
@[simp] theorem setPort_fw (n : Nat) (p : HostPort) : (s.setPort n p).fw = s.fw := rfl
@[simp] theorem setPort_ident (n : Nat) (p : HostPort) : (s.setPort n p).ident = s.ident := rfl

/-! ### setFn -/

@[simp] theorem setFn_fresh (f : Fn) (x : FnState) : (s.setFn f x).fresh = s.fresh := rfl
@[simp] theorem setFn_out (f : Fn) (x : FnState) : (s.setFn f x).out = s.out := rfl
@[simp] theorem setFn_vals (f : Fn) (x : FnState) : (s.setFn f x).vals = s.vals := rfl
@[simp] theorem setFn_pw (f : Fn) (x : FnState) : (s.setFn f x).pw = s.pw := rfl
@[simp] theorem setFn_tm (f : Fn) (x : FnState) : (s.setFn f x).tm = s.tm := rfl
@[simp] theorem setFn_fh (f : Fn) (x : FnState) : (s.setFn f x).fh = s.fh := rfl
@[simp] theorem setFn_ports (f : Fn) (x : FnState) : (s.setFn f x).ports = s.ports := rfl
@[simp] theorem setFn_cm (f : Fn) (x : FnState) : (s.setFn f x).cm = s.cm := rfl
@[simp] theorem setFn_tenants (f : Fn) (x : FnState) : (s.setFn f x).tenants = s.tenants := rfl
@[simp] theorem setFn_mt (f : Fn) (x : FnState) : (s.setFn f x).mt = s.mt := rfl
@[simp] theorem setFn_arrays (f : Fn) (x : FnState) : (s.setFn f x).arrays = s.arrays := rfl
@[simp] theorem setFn_vols (f : Fn) (x : FnState) : (s.setFn f x).vols = s.vols := rfl
@[simp] theorem setFn_mb (f : Fn) (x : FnState) : (s.setFn f x).mb = s.mb := rfl
@[simp] theorem setFn_pc (f : Fn) (x : FnState) : (s.setFn f x).pc = s.pc := rfl
@[simp] theorem setFn_ms (f : Fn) (x : FnState) : (s.setFn f x).ms = s.ms := rfl
@[simp] theorem setFn_ls (f : Fn) (x : FnState) : (s.setFn f x).ls = s.ls := rfl
@[simp] theorem setFn_pr (f : Fn) (x : FnState) : (s.setFn f x).pr = s.pr := rfl
@[simp] theorem setFn_chans (f : Fn) (x : FnState) : (s.setFn f x).chans = s.chans := rfl
@[simp] theorem setFn_staging (f : Fn) (x : FnState) : (s.setFn f x).staging = s.staging := rfl
@[simp] theorem setFn_dc (f : Fn) (x : FnState) : (s.setFn f x).dc = s.dc := rfl
@[simp] theorem setFn_sb (f : Fn) (x : FnState) : (s.setFn f x).sb = s.sb := rfl
@[simp] theorem setFn_fw (f : Fn) (x : FnState) : (s.setFn f x).fw = s.fw := rfl
@[simp] theorem setFn_ident (f : Fn) (x : FnState) : (s.setFn f x).ident = s.ident := rfl

/-! ### setQ -/

@[simp] theorem setQ_fresh (f : Fn) (n : Nat) (x : QState) : (s.setQ f n x).fresh = s.fresh := rfl
@[simp] theorem setQ_out (f : Fn) (n : Nat) (x : QState) : (s.setQ f n x).out = s.out := rfl
@[simp] theorem setQ_vals (f : Fn) (n : Nat) (x : QState) : (s.setQ f n x).vals = s.vals := rfl
@[simp] theorem setQ_pw (f : Fn) (n : Nat) (x : QState) : (s.setQ f n x).pw = s.pw := rfl
@[simp] theorem setQ_tm (f : Fn) (n : Nat) (x : QState) : (s.setQ f n x).tm = s.tm := rfl
@[simp] theorem setQ_fh (f : Fn) (n : Nat) (x : QState) : (s.setQ f n x).fh = s.fh := rfl
@[simp] theorem setQ_ports (f : Fn) (n : Nat) (x : QState) : (s.setQ f n x).ports = s.ports := rfl
@[simp] theorem setQ_fns (f : Fn) (n : Nat) (x : QState) : (s.setQ f n x).fns = s.fns := rfl
@[simp] theorem setQ_tenants (f : Fn) (n : Nat) (x : QState) : (s.setQ f n x).tenants = s.tenants := rfl
@[simp] theorem setQ_mt (f : Fn) (n : Nat) (x : QState) : (s.setQ f n x).mt = s.mt := rfl
@[simp] theorem setQ_arrays (f : Fn) (n : Nat) (x : QState) : (s.setQ f n x).arrays = s.arrays := rfl
@[simp] theorem setQ_vols (f : Fn) (n : Nat) (x : QState) : (s.setQ f n x).vols = s.vols := rfl
@[simp] theorem setQ_mb (f : Fn) (n : Nat) (x : QState) : (s.setQ f n x).mb = s.mb := rfl
@[simp] theorem setQ_pc (f : Fn) (n : Nat) (x : QState) : (s.setQ f n x).pc = s.pc := rfl
@[simp] theorem setQ_ms (f : Fn) (n : Nat) (x : QState) : (s.setQ f n x).ms = s.ms := rfl
@[simp] theorem setQ_ls (f : Fn) (n : Nat) (x : QState) : (s.setQ f n x).ls = s.ls := rfl
@[simp] theorem setQ_pr (f : Fn) (n : Nat) (x : QState) : (s.setQ f n x).pr = s.pr := rfl
@[simp] theorem setQ_chans (f : Fn) (n : Nat) (x : QState) : (s.setQ f n x).chans = s.chans := rfl
@[simp] theorem setQ_staging (f : Fn) (n : Nat) (x : QState) : (s.setQ f n x).staging = s.staging := rfl
@[simp] theorem setQ_dc (f : Fn) (n : Nat) (x : QState) : (s.setQ f n x).dc = s.dc := rfl
@[simp] theorem setQ_sb (f : Fn) (n : Nat) (x : QState) : (s.setQ f n x).sb = s.sb := rfl
@[simp] theorem setQ_fw (f : Fn) (n : Nat) (x : QState) : (s.setQ f n x).fw = s.fw := rfl
@[simp] theorem setQ_ident (f : Fn) (n : Nat) (x : QState) : (s.setQ f n x).ident = s.ident := rfl
@[simp] theorem setQ_cm_slots (f : Fn) (n : Nat) (x : QState) : (s.setQ f n x).cm.slots = s.cm.slots := rfl
@[simp] theorem setQ_cm_ctxs (f : Fn) (n : Nat) (x : QState) : (s.setQ f n x).cm.ctxs = s.cm.ctxs := rfl
@[simp] theorem setQ_cm_nextCtx (f : Fn) (n : Nat) (x : QState) : (s.setQ f n x).cm.nextCtx = s.cm.nextCtx := rfl
@[simp] theorem setQ_cm_nextStamp (f : Fn) (n : Nat) (x : QState) : (s.setQ f n x).cm.nextStamp = s.cm.nextStamp := rfl
@[simp] theorem setQ_cm_irisQ (f : Fn) (n : Nat) (x : QState) : (s.setQ f n x).cm.irisQ = s.cm.irisQ := rfl
@[simp] theorem setQ_cm_failLog (f : Fn) (n : Nat) (x : QState) : (s.setQ f n x).cm.failLog = s.cm.failLog := rfl
@[simp] theorem setQ_cm_writes (f : Fn) (n : Nat) (x : QState) : (s.setQ f n x).cm.writes = s.cm.writes := rfl
@[simp] theorem setQ_cm_nextWrite (f : Fn) (n : Nat) (x : QState) : (s.setQ f n x).cm.nextWrite = s.cm.nextWrite := rfl
@[simp] theorem setQ_cm_isolating (f : Fn) (n : Nat) (x : QState) : (s.setQ f n x).cm.isolating = s.cm.isolating := rfl

/-! ### setSrc -/

@[simp] theorem setSrc_fresh (n : Nat) (x : FaultSrc) : (s.setSrc n x).fresh = s.fresh := rfl
@[simp] theorem setSrc_out (n : Nat) (x : FaultSrc) : (s.setSrc n x).out = s.out := rfl
@[simp] theorem setSrc_vals (n : Nat) (x : FaultSrc) : (s.setSrc n x).vals = s.vals := rfl
@[simp] theorem setSrc_pw (n : Nat) (x : FaultSrc) : (s.setSrc n x).pw = s.pw := rfl
@[simp] theorem setSrc_tm (n : Nat) (x : FaultSrc) : (s.setSrc n x).tm = s.tm := rfl
@[simp] theorem setSrc_ports (n : Nat) (x : FaultSrc) : (s.setSrc n x).ports = s.ports := rfl
@[simp] theorem setSrc_fns (n : Nat) (x : FaultSrc) : (s.setSrc n x).fns = s.fns := rfl
@[simp] theorem setSrc_cm (n : Nat) (x : FaultSrc) : (s.setSrc n x).cm = s.cm := rfl
@[simp] theorem setSrc_tenants (n : Nat) (x : FaultSrc) : (s.setSrc n x).tenants = s.tenants := rfl
@[simp] theorem setSrc_mt (n : Nat) (x : FaultSrc) : (s.setSrc n x).mt = s.mt := rfl
@[simp] theorem setSrc_arrays (n : Nat) (x : FaultSrc) : (s.setSrc n x).arrays = s.arrays := rfl
@[simp] theorem setSrc_vols (n : Nat) (x : FaultSrc) : (s.setSrc n x).vols = s.vols := rfl
@[simp] theorem setSrc_mb (n : Nat) (x : FaultSrc) : (s.setSrc n x).mb = s.mb := rfl
@[simp] theorem setSrc_pc (n : Nat) (x : FaultSrc) : (s.setSrc n x).pc = s.pc := rfl
@[simp] theorem setSrc_ms (n : Nat) (x : FaultSrc) : (s.setSrc n x).ms = s.ms := rfl
@[simp] theorem setSrc_ls (n : Nat) (x : FaultSrc) : (s.setSrc n x).ls = s.ls := rfl
@[simp] theorem setSrc_pr (n : Nat) (x : FaultSrc) : (s.setSrc n x).pr = s.pr := rfl
@[simp] theorem setSrc_chans (n : Nat) (x : FaultSrc) : (s.setSrc n x).chans = s.chans := rfl
@[simp] theorem setSrc_staging (n : Nat) (x : FaultSrc) : (s.setSrc n x).staging = s.staging := rfl
@[simp] theorem setSrc_dc (n : Nat) (x : FaultSrc) : (s.setSrc n x).dc = s.dc := rfl
@[simp] theorem setSrc_sb (n : Nat) (x : FaultSrc) : (s.setSrc n x).sb = s.sb := rfl
@[simp] theorem setSrc_fw (n : Nat) (x : FaultSrc) : (s.setSrc n x).fw = s.fw := rfl
@[simp] theorem setSrc_ident (n : Nat) (x : FaultSrc) : (s.setSrc n x).ident = s.ident := rfl
@[simp] theorem setSrc_fh_first (n : Nat) (x : FaultSrc) : (s.setSrc n x).fh.first = s.fh.first := rfl
@[simp] theorem setSrc_fh_ring (n : Nat) (x : FaultSrc) : (s.setSrc n x).fh.ring = s.fh.ring := rfl
@[simp] theorem setSrc_fh_head (n : Nat) (x : FaultSrc) : (s.setSrc n x).fh.head = s.fh.head := rfl
@[simp] theorem setSrc_fh_queue (n : Nat) (x : FaultSrc) : (s.setSrc n x).fh.queue = s.fh.queue := rfl

/-! ### setTen -/

@[simp] theorem setTen_fresh (t : Nat) (x : Tenant) : (s.setTen t x).fresh = s.fresh := rfl
@[simp] theorem setTen_out (t : Nat) (x : Tenant) : (s.setTen t x).out = s.out := rfl
@[simp] theorem setTen_vals (t : Nat) (x : Tenant) : (s.setTen t x).vals = s.vals := rfl
@[simp] theorem setTen_pw (t : Nat) (x : Tenant) : (s.setTen t x).pw = s.pw := rfl
@[simp] theorem setTen_tm (t : Nat) (x : Tenant) : (s.setTen t x).tm = s.tm := rfl
@[simp] theorem setTen_fh (t : Nat) (x : Tenant) : (s.setTen t x).fh = s.fh := rfl
@[simp] theorem setTen_ports (t : Nat) (x : Tenant) : (s.setTen t x).ports = s.ports := rfl
@[simp] theorem setTen_fns (t : Nat) (x : Tenant) : (s.setTen t x).fns = s.fns := rfl
@[simp] theorem setTen_cm (t : Nat) (x : Tenant) : (s.setTen t x).cm = s.cm := rfl
@[simp] theorem setTen_mt (t : Nat) (x : Tenant) : (s.setTen t x).mt = s.mt := rfl
@[simp] theorem setTen_arrays (t : Nat) (x : Tenant) : (s.setTen t x).arrays = s.arrays := rfl
@[simp] theorem setTen_vols (t : Nat) (x : Tenant) : (s.setTen t x).vols = s.vols := rfl
@[simp] theorem setTen_mb (t : Nat) (x : Tenant) : (s.setTen t x).mb = s.mb := rfl
@[simp] theorem setTen_pc (t : Nat) (x : Tenant) : (s.setTen t x).pc = s.pc := rfl
@[simp] theorem setTen_ms (t : Nat) (x : Tenant) : (s.setTen t x).ms = s.ms := rfl
@[simp] theorem setTen_ls (t : Nat) (x : Tenant) : (s.setTen t x).ls = s.ls := rfl
@[simp] theorem setTen_pr (t : Nat) (x : Tenant) : (s.setTen t x).pr = s.pr := rfl
@[simp] theorem setTen_chans (t : Nat) (x : Tenant) : (s.setTen t x).chans = s.chans := rfl
@[simp] theorem setTen_staging (t : Nat) (x : Tenant) : (s.setTen t x).staging = s.staging := rfl
@[simp] theorem setTen_dc (t : Nat) (x : Tenant) : (s.setTen t x).dc = s.dc := rfl
@[simp] theorem setTen_sb (t : Nat) (x : Tenant) : (s.setTen t x).sb = s.sb := rfl
@[simp] theorem setTen_fw (t : Nat) (x : Tenant) : (s.setTen t x).fw = s.fw := rfl
@[simp] theorem setTen_ident (t : Nat) (x : Tenant) : (s.setTen t x).ident = s.ident := rfl

/-! ### setArr -/

@[simp] theorem setArr_fresh (a : Nat) (x : Arr) : (s.setArr a x).fresh = s.fresh := rfl
@[simp] theorem setArr_out (a : Nat) (x : Arr) : (s.setArr a x).out = s.out := rfl
@[simp] theorem setArr_vals (a : Nat) (x : Arr) : (s.setArr a x).vals = s.vals := rfl
@[simp] theorem setArr_pw (a : Nat) (x : Arr) : (s.setArr a x).pw = s.pw := rfl
@[simp] theorem setArr_tm (a : Nat) (x : Arr) : (s.setArr a x).tm = s.tm := rfl
@[simp] theorem setArr_fh (a : Nat) (x : Arr) : (s.setArr a x).fh = s.fh := rfl
@[simp] theorem setArr_ports (a : Nat) (x : Arr) : (s.setArr a x).ports = s.ports := rfl
@[simp] theorem setArr_fns (a : Nat) (x : Arr) : (s.setArr a x).fns = s.fns := rfl
@[simp] theorem setArr_cm (a : Nat) (x : Arr) : (s.setArr a x).cm = s.cm := rfl
@[simp] theorem setArr_tenants (a : Nat) (x : Arr) : (s.setArr a x).tenants = s.tenants := rfl
@[simp] theorem setArr_mt (a : Nat) (x : Arr) : (s.setArr a x).mt = s.mt := rfl
@[simp] theorem setArr_vols (a : Nat) (x : Arr) : (s.setArr a x).vols = s.vols := rfl
@[simp] theorem setArr_mb (a : Nat) (x : Arr) : (s.setArr a x).mb = s.mb := rfl
@[simp] theorem setArr_pc (a : Nat) (x : Arr) : (s.setArr a x).pc = s.pc := rfl
@[simp] theorem setArr_ms (a : Nat) (x : Arr) : (s.setArr a x).ms = s.ms := rfl
@[simp] theorem setArr_ls (a : Nat) (x : Arr) : (s.setArr a x).ls = s.ls := rfl
@[simp] theorem setArr_pr (a : Nat) (x : Arr) : (s.setArr a x).pr = s.pr := rfl
@[simp] theorem setArr_chans (a : Nat) (x : Arr) : (s.setArr a x).chans = s.chans := rfl
@[simp] theorem setArr_staging (a : Nat) (x : Arr) : (s.setArr a x).staging = s.staging := rfl
@[simp] theorem setArr_dc (a : Nat) (x : Arr) : (s.setArr a x).dc = s.dc := rfl
@[simp] theorem setArr_sb (a : Nat) (x : Arr) : (s.setArr a x).sb = s.sb := rfl
@[simp] theorem setArr_fw (a : Nat) (x : Arr) : (s.setArr a x).fw = s.fw := rfl
@[simp] theorem setArr_ident (a : Nat) (x : Arr) : (s.setArr a x).ident = s.ident := rfl

/-! ### setVol -/

@[simp] theorem setVol_fresh (v : Nat) (x : Vol) : (s.setVol v x).fresh = s.fresh := rfl
@[simp] theorem setVol_out (v : Nat) (x : Vol) : (s.setVol v x).out = s.out := rfl
@[simp] theorem setVol_vals (v : Nat) (x : Vol) : (s.setVol v x).vals = s.vals := rfl
@[simp] theorem setVol_pw (v : Nat) (x : Vol) : (s.setVol v x).pw = s.pw := rfl
@[simp] theorem setVol_tm (v : Nat) (x : Vol) : (s.setVol v x).tm = s.tm := rfl
@[simp] theorem setVol_fh (v : Nat) (x : Vol) : (s.setVol v x).fh = s.fh := rfl
@[simp] theorem setVol_ports (v : Nat) (x : Vol) : (s.setVol v x).ports = s.ports := rfl
@[simp] theorem setVol_fns (v : Nat) (x : Vol) : (s.setVol v x).fns = s.fns := rfl
@[simp] theorem setVol_cm (v : Nat) (x : Vol) : (s.setVol v x).cm = s.cm := rfl
@[simp] theorem setVol_tenants (v : Nat) (x : Vol) : (s.setVol v x).tenants = s.tenants := rfl
@[simp] theorem setVol_mt (v : Nat) (x : Vol) : (s.setVol v x).mt = s.mt := rfl
@[simp] theorem setVol_arrays (v : Nat) (x : Vol) : (s.setVol v x).arrays = s.arrays := rfl
@[simp] theorem setVol_mb (v : Nat) (x : Vol) : (s.setVol v x).mb = s.mb := rfl
@[simp] theorem setVol_pc (v : Nat) (x : Vol) : (s.setVol v x).pc = s.pc := rfl
@[simp] theorem setVol_ms (v : Nat) (x : Vol) : (s.setVol v x).ms = s.ms := rfl
@[simp] theorem setVol_ls (v : Nat) (x : Vol) : (s.setVol v x).ls = s.ls := rfl
@[simp] theorem setVol_pr (v : Nat) (x : Vol) : (s.setVol v x).pr = s.pr := rfl
@[simp] theorem setVol_chans (v : Nat) (x : Vol) : (s.setVol v x).chans = s.chans := rfl
@[simp] theorem setVol_staging (v : Nat) (x : Vol) : (s.setVol v x).staging = s.staging := rfl
@[simp] theorem setVol_dc (v : Nat) (x : Vol) : (s.setVol v x).dc = s.dc := rfl
@[simp] theorem setVol_sb (v : Nat) (x : Vol) : (s.setVol v x).sb = s.sb := rfl
@[simp] theorem setVol_fw (v : Nat) (x : Vol) : (s.setVol v x).fw = s.fw := rfl
@[simp] theorem setVol_ident (v : Nat) (x : Vol) : (s.setVol v x).ident = s.ident := rfl

/-! ### setMem -/

@[simp] theorem setMem_fresh (m : Nat) (x : Member) : (s.setMem m x).fresh = s.fresh := rfl
@[simp] theorem setMem_out (m : Nat) (x : Member) : (s.setMem m x).out = s.out := rfl
@[simp] theorem setMem_vals (m : Nat) (x : Member) : (s.setMem m x).vals = s.vals := rfl
@[simp] theorem setMem_pw (m : Nat) (x : Member) : (s.setMem m x).pw = s.pw := rfl
@[simp] theorem setMem_tm (m : Nat) (x : Member) : (s.setMem m x).tm = s.tm := rfl
@[simp] theorem setMem_fh (m : Nat) (x : Member) : (s.setMem m x).fh = s.fh := rfl
@[simp] theorem setMem_ports (m : Nat) (x : Member) : (s.setMem m x).ports = s.ports := rfl
@[simp] theorem setMem_fns (m : Nat) (x : Member) : (s.setMem m x).fns = s.fns := rfl
@[simp] theorem setMem_cm (m : Nat) (x : Member) : (s.setMem m x).cm = s.cm := rfl
@[simp] theorem setMem_tenants (m : Nat) (x : Member) : (s.setMem m x).tenants = s.tenants := rfl
@[simp] theorem setMem_mt (m : Nat) (x : Member) : (s.setMem m x).mt = s.mt := rfl
@[simp] theorem setMem_arrays (m : Nat) (x : Member) : (s.setMem m x).arrays = s.arrays := rfl
@[simp] theorem setMem_vols (m : Nat) (x : Member) : (s.setMem m x).vols = s.vols := rfl
@[simp] theorem setMem_pc (m : Nat) (x : Member) : (s.setMem m x).pc = s.pc := rfl
@[simp] theorem setMem_ms (m : Nat) (x : Member) : (s.setMem m x).ms = s.ms := rfl
@[simp] theorem setMem_ls (m : Nat) (x : Member) : (s.setMem m x).ls = s.ls := rfl
@[simp] theorem setMem_pr (m : Nat) (x : Member) : (s.setMem m x).pr = s.pr := rfl
@[simp] theorem setMem_chans (m : Nat) (x : Member) : (s.setMem m x).chans = s.chans := rfl
@[simp] theorem setMem_staging (m : Nat) (x : Member) : (s.setMem m x).staging = s.staging := rfl
@[simp] theorem setMem_dc (m : Nat) (x : Member) : (s.setMem m x).dc = s.dc := rfl
@[simp] theorem setMem_sb (m : Nat) (x : Member) : (s.setMem m x).sb = s.sb := rfl
@[simp] theorem setMem_fw (m : Nat) (x : Member) : (s.setMem m x).fw = s.fw := rfl
@[simp] theorem setMem_ident (m : Nat) (x : Member) : (s.setMem m x).ident = s.ident := rfl
@[simp] theorem setMem_mb_dir (m : Nat) (x : Member) : (s.setMem m x).mb.dir = s.mb.dir := rfl
@[simp] theorem setMem_mb_cmds (m : Nat) (x : Member) : (s.setMem m x).mb.cmds = s.mb.cmds := rfl
@[simp] theorem setMem_mb_nextTag (m : Nat) (x : Member) : (s.setMem m x).mb.nextTag = s.mb.nextTag := rfl
@[simp] theorem setMem_mb_jobs (m : Nat) (x : Member) : (s.setMem m x).mb.jobs = s.mb.jobs := rfl
@[simp] theorem setMem_mb_nextJob (m : Nat) (x : Member) : (s.setMem m x).mb.nextJob = s.mb.nextJob := rfl
@[simp] theorem setMem_mb_bifurcated (m : Nat) (x : Member) : (s.setMem m x).mb.bifurcated = s.mb.bifurcated := rfl

/-! ### setLens -/

@[simp] theorem setLens_fresh (n : Nat) (x : Lens) : (s.setLens n x).fresh = s.fresh := rfl
@[simp] theorem setLens_out (n : Nat) (x : Lens) : (s.setLens n x).out = s.out := rfl
@[simp] theorem setLens_vals (n : Nat) (x : Lens) : (s.setLens n x).vals = s.vals := rfl
@[simp] theorem setLens_pw (n : Nat) (x : Lens) : (s.setLens n x).pw = s.pw := rfl
@[simp] theorem setLens_tm (n : Nat) (x : Lens) : (s.setLens n x).tm = s.tm := rfl
@[simp] theorem setLens_fh (n : Nat) (x : Lens) : (s.setLens n x).fh = s.fh := rfl
@[simp] theorem setLens_ports (n : Nat) (x : Lens) : (s.setLens n x).ports = s.ports := rfl
@[simp] theorem setLens_fns (n : Nat) (x : Lens) : (s.setLens n x).fns = s.fns := rfl
@[simp] theorem setLens_cm (n : Nat) (x : Lens) : (s.setLens n x).cm = s.cm := rfl
@[simp] theorem setLens_tenants (n : Nat) (x : Lens) : (s.setLens n x).tenants = s.tenants := rfl
@[simp] theorem setLens_mt (n : Nat) (x : Lens) : (s.setLens n x).mt = s.mt := rfl
@[simp] theorem setLens_arrays (n : Nat) (x : Lens) : (s.setLens n x).arrays = s.arrays := rfl
@[simp] theorem setLens_vols (n : Nat) (x : Lens) : (s.setLens n x).vols = s.vols := rfl
@[simp] theorem setLens_mb (n : Nat) (x : Lens) : (s.setLens n x).mb = s.mb := rfl
@[simp] theorem setLens_pc (n : Nat) (x : Lens) : (s.setLens n x).pc = s.pc := rfl
@[simp] theorem setLens_ms (n : Nat) (x : Lens) : (s.setLens n x).ms = s.ms := rfl
@[simp] theorem setLens_pr (n : Nat) (x : Lens) : (s.setLens n x).pr = s.pr := rfl
@[simp] theorem setLens_chans (n : Nat) (x : Lens) : (s.setLens n x).chans = s.chans := rfl
@[simp] theorem setLens_staging (n : Nat) (x : Lens) : (s.setLens n x).staging = s.staging := rfl
@[simp] theorem setLens_dc (n : Nat) (x : Lens) : (s.setLens n x).dc = s.dc := rfl
@[simp] theorem setLens_sb (n : Nat) (x : Lens) : (s.setLens n x).sb = s.sb := rfl
@[simp] theorem setLens_fw (n : Nat) (x : Lens) : (s.setLens n x).fw = s.fw := rfl
@[simp] theorem setLens_ident (n : Nat) (x : Lens) : (s.setLens n x).ident = s.ident := rfl
@[simp] theorem setLens_ls_fe (n : Nat) (x : Lens) : (s.setLens n x).ls.fe = s.ls.fe := rfl

/-! ### setFe -/

@[simp] theorem setFe_fresh (n : Nat) (x : FrontEnd) : (s.setFe n x).fresh = s.fresh := rfl
@[simp] theorem setFe_out (n : Nat) (x : FrontEnd) : (s.setFe n x).out = s.out := rfl
@[simp] theorem setFe_vals (n : Nat) (x : FrontEnd) : (s.setFe n x).vals = s.vals := rfl
@[simp] theorem setFe_pw (n : Nat) (x : FrontEnd) : (s.setFe n x).pw = s.pw := rfl
@[simp] theorem setFe_tm (n : Nat) (x : FrontEnd) : (s.setFe n x).tm = s.tm := rfl
@[simp] theorem setFe_fh (n : Nat) (x : FrontEnd) : (s.setFe n x).fh = s.fh := rfl
@[simp] theorem setFe_ports (n : Nat) (x : FrontEnd) : (s.setFe n x).ports = s.ports := rfl
@[simp] theorem setFe_fns (n : Nat) (x : FrontEnd) : (s.setFe n x).fns = s.fns := rfl
@[simp] theorem setFe_cm (n : Nat) (x : FrontEnd) : (s.setFe n x).cm = s.cm := rfl
@[simp] theorem setFe_tenants (n : Nat) (x : FrontEnd) : (s.setFe n x).tenants = s.tenants := rfl
@[simp] theorem setFe_mt (n : Nat) (x : FrontEnd) : (s.setFe n x).mt = s.mt := rfl
@[simp] theorem setFe_arrays (n : Nat) (x : FrontEnd) : (s.setFe n x).arrays = s.arrays := rfl
@[simp] theorem setFe_vols (n : Nat) (x : FrontEnd) : (s.setFe n x).vols = s.vols := rfl
@[simp] theorem setFe_mb (n : Nat) (x : FrontEnd) : (s.setFe n x).mb = s.mb := rfl
@[simp] theorem setFe_pc (n : Nat) (x : FrontEnd) : (s.setFe n x).pc = s.pc := rfl
@[simp] theorem setFe_ms (n : Nat) (x : FrontEnd) : (s.setFe n x).ms = s.ms := rfl
@[simp] theorem setFe_pr (n : Nat) (x : FrontEnd) : (s.setFe n x).pr = s.pr := rfl
@[simp] theorem setFe_chans (n : Nat) (x : FrontEnd) : (s.setFe n x).chans = s.chans := rfl
@[simp] theorem setFe_staging (n : Nat) (x : FrontEnd) : (s.setFe n x).staging = s.staging := rfl
@[simp] theorem setFe_dc (n : Nat) (x : FrontEnd) : (s.setFe n x).dc = s.dc := rfl
@[simp] theorem setFe_sb (n : Nat) (x : FrontEnd) : (s.setFe n x).sb = s.sb := rfl
@[simp] theorem setFe_fw (n : Nat) (x : FrontEnd) : (s.setFe n x).fw = s.fw := rfl
@[simp] theorem setFe_ident (n : Nat) (x : FrontEnd) : (s.setFe n x).ident = s.ident := rfl
@[simp] theorem setFe_ls_chan (n : Nat) (x : FrontEnd) : (s.setFe n x).ls.chan = s.ls.chan := rfl

/-! ### setChan -/

@[simp] theorem setChan_fresh (n : Nat) (x : Chan) : (s.setChan n x).fresh = s.fresh := rfl
@[simp] theorem setChan_out (n : Nat) (x : Chan) : (s.setChan n x).out = s.out := rfl
@[simp] theorem setChan_vals (n : Nat) (x : Chan) : (s.setChan n x).vals = s.vals := rfl
@[simp] theorem setChan_pw (n : Nat) (x : Chan) : (s.setChan n x).pw = s.pw := rfl
@[simp] theorem setChan_tm (n : Nat) (x : Chan) : (s.setChan n x).tm = s.tm := rfl
@[simp] theorem setChan_fh (n : Nat) (x : Chan) : (s.setChan n x).fh = s.fh := rfl
@[simp] theorem setChan_ports (n : Nat) (x : Chan) : (s.setChan n x).ports = s.ports := rfl
@[simp] theorem setChan_fns (n : Nat) (x : Chan) : (s.setChan n x).fns = s.fns := rfl
@[simp] theorem setChan_cm (n : Nat) (x : Chan) : (s.setChan n x).cm = s.cm := rfl
@[simp] theorem setChan_tenants (n : Nat) (x : Chan) : (s.setChan n x).tenants = s.tenants := rfl
@[simp] theorem setChan_mt (n : Nat) (x : Chan) : (s.setChan n x).mt = s.mt := rfl
@[simp] theorem setChan_arrays (n : Nat) (x : Chan) : (s.setChan n x).arrays = s.arrays := rfl
@[simp] theorem setChan_vols (n : Nat) (x : Chan) : (s.setChan n x).vols = s.vols := rfl
@[simp] theorem setChan_mb (n : Nat) (x : Chan) : (s.setChan n x).mb = s.mb := rfl
@[simp] theorem setChan_pc (n : Nat) (x : Chan) : (s.setChan n x).pc = s.pc := rfl
@[simp] theorem setChan_ms (n : Nat) (x : Chan) : (s.setChan n x).ms = s.ms := rfl
@[simp] theorem setChan_ls (n : Nat) (x : Chan) : (s.setChan n x).ls = s.ls := rfl
@[simp] theorem setChan_pr (n : Nat) (x : Chan) : (s.setChan n x).pr = s.pr := rfl
@[simp] theorem setChan_staging (n : Nat) (x : Chan) : (s.setChan n x).staging = s.staging := rfl
@[simp] theorem setChan_dc (n : Nat) (x : Chan) : (s.setChan n x).dc = s.dc := rfl
@[simp] theorem setChan_sb (n : Nat) (x : Chan) : (s.setChan n x).sb = s.sb := rfl
@[simp] theorem setChan_fw (n : Nat) (x : Chan) : (s.setChan n x).fw = s.fw := rfl
@[simp] theorem setChan_ident (n : Nat) (x : Chan) : (s.setChan n x).ident = s.ident := rfl

/-! ### setSlot -/

@[simp] theorem setSlot_fresh (n : Nat) (x : DictSlot) : (s.setSlot n x).fresh = s.fresh := rfl
@[simp] theorem setSlot_out (n : Nat) (x : DictSlot) : (s.setSlot n x).out = s.out := rfl
@[simp] theorem setSlot_vals (n : Nat) (x : DictSlot) : (s.setSlot n x).vals = s.vals := rfl
@[simp] theorem setSlot_pw (n : Nat) (x : DictSlot) : (s.setSlot n x).pw = s.pw := rfl
@[simp] theorem setSlot_tm (n : Nat) (x : DictSlot) : (s.setSlot n x).tm = s.tm := rfl
@[simp] theorem setSlot_fh (n : Nat) (x : DictSlot) : (s.setSlot n x).fh = s.fh := rfl
@[simp] theorem setSlot_ports (n : Nat) (x : DictSlot) : (s.setSlot n x).ports = s.ports := rfl
@[simp] theorem setSlot_fns (n : Nat) (x : DictSlot) : (s.setSlot n x).fns = s.fns := rfl
@[simp] theorem setSlot_cm (n : Nat) (x : DictSlot) : (s.setSlot n x).cm = s.cm := rfl
@[simp] theorem setSlot_tenants (n : Nat) (x : DictSlot) : (s.setSlot n x).tenants = s.tenants := rfl
@[simp] theorem setSlot_mt (n : Nat) (x : DictSlot) : (s.setSlot n x).mt = s.mt := rfl
@[simp] theorem setSlot_arrays (n : Nat) (x : DictSlot) : (s.setSlot n x).arrays = s.arrays := rfl
@[simp] theorem setSlot_vols (n : Nat) (x : DictSlot) : (s.setSlot n x).vols = s.vols := rfl
@[simp] theorem setSlot_mb (n : Nat) (x : DictSlot) : (s.setSlot n x).mb = s.mb := rfl
@[simp] theorem setSlot_pc (n : Nat) (x : DictSlot) : (s.setSlot n x).pc = s.pc := rfl
@[simp] theorem setSlot_ms (n : Nat) (x : DictSlot) : (s.setSlot n x).ms = s.ms := rfl
@[simp] theorem setSlot_ls (n : Nat) (x : DictSlot) : (s.setSlot n x).ls = s.ls := rfl
@[simp] theorem setSlot_pr (n : Nat) (x : DictSlot) : (s.setSlot n x).pr = s.pr := rfl
@[simp] theorem setSlot_chans (n : Nat) (x : DictSlot) : (s.setSlot n x).chans = s.chans := rfl
@[simp] theorem setSlot_staging (n : Nat) (x : DictSlot) : (s.setSlot n x).staging = s.staging := rfl
@[simp] theorem setSlot_sb (n : Nat) (x : DictSlot) : (s.setSlot n x).sb = s.sb := rfl
@[simp] theorem setSlot_fw (n : Nat) (x : DictSlot) : (s.setSlot n x).fw = s.fw := rfl
@[simp] theorem setSlot_ident (n : Nat) (x : DictSlot) : (s.setSlot n x).ident = s.ident := rfl
@[simp] theorem setSlot_dc_holder (n : Nat) (x : DictSlot) : (s.setSlot n x).dc.holder = s.dc.holder := rfl
@[simp] theorem setSlot_dc_expiry (n : Nat) (x : DictSlot) : (s.setSlot n x).dc.expiry = s.dc.expiry := rfl
@[simp] theorem setSlot_dc_copyA (n : Nat) (x : DictSlot) : (s.setSlot n x).dc.copyA = s.dc.copyA := rfl
@[simp] theorem setSlot_dc_copyB (n : Nat) (x : DictSlot) : (s.setSlot n x).dc.copyB = s.dc.copyB := rfl
@[simp] theorem setSlot_dc_storing (n : Nat) (x : DictSlot) : (s.setSlot n x).dc.storing = s.dc.storing := rfl
@[simp] theorem setSlot_dc_storeFor (n : Nat) (x : DictSlot) : (s.setSlot n x).dc.storeFor = s.dc.storeFor := rfl
@[simp] theorem setSlot_dc_loaded (n : Nat) (x : DictSlot) : (s.setSlot n x).dc.loaded = s.dc.loaded := rfl

/-! ### modCtx -/

@[simp] theorem modCtx_fresh (id : Nat) (g : Ctx → Ctx) : (s.modCtx id g).fresh = s.fresh := rfl
@[simp] theorem modCtx_out (id : Nat) (g : Ctx → Ctx) : (s.modCtx id g).out = s.out := rfl
@[simp] theorem modCtx_vals (id : Nat) (g : Ctx → Ctx) : (s.modCtx id g).vals = s.vals := rfl
@[simp] theorem modCtx_pw (id : Nat) (g : Ctx → Ctx) : (s.modCtx id g).pw = s.pw := rfl
@[simp] theorem modCtx_tm (id : Nat) (g : Ctx → Ctx) : (s.modCtx id g).tm = s.tm := rfl
@[simp] theorem modCtx_fh (id : Nat) (g : Ctx → Ctx) : (s.modCtx id g).fh = s.fh := rfl
@[simp] theorem modCtx_ports (id : Nat) (g : Ctx → Ctx) : (s.modCtx id g).ports = s.ports := rfl
@[simp] theorem modCtx_fns (id : Nat) (g : Ctx → Ctx) : (s.modCtx id g).fns = s.fns := rfl
@[simp] theorem modCtx_tenants (id : Nat) (g : Ctx → Ctx) : (s.modCtx id g).tenants = s.tenants := rfl
@[simp] theorem modCtx_mt (id : Nat) (g : Ctx → Ctx) : (s.modCtx id g).mt = s.mt := rfl
@[simp] theorem modCtx_arrays (id : Nat) (g : Ctx → Ctx) : (s.modCtx id g).arrays = s.arrays := rfl
@[simp] theorem modCtx_vols (id : Nat) (g : Ctx → Ctx) : (s.modCtx id g).vols = s.vols := rfl
@[simp] theorem modCtx_mb (id : Nat) (g : Ctx → Ctx) : (s.modCtx id g).mb = s.mb := rfl
@[simp] theorem modCtx_pc (id : Nat) (g : Ctx → Ctx) : (s.modCtx id g).pc = s.pc := rfl
@[simp] theorem modCtx_ms (id : Nat) (g : Ctx → Ctx) : (s.modCtx id g).ms = s.ms := rfl
@[simp] theorem modCtx_ls (id : Nat) (g : Ctx → Ctx) : (s.modCtx id g).ls = s.ls := rfl
@[simp] theorem modCtx_pr (id : Nat) (g : Ctx → Ctx) : (s.modCtx id g).pr = s.pr := rfl
@[simp] theorem modCtx_chans (id : Nat) (g : Ctx → Ctx) : (s.modCtx id g).chans = s.chans := rfl
@[simp] theorem modCtx_staging (id : Nat) (g : Ctx → Ctx) : (s.modCtx id g).staging = s.staging := rfl
@[simp] theorem modCtx_dc (id : Nat) (g : Ctx → Ctx) : (s.modCtx id g).dc = s.dc := rfl
@[simp] theorem modCtx_sb (id : Nat) (g : Ctx → Ctx) : (s.modCtx id g).sb = s.sb := rfl
@[simp] theorem modCtx_fw (id : Nat) (g : Ctx → Ctx) : (s.modCtx id g).fw = s.fw := rfl
@[simp] theorem modCtx_ident (id : Nat) (g : Ctx → Ctx) : (s.modCtx id g).ident = s.ident := rfl
@[simp] theorem modCtx_cm_qs (id : Nat) (g : Ctx → Ctx) : (s.modCtx id g).cm.qs = s.cm.qs := rfl
@[simp] theorem modCtx_cm_slots (id : Nat) (g : Ctx → Ctx) : (s.modCtx id g).cm.slots = s.cm.slots := rfl
@[simp] theorem modCtx_cm_nextCtx (id : Nat) (g : Ctx → Ctx) : (s.modCtx id g).cm.nextCtx = s.cm.nextCtx := rfl
@[simp] theorem modCtx_cm_nextStamp (id : Nat) (g : Ctx → Ctx) : (s.modCtx id g).cm.nextStamp = s.cm.nextStamp := rfl
@[simp] theorem modCtx_cm_irisQ (id : Nat) (g : Ctx → Ctx) : (s.modCtx id g).cm.irisQ = s.cm.irisQ := rfl
@[simp] theorem modCtx_cm_failLog (id : Nat) (g : Ctx → Ctx) : (s.modCtx id g).cm.failLog = s.cm.failLog := rfl
@[simp] theorem modCtx_cm_writes (id : Nat) (g : Ctx → Ctx) : (s.modCtx id g).cm.writes = s.cm.writes := rfl
@[simp] theorem modCtx_cm_nextWrite (id : Nat) (g : Ctx → Ctx) : (s.modCtx id g).cm.nextWrite = s.cm.nextWrite := rfl
@[simp] theorem modCtx_cm_isolating (id : Nat) (g : Ctx → Ctx) : (s.modCtx id g).cm.isolating = s.cm.isolating := rfl

/-! ### setTrans -/

@[simp] theorem setTrans_fresh (t : Option Transition) : (s.setTrans t).fresh = s.fresh := rfl
@[simp] theorem setTrans_out (t : Option Transition) : (s.setTrans t).out = s.out := rfl
@[simp] theorem setTrans_vals (t : Option Transition) : (s.setTrans t).vals = s.vals := rfl
@[simp] theorem setTrans_tm (t : Option Transition) : (s.setTrans t).tm = s.tm := rfl
@[simp] theorem setTrans_fh (t : Option Transition) : (s.setTrans t).fh = s.fh := rfl
@[simp] theorem setTrans_ports (t : Option Transition) : (s.setTrans t).ports = s.ports := rfl
@[simp] theorem setTrans_fns (t : Option Transition) : (s.setTrans t).fns = s.fns := rfl
@[simp] theorem setTrans_cm (t : Option Transition) : (s.setTrans t).cm = s.cm := rfl
@[simp] theorem setTrans_tenants (t : Option Transition) : (s.setTrans t).tenants = s.tenants := rfl
@[simp] theorem setTrans_mt (t : Option Transition) : (s.setTrans t).mt = s.mt := rfl
@[simp] theorem setTrans_arrays (t : Option Transition) : (s.setTrans t).arrays = s.arrays := rfl
@[simp] theorem setTrans_vols (t : Option Transition) : (s.setTrans t).vols = s.vols := rfl
@[simp] theorem setTrans_mb (t : Option Transition) : (s.setTrans t).mb = s.mb := rfl
@[simp] theorem setTrans_pc (t : Option Transition) : (s.setTrans t).pc = s.pc := rfl
@[simp] theorem setTrans_ms (t : Option Transition) : (s.setTrans t).ms = s.ms := rfl
@[simp] theorem setTrans_ls (t : Option Transition) : (s.setTrans t).ls = s.ls := rfl
@[simp] theorem setTrans_pr (t : Option Transition) : (s.setTrans t).pr = s.pr := rfl
@[simp] theorem setTrans_chans (t : Option Transition) : (s.setTrans t).chans = s.chans := rfl
@[simp] theorem setTrans_staging (t : Option Transition) : (s.setTrans t).staging = s.staging := rfl
@[simp] theorem setTrans_dc (t : Option Transition) : (s.setTrans t).dc = s.dc := rfl
@[simp] theorem setTrans_sb (t : Option Transition) : (s.setTrans t).sb = s.sb := rfl
@[simp] theorem setTrans_fw (t : Option Transition) : (s.setTrans t).fw = s.fw := rfl
@[simp] theorem setTrans_ident (t : Option Transition) : (s.setTrans t).ident = s.ident := rfl

/-! ### setMode0 -/

@[simp] theorem setMode0_fresh (m : Option Mode) : (s.setMode0 m).fresh = s.fresh := rfl
@[simp] theorem setMode0_out (m : Option Mode) : (s.setMode0 m).out = s.out := rfl
@[simp] theorem setMode0_vals (m : Option Mode) : (s.setMode0 m).vals = s.vals := rfl
@[simp] theorem setMode0_tm (m : Option Mode) : (s.setMode0 m).tm = s.tm := rfl
@[simp] theorem setMode0_fh (m : Option Mode) : (s.setMode0 m).fh = s.fh := rfl
@[simp] theorem setMode0_ports (m : Option Mode) : (s.setMode0 m).ports = s.ports := rfl
@[simp] theorem setMode0_fns (m : Option Mode) : (s.setMode0 m).fns = s.fns := rfl
@[simp] theorem setMode0_cm (m : Option Mode) : (s.setMode0 m).cm = s.cm := rfl
@[simp] theorem setMode0_tenants (m : Option Mode) : (s.setMode0 m).tenants = s.tenants := rfl
@[simp] theorem setMode0_mt (m : Option Mode) : (s.setMode0 m).mt = s.mt := rfl
@[simp] theorem setMode0_arrays (m : Option Mode) : (s.setMode0 m).arrays = s.arrays := rfl
@[simp] theorem setMode0_vols (m : Option Mode) : (s.setMode0 m).vols = s.vols := rfl
@[simp] theorem setMode0_mb (m : Option Mode) : (s.setMode0 m).mb = s.mb := rfl
@[simp] theorem setMode0_pc (m : Option Mode) : (s.setMode0 m).pc = s.pc := rfl
@[simp] theorem setMode0_ms (m : Option Mode) : (s.setMode0 m).ms = s.ms := rfl
@[simp] theorem setMode0_ls (m : Option Mode) : (s.setMode0 m).ls = s.ls := rfl
@[simp] theorem setMode0_pr (m : Option Mode) : (s.setMode0 m).pr = s.pr := rfl
@[simp] theorem setMode0_chans (m : Option Mode) : (s.setMode0 m).chans = s.chans := rfl
@[simp] theorem setMode0_staging (m : Option Mode) : (s.setMode0 m).staging = s.staging := rfl
@[simp] theorem setMode0_dc (m : Option Mode) : (s.setMode0 m).dc = s.dc := rfl
@[simp] theorem setMode0_sb (m : Option Mode) : (s.setMode0 m).sb = s.sb := rfl
@[simp] theorem setMode0_fw (m : Option Mode) : (s.setMode0 m).fw = s.fw := rfl
@[simp] theorem setMode0_ident (m : Option Mode) : (s.setMode0 m).ident = s.ident := rfl

/-! ### bbox -/

@[simp] theorem bbox_fresh (k g n v : Nat) (b : List Byte) : (bbox k g n v b s).fresh = s.fresh := rfl
@[simp] theorem bbox_out (k g n v : Nat) (b : List Byte) : (bbox k g n v b s).out = s.out := rfl
@[simp] theorem bbox_vals (k g n v : Nat) (b : List Byte) : (bbox k g n v b s).vals = s.vals := rfl
@[simp] theorem bbox_pw (k g n v : Nat) (b : List Byte) : (bbox k g n v b s).pw = s.pw := rfl
@[simp] theorem bbox_tm (k g n v : Nat) (b : List Byte) : (bbox k g n v b s).tm = s.tm := rfl
@[simp] theorem bbox_ports (k g n v : Nat) (b : List Byte) : (bbox k g n v b s).ports = s.ports := rfl
@[simp] theorem bbox_fns (k g n v : Nat) (b : List Byte) : (bbox k g n v b s).fns = s.fns := rfl
@[simp] theorem bbox_cm (k g n v : Nat) (b : List Byte) : (bbox k g n v b s).cm = s.cm := rfl
@[simp] theorem bbox_tenants (k g n v : Nat) (b : List Byte) : (bbox k g n v b s).tenants = s.tenants := rfl
@[simp] theorem bbox_mt (k g n v : Nat) (b : List Byte) : (bbox k g n v b s).mt = s.mt := rfl
@[simp] theorem bbox_arrays (k g n v : Nat) (b : List Byte) : (bbox k g n v b s).arrays = s.arrays := rfl
@[simp] theorem bbox_vols (k g n v : Nat) (b : List Byte) : (bbox k g n v b s).vols = s.vols := rfl
@[simp] theorem bbox_mb (k g n v : Nat) (b : List Byte) : (bbox k g n v b s).mb = s.mb := rfl
@[simp] theorem bbox_pc (k g n v : Nat) (b : List Byte) : (bbox k g n v b s).pc = s.pc := rfl
@[simp] theorem bbox_ms (k g n v : Nat) (b : List Byte) : (bbox k g n v b s).ms = s.ms := rfl
@[simp] theorem bbox_ls (k g n v : Nat) (b : List Byte) : (bbox k g n v b s).ls = s.ls := rfl
@[simp] theorem bbox_pr (k g n v : Nat) (b : List Byte) : (bbox k g n v b s).pr = s.pr := rfl
@[simp] theorem bbox_chans (k g n v : Nat) (b : List Byte) : (bbox k g n v b s).chans = s.chans := rfl
@[simp] theorem bbox_staging (k g n v : Nat) (b : List Byte) : (bbox k g n v b s).staging = s.staging := rfl
@[simp] theorem bbox_dc (k g n v : Nat) (b : List Byte) : (bbox k g n v b s).dc = s.dc := rfl
@[simp] theorem bbox_sb (k g n v : Nat) (b : List Byte) : (bbox k g n v b s).sb = s.sb := rfl
@[simp] theorem bbox_fw (k g n v : Nat) (b : List Byte) : (bbox k g n v b s).fw = s.fw := rfl
@[simp] theorem bbox_ident (k g n v : Nat) (b : List Byte) : (bbox k g n v b s).ident = s.ident := rfl
@[simp] theorem bbox_fh_src (k g n v : Nat) (b : List Byte) : (bbox k g n v b s).fh.src = s.fh.src := rfl
@[simp] theorem bbox_fh_first (k g n v : Nat) (b : List Byte) : (bbox k g n v b s).fh.first = s.fh.first := rfl
@[simp] theorem bbox_fh_ring (k g n v : Nat) (b : List Byte) : (bbox k g n v b s).fh.ring = s.fh.ring := rfl
@[simp] theorem bbox_fh_head (k g n v : Nat) (b : List Byte) : (bbox k g n v b s).fh.head = s.fh.head := rfl

/-! ### falferSend -/

@[simp] theorem falferSend_fresh (a : BitVec 128) (p k t r : Nat) (g : Word) (b : List Byte) : (falferSend a p k t r g b s).fresh = s.fresh := rfl
@[simp] theorem falferSend_vals (a : BitVec 128) (p k t r : Nat) (g : Word) (b : List Byte) : (falferSend a p k t r g b s).vals = s.vals := rfl
@[simp] theorem falferSend_pw (a : BitVec 128) (p k t r : Nat) (g : Word) (b : List Byte) : (falferSend a p k t r g b s).pw = s.pw := rfl
@[simp] theorem falferSend_tm (a : BitVec 128) (p k t r : Nat) (g : Word) (b : List Byte) : (falferSend a p k t r g b s).tm = s.tm := rfl
@[simp] theorem falferSend_fh (a : BitVec 128) (p k t r : Nat) (g : Word) (b : List Byte) : (falferSend a p k t r g b s).fh = s.fh := rfl
@[simp] theorem falferSend_ports (a : BitVec 128) (p k t r : Nat) (g : Word) (b : List Byte) : (falferSend a p k t r g b s).ports = s.ports := rfl
@[simp] theorem falferSend_fns (a : BitVec 128) (p k t r : Nat) (g : Word) (b : List Byte) : (falferSend a p k t r g b s).fns = s.fns := rfl
@[simp] theorem falferSend_cm (a : BitVec 128) (p k t r : Nat) (g : Word) (b : List Byte) : (falferSend a p k t r g b s).cm = s.cm := rfl
@[simp] theorem falferSend_tenants (a : BitVec 128) (p k t r : Nat) (g : Word) (b : List Byte) : (falferSend a p k t r g b s).tenants = s.tenants := rfl
@[simp] theorem falferSend_mt (a : BitVec 128) (p k t r : Nat) (g : Word) (b : List Byte) : (falferSend a p k t r g b s).mt = s.mt := rfl
@[simp] theorem falferSend_arrays (a : BitVec 128) (p k t r : Nat) (g : Word) (b : List Byte) : (falferSend a p k t r g b s).arrays = s.arrays := rfl
@[simp] theorem falferSend_vols (a : BitVec 128) (p k t r : Nat) (g : Word) (b : List Byte) : (falferSend a p k t r g b s).vols = s.vols := rfl
@[simp] theorem falferSend_mb (a : BitVec 128) (p k t r : Nat) (g : Word) (b : List Byte) : (falferSend a p k t r g b s).mb = s.mb := rfl
@[simp] theorem falferSend_pc (a : BitVec 128) (p k t r : Nat) (g : Word) (b : List Byte) : (falferSend a p k t r g b s).pc = s.pc := rfl
@[simp] theorem falferSend_ms (a : BitVec 128) (p k t r : Nat) (g : Word) (b : List Byte) : (falferSend a p k t r g b s).ms = s.ms := rfl
@[simp] theorem falferSend_ls (a : BitVec 128) (p k t r : Nat) (g : Word) (b : List Byte) : (falferSend a p k t r g b s).ls = s.ls := rfl
@[simp] theorem falferSend_pr (a : BitVec 128) (p k t r : Nat) (g : Word) (b : List Byte) : (falferSend a p k t r g b s).pr = s.pr := rfl
@[simp] theorem falferSend_chans (a : BitVec 128) (p k t r : Nat) (g : Word) (b : List Byte) : (falferSend a p k t r g b s).chans = s.chans := rfl
@[simp] theorem falferSend_staging (a : BitVec 128) (p k t r : Nat) (g : Word) (b : List Byte) : (falferSend a p k t r g b s).staging = s.staging := rfl
@[simp] theorem falferSend_dc (a : BitVec 128) (p k t r : Nat) (g : Word) (b : List Byte) : (falferSend a p k t r g b s).dc = s.dc := rfl
@[simp] theorem falferSend_fw (a : BitVec 128) (p k t r : Nat) (g : Word) (b : List Byte) : (falferSend a p k t r g b s).fw = s.fw := rfl
@[simp] theorem falferSend_ident (a : BitVec 128) (p k t r : Nat) (g : Word) (b : List Byte) : (falferSend a p k t r g b s).ident = s.ident := rfl
@[simp] theorem falferSend_sb_keys (a : BitVec 128) (p k t r : Nat) (g : Word) (b : List Byte) : (falferSend a p k t r g b s).sb.keys = s.sb.keys := rfl
@[simp] theorem falferSend_sb_seqIn (a : BitVec 128) (p k t r : Nat) (g : Word) (b : List Byte) : (falferSend a p k t r g b s).sb.seqIn = s.sb.seqIn := rfl
@[simp] theorem falferSend_sb_subs (a : BitVec 128) (p k t r : Nat) (g : Word) (b : List Byte) : (falferSend a p k t r g b s).sb.subs = s.sb.subs := rfl
@[simp] theorem falferSend_sb_dadConflict (a : BitVec 128) (p k t r : Nat) (g : Word) (b : List Byte) : (falferSend a p k t r g b s).sb.dadConflict = s.sb.dadConflict := rfl

@[simp] theorem emit_out (o : Out) : (emit o s).out = s.out ++ [o] := rfl
@[simp] theorem draw_fresh : s.draw.fresh = s.fresh + 1 := rfl
@[simp] theorem setTrans_trans (t : Option Transition) : (s.setTrans t).pw.trans = t := rfl
@[simp] theorem setTrans_mode (t : Option Transition) : (s.setTrans t).pw.mode = s.pw.mode := rfl
@[simp] theorem setMode0_mode (m : Option Mode) : (s.setMode0 m).pw.mode = m := rfl
@[simp] theorem setMode0_trans (m : Option Mode) : (s.setMode0 m).pw.trans = s.pw.trans := rfl

/-! ### A read after a write -/

@[simp] theorem fnS_setFn (f : Fn) (x : FnState) : (s.setFn f x).fnS f = x := tget_tset_same _ _ _ _
@[simp] theorem q_setQ (f : Fn) (n : Nat) (x : QState) : (s.setQ f n x).q f n = x := tget_tset_same _ _ _ _
@[simp] theorem port_setPort (n : Nat) (p : HostPort) : (s.setPort n p).port n = p := tget_tset_same _ _ _ _
@[simp] theorem src_setSrc (n : Nat) (x : FaultSrc) : (s.setSrc n x).src n = x := tget_tset_same _ _ _ _
@[simp] theorem ten_setTen (t : Nat) (x : Tenant) : (s.setTen t x).ten t = x := tget_tset_same _ _ _ _
@[simp] theorem arr_setArr (a : Nat) (x : Arr) : (s.setArr a x).arr? a = some x := tfind_tput_same _ _ _
@[simp] theorem vol_setVol (v : Nat) (x : Vol) : (s.setVol v x).vol? v = some x := tfind_tput_same _ _ _
@[simp] theorem mem_setMem (m : Nat) (x : Member) : (s.setMem m x).mem m = x := tget_tset_same _ _ _ _
@[simp] theorem lens_setLens (n : Nat) (x : Lens) : (s.setLens n x).lens n = x := tget_tset_same _ _ _ _
@[simp] theorem fe_setFe (n : Nat) (x : FrontEnd) : (s.setFe n x).fe n = x := tget_tset_same _ _ _ _
@[simp] theorem chan_setChan (n : Nat) (x : Chan) : (s.setChan n x).chan n = x := tget_tset_same _ _ _ _
@[simp] theorem slot_setSlot (n : Nat) (x : DictSlot) : (s.setSlot n x).slot n = x := tget_tset_same _ _ _ _
@[simp] theorem val_setVal (f i v : Nat) : (s.setVal f i v).val f i = v := tget_tset_same _ _ _ _

theorem ten_setTen_other {t u : Nat} (x : Tenant) (h : u ≠ t) : (s.setTen t x).ten u = s.ten u := tget_tset_other _ _ _ h
theorem arr_setArr_other {a b : Nat} (x : Arr) (h : b ≠ a) : (s.setArr a x).arr? b = s.arr? b := tfind_tput_other _ _ h
theorem vol_setVol_other {v w : Nat} (x : Vol) (h : w ≠ v) : (s.setVol v x).vol? w = s.vol? w := tfind_tput_other _ _ h
theorem mem_setMem_other {m n : Nat} (x : Member) (h : n ≠ m) : (s.setMem m x).mem n = s.mem n := tget_tset_other _ _ _ h
theorem lens_setLens_other {m n : Nat} (x : Lens) (h : n ≠ m) : (s.setLens m x).lens n = s.lens n := tget_tset_other _ _ _ h
theorem fe_setFe_other {m n : Nat} (x : FrontEnd) (h : n ≠ m) : (s.setFe m x).fe n = s.fe n := tget_tset_other _ _ _ h
theorem chan_setChan_other {m n : Nat} (x : Chan) (h : n ≠ m) : (s.setChan m x).chan n = s.chan n := tget_tset_other _ _ _ h
theorem src_setSrc_other {m n : Nat} (x : FaultSrc) (h : n ≠ m) : (s.setSrc m x).src n = s.src n := tget_tset_other _ _ _ h
theorem slot_setSlot_other {m n : Nat} (x : DictSlot) (h : n ≠ m) : (s.setSlot m x).slot n = s.slot n := tget_tset_other _ _ _ h
theorem port_setPort_other {m n : Nat} (x : HostPort) (h : n ≠ m) : (s.setPort m x).port n = s.port n := tget_tset_other _ _ _ h
theorem fnS_setFn_other {f g : Fn} (x : FnState) (h : packFn g ≠ packFn f) : (s.setFn f x).fnS g = s.fnS g := tget_tset_other _ _ _ h
theorem q_setQ_other {f g : Fn} {n m : Nat} (x : QState) (h : qKey g m ≠ qKey f n) : (s.setQ f n x).q g m = s.q g m := tget_tset_other _ _ _ h

theorem val_setVal_other {f i g j : Nat} (v : Nat) (h : valKey g j ≠ valKey f i) : (s.setVal f i v).val g j = s.val g j := by
  have h2 (d : Nat) : tget (tset s.vals (valKey f i) v (valDefault f i)) (valKey g j) d = tget s.vals (valKey g j) d := by
    rw [tget_eq_tfind, tget_eq_tfind]
    unfold tset
    by_cases hv : v = valDefault f i
    · simp [hv, tfind_tdel_other _ h]
    · simp [hv, tfind_tins _ _ _ _ (tfind_tdel_same _ _), h, tfind_tdel_other _ h]
  exact h2 _

/-- An object of another family. -/
@[simp] theorem val_setVal_family {f i g j : Nat} (v : Nat) (hf : f < 512) (hg : g < 512) (h : g ≠ f) :
    (s.setVal f i v).val g j = s.val g j :=
  val_setVal_other s v (by rw [Ne, valKey_inj hg hf]; exact fun e => h e.1)

/-! ### Two writes of one place -/

@[simp] theorem setFn_setFn (f : Fn) (x y : FnState) : (s.setFn f x).setFn f y = s.setFn f y := by
  simp [Dev.setFn]
@[simp] theorem setQ_setQ (f : Fn) (n : Nat) (x y : QState) : (s.setQ f n x).setQ f n y = s.setQ f n y := by
  simp [Dev.setQ]
@[simp] theorem setTen_setTen (t : Nat) (x y : Tenant) : (s.setTen t x).setTen t y = s.setTen t y := by
  simp [Dev.setTen]
@[simp] theorem setMem_setMem (m : Nat) (x y : Member) : (s.setMem m x).setMem m y = s.setMem m y := by
  simp [Dev.setMem]
@[simp] theorem setLens_setLens (n : Nat) (x y : Lens) : (s.setLens n x).setLens n y = s.setLens n y := by
  simp [Dev.setLens]
@[simp] theorem setFe_setFe (n : Nat) (x y : FrontEnd) : (s.setFe n x).setFe n y = s.setFe n y := by
  simp [Dev.setFe]
@[simp] theorem setChan_setChan (n : Nat) (x y : Chan) : (s.setChan n x).setChan n y = s.setChan n y := by
  simp [Dev.setChan]
@[simp] theorem setSrc_setSrc (n : Nat) (x y : FaultSrc) : (s.setSrc n x).setSrc n y = s.setSrc n y := by
  simp [Dev.setSrc]
@[simp] theorem setPort_setPort (n : Nat) (x y : HostPort) : (s.setPort n x).setPort n y = s.setPort n y := by
  simp [Dev.setPort]
@[simp] theorem setArr_setArr (a : Nat) (x y : Arr) : (s.setArr a x).setArr a y = s.setArr a y := by
  simp [Dev.setArr]
@[simp] theorem setVol_setVol (v : Nat) (x y : Vol) : (s.setVol v x).setVol v y = s.setVol v y := by
  simp [Dev.setVol]

/-! ### Counters -/

/-- An addition changes that object and, past its width, draws a free value. -/
theorem addVal_cases (f i n : Nat) :
    (s.val f i + n < 2 ^ (famRow f).ty.bits ∧ s.addVal f i n = s.setVal f i (s.val f i + n))
    ∨ (2 ^ (famRow f).ty.bits ≤ s.val f i + n
      ∧ s.addVal f i n = (s.setVal f i (Config.freeNat s.fresh % 2 ^ (famRow f).ty.bits)).draw) := by
  unfold Dev.addVal
  by_cases h : s.val f i + n < 2 ^ (famRow f).ty.bits
  · exact .inl ⟨h, by simp [h]⟩
  · exact .inr ⟨Nat.le_of_not_lt h, by simp [h]⟩

@[simp] theorem addVal_out (f i n : Nat) : (s.addVal f i n).out = s.out := by
  rcases addVal_cases s f i n with ⟨-, h⟩ | ⟨-, h⟩ <;> rw [h] <;> rfl
@[simp] theorem addVal_pw (f i n : Nat) : (s.addVal f i n).pw = s.pw := by
  rcases addVal_cases s f i n with ⟨-, h⟩ | ⟨-, h⟩ <;> rw [h] <;> rfl
@[simp] theorem addVal_tm (f i n : Nat) : (s.addVal f i n).tm = s.tm := by
  rcases addVal_cases s f i n with ⟨-, h⟩ | ⟨-, h⟩ <;> rw [h] <;> rfl
@[simp] theorem addVal_fh (f i n : Nat) : (s.addVal f i n).fh = s.fh := by
  rcases addVal_cases s f i n with ⟨-, h⟩ | ⟨-, h⟩ <;> rw [h] <;> rfl
@[simp] theorem addVal_ports (f i n : Nat) : (s.addVal f i n).ports = s.ports := by
  rcases addVal_cases s f i n with ⟨-, h⟩ | ⟨-, h⟩ <;> rw [h] <;> rfl
@[simp] theorem addVal_fns (f i n : Nat) : (s.addVal f i n).fns = s.fns := by
  rcases addVal_cases s f i n with ⟨-, h⟩ | ⟨-, h⟩ <;> rw [h] <;> rfl
@[simp] theorem addVal_cm (f i n : Nat) : (s.addVal f i n).cm = s.cm := by
  rcases addVal_cases s f i n with ⟨-, h⟩ | ⟨-, h⟩ <;> rw [h] <;> rfl
@[simp] theorem addVal_tenants (f i n : Nat) : (s.addVal f i n).tenants = s.tenants := by
  rcases addVal_cases s f i n with ⟨-, h⟩ | ⟨-, h⟩ <;> rw [h] <;> rfl
@[simp] theorem addVal_mt (f i n : Nat) : (s.addVal f i n).mt = s.mt := by
  rcases addVal_cases s f i n with ⟨-, h⟩ | ⟨-, h⟩ <;> rw [h] <;> rfl
@[simp] theorem addVal_arrays (f i n : Nat) : (s.addVal f i n).arrays = s.arrays := by
  rcases addVal_cases s f i n with ⟨-, h⟩ | ⟨-, h⟩ <;> rw [h] <;> rfl
@[simp] theorem addVal_vols (f i n : Nat) : (s.addVal f i n).vols = s.vols := by
  rcases addVal_cases s f i n with ⟨-, h⟩ | ⟨-, h⟩ <;> rw [h] <;> rfl
@[simp] theorem addVal_mb (f i n : Nat) : (s.addVal f i n).mb = s.mb := by
  rcases addVal_cases s f i n with ⟨-, h⟩ | ⟨-, h⟩ <;> rw [h] <;> rfl
@[simp] theorem addVal_pc (f i n : Nat) : (s.addVal f i n).pc = s.pc := by
  rcases addVal_cases s f i n with ⟨-, h⟩ | ⟨-, h⟩ <;> rw [h] <;> rfl
@[simp] theorem addVal_ms (f i n : Nat) : (s.addVal f i n).ms = s.ms := by
  rcases addVal_cases s f i n with ⟨-, h⟩ | ⟨-, h⟩ <;> rw [h] <;> rfl
@[simp] theorem addVal_ls (f i n : Nat) : (s.addVal f i n).ls = s.ls := by
  rcases addVal_cases s f i n with ⟨-, h⟩ | ⟨-, h⟩ <;> rw [h] <;> rfl
@[simp] theorem addVal_pr (f i n : Nat) : (s.addVal f i n).pr = s.pr := by
  rcases addVal_cases s f i n with ⟨-, h⟩ | ⟨-, h⟩ <;> rw [h] <;> rfl
@[simp] theorem addVal_chans (f i n : Nat) : (s.addVal f i n).chans = s.chans := by
  rcases addVal_cases s f i n with ⟨-, h⟩ | ⟨-, h⟩ <;> rw [h] <;> rfl
@[simp] theorem addVal_staging (f i n : Nat) : (s.addVal f i n).staging = s.staging := by
  rcases addVal_cases s f i n with ⟨-, h⟩ | ⟨-, h⟩ <;> rw [h] <;> rfl
@[simp] theorem addVal_dc (f i n : Nat) : (s.addVal f i n).dc = s.dc := by
  rcases addVal_cases s f i n with ⟨-, h⟩ | ⟨-, h⟩ <;> rw [h] <;> rfl
@[simp] theorem addVal_sb (f i n : Nat) : (s.addVal f i n).sb = s.sb := by
  rcases addVal_cases s f i n with ⟨-, h⟩ | ⟨-, h⟩ <;> rw [h] <;> rfl
@[simp] theorem addVal_fw (f i n : Nat) : (s.addVal f i n).fw = s.fw := by
  rcases addVal_cases s f i n with ⟨-, h⟩ | ⟨-, h⟩ <;> rw [h] <;> rfl
@[simp] theorem addVal_ident (f i n : Nat) : (s.addVal f i n).ident = s.ident := by
  rcases addVal_cases s f i n with ⟨-, h⟩ | ⟨-, h⟩ <;> rw [h] <;> rfl
@[simp] theorem bump_out (f i : Nat) : (s.bump f i).out = s.out := addVal_out s f i 1
@[simp] theorem bump_pw (f i : Nat) : (s.bump f i).pw = s.pw := addVal_pw s f i 1
@[simp] theorem bump_tm (f i : Nat) : (s.bump f i).tm = s.tm := addVal_tm s f i 1
@[simp] theorem bump_fh (f i : Nat) : (s.bump f i).fh = s.fh := addVal_fh s f i 1
@[simp] theorem bump_ports (f i : Nat) : (s.bump f i).ports = s.ports := addVal_ports s f i 1
@[simp] theorem bump_fns (f i : Nat) : (s.bump f i).fns = s.fns := addVal_fns s f i 1
@[simp] theorem bump_cm (f i : Nat) : (s.bump f i).cm = s.cm := addVal_cm s f i 1
@[simp] theorem bump_tenants (f i : Nat) : (s.bump f i).tenants = s.tenants := addVal_tenants s f i 1
@[simp] theorem bump_mt (f i : Nat) : (s.bump f i).mt = s.mt := addVal_mt s f i 1
@[simp] theorem bump_arrays (f i : Nat) : (s.bump f i).arrays = s.arrays := addVal_arrays s f i 1
@[simp] theorem bump_vols (f i : Nat) : (s.bump f i).vols = s.vols := addVal_vols s f i 1
@[simp] theorem bump_mb (f i : Nat) : (s.bump f i).mb = s.mb := addVal_mb s f i 1
@[simp] theorem bump_pc (f i : Nat) : (s.bump f i).pc = s.pc := addVal_pc s f i 1
@[simp] theorem bump_ms (f i : Nat) : (s.bump f i).ms = s.ms := addVal_ms s f i 1
@[simp] theorem bump_ls (f i : Nat) : (s.bump f i).ls = s.ls := addVal_ls s f i 1
@[simp] theorem bump_pr (f i : Nat) : (s.bump f i).pr = s.pr := addVal_pr s f i 1
@[simp] theorem bump_chans (f i : Nat) : (s.bump f i).chans = s.chans := addVal_chans s f i 1
@[simp] theorem bump_staging (f i : Nat) : (s.bump f i).staging = s.staging := addVal_staging s f i 1
@[simp] theorem bump_dc (f i : Nat) : (s.bump f i).dc = s.dc := addVal_dc s f i 1
@[simp] theorem bump_sb (f i : Nat) : (s.bump f i).sb = s.sb := addVal_sb s f i 1
@[simp] theorem bump_fw (f i : Nat) : (s.bump f i).fw = s.fw := addVal_fw s f i 1
@[simp] theorem bump_ident (f i : Nat) : (s.bump f i).ident = s.ident := addVal_ident s f i 1

theorem val_addVal_other {f i g j : Nat} (n : Nat) (h : valKey g j ≠ valKey f i) : (s.addVal f i n).val g j = s.val g j := by
  rcases addVal_cases s f i n with ⟨-, e⟩ | ⟨-, e⟩ <;> rw [e]
  · exact val_setVal_other s _ h
  · exact val_setVal_other s _ h

/-- A counter within its width counts. -/
theorem val_bump {f i : Nat} (h : s.val f i + 1 < 2 ^ (famRow f).ty.bits) : (s.bump f i).val f i = s.val f i + 1 := by
  rcases addVal_cases s f i 1 with ⟨-, e⟩ | ⟨h2, -⟩
  · unfold Dev.bump; rw [e]; simp
  · omega

end Sys2Proof.Machine
end

