-- ==== Sys2Proof/Laws/Ops.lean ====
section
/-!
SUPPORT. Shared operations: what a step and exec can do, what a dictionary write, a host access, a command of a host and a Falfer
request can do, and what the operations of the hub, the summary page and the Lens channels leave alone.
-/

namespace Sys2Proof.Machine

/-! ### Steps -/

theorem onDev_eq (s : State) (k : Dev → Dev) : onDev s k = .next { s with dev := k s.dev } := rfl

/-- A command whose meaning is `k` on the device runs to `d` when `k` gives `d`. -/
theorem runs_of_onDev {c : Instr} {s : State} {k : Dev → Dev} {d : Dev} (h : exec c s = onDev s k) (e : k s.dev = d) :
    exec c s = .next { s with dev := d } := by
  rw [h, onDev_eq, e]

theorem ends_of_onDev {c : Instr} {s : State} {k : Dev → Dev} {P : Dev → Prop} (h : exec c s = onDev s k) (e : P (k s.dev)) :
    ∃ d, exec c s = .next { s with dev := d } ∧ P d := ⟨k s.dev, runs_of_onDev h rfl, e⟩

theorem step_nil {s : State} (h : s.pending = []) : step s = .next { s with dev := tick s.dev } := by simp [step, h]

theorem step_cons {s : State} {c : Instr} {r : List Instr} (h : s.pending = c :: r) : step s = exec c { s with pending := r } := by
  simp [step, h, State.rest]

/-! ### Folds that leave a part of the device alone -/

theorem foldl_keeps {β γ : Type} (p : Dev → γ) (g : Dev → β → Dev) (h : ∀ d b, p (g d b) = p d) (l : List β) (d : Dev) :
    p (l.foldl g d) = p d := by
  induction l generalizing d with
  | nil => rfl
  | cons b r ih => rw [List.foldl_cons, ih, h]

theorem foldl_invariant {β : Type} (P : Dev → Prop) (g : Dev → β → Dev) (h : ∀ d b, P d → P (g d b)) (l : List β) {d : Dev}
    (hd : P d) : P (l.foldl g d) := by
  induction l generalizing d with
  | nil => exact hd
  | cons b r ih => exact ih (h _ _ hd)

/-! ### Dictionary writes (R430) -/

theorem guardedWrite_down {s : Dev} {who : Master} {f i : Nat} (r : Dev → Nat) (k : Dev → Dev) (h : masterUp s who = false) :
    guardedWrite who f i r k s = s := by simp [guardedWrite, h]

theorem guardedWrite_barred {s : Dev} {who : Master} {f i : Nat} (r : Dev → Nat) (k : Dev → Dev) (h : masterUp s who = true)
    (t : writeTest s who f i (famRow f).length ≠ 0) :
    guardedWrite who f i r k s = emit (.dict who (writeTest s who f i (famRow f).length) []) (refuseWrite s) := by
  simp [guardedWrite, h, t, writeResult]

theorem guardedWrite_refused {s : Dev} {who : Master} {f i : Nat} {r : Dev → Nat} (k : Dev → Dev) (h : s.accepts who f i) (t : r s ≠ 0) :
    guardedWrite who f i r k s = emit (.dict who (r s) []) (refuseWrite s) := by
  simp [guardedWrite, h.1, h.2, t, writeResult]

theorem guardedWrite_accepted {s : Dev} {who : Master} {f i : Nat} {r : Dev → Nat} (k : Dev → Dev) (h : s.accepts who f i) (t : r s = 0) :
    guardedWrite who f i r k s = shown who (k s) := by
  simp [guardedWrite, h.1, h.2, t, writeResult, shown]

/-- A refused write changes one counter and, past its width, draws. -/
theorem refuseWrite_eq (s : Dev) :
    refuseWrite s = { s with vals := (refuseWrite s).vals, fresh := (refuseWrite s).fresh } := by
  unfold refuseWrite Dev.bump
  rcases addVal_cases s Fam.dictRefusedWrites 0 1 with ⟨-, e⟩ | ⟨-, e⟩ <;> rw [e] <;> rfl

theorem val_refuseWrite_other (s : Dev) {f i : Nat} (h : valKey f i ≠ valKey Fam.dictRefusedWrites 0) :
    (refuseWrite s).val f i = s.val f i := val_addVal_other s 1 h

/-! ### Accesses and commands of a host -/

theorem hostAccess_reaches {s : Dev} {r : Req} (k : Dev → Dev) (h : s.reaches r) : hostAccess r k s = k s := by
  simp [hostAccess, h.1, h.2]

theorem boundAccess_reaches {s : Dev} {r : Req} (k : Dev → Dev) (h : s.reaches r) (u : unbound s r.toFn = false) :
    boundAccess r k s = k s := by simp [boundAccess, hostAccess_reaches _ h, u]

theorem boundAccess_unbound {s : Dev} {r : Req} (k : Dev → Dev) (h : s.reaches r) (u : unbound s r.toFn = true) :
    boundAccess r k s = s := by simp [boundAccess, hostAccess_reaches _ h, u]

theorem withAdmin_starts {s : Dev} {op : Nat} {c : Ctx} {sel : BitVec 512 → Bool} (k : Ctx → Dev → Dev) (h : s.adminNext op c)
    (hs : sel c.raw = true) : withAdmin op sel k s = k c (s.starts c) := by
  obtain ⟨h1, h2, h3, h4, h5, h6⟩ := h
  simp [withAdmin, h1, h2, h3, h4, h5, h6, hs, Dev.starts]

theorem withAdmin_held {s : Dev} (op : Nat) (sel : BitVec 512 → Bool) (k : Ctx → Dev → Dev) (h : s.hostRuns = false) :
    withAdmin op sel k s = s := by
  unfold withAdmin
  split <;> simp [h]

theorem withCmd_starts {s : Dev} {id op : Nat} {c : Ctx} {sel : BitVec 512 → Bool} (k : Ctx → Dev → Dev) (h : s.cmdNext id op c)
    (hs : sel c.raw = true) : withCmd id op sel k s = k (s.startedCtx c) (s.startsCmd c id) := by
  obtain ⟨h1, h2, h3, h4, h5, h6, h7, h8⟩ := h
  have ht : laneTurn c s = some (s.inTurn c) := by
    obtain ⟨d, e⟩ := Option.isSome_iff_exists.mp h8
    simp [Dev.inTurn, e]
  simp only [withCmd, h1, h2, h3, h4, h5, h6, h7, hs, ht]
  simp [Dev.startedCtx, Dev.startsCmd, Dev.keysNow, h3, h4]

/-- A command whose volume is being deleted is outstanding, and starts (R228). -/
theorem recheck_deleting {s : Dev} {c : Ctx} (h : checkState s c.fn c.raw = some (0x05, 0x15, 0)) : recheck s c = none := by
  simp [recheck, h]

theorem withCmd_held {s : Dev} (id op : Nat) (sel : BitVec 512 → Bool) (k : Ctx → Dev → Dev) (h : s.hostRuns = false) :
    withCmd id op sel k s = s := by
  unfold withCmd
  split <;> simp [h]

theorem falfer_heard {s : Dev} {m : FalferMsg} {type : Nat} {b : List Byte} (k : Dev → Dev) (h : s.heard m type b) :
    falfer m type b k s = k (s.noted m) := by
  simp [falfer, h.1, h.2.1, h.2.2, Dev.noted]

/-! ### The summary page, messages and the hub: what they leave alone -/

@[simp] theorem falferSend_sb_subs' (s : Dev) (a : BitVec 128) (p k t r : Nat) (g : Word) (b : List Byte) :
    (falferSend a p k t r g b s).sb.subs = s.sb.subs := rfl

theorem notice_pw (s : Dev) (k : Nat) (v : Option Nat) (b : List Byte) : (notice k v b s).pw = s.pw := by
  unfold notice
  exact foldl_keeps (·.pw) _ (fun d x => by
    show (if (_ : Bool) = true then _ else _ : Dev).pw = _
    exact (apply_ite Dev.pw _ _ _).trans (by simp)) _ _

@[simp] theorem sendMsix_pw (s : Dev) (f : Fn) (v : Nat) : (sendMsix f v s).pw = s.pw := rfl

theorem raiseVector_pw (s : Dev) (f : Fn) (v : Nat) : (raiseVector f v s).pw = s.pw := by
  unfold raiseVector
  split <;> simp

theorem latchEvent_pw (s : Dev) (f : Fn) (n : Nat) : (latchEvent f n s).pw = s.pw := by
  unfold latchEvent
  dsimp only
  split <;> simp [raiseVector_pw]

theorem setSummary_pw (s : Dev) (n : Nat) (v : Bool) (f : Fn) : (setSummary n v s f).pw = s.pw := by
  unfold setSummary
  dsimp only
  split <;> simp [latchEvent_pw]

theorem latchModeBits_pw (s : Dev) (o n : Nat) (f : Fn) : (latchModeBits o n s f).pw = s.pw := by
  unfold latchModeBits
  exact foldl_keeps (·.pw) _ (fun d x => by split <;> simp [latchEvent_pw]) _ _

theorem flushPba_pw (s : Dev) (f : Fn) : (flushPba f s).pw = s.pw := by
  unfold flushPba
  exact foldl_keeps (·.pw) _ (fun d x => by split <;> simp) _ _

/-- A mode change leaves the device in the mode, and changes nothing else of the power state. -/
theorem changeMode_pw (s : Dev) (m : Mode) (t n v : Nat) : (changeMode m t n v s).pw = { s.pw with mode := some m } := by
  unfold changeMode
  split
  · rfl
  · rename_i o ho
    split
    · rename_i e; rw [← e, ← ho]
    · have f1 (l : List Fn) (d : Dev) : (l.foldl (fun s f => flushPba f s) d).pw = d.pw :=
        foldl_keeps (·.pw) _ (fun d f => flushPba_pw d f) l d
      have f2 (b : Bool) (l : List Fn) (d : Dev) : (l.foldl (setSummary 0 b) d).pw = d.pw :=
        foldl_keeps (·.pw) _ (fun d f => setSummary_pw d 0 b f) l d
      have f3 (l : List Fn) (d : Dev) : (l.foldl (latchModeBits o.code m.code) d).pw = d.pw :=
        foldl_keeps (·.pw) _ (fun d f => latchModeBits_pw d _ _ f) l d
      dsimp only
      repeat' split
      all_goals
        simp only [f1, f2, f3, emit_pw, notice_pw, bbox_pw, bump_pw]
        rfl

theorem hubFall_keeps (s : Dev) (n : Nat) : hubFall n s = { s with fh := (hubFall n s).fh } := by
  unfold hubFall
  dsimp only
  split <;> rfl

theorem lensFrame_keeps (s : Dev) (n : Nat) (b : List DownBlock) :
    lensFrame n b s = { s with ls := { s.ls with chan := (lensFrame n b s).ls.chan }, out := (lensFrame n b s).out } := rfl

theorem lensFrame_lens (s : Dev) (n : Nat) (b : List DownBlock) :
    (lensFrame n b s).lens n = { s.lens n with txSeq := ((s.lens n).txSeq + 1) % 256 } := by
  unfold lensFrame
  show (s.setLens n _).lens n = _
  simp

theorem lensCmd_keeps (s : Dev) (n op : Nat) (v : BitVec 44) :
    lensCmd n op v s = { s with ls := { s.ls with chan := (lensCmd n op v s).ls.chan }, out := (lensCmd n op v s).out } := rfl

theorem lensCmd_lens (s : Dev) (n op : Nat) (v : BitVec 44) :
    (lensCmd n op v s).lens n = { s.lens n with
      nextTag := ((s.lens n).nextTag + 1) % 256, waiting := (s.lens n).waiting ++ [((s.lens n).nextTag, op)]
      txSeq := ((s.lens n).txSeq + 1) % 256 } := by
  unfold lensCmd
  rw [lensFrame_lens]
  simp

end Sys2Proof.Machine
end

