-- ==== Sys2Proof/Machine/HostReads.lean ====
section
/-!
DEFINITION. What a host reads: the identity and the capabilities of a function in configuration space (R41, R44, R51), the pages of
BAR0 (R51 to R54, R69, R392, R402) and BAR2 (R431, R433, R434). A read changes nothing.
-/

namespace Sys2Proof.Machine

/-! ### Configuration space -/

/-- Table 2.2. A VF shows its vendor and device through the SR-IOV capability. -/
structure PciIdentity where
  vendor : Nat
  device : Nat
  classCode : Nat
  revision : Nat
  subsysVendor : Nat
  subsysId : Nat
  deriving DecidableEq, Repr

/-- R44. Class 0x01, subclass 0x80, programming interface 0x00. -/
def pciIdentity (s : Dev) (f : Fn) : PciIdentity :=
  { vendor := 0x1F6A, device := if f.fn = 0 then 0x7160 else 0x7161, classCode := 0x018000, revision := s.ident.stepping
    subsysVendor := (s.port f.port).subsysVendor, subsysId := (s.port f.port).subsysId }

/-- The capabilities of Table 2.1. No other is in the list of a function: ATS, PRI, PASID, CXL, TPH, LTR, PTM, L1 PM substates, resizable
BAR, expansion ROM and MSI are absent. -/
inductive Capability where
  /-- Highest speed and width, largest payload and read request in bytes, outstanding non-posted requests, FLR, ASPM L1 and L0s, and the
  completion-timeout ranges A to D in bits 0 to 3. -/
  | pciExpress (speed width payload readRequest outstanding : Nat) (flr aspmL1 aspmL0s : Bool) (timeoutRanges : Nat)
  | msix (vectors : Nat)
  /-- With header log, ECRC generation and checking. -/
  | aer (headerLog ecrc : Bool)
  | ari
  /-- With the two dwords of VF BAR0 as they read. -/
  | sriov (totalVfs initialVfs firstOffset stride vfDevice vfBar0 vfBar1 : Nat)
  /-- Link stream, selective streams, and the routing-ID and address ranges of each. -/
  | ide (linkStreams selective ridRanges addrRanges : Nat)
  /-- Discovery, CMA/SPDM and secured CMA/SPDM. -/
  | doe
  deriving DecidableEq, Repr

/-- VF BAR `n` of the SR-IOV capability (R51): VF BAR0 is 64-bit and not prefetchable, the others are not implemented. -/
def vfBarRead (s : Dev) (f : Fn) (n : Nat) : Nat :=
  let b := (s.fnS f).cfg.vfBar0.toNat
  if f.fn ≠ 0 then 0 else match n with | 0 => b % 2 ^ 32 + 4 | 1 => b / 2 ^ 32 | _ => 0

/-- R41, Table 2.1. IDE, DOE and SR-IOV are the PF's; InitialVFs and TotalVFs are as the port advertises them (R66). -/
def capabilities (s : Dev) (f : Fn) : List Capability :=
  let common : List Capability := [.pciExpress 5 4 512 4096 768 true true false 14, .msix (vectorCount f), .aer true true, .ari]
  let n := (s.port f.port).totalVfs
  if f.fn = 0 then common ++ [.sriov n n 1 1 0x7161 (vfBarRead s f 0) (vfBarRead s f 1), .ide 1 16 1 2, .doe] else common

/-- Completion-timeout value used, ms: 40 ms when 0000b is programmed; of another range its upper end (Table 2.1). -/
def timeoutMs (s : Dev) (f : Fn) : Nat :=
  match (s.fnS f).cfg.deviceControl2.toNat % 16 with
  | 5 => 55 | 6 => 210 | 9 => 900 | 10 => 3500 | 13 => 13000 | 14 => 64000 | _ => 40

/-- Payload size and read-request size in force, bytes. -/
def maxPayload (s : Dev) (f : Fn) : Nat := 128 * 2 ^ ((s.fnS f).cfg.deviceControl.toNat / 32 % 8)
def maxReadRequest (s : Dev) (f : Fn) : Nat := 128 * 2 ^ ((s.fnS f).cfg.deviceControl.toNat / 4096 % 8)

/-- BAR `n` as configuration space shows it (R51): type bits 3:0 are 0x4, 64-bit and not prefetchable; a BAR not implemented reads 0. -/
def barRead (s : Dev) (f : Fn) (n : Nat) : Nat :=
  let c := (s.fnS f).cfg
  if f.fn ≠ 0 then 0
  else match n with
    | 0 => c.bar0.toNat % 2 ^ 32 + 4
    | 1 => c.bar0.toNat / 2 ^ 32
    | 2 => if s.isAdmin f then c.bar2.toNat % 2 ^ 32 + 4 else 0
    | 3 => if s.isAdmin f then c.bar2.toNat / 2 ^ 32 else 0
    | _ => 0

/-- R51: where BAR0 of a function stands in memory space; the VFs' follow one another. -/
def bar0Base (s : Dev) (f : Fn) : Nat :=
  let c := (s.fnS ⟨f.port, 0⟩).cfg
  if f.fn = 0 then c.bar0.toNat else c.vfBar0.toNat + (f.fn - 1) * vfBar0Size

/-! ### BAR0 -/

/-- A field put at an offset of a page. -/
def putField (page : List Byte) (off n v : Nat) : List Byte := page.take off ++ le n v ++ page.drop (off + n)

/-- `n` bytes of a page at an offset; past its end 0. -/
def pageBytesAt (page : List Byte) (off n : Nat) : List Byte := fitBytes n (page.drop off)

/-- Table 2.5. -/
def identityPage (s : Dev) (f : Fn) : List Byte :=
  let i := pciIdentity s f
  let x := s.fnS f
  let admin := s.isAdmin f
  le 2 i.vendor ++ le 2 i.device ++ le 1 (if admin then 0 else if f.fn = 0 then 1 else 2) ++ le 1 f.port ++ le 1 f.fn ++ le 1 1
    ++ le 2 (if admin then 0xFFFE else x.bound.getD 0xFFFF) ++ le 2 (queueLimit f)
    ++ le 2 (if admin then 1024 else x.quota) ++ le 2 (vectorCount f)
    ++ le 4 (1 + 2 * b2n (chanOf s f).isSome + 4 * b2n admin + 8 * b2n (!admin && s.flag Fam.hostIdeRequired))
    ++ List.replicate 4 0 ++ le 8 s.fw.version.toNat ++ le 4 64 ++ le 4 512 ++ le 8 s.ident.serial.toNat

/-- Bit numbers as a map of `n` bytes. -/
def bitMap (n : Nat) (l : List Nat) : List Byte :=
  (List.range n).map fun b => BitVec.ofNat 8 ((List.range 8).map fun i => b2n (l.contains (8 * b + i)) * 2 ^ i).sum

/-- Table 2.6. -/
def summaryPage (s : Dev) (f : Fn) : List Byte :=
  let x := s.fnS f
  le 4 (x.summary.toNat + 2 ^ 16 * (s.pw.mode.map Mode.code).getD 0) ++ le 4 x.events.toNat ++ le 4 x.eventVector
    ++ List.replicate 52 0 ++ bitMap 128 x.queueErr

/-- Table 14.1. -/
def channelPage (s : Dev) (f : Fn) : List Byte :=
  match chanOf s f with
  | none => List.replicate 40 0
  | some c =>
    let x := s.chan c
    le 8 x.base.toNat ++ le 4 x.depthM1 ++ le 4 x.tail ++ le 4 x.head ++ le 4 (2 ^ 31 * b2n x.irqEn + x.vector)
      ++ List.replicate 12 0 ++ le 4 (x.hops * 65536 + x.st)

/-- Tables 14.5 and 14.1. -/
def mailboxPage (s : Dev) (f : Fn) : List Byte :=
  let x := s.fnS f
  let first := x.rx.head?
  let regs := List.replicate 8 0 ++ le 4 (x.tx.length + 16 * b2n (x.tx.length == 8)) ++ le 4 x.txMask.toNat ++ le 4 x.txDoorbell.toNat
    ++ le 4 0 ++ le 8 ((first.map (·.1.toNat)).getD 0) ++ le 4 ((first.map fun e => 2 ^ 31 + e.2.toNat).getD 0) ++ le 4 x.rx.length
    ++ le 4 0 ++ le 4 x.rxDoorbell.toNat ++ le 4 x.rxMask.toNat
  fitBytes 256 regs ++ channelPage s f

/-- Codes of sq_state and cq_state. -/
def SqState.code : SqState → Nat
  | .absent => 0 | .active => 1 | .stopped => 2 | .draining => 3

def CqState.code : CqState → Nat
  | .absent => 0 | .active => 1 | .stalled => 2

/-- Table 3.1. -/
def queuePage (s : Dev) (f : Fn) (q : Nat) : List Byte :=
  let x := s.q f q
  le 4 x.sqTail ++ le 4 x.cqHead ++ le 8 x.sqBase.toNat ++ le 8 x.cqBase.toNat ++ le 4 (x.sqDepthM1 * 65536 + x.cqDepthM1)
    ++ le 4 (2 ^ 31 * b2n x.inlineEn + 2 ^ 30 * b2n x.irqEn + 2 ^ 20 * x.boundCq + 2 ^ 8 * x.vector)
    ++ le 4 (x.coalTime * 256 + x.coalCount) ++ le 4 0
    ++ le 4 (x.setupResult * 2 ^ 24 + x.sqState.code * 2 ^ 16 + x.cqState.code * 2 ^ 12 + x.overflow.length * 2 ^ 6)
    ++ le 4 x.sqHead ++ le 4 x.cqTail ++ List.replicate 12 0

/-- One dword of the MSI-X table: address, data, and the mask bit. -/
def msixRead (s : Dev) (f : Fn) (n : Nat) : Nat :=
  let x := s.fnS f
  if n % 4 = 3 then b2n (!x.unmasked.contains (n / 4)) else tget x.msixTable n 0

/-- A read of BAR0 (R52): reserved offsets and the inline windows return 0, and so does all but the identity and summary pages of an
unbound function (R48). -/
def bar0Read (s : Dev) (f : Fn) (off n : Nat) : List Byte :=
  if off < 0x1000 then pageBytesAt (identityPage s f) off n
  else if off < 0x2000 then pageBytesAt (summaryPage s f) (off - 0x1000) n
  else if unbound s f then List.replicate n 0
  else if off < 0x3000 then pageBytesAt (mailboxPage s f) (off - 0x2000) n
  else if queuePages f ≤ off ∧ off < queuePages f + 64 * queueLimit f then
    pageBytesAt (queuePage s f ((off - queuePages f) / 64)) ((off - queuePages f) % 64) n
  else if msixTablePage f ≤ off ∧ off < msixTablePage f + 16 * vectorCount f then
    fitBytes n (le 4 (msixRead s f ((off - msixTablePage f) / 4)) ++ le 4 (msixRead s f ((off - msixTablePage f) / 4 + 1)))
  else if pendingBits f ≤ off ∧ off < pendingBits f + vectorCount f / 8 then
    pageBytesAt (bitMap (vectorCount f / 8) (s.fnS f).pba) (off - pendingBits f) n
  else List.replicate n 0

/-! ### BAR2 (Tables 16.3 to 16.5) -/

/-- Codes of Table 16.3. -/
def Ty.code : Ty → Nat
  | .bool => 0 | .u8 => 1 | .u16 => 2 | .u32 => 3 | .u64 => 4 | .i16 => 5 | .i32 => 6 | .str32 => 7 | .blob => 8 | .record => 9

def Access.code : Access → Nat
  | .RO => 0 | .RW => 1 | .RWS => 2 | .WO => 3 | .W1C => 4 | .W1S => 5 | .CMD => 6

/-- R431: the catalogue entry of a family. -/
def catalogueEntry (r : Row) : List Byte :=
  le 2 r.index ++ le 1 r.sub ++ le 1 r.ty.code ++ le 1 r.access.code ++ le 1 r.rights
    ++ le 1 (b2n r.exclusive + 2 * b2n r.periscope + 4 * b2n (r.access == .RWS)) ++ le 1 r.rule ++ le 2 r.length ++ le 2 r.instances
    ++ le 1 r.f ++ List.replicate 3 0 ++ le 8 r.dflt ++ le 8 r.lo ++ le 8 r.hi ++ List.replicate 24 0
    ++ fitBytes 64 (r.name.toList.map fun c => BitVec.ofNat 8 c.toNat)

/-- Table 16.5. -/
def slotPage (x : DictSlot) : List Byte :=
  le 4 (x.index * 65536 + x.sub * 256) ++ le 4 x.length ++ le 4 0 ++ le 4 (2 ^ 31 * b2n x.busy + x.result * 65536 + x.rlength)
    ++ List.replicate 240 0 ++ fitBytes 256 x.data

/-- A read of BAR2 (R433): the slots, the catalogue and the black-box ring in slot order; reserved offsets read 0. Where an entry stands
among the release's 6,100 the spec does not say, so a read of the catalogue is a free value. -/
def bar2Read (s : Dev) (off n : Nat) : List Byte :=
  if 0x1000 ≤ off ∧ off < 0x2000 then pageBytesAt (slotPage (s.slot ((off - 0x1000) / 0x200))) ((off - 0x1000) % 0x200) n
  else if 0x10000 ≤ off ∧ off < 0x100000 then fitBytes n (Config.catalogueBytes off)
  else if 0x100000 ≤ off ∧ off < 0x500000 then
    pageBytesAt (fitBytes 64 (tget s.fh.ring ((off - 0x100000) / 64) [])) ((off - 0x100000) % 64) n
  else List.replicate n 0

end Sys2Proof.Machine
end

