-- ==== Sys2Proof/Tests/Slice0.lean ====
section
/-!
SUPPORT. The row's own tests. For each statement with hypotheses, `witness_<statement>` gives states and operands that meet the
hypotheses of each of its clauses. `test_wellFormed` has an ill-formed command for each check. The other tests are worked examples
and tables of the manual, published test vectors, and single commands on small states.
-/

namespace Sys2Proof.Tests

open Sys2Proof.Machine

set_option Elab.async false

/-! ### Small states -/

/-- Every supply on, every reset released. -/
def onPower : Power :=
  { Power.inReset with
    porHigh := true, coreRstHigh := true, corePwrEn := true, mpPerstLow := false, sbPhyRstHigh := true, hostTerminated := true,
    selfTested := true, ddrReady := true }

/-- A port that is up at Gen5 x4. -/
def upPort : HostPort := { HostPort.idle with perstLow := false, linkUp := true, speed := 5, width := 4 }

/-- The device in a mode, with the admin port up. -/
def T (m : Mode) : Dev := { Dev.reset with pw := { onPower with mode := some m }, ports := [(0, upPort)] }

/-- The device starting, in a stage of boot. -/
def booting (stage : Nat) : Dev :=
  ({ Dev.reset with pw := { onPower with mode := some .dark, coreStarting := true, selfTested := false, ddrReady := false } }).setVal
    Fam.bootStage 0 stage

/-- Change the power state. -/
def pw (d : Dev) (g : Power → Power) : Dev := { d with pw := g d.pw }

/-- A 4+1 array over members 0 to 4 with nothing written. -/
def arr0 : Arr :=
  { geom := { mirror := false, k := 4, m := 1, members := [0, 1, 2, 3, 4], epoch := 1 }, prev := none, shift := 17, writeThrough := false,
    inst := 1, segs := 100, nextSeq := 1, active := none, beams := [], seg := [], holders := [0, 1, 2], rehoming := false,
    journalGen := 0, openList := [], horizon := 0, deltas := [], jdirty := [], ckpt := none, repairs := [], keptUnits := [], keptWaits := 0,
    sweep := none, paused := false, onHold := false, barrier := none, rebuildDue := [], outage := [], offline := 0, cleaning := [],
    embargo := [], cleanerHold := false, cadence := 0, cadenceTo := none, cadenceAt := 0, log := [],
    copies := [], rebuild := none, reads := [], swept := [], darkened := [], recovery := none, returning := false, records := [],
    meridianSeq := 0 }

/-- A beam opened as number `n`. -/
def beam0 (n : Nat) (items : List Item) : Beam :=
  { num := n, internal := false, swept := false, epoch := 1, items := items, closed := false, byTimer := false, facets := [],
    journalled := false, mirror := 0, mismatch := false, time := 0 }

/-- A submission entry: opcode, first dword's volume and range, and opcode words. -/
def entry (op vol lba nblk : Nat) (ws : List Nat) : BitVec 512 :=
  BitVec.ofNat 512 (op + vol * 2 ^ 32 + lba * 2 ^ 64 + nblk * 2 ^ 112 + unle ((List.replicate 32 0) ++ ws.flatMap (le 4)))

/-- The entry with a single-buffer data descriptor. -/
def buffer (addr len : Nat) (raw : BitVec 512) : BitVec 512 := raw ||| BitVec.ofNat 512 (addr * 2 ^ 128 + len * 2 ^ 192)

/-- A command of the admin function, queue 0, that Iris has admitted. -/
def ctx0 (raw : BitVec 512) : Ctx :=
  { Ctx.fresh 0 ⟨0, 0⟩ 0 0 raw .single none with phase := .admitted, cls := 0, passed := true }

/-- The device with these commands in flight. -/
def holding (l : List Ctx) (d : Dev) : Dev := { d with cm := { d.cm with ctxs := l, nextCtx := l.length } }

/-- The device with an admin command next to start. -/
def admin (op : Nat) (ws : List Nat) (d : Dev) : Dev := holding [ctx0 (entry op 0 0 0 ws)] d

/-- The admin port's PF. -/
def pf : Fn := ⟨0, 0⟩

/-- A request of the admin PF, and one of its first VF. -/
def req0 : Req := { pf with stream := none }
def reqVf : Req := { port := 0, fn := 1, stream := none }

/-- A Secure stream that covers the port, with one key set. -/
def stream0 : IdeStream := { secure := true, keySet := 0, key0 := some 1, key1 := none, ridLo := 0, ridHi := 64, addrs := [] }
def withStream (x : IdeStream) : Dev := { T .solo with ports := [(0, { upPort with ide := [(16, x)], sessions := [(1, true)] })] }

/-- A recovery whose roll-forward has ended. -/
def rec0 : Recovery :=
  { begun := true, scan := [], epoch := 1, deltas := [], moved := [], applying := false, opened := [], lost := false, unread := none }

/-- A queue pair of depth 16 whose SQ holds two entries and whose CQ holds one. -/
def queue0 : QState :=
  { QState.absent with
    sqBase := 0x1000, cqBase := 0x2000, sqDepthM1 := 15, cqDepthM1 := 15, inlineEn := true, irqEn := true, boundCq := 1,
    sqState := .active, cqState := .active, sqTail := 2, cqTail := 1, unsignalled := 1, slot := some 0 }

/-- SOLO with that pair as queue 1 of the admin function. -/
def withQueue (x : QState) : Dev := (T .solo).setQ pf 1 x

/-- An image that passes verification. -/
def imageOk : ImageFacts :=
  { magic := 0x4B554F4D, version := 1, fwVersion := 1, svn := 0, bodyLen := 4096, rootHashOk := true, imageSigOk := true,
    headerSigOk := true, bodyHashOk := true }

/-- The device with the write claim held by the admin function. -/
def claimed (d : Dev) : Dev := { d with dc := { d.dc with holder := 1 } }

/-- SOLO with source 0x230 latched and in the first-fault register. -/
def firstLatched : Dev :=
  { T .solo with
    fh := { src := [(0x230, { FaultSrc.clear with latched := true })], first := some (0x230, 2, false, true, 0), ring := [], head := 0,
            queue := [] } }

/-- A probe of a member, outstanding. -/
def probeOf (m : Nat) : MCmd :=
  { tag := 0, member := m, write := false, offset := 0, length := 4096, bytes := [], why := .probe, dead := false, aborted := false, issued := 0 }

/-- A member in service with a map share. -/
def mem0 : Member :=
  { Member.absent with
    st := .online, was := .online, capacityMib := 4096, areaBytes := 2 ^ 30, queues := true,
    label := some { role := 0, array := 0, owner := 0, inst := 0, slot := 0, domain := 0, mapShare := 8 } }

/-- A volume of 1,000 blocks of tenant 1 on array 0, with a key. -/
def vol0 : Vol :=
  { st := .ready, capacity := 1000, tenant := 1, array := 0, readOnly := false, writeBack := false, key := some 1, stored := none,
    kcv := none, map := [], region := [], allocated := 0, dark := 0, deleter := none }

def ten1 : Tenant := { Tenant.undefined with defined := true }

/-- SOLO with an array, members 0 to 5, a volume and its tenant. -/
def store (x : Arr) : Dev :=
  { (T .solo).setVal Fam.mapWarmLimit 0 196014080 with
    arrays := [(0, x)], vols := [(0, vol0)], tenants := [(1, ten1)],
    mb := { (T .solo).mb with tbl := (List.range 6).map fun i => (i, mem0) } }

/-- A command that waits in Iris. -/
def inIris (c : Ctx) (d : Dev) : Dev := { d with cm := { d.cm with ctxs := [c], irisQ := [c.id] } }

def seg0 (st : SegState) (mask : List Nat) : Segment := { st := st, live := 0, epoch := 1, mask := mask, beams := [], into := [] }

/-- A class-0 READ of one block at array 0, beam 0, block 0, with its range read outstanding. -/
def job0 : Job :=
  { id := 0, owners := [.readBlock 0 0], vol := 0, lba := 0, loc := ⟨0, 0, 0⟩, extra := [], got := [], wide := false, unreadable := [], decodes := [],
    around := false, pages := none }

def reading (x : Arr) : Dev :=
  let d := holding [ctx0 (entry opRead 0 0 1 [])] (store x)
  { d with mb := { d.mb with jobs := [job0], cmds := [{ probeOf 0 with why := .job 0 (arr0.geom.slotOf 0 0) false }] } }

/-- A controller that is admitted. -/
def controller0 : Controller :=
  { port := 0, half := 0, bus := 1, levels := 0, nvme := true, nguid := 1, rdyInTime := true, version14 := true, ioQueues := 8,
    mqes := 255, mdtsKib := 64, ns4k := true, capacityMib := 16384, dsm := true, resvOk := false, foreignResv := false, acl := 0,
    capToS := 1, writeCache := false, singlePort := true, label := none }

/-- A directory in which the indices of `l` belong to members in service. -/
def fullDirectory (l : List Nat) : Dev :=
  { T .solo with mb := { (T .solo).mb with
      tbl := l.map fun i => (i, mem0), dir := l.map fun i => (i, BitVec.ofNat 128 (i + 2)) } }

theorem tfind_map {α : Type} (f : Nat → α) (l : List Nat) (i : Nat) (h : i ∈ l) : tfind (l.map fun j => (j, f j)) i = some (f i) := by
  induction l with
  | nil => cases h
  | cons j r ih =>
    by_cases e : j = i
    · simp [tfind, e]
    · simpa [tfind, e] using ih (by simpa [Ne.symm e] using h)

theorem fullDirectory_other (l : List Nat) (hl : ∀ i ∈ l, i < 2024) :
    (fullDirectory l).mb.dir.find? (·.2 == identOf controller0) = none := by
  rw [List.find?_eq_none]
  intro e he
  obtain ⟨i, hi, rfl⟩ := List.mem_map.mp (show e ∈ l.map fun i => (i, BitVec.ofNat 128 (i + 2)) from he)
  have : BitVec.ofNat 128 (i + 2) ≠ identOf controller0 := by
    have hi := hl i hi
    rw [show identOf controller0 = 1 from rfl]
    bv_omega
  simpa using this

theorem fullDirectory_index (l : List Nat) (hl : ∀ i ∈ l, i < 2024) (hr : ∀ i ∈ List.range 2024, i ∈ l) :
    directoryIndex (fullDirectory l) (identOf controller0) = none := by
  have a : ∀ i ∈ List.range 2024, ¬(tfind (fullDirectory l).mb.dir i).isNone = true := fun i hi => by
    simp [show tfind (fullDirectory l).mb.dir i = some _ from tfind_map (fun i => BitVec.ofNat 128 (i + 2)) l i (hr i hi)]
  have b : ∀ i ∈ List.range 2024, ¬(((fullDirectory l).mem i).st == .absent && !holdsSlot (fullDirectory l) i
      && !(fullDirectory l).mb.priv.contains i) = true := fun i hi => by
    have : ((fullDirectory l).mem i).st = .online := by
      rw [Dev.mem, tget_eq_tfind, show tfind (fullDirectory l).mb.tbl i = some mem0 from tfind_map (fun _ => mem0) l i (hr i hi)]; rfl
    simp [this]
  simp only [directoryIndex, fullDirectory_other l hl, List.find?_eq_none.mpr a, List.find?_eq_none.mpr b]

theorem indices (i : Nat) (h : i ∈ List.range 2024) : i < 2024 := List.mem_range.mp h

/-- SOLO with the front-end or the channel 0 as given. -/
def onFe (x : FrontEnd) : Dev := { T .solo with ls := { chan := [], fe := [(0, x)], irOrder := [], irHeld := [] } }
def onLens (l : Lens) : Dev := { T .solo with ls := { chan := [(0, l)], fe := [], irOrder := [], irHeld := [] } }

/-- A front-end that is loaded and clocked, and one that writes. -/
def fe0 : FrontEnd := { FrontEnd.idle with loaded := true, clockKhz := 600000, eMax := some 5, ownerLink := some 0, seqA := some 255 }
def feWriting : FrontEnd := { fe0 with gate := true, writeTag := some 7 }

/-- A zone of 1,001 cylinders, and a channel that is up over it. -/
def zone0 : ZoneEntry :=
  { first := 0, last := 1000, sectors := 100, rate := 1200, gain := 0, boost := 0, offset := 0, asym := 0, fir := List.replicate 10 0,
    target := [], precomp := [] }
def lens0 : Lens := { Lens.down with up := true, parked := false, surfaces := 1, zones := [(0, (zone0, zone0))] }

/-- A channel whose one spare is retired. -/
def noSpares : Lens :=
  let z := { zone0 with last := 1, sectors := 1 }
  { lens0 with zones := [(0, (z, z))], retired := [(1, 0, 0)], reported := [(0, none)] }

/-- A channel with `n` spares retired. -/
def lensRetired (n : Nat) : Lens := { lens0 with reported := [(0, none)], retired := List.replicate n (0, 0, 0) }
theorem lensRetired_length (n : Nat) : (lensRetired n).realloc.length + (lensRetired n).retired.length = n := by
  simp [lensRetired, lens0, Lens.down]

def tag0 : SectorTag := { cylinder := 0, head := 0, zone := 0, sector := 0, pba := 0, formatId := 0, serial := 0 }
def sector0 : SectorRead :=
  { tag := tag0, span := (0, 0), shock := false, pes := 0, marks := [], first := [], alternates := [], recovery := [] }

/-- Channel 0 with a read of block 0 outstanding. -/
def lensReading : Dev := { onLens lens0 with mb := { (T .solo).mb with cmds := [probeOf 0x7E8] } }

/-- A wedge on cylinder 0. -/
def wedge0 : Wedge :=
  { sam := 0x1E5A, number := 383, gray := 0, tAB := 11264, tAA := 16384, count := 0, periodPpm := 0 }

/-- A 4+1 array over platter members, and a device that holds it, each member in service, channel 0 as given. -/
def arrP : Arr := { arr0 with geom := { arr0.geom with members := [0x7E8, 0x7E9, 0x7EA, 0x7EB, 0x7EC] } }
def platters (x : Arr) (l : Lens) : Dev :=
  { onLens l with
    arrays := [(0, x)], mb := { (T .solo).mb with tbl := (List.range 5).map fun i => (0x7E8 + i, mem0), cmds := [probeOf 0x7E8] } }

def onIr (l : Lens) : Dev :=
  let d := platters arrP l
  { d with ls := { d.ls with irOrder := [(0, mem0.a0 / 4096)] } }

/-- A device of a pair: its mode, pair state and pair registers. -/
def paired (m : Mode) (st : Nat) (p : Pair) : Dev :=
  (({ T m with pr := p }).setVal Fam.pairEnable 0 1).setVal Fam.pairState 0 st
def link0 : Pair := { Pair.none with linkUp := true, partnerStrap := true }

/-- The device with the state of the admin PF as given, and one whose function 1 is as given. -/
def onPf (x : FnState) : Dev := { T .solo with fns := [(0, x)] }
def onVf (x : FnState) : Dev :=
  ({ T .solo with ports := [(0, { upPort with vfs := 1 })], fns := [(16, x)] }).setVal Fam.hostIdeRequired 0 0
def vf : Fn := ⟨0, 1⟩

/-- Copy channel 0 bound to the admin PF. -/
def copying (x : Chan) : Dev :=
  ({ onPf { FnState.absent with busMaster := true } with chans := [(0, x)] }).setVal Fam.copyChanFunction 0 0

/-- A descriptor of lines without strides. -/
def desc (src dst line lines : Nat) : BitVec 512 := BitVec.ofNat 512 (src + dst * 2 ^ 64 + line * 2 ^ 128 + lines * 2 ^ 160)

/-- A Falfer request under the key 1 of a slot. -/
def msg0 (slot : Nat) : FalferMsg := { keySlot := slot, seq := 1, serial := Dev.reset.ident.serial, tag := 0, sender := 0, port := 0, mac := 0 }
def msg (slot type : Nat) (p : List Byte) : FalferMsg := { msg0 slot with mac := falferMac 1 (falferBytes (msg0 slot) type p) }

theorem genuine_msg (s : Dev) (slot type : Nat) (p : List Byte) (hs : s.ident.serial = Dev.reset.ident.serial)
    (hn : slot < 4) (hk : tget s.sb.keys slot 0 = 1) : genuine s (msg slot type p) type p = true := by
  have hk' : tget s.sb.keys slot 0#256 = 1#256 := hk
  simp [genuine, msg, msg0, hs, hn, hk', falferBytes]

theorem heard_msg (s : Dev) (slot type : Nat) (p : List Byte) (hr : sbReady s = true) (hs : s.ident.serial = Dev.reset.ident.serial)
    (hn : slot < 4) (hk : tget s.sb.keys slot 0 = 1) (hq : tget s.sb.seqIn slot 0 = 0) : s.heard (msg slot type p) type p :=
  ⟨hr, genuine_msg s slot type p hs hn hk, by simp [seqFresh, msg, msg0, hq]⟩

/-- The device with the key 1 in slots 0 and 1 of the side-band. -/
def keyed (d : Dev) : Dev := { d with sb := { d.sb with keys := [(0, 1), (1, 1)] } }

/-- The device with a grandmaster. -/
def timed (g : TimeState → TimeState) : Dev := { T .solo with tm := g { (T .solo).tm with master := some (1, 5) } }

theorem adminData_bytes (c : Ctx) (need : Nat) (b : List Byte) (h1 : ¬(eDdType c.raw = 1 ∧ c.segs = .unreadable))
    (h2 : (segments c.raw c.segs).any (fun e => e.1 % 4 != 0 || e.2 % 4 != 0) = false) (h3 : ¬ddTotal c.raw c.segs < need) :
    adminData c need (.bytes b) = .inl (fitBytes need b) := by
  simp only [adminData, if_neg h1, h2, if_neg h3, Bool.false_eq_true, if_false]

theorem idle_legal : FrontEnd.idle.Legal := by constructor <;> simp [FrontEnd.idle]

theorem succ_ne (x : BitVec 24) : x + 1 ≠ x := by bv_omega

/-! ### Witnesses -/

theorem witness_ResetPinsAndTripEnterDark :
    (∃ (s : State), s.dev.pw.porHigh = false)
    ∧ (∃ (s : State) (c : Instr), (c = .coreRstNAssert ∨ c = .corePowerLoss) ∧ corePowered s.dev = true ∧ s.dev.pw.mode.isSome =
      true)
    ∧ (∃ (s : State), s.dev.pw.corePwrEn = false)
    ∧ (∃ (s : State), s.dev.periscope = true ∧ s.dev.pw.corePwrEn = true ∧ s.dev.inMode .dark = true ∧ s.dev.val Fam.bootStage = 2
      ∧ s.dev.pw.coreStarting = false)
    ∧ (∃ (s : State), s.dev.periscope = true ∧ s.dev.pw.tripped = false ∧ (s.dev.val Fam.pcacheDumpState = 1 ∨ s.dev.val
      Fam.pcacheDumpState = 2))
    ∧ (∃ (s : State), s.dev.periscope = true ∧ s.dev.pw.tripped = false ∧ s.dev.val Fam.pcacheDumpState = 0 ∧ corePowered s.dev =
      true ∧ s.dev.pw.ddrReady = true ∧ windowHolds s.dev = true ∧ s.dev.pc.image = none)
    ∧ (∃ (s : State), s.dev.periscope = true ∧ s.dev.pw.tripped = false ∧ s.dev.val Fam.pcacheDumpState ≠ 1 ∧ s.dev.val
      Fam.pcacheDumpState ≠ 2 ∧ ¬ (corePowered s.dev = true ∧ s.dev.pw.ddrReady = true ∧ windowHolds s.dev = true ∧ s.dev.val
      Fam.pcacheDumpState = 0 ∧ s.dev.pc.image.isNone = true))
    ∧ (∃ (s : State), s.dev.pw.tripPending = true)
    ∧ (∃ (s : State), s.dev.periscope = true ∧ s.dev.pw.tripped = true)
    ∧ (∃ (s : State), s.dev.periscope = true ∧ s.dev.val Fam.powerCollapses + 1 < 2 ^ 32)
    ∧ (∃ (s : State), s.dev.pw.porHigh = true ∧ s.dev.pw.collapsed = true) :=
  ⟨⟨⟨[], Dev.reset⟩, by decide +kernel⟩,
    ⟨⟨[], T .solo⟩, .coreRstNAssert, by decide +kernel⟩,
    ⟨⟨[], Dev.reset⟩, by decide +kernel⟩,
    ⟨⟨[], (pw (T .dark) (fun p => { p with coreRstHigh := false })).setVal Fam.bootStage 0 2⟩, by decide +kernel⟩,
    ⟨⟨[], (T .eclipse).setVal Fam.pcacheDumpState 0 2⟩, by decide +kernel⟩,
    ⟨⟨[], { T .solo with pr := { Pair.none with held := [(0, .delta 0 0 1 false 1 0)] } }⟩, by decide +kernel⟩,
    ⟨⟨[], T .solo⟩, by decide +kernel⟩,
    ⟨⟨[], pw (T .eclipse) (fun p => { p with tripPending := true })⟩, by decide +kernel⟩,
    ⟨⟨[], pw (T .dark) (fun p => { p with tripped := true })⟩, by decide +kernel⟩,
    ⟨⟨[], pw (T .dark) (fun p => { p with tripped := true })⟩, by decide +kernel⟩,
    ⟨⟨[], pw Dev.reset (fun p => { p with porHigh := true, collapsed := true })⟩, by decide +kernel⟩⟩

theorem witness_BootAdvancesStageByStage :
    (∃ (s : State) (slot : _) (i : _), s.dev.periscope = true ∧ s.dev.inMode .dark = true ∧ s.dev.val Fam.bootStage = 1 ∧
      s.dev.pw.coreStarting = false ∧ s.dev.pw.tripped = false ∧ s.dev.pw.corePwrEn = false ∧ nextSlot s.dev = some slot ∧
      imageValid s.dev i = true ∧ (s.dev.imageSlot slot).st ≠ 1)
    ∧ (∃ (s : State) (slot : _) (img : Option ImageFacts), s.dev.periscope = true ∧ s.dev.inMode .dark = true ∧ s.dev.val
      Fam.bootStage = 1 ∧ s.dev.pw.coreStarting = false ∧ s.dev.pw.tripped = false ∧ s.dev.pw.corePwrEn = false ∧ nextSlot s.dev =
      some slot ∧ (∀ i, img = some i → imageValid s.dev i = false))
    ∧ (∃ (s : State) (k : BitVec 16), s.dev.pw.coreStarting = true ∧ s.dev.val Fam.bootStage = 3 ∧ k ≠ 0)
    ∧ (∃ (s : State) (gib : Nat) (two : Bool) (rate : Nat), s.dev.pw.coreStarting = true ∧ s.dev.val Fam.bootStage = 4 ∧ (gib = 16
      ∨ gib = 32 ∨ gib = 64) ∧ rate ≤ (if two then 2933 else 3200))
    ∧ (∃ (s : State), s.dev.pw.coreStarting = true ∧ s.dev.val Fam.bootStage = 5)
    ∧ (∃ (h : VaultHead), (crc32c (h.bytes.take 0xFFC)).toNat ≠ fieldAt h.bytes 0xFFC 4)
    ∧ (∃ (s : State) (a : _) (x : _), s.dev.arr? a = some x ∧ x.offline = 0 ∧ x.recovery.isSome = true ∧ x.recovered = true ∧
      s.dev.executing = true ∧ pagesDue s.dev a = false)
    ∧ (∃ (s : State) (a : _) (x : _), s.dev.arr? a = some x ∧ x.offline = 0 ∧ x.recovery.isSome = true ∧ x.recovered = true ∧
      s.dev.executing = true ∧ pagesDue s.dev a = true)
    ∧ (∃ (s : State) (a : _) (x : _), s.dev.arr? a = some x ∧ x.offline ≠ 0 ∧ s.dev.inMode .focus = true)
    ∧ (∃ (d : Dev), d.pc.image = none)
    ∧ (∃ (s : State), s.dev.periscope = true ∧ s.dev.pw.sbPhyRstHigh = true) :=
  ⟨⟨⟨[], pw (booting 1) (fun p => { p with coreStarting := false, corePwrEn := false })⟩, 0, imageOk, by decide +kernel⟩,
    ⟨⟨[], pw (booting 1) (fun p => { p with coreStarting := false, corePwrEn := false })⟩, 0, none, by decide +kernel, by
      decide +kernel, by decide +kernel, by decide +kernel, by decide +kernel, by decide +kernel, by decide +kernel,
      by intro i h; cases h⟩,
    ⟨⟨[], booting 3⟩, 1, by decide +kernel⟩,
    ⟨⟨[], booting 4⟩, 16, false, 3200, by decide +kernel⟩,
    ⟨⟨[], booting 5⟩, by decide +kernel⟩,
    ⟨({ bytes := [1], unitsOk := true }), by decide +kernel⟩,
    ⟨⟨[], { pw (T .focus) (fun p => { p with recovering := [0] }) with arrays := [(0, { arr0 with recovery := some rec0 })] }⟩, 0,
      ({ arr0 with recovery := some rec0 }), by decide +kernel⟩,
    ⟨⟨[],
      { pw (T .focus) (fun p => { p with recovering := [0] }) with arrays := [(0, { arr0 with recovery := some rec0 })], vols := [(0, vol0)], ms := { (T .focus).ms with dirtyPages := [(0, 0)] } }⟩,
      0, ({ arr0 with recovery := some rec0 }), by decide +kernel⟩,
    ⟨⟨[], { pw (T .focus) (fun p => { p with recovering := [0] }) with arrays := [(0, { arr0 with offline := 1 })] }⟩, 0,
      ({ arr0 with offline := 1 }), by decide +kernel⟩,
    ⟨(T .focus), by decide +kernel⟩,
    ⟨⟨[], T .solo⟩, by decide +kernel⟩⟩

theorem witness_ModeRequestsFollowTheTransitionTable :
    (∃ (s : State) (who : Master), s.dev.accepts who Fam.deviceModeRequest 0 ∧ s.dev.transiting = true)
    ∧ (∃ (s : State) (who : Master), s.dev.accepts who Fam.deviceModeRequest 0 ∧ s.dev.transiting = false ∧ s.dev.inMode .eclipse =
      true ∧ s.dev.noSev4 = false)
    ∧ (∃ (s : State) (who : Master), s.dev.accepts who Fam.deviceModeRequest 0 ∧ s.dev.transiting = false ∧ s.dev.inMode .eclipse =
      true ∧ s.dev.noSev4 = true ∧ s.dev.dumping = false)
    ∧ (∃ (s : State) (who : Master), s.dev.accepts who Fam.deviceModeRequest 0 ∧ s.dev.transiting = false ∧ s.dev.inMode .eclipse =
      true ∧ s.dev.noSev4 = true ∧ s.dev.dumping = true)
    ∧ (∃ (s : State) (who : Master), s.dev.accepts who Fam.deviceModeRequest 0 ∧ s.dev.transiting = false ∧ s.dev.serving = true)
    ∧ (∃ (s : State) (who : Master), s.dev.accepts who Fam.deviceModeRequest 0 ∧ s.dev.transiting = false ∧ (s.dev.inMode .dark =
      true ∨ s.dev.inMode .focus = true ∨ s.dev.inMode .mirror = true))
    ∧ (∃ (s : State) (who : Master), s.dev.accepts who Fam.deviceModeRequest 0 ∧ s.dev.transiting = false ∧ s.dev.inMode .focus =
      false)
    ∧ (∃ (s : State) (who : Master), s.dev.accepts who Fam.deviceModeRequest 0 ∧ s.dev.transiting = false ∧ s.dev.inMode .focus =
      true ∧ s.dev.flag Fam.pairEnable = true)
    ∧ (∃ (s : State) (who : Master), s.dev.accepts who Fam.deviceModeRequest 0 ∧ s.dev.transiting = false ∧ s.dev.inMode .focus =
      true ∧ s.dev.flag Fam.pairEnable = false ∧ s.dev.pw.recovering ≠ [])
    ∧ (∃ (s : State) (who : Master), s.dev.accepts who Fam.deviceModeRequest 0 ∧ s.dev.transiting = false ∧ s.dev.inMode .focus =
      true ∧ s.dev.flag Fam.pairEnable = false ∧ s.dev.pw.recovering = [])
    ∧ (∃ (s : State), s.dev.pw.trans = some .focusDrain ∧ s.dev.cm.ctxs = [] ∧ (∀ e ∈ s.dev.arrays, e.2.beams = []))
    ∧ (∃ (s : State) (soft : Bool), s.dev.inMode .eclipse = true ∧ s.dev.pw.trans = some (.eclipseDestage soft) ∧ (∀ e ∈
      s.dev.arrays, e.2.beams = [] ∧ e.2.keptUnits = []))
    ∧ (∃ (s : State) (soft : Bool), s.dev.inMode .eclipse = true ∧ s.dev.pw.trans = some (.eclipseDestage soft) ∧ s.dev.val
      Fam.bootStage = 0 ∧ (∃ e ∈ s.dev.arrays, e.2.beams ≠ [] ∨ e.2.keptUnits ≠ []))
    ∧ (∃ (s : State), s.dev.pw.trans = some (.eclipseDestage true) ∧ s.dev.inMode .eclipse = true)
    ∧ (∃ (s : State), s.dev.pw.trans = some (.eclipseDestage false) ∧ s.dev.inMode .eclipse = true)
    ∧ (∃ (s : State), s.dev.pw.parkPending = true)
    ∧ (∃ (s : State) (who : Master) (v : _), s.dev.accepts who Fam.deviceSoftReset 0 ∧ v ≠ 0x5EF7)
    ∧ (∃ (s : State) (who : Master) (m : Mode), s.dev.accepts who Fam.deviceSoftReset 0 ∧ s.dev.softResetting = false ∧
      s.dev.pw.mode = some m ∧ s.dev.fw.activating = none)
    ∧ (∃ (s : State) (m : Mode), s.dev.pw.trans = some (.softReset m) ∧ s.dev.inMode .eclipse = true ∧ s.dev.noSev4 = false)
    ∧ (∃ (s : State) (m : Mode), s.dev.pw.trans = some (.softReset m) ∧ s.dev.inMode .eclipse = false ∧ m ≠ .focus)
    ∧ (∃ (s : State), s.dev.pw.trans = some (.softReset .focus) ∧ s.dev.inMode .eclipse = false)
    ∧ (∃ (s : State) (m : Mode), s.dev.pw.trans = some (.softReset m) ∧ s.dev.inMode .eclipse = true ∧ s.dev.noSev4 = true ∧
      s.dev.dumping = false)
    ∧ (∃ (s : State) (m : Mode), s.dev.pw.trans = some (.softReset m) ∧ s.dev.inMode .eclipse = true ∧ s.dev.noSev4 = true ∧
      s.dev.dumping = true) :=
  ⟨⟨⟨[], (T .solo).setTrans (some .focusDrain)⟩, .admin, by decide +kernel⟩,
    ⟨⟨[], (T .eclipse).setSrc 0x003 { FaultSrc.clear with latched := true, latchedSev := 4 }⟩, .admin, by decide +kernel⟩,
    ⟨⟨[], T .eclipse⟩, .admin, by decide +kernel⟩,
    ⟨⟨[], (T .eclipse).setVal Fam.pcacheDumpState 0 1⟩, .admin, by decide +kernel⟩,
    ⟨⟨[], T .solo⟩, .admin, by decide +kernel⟩,
    ⟨⟨[], T .focus⟩, .admin, by decide +kernel⟩,
    ⟨⟨[], T .solo⟩, .admin, by decide +kernel⟩,
    ⟨⟨[], (T .focus).setVal Fam.pairEnable 0 1⟩, .admin, by decide +kernel⟩,
    ⟨⟨[], pw (T .focus) (fun p => { p with recovering := [0] })⟩, .admin, by decide +kernel⟩,
    ⟨⟨[], T .focus⟩, .admin, by decide +kernel⟩,
    ⟨⟨[], (T .lead).setTrans (some .focusDrain)⟩, by decide +kernel⟩,
    ⟨⟨[], { (T .eclipse).setTrans (some (.eclipseDestage true)) with arrays := [(0, arr0)] }⟩, true, by decide +kernel⟩,
    ⟨⟨[], { (T .eclipse).setTrans (some (.eclipseDestage true)) with arrays := [(0, { arr0 with beams := [beam0 0 []] })] }⟩, true,
      by decide +kernel⟩,
    ⟨⟨[], (T .eclipse).setTrans (some (.eclipseDestage true))⟩, by decide +kernel⟩,
    ⟨⟨[], (T .eclipse).setTrans (some (.eclipseDestage false))⟩, by decide +kernel⟩,
    ⟨⟨[], pw (T .eclipse) (fun p => { p with parkPending := true })⟩, by decide +kernel⟩,
    ⟨⟨[], T .solo⟩, .admin, 0x5EF8, by decide +kernel⟩,
    ⟨⟨[], T .solo⟩, .sideband, .solo, by decide +kernel⟩,
    ⟨⟨[], ((T .eclipse).setTrans (some (.softReset .eclipse))).setSrc 0x003
      { FaultSrc.clear with latched := true, latchedSev := 4 }⟩, .eclipse, by decide +kernel⟩,
    ⟨⟨[], (T .solo).setTrans (some (.softReset .solo))⟩, .solo, by decide +kernel⟩,
    ⟨⟨[], (T .focus).setTrans (some (.softReset .focus))⟩, by decide +kernel⟩,
    ⟨⟨[], (T .eclipse).setTrans (some (.softReset .eclipse))⟩, .eclipse, by decide +kernel⟩,
    ⟨⟨[], ((T .eclipse).setTrans (some (.softReset .eclipse))).setVal Fam.pcacheDumpState 0 1⟩, .eclipse, by decide +kernel⟩⟩

theorem witness_PacerTakesTheLowerAdmission :
    (∃ (s : State) (i : _), i < 16 ∧ corePowered s.dev = true ∧ s.dev.pw.sagBelow.contains i = false ∧ s.dev.pw.sagPct = 100)
    ∧ (∃ (s : State) (i : _), i < 16 ∧ corePowered s.dev = true ∧ s.dev.pw.sagBelow.contains i = false ∧ s.dev.pw.sagPct ≠ 100)
    ∧ (∃ (s : State) (i : _), s.dev.pw.sagBelow.contains i = true ∧ s.dev.pw.sagPct = 50 ∧ s.dev.val Fam.pacerDeepEvents + 1 < 2 ^
      32)
    ∧ (∃ (s : State), corePowered s.dev = true ∧ s.dev.pw.sagPct < 100)
    ∧ (∃ (s : State) (tj : _), corePowered s.dev = true ∧ (s.dev.val Fam.thermalAlertC : Int) < tj)
    ∧ (∃ (s : State) (tj : _), corePowered s.dev = true ∧ (s.dev.val Fam.thermalLimitC : Int) < tj)
    ∧ (∃ (s : State) (tj : _), corePowered s.dev = true ∧ (s.dev.val Fam.thermalLimitC : Int) + 5 < tj)
    ∧ (∃ (s : State) (tj : _), corePowered s.dev = true ∧ (s.dev.val Fam.thermalShutdownC : Int) ≤ tj)
    ∧ (∃ (s : State) (tj : _), corePowered s.dev = true ∧ tj + 3 ≤ (s.dev.val Fam.thermalAlertC : Int))
    ∧ (∃ (s : State) (tj : _), corePowered s.dev = true ∧ tj + 3 ≤ (s.dev.val Fam.thermalLimitC : Int))
    ∧ (∃ (s : State) (tj : _), corePowered s.dev = true ∧ tj + 3 ≤ (s.dev.val Fam.thermalShutdownC : Int))
    ∧ (∃ (s : State) (who : Master), s.dev.accepts who Fam.fabricPeakReset 0) :=
  ⟨⟨⟨[], T .solo⟩, 15, by decide +kernel⟩,
    ⟨⟨[], pw (T .solo) (fun p => { p with sagPct := 50, sagBelow := [3] })⟩, 15, by decide +kernel⟩,
    ⟨⟨[], pw (T .solo) (fun p => { p with sagPct := 50, sagBelow := [15] })⟩, 15, by decide +kernel⟩,
    ⟨⟨[], pw (T .solo) (fun p => { p with sagPct := 25, sagBelow := [15] })⟩, by decide +kernel⟩,
    ⟨⟨[], T .solo⟩, 101, by decide +kernel⟩,
    ⟨⟨[], T .solo⟩, 106, by decide +kernel⟩,
    ⟨⟨[], T .solo⟩, 111, by decide +kernel⟩,
    ⟨⟨[], T .solo⟩, 115, by decide +kernel⟩,
    ⟨⟨[], T .solo⟩, 97, by decide +kernel⟩,
    ⟨⟨[], T .solo⟩, 102, by decide +kernel⟩,
    ⟨⟨[], T .solo⟩, 112, by decide +kernel⟩,
    ⟨⟨[], T .solo⟩, .admin, by decide +kernel⟩⟩

theorem witness_FaultHubCommandsAct :
    (∃ (n : Nat), n < 0x280 ∧ srcReserved n = false)
    ∧ (∃ (s : State) (n : Nat), n < 0x280 ∧ s.dev.periscope = true ∧ (s.dev.src n).injLive ≤ 1)
    ∧ (∃ (s : State) (who : Master) (n : Nat), s.dev.accepts who Fam.faultStatus n ∧ (s.dev.src n).live = false)
    ∧ (∃ (s : State) (who : Master) (n : Nat), s.dev.accepts who Fam.faultStatus n ∧ (s.dev.src n).live = true ∧ s.dev.val
      Fam.faultClearRefused + 1 < 2 ^ 32)
    ∧ (∃ (s : State) (who : Master), s.dev.accepts who Fam.faultClearAll 0)
    ∧ (∃ (s : State) (who : Master), s.dev.accepts who Fam.faultFirstClear 0 ∧ (∀ r, s.dev.fh.first = some r → (s.dev.src
      r.1).latched = false))
    ∧ (∃ (s : State) (who : Master) (r : _), s.dev.accepts who Fam.faultFirstClear 0 ∧ s.dev.fh.first = some r ∧ (s.dev.src
      r.1).latched = true)
    ∧ (∃ (s : State) (who : Master) (n : Nat), s.dev.accepts who Fam.faultInject n ∧ s.dev.flag Fam.faultInjectEnable = true ∧
      s.dev.canSignal n = true ∧ (s.dev.src n).realLive = false)
    ∧ (∃ (s : State) (who : Master) (n : Nat), s.dev.accepts who Fam.faultInject n ∧ s.dev.flag Fam.faultInjectEnable = true ∧
      s.dev.canSignal n = true ∧ (s.dev.src n).realLive = true)
    ∧ (∃ (s : State) (who : Master) (n : Nat), s.dev.accepts who Fam.faultInject n ∧ injectRefusal n s.dev = 0 ∧ (s.dev.src
      n).injLive = 2 ∧ (s.dev.src n).realLive = false) :=
  ⟨⟨0x27F, by decide +kernel⟩,
    ⟨⟨[], T .solo⟩, 0x27F, by decide +kernel⟩,
    ⟨⟨[], T .solo⟩, .admin, 0x230, by decide +kernel⟩,
    ⟨⟨[], (T .solo).setSrc 0x014 { FaultSrc.clear with realLive := true, latched := true }⟩, .admin, 0x014, by decide +kernel⟩,
    ⟨⟨[], T .solo⟩, .admin, by decide +kernel⟩,
    ⟨⟨[], T .solo⟩, .admin, by decide +kernel, by intro r h; cases h⟩,
    ⟨⟨[], firstLatched⟩, .admin, ((0x230, 2, false, true, 0)), by decide +kernel⟩,
    ⟨⟨[], (T .solo).setVal Fam.faultInjectEnable 0 1⟩, .admin, 0x230, by decide +kernel⟩,
    ⟨⟨[], ((T .solo).setVal Fam.faultInjectEnable 0 1).setSrc 0x230 { FaultSrc.clear with realLive := true }⟩, .admin, 0x230, by
      decide +kernel⟩,
    ⟨⟨[], ((T .solo).setVal Fam.faultInjectEnable 0 1).setSrc 0x230 { FaultSrc.clear with injLive := 2 }⟩, .admin, 0x230, by
      decide +kernel⟩⟩

theorem witness_OnsetLatchesCountsAndActs :
    (∃ (d : Dev) (r : _), d.fh.first = some r)
    ∧ (∃ (d : Dev), d.fh.first = none)
    ∧ (∃ (d : Dev), (d.inMode .focus = true ∨ d.inMode .solo = true ∨ d.inMode .lead = true ∨ d.inMode .mirror = true)) :=
  ⟨⟨({ T .solo with fh := { (T .solo).fh with first := some (0x230, 2, false, true, 0) } }), _, rfl⟩,
    ⟨(T .solo), by decide +kernel⟩,
    ⟨(T .mirror), by decide +kernel⟩⟩

theorem witness_BlackBoxKeepsTheRing :
    (∃ (s : State) (r : _) (rest : _), s.dev.periscope = true ∧ s.dev.fh.queue = r :: rest)
    ∧ (∃ (s : State) (who : Master), s.dev.accepts who Fam.bboxErase 0 ∧ s.dev.inMode .eclipse = false)
    ∧ (∃ (s : State) (who : Master) (v : _), s.dev.accepts who Fam.bboxErase 0 ∧ (v ≠ 0xE2A5 ∨ s.dev.inMode .eclipse = true)) :=
  ⟨⟨⟨[], bbox 1 0 0xFFFF 0xFF [] (T .dark)⟩, _, _, by decide +kernel, rfl⟩,
    ⟨⟨[], claimed (T .solo)⟩, .admin, by decide +kernel⟩,
    ⟨⟨[], claimed (T .eclipse)⟩, .admin, 0xE2A5, by decide +kernel⟩⟩

theorem witness_FirmwareSlotsAndActivation :
    (∃ (s : State) (c : _) (bytes : _) (b : _), s.dev.adminNext 0x90 c ∧ adminDescField c.raw = none ∧ downloadField (s.dev.starts
      c) c.raw = none ∧ s.dev.fw.activating = none ∧ adminData c (eWord c.raw 2) bytes = .inl b)
    ∧ (∃ (s : State) (c : _), s.dev.adminNext 0x90 c ∧ adminDescField c.raw = none ∧ downloadField (s.dev.starts c) c.raw = none ∧
      s.dev.fw.activating.isSome = true)
    ∧ (∃ (s : State) (n : Nat), s.dev.periscope = true ∧ n < 2)
    ∧ (∃ (s : State) (c : _), s.dev.adminNext 0x91 c ∧ stray c.raw 0 1 = false ∧ (s.dev.imageSlot (eWord c.raw 0 % 2)).st = 2 ∧
      s.dev.fw.activating = none)
    ∧ (∃ (s : State) (c : _), s.dev.adminNext 0x91 c ∧ stray c.raw 0 1 = false ∧ (s.dev.imageSlot (eWord c.raw 0 % 2)).st ≠ 2)
    ∧ (∃ (s : State) (n : Nat) (id : _), s.dev.fw.activating = some (n, id) ∧ s.dev.val Fam.fwActivationState = 1 ∧ s.dev.executing
      = true ∧ (∀ c ∈ s.dev.cm.ctxs, c.id = id))
    ∧ (∃ (status : _) (qual : _), status < 256 ∧ qual < 256)
    ∧ (∃ (s : State) (n : Nat) (id : _), s.dev.fw.activating = some (n, id) ∧ (s.dev.val Fam.fwActivationState = 2 ∨ s.dev.val
      Fam.fwActivationState = 3) ∧ s.dev.executing = true)
    ∧ (∃ (s : State) (who : Master) (v : _), s.dev.accepts who Fam.bootSvnCommit 0 ∧ s.dev.coreUp = true ∧ s.dev.val Fam.bootMinSvn
      ≤ v ∧ v ≤ s.dev.fw.svn)
    ∧ (∃ (s : State) (who : Master) (v : _), s.dev.accepts who Fam.bootSvnCommit 0 ∧ (v < s.dev.val Fam.bootMinSvn ∨ s.dev.fw.svn <
      v)) :=
  ⟨⟨⟨[], holding [ctx0 (buffer 4096 4096 (entry 0x90 0 0 0 [1, 0, 4096]))] (T .focus)⟩, (ctx0 (buffer 4096 4096 (entry 0x90 0 0 0
      [1, 0, 4096]))), (.bytes []), (fitBytes (eWord (buffer 4096 4096 (entry 0x90 0 0 0 [1, 0, 4096])) 2) []), by decide +kernel,
      by decide +kernel, by decide +kernel, by decide +kernel,
      adminData_bytes _ _ _ (by decide +kernel) (by decide +kernel) (by decide +kernel)⟩,
    ⟨⟨[], holding [ctx0 (buffer 4096 4096 (entry 0x90 0 0 0 [1, 0, 4096]))]
      ({ T .focus with fw := { (T .focus).fw with activating := some (0, 0) } })⟩, (ctx0 (buffer 4096 4096 (entry 0x90 0 0 0 [1, 0,
      4096]))), by decide +kernel⟩,
    ⟨⟨[], T .dark⟩, 1, by decide +kernel⟩,
    ⟨⟨[], holding [ctx0 (entry 0x91 0 0 0 [1])]
      ({ T .focus with fw := { (T .focus).fw with slotB := { ImageSlot.empty with st := 2 } } })⟩, (ctx0 (entry 0x91 0 0 0 [1])),
      by decide +kernel⟩,
    ⟨⟨[], holding [ctx0 (entry 0x91 0 0 0 [1])] (T .focus)⟩, (ctx0 (entry 0x91 0 0 0 [1])), by decide +kernel⟩,
    ⟨⟨[], holding [ctx0 0] (({ T .focus with fw := { (T .focus).fw with activating := some (0, 0) } }).setVal Fam.fwActivationState
      0 1)⟩, 0, 0, by decide +kernel⟩,
    ⟨1, 255, by decide +kernel⟩,
    ⟨⟨[], ({ T .focus with fw := { (T .focus).fw with activating := some (0, 0) } }).setVal Fam.fwActivationState 0 2⟩, _, _, rfl,
      by decide +kernel, by decide +kernel⟩,
    ⟨⟨[], T .focus⟩, .admin, 0, by decide +kernel⟩,
    ⟨⟨[], T .focus⟩, .admin, 1, by decide +kernel⟩⟩

theorem witness_DumpVaultTestAndMemoryErrors :
    (∃ (s : State), s.dev.periscope = true)
    ∧ (∃ (s : State) (c : MCmd), s.dev.val Fam.pcacheDumpState = 1 ∧ s.dev.pc.vaults.contains (some c.member) = false)
    ∧ (∃ (s : State) (a : _), s.dev.val Fam.pcacheDumpState = 2 ∧ s.dev.pc.vaults = [some a, none])
    ∧ (∃ (s : State) (a : _) (b : _), s.dev.val Fam.pcacheDumpState = 2 ∧ s.dev.pc.vaults = [some a, some b] ∧ s.dev.pc.hdr0 = 1 ∧
      s.dev.pc.hdr1 = 1 ∧ s.dev.pw.tripPending = false)
    ∧ (∃ (s : State), s.dev.val Fam.pcacheDumpState = 2 ∧ s.dev.pc.vaults.any Option.isNone = true ∧ s.dev.pw.tripPending = false)
    ∧ (∃ (s : State) (v : _), v < 2 ∧ (s.dev.val Fam.pcacheDumpState = 1 ∨ s.dev.val Fam.pcacheDumpState = 2))
    ∧ (∃ (s : State) (a : _) (b : _), s.dev.executing = true ∧ s.dev.pc.image = none ∧ s.dev.pc.testing = false ∧ s.dev.pc.vaults =
      [some a, some b])
    ∧ (∃ (s : State) (a : _) (b : _), s.dev.executing = true ∧ s.dev.pc.testing = true ∧ s.dev.pc.vaults = [some a, some b])
    ∧ (∃ (s : State) (who : Master), s.dev.accepts who Fam.pcacheHoldupAttest 0)
    ∧ (∃ (s : State) (ch : _) (rank : _) (lane : _) (k : Int) (l : Int), s.dev.coreUp = true ∧ s.dev.pw.ddrReady = true ∧ ch < 12 ∧
      rank < 8 ∧ lane < 9 ∧ -32 ≤ k ∧ k ≤ 32 ∧ -32 ≤ l ∧ l ≤ 32)
    ∧ (∃ (s : State) (ch : _) (rank : _) (lane : _) (k : Int) (l : Int), s.dev.coreUp = true ∧ s.dev.pw.ddrReady = true ∧ ch < 12 ∧
      rank < 8 ∧ lane < 9 ∧ 32 < k ∧ -32 ≤ l ∧ l ≤ 32) :=
  ⟨⟨⟨[], T .dark⟩, by decide +kernel⟩,
    ⟨⟨[], (T .eclipse).setVal Fam.pcacheDumpState 0 1⟩, (probeOf 5), by decide +kernel⟩,
    ⟨⟨[], { (T .eclipse).setVal Fam.pcacheDumpState 0 2 with pc := { (T .solo).pc with vaults := [some 3, none] } }⟩, 3, by
      decide +kernel⟩,
    ⟨⟨[],
      { (T .eclipse).setVal Fam.pcacheDumpState 0 2 with pc := { (T .solo).pc with vaults := [some 3, some 4], hdr0 := 1, hdr1 := 1 } }⟩,
      3, 4, by decide +kernel⟩,
    ⟨⟨[], { (T .eclipse).setVal Fam.pcacheDumpState 0 2 with pc := { (T .solo).pc with vaults := [some 3, none] } }⟩, by
      decide +kernel⟩,
    ⟨⟨[], (T .eclipse).setVal Fam.pcacheDumpState 0 2⟩, 1, by decide +kernel⟩,
    ⟨⟨[], { T .solo with pc := { (T .solo).pc with vaults := [some 3, some 4] } }⟩, 3, 4, by decide +kernel⟩,
    ⟨⟨[], { T .solo with pc := { (T .solo).pc with vaults := [some 3, some 4], testing := true } }⟩, 3, 4, by decide +kernel⟩,
    ⟨⟨[], T .solo⟩, .admin, by decide +kernel⟩,
    ⟨⟨[], T .solo⟩, 11, 7, 8, 32, (-32), by decide +kernel⟩,
    ⟨⟨[], T .solo⟩, 11, 7, 8, 33, (-32), by decide +kernel⟩⟩

theorem witness_HostPortsResetAndTrain :
    (∃ (s : State) (n : Nat), n < 16 ∧ s.dev.coreUp = false)
    ∧ (∃ (s : State) (n : Nat), n < 16 ∧ s.dev.coreUp = true ∧ (s.dev.port n).linkUp = true)
    ∧ (∃ (s : State) (n : Nat) (speed : _) (width : _), n < 16 ∧ s.dev.coreUp = true ∧ s.dev.pw.hostTerminated = true ∧ (s.dev.port
      n).readyToTrain = true ∧ (s.dev.port n).perstLow = false ∧ (s.dev.port n).linkUp = false ∧ 1 ≤ speed ∧ speed ≤ s.dev.val
      Fam.hostPortMaxSpeed n ∧ (width = 1 ∨ width = 2 ∨ width = 4))
    ∧ (∃ (s : State) (f : Fn), ((s.dev.fnS f).inFlr = true ∨ (s.dev.fnS ⟨f.port, 0⟩).inFlr = true))
    ∧ (∃ (s : State) (f : Fn), portServes s.dev f.port = true ∧ s.dev.fnExists f = true ∧ (s.dev.fnS f).inFlr = false ∧ (s.dev.fnS
      ⟨f.port, 0⟩).inFlr = false)
    ∧ (∃ (s : State) (n : Nat) (k : _), portServes s.dev n = true ∧ (s.dev.port n).vfs = 0 ∧ k ≤ (s.dev.port n).totalVfs) :=
  ⟨⟨⟨[], T .dark⟩, 15, by decide +kernel⟩,
    ⟨⟨[], T .solo⟩, 0, by decide +kernel⟩,
    ⟨⟨[], { T .solo with ports := [(0, { upPort with linkUp := false, readyToTrain := true })] }⟩, 0, 5, 4, by decide +kernel⟩,
    ⟨⟨[], (T .solo).setFn pf { FnState.absent with inFlr := true }⟩, pf, by decide +kernel⟩,
    ⟨⟨[], T .solo⟩, pf, by decide +kernel⟩,
    ⟨⟨[], T .solo⟩, 0, 64, by decide +kernel⟩⟩

theorem witness_HostErrorsAndLinkEncryption :
    (∃ (s : State) (f : Fn), portServes s.dev f.port = true ∧ (s.dev.fnS f).cfg.ecrcCheck = false)
    ∧ (∃ (s : State) (f : Fn), portServes s.dev f.port = true ∧ (s.dev.fnS f).cfg.ecrcCheck = true)
    ∧ (∃ (f : Fn) (b : Nat) (d : Dev), b < 32 ∧ (d.fnS f).aerMask.getLsbD b = true)
    ∧ (∃ (f : Fn) (b : Nat) (d : Dev), b < 32 ∧ (d.fnS f).aerMask.getLsbD b = false)
    ∧ (∃ (s : State) (f : Fn) (v : _), (s.dev.fnS f).pba.contains v = true ∧ msixAllowed s.dev f v = true)
    ∧ (∃ (s : State) (n : Nat) (i : Nat) (x : IdeStream), tfind (s.dev.port n).ide i = some x ∧ x.secure = true ∧ portServes s.dev
      n = true ∧ (x.keyOf (1 - x.keySet % 2)).isSome = true)
    ∧ (∃ (s : State) (n : Nat) (i : Nat) (x : IdeStream), tfind (s.dev.port n).ide i = some x ∧ x.secure = true ∧ portServes s.dev
      n = true ∧ x.keyOf (1 - x.keySet % 2) = none)
    ∧ (∃ (s : State) (n : Nat) (i : Nat) (session : Nat) (k : Nat) (g : IdeAssoc), portServes s.dev n = true ∧ i ≤ 16 ∧ k ≤ 1 ∧
      g.addrs.length ≤ 2 ∧ (s.dev.port n).sessions.contains (session, true) = true ∧ (∀ x, tfind (s.dev.port n).ide i = some x →
      x.secure = false))
    ∧ (∃ (s : State) (n : Nat) (i : Nat) (session : Nat) (k : Nat) (g : IdeAssoc) (x : IdeStream), portServes s.dev n = true ∧ i ≤
      16 ∧ k ≤ 1 ∧ g.addrs.length ≤ 2 ∧ (s.dev.port n).sessions.contains (session, true) = true ∧ tfind (s.dev.port n).ide i = some
      x ∧ x.secure = true ∧ x.keySet = k)
    ∧ (∃ (s : State) (n : Nat) (i : Nat) (session : Nat) (k : Nat) (g : IdeAssoc) (x : IdeStream), portServes s.dev n = true ∧ i ≤
      16 ∧ k ≤ 1 ∧ g.addrs.length ≤ 2 ∧ (s.dev.port n).sessions.contains (session, true) = true ∧ tfind (s.dev.port n).ide i = some
      x ∧ x.secure = true ∧ x.keySet ≠ k) :=
  ⟨⟨⟨[], T .solo⟩, pf, by decide +kernel⟩,
    ⟨⟨[], (T .solo).setFn pf { FnState.absent with cfg := { FnConfig.initial with ecrcCheck := true } }⟩, pf, by decide +kernel⟩,
    ⟨pf, 20, ((T .solo).setFn pf { FnState.absent with aerMask := 0x100000 }), by decide +kernel⟩,
    ⟨pf, 12, ((T .solo).setFn pf { FnState.absent with aerMask := 0x100000 }), by decide +kernel⟩,
    ⟨⟨[], (T .solo).setFn pf { FnState.absent with pba := [2047], msixEnable := true, unmasked := [2047], busMaster := true }⟩, pf,
      2047, by decide +kernel⟩,
    ⟨⟨[], withStream { stream0 with key1 := some 2 }⟩, 0, 16, ({ stream0 with key1 := some 2 }), by decide +kernel⟩,
    ⟨⟨[], withStream stream0⟩, 0, 16, stream0, by decide +kernel⟩,
    ⟨⟨[], { T .solo with ports := [(0, { upPort with sessions := [(1, true)] })] }⟩, 0, 16, 1, 1,
      ({ ridLo := 0, ridHi := 64, addrs := [(0, 10), (10, 20)] }), by decide +kernel, by decide +kernel, by decide +kernel, by
      decide +kernel, by decide +kernel, by intro x h; cases h⟩,
    ⟨⟨[], withStream stream0⟩, 0, 16, 1, 0, ({ ridLo := 0, ridHi := 64, addrs := [] }), stream0, by decide +kernel⟩,
    ⟨⟨[], withStream stream0⟩, 0, 16, 1, 1, ({ ridLo := 0, ridHi := 64, addrs := [] }), stream0, by decide +kernel⟩⟩

theorem witness_AttestationAnswersInOrder :
    (∃ (s : State) (n : Nat), portServes s.dev n = true ∧ 1 ≤ (s.dev.port n).spdmStage)
    ∧ (∃ (s : State) (n : Nat), portServes s.dev n = true ∧ 2 ≤ (s.dev.port n).spdmStage)
    ∧ (∃ (s : State) (n : Nat) (i : _), portServes s.dev n = true ∧ 3 ≤ (s.dev.port n).spdmStage ∧ 1 ≤ i ∧ i ≤ 4)
    ∧ (∃ (s : State) (n : Nat) (slot : _), portServes s.dev n = true ∧ 3 ≤ (s.dev.port n).spdmStage ∧ slot ≠ 0)
    ∧ (∃ (s : State) (n : Nat), portServes s.dev n = true ∧ 3 ≤ (s.dev.port n).spdmStage ∧ (s.dev.port n).sessions.length < 2)
    ∧ (∃ (s : State) (n : Nat), portServes s.dev n = true ∧ 3 ≤ (s.dev.port n).spdmStage ∧ 2 ≤ (s.dev.port n).sessions.length)
    ∧ (∃ (s : State) (n : Nat) (id : _), portServes s.dev n = true ∧ 3 ≤ (s.dev.port n).spdmStage ∧ (s.dev.port
      n).sessions.contains (id, false) = true)
    ∧ (∃ (s : State) (n : Nat) (id : _), portServes s.dev n = true ∧ 3 ≤ (s.dev.port n).spdmStage ∧ (s.dev.port
      n).sessions.contains (id, true) = true)
    ∧ (∃ (s : State) (n : Nat) (id : _), portServes s.dev n = true ∧ 3 ≤ (s.dev.port n).spdmStage ∧ (s.dev.port
      n).sessions.contains (id, true) = false)
    ∧ (∃ (s : State) (n : Nat) (id : _), portServes s.dev n = true ∧ 3 ≤ (s.dev.port n).spdmStage ∧ (s.dev.port
      n).sessions.contains (id, false) = false)
    ∧ (∃ (s : State) (n : Nat), portServes s.dev n = true ∧ (s.dev.port n).spdmStage < 1)
    ∧ (∃ (s : State) (n : Nat), portServes s.dev n = true ∧ (s.dev.port n).spdmStage < 2)
    ∧ (∃ (s : State) (n : Nat), portServes s.dev n = true ∧ (s.dev.port n).spdmStage < 3) :=
  ⟨⟨⟨[], { T .solo with ports := [(0, { upPort with spdmStage := 1 })] }⟩, 0, by decide +kernel⟩,
    ⟨⟨[], { T .solo with ports := [(0, { upPort with spdmStage := 2 })] }⟩, 0, by decide +kernel⟩,
    ⟨⟨[], { T .solo with ports := [(0, { upPort with spdmStage := 3 })] }⟩, 0, 4, by decide +kernel⟩,
    ⟨⟨[], { T .solo with ports := [(0, { upPort with spdmStage := 3 })] }⟩, 0, 7, by decide +kernel⟩,
    ⟨⟨[], { T .solo with ports := [(0, { upPort with spdmStage := 3, sessions := [(1, true)] })] }⟩, 0, by decide +kernel⟩,
    ⟨⟨[], { T .solo with ports := [(0, { upPort with spdmStage := 3, sessions := [(1, true), (2, false)] })] }⟩, 0, by
      decide +kernel⟩,
    ⟨⟨[], { T .solo with ports := [(0, { upPort with spdmStage := 3, sessions := [(1, false)] })] }⟩, 0, 1, by decide +kernel⟩,
    ⟨⟨[], { T .solo with ports := [(0, { upPort with spdmStage := 3, sessions := [(1, true)] })] }⟩, 0, 1, by decide +kernel⟩,
    ⟨⟨[], { T .solo with ports := [(0, { upPort with spdmStage := 3, sessions := [(1, false)] })] }⟩, 0, 1, by decide +kernel⟩,
    ⟨⟨[], { T .solo with ports := [(0, { upPort with spdmStage := 3, sessions := [] })] }⟩, 0, 1, by decide +kernel⟩,
    ⟨⟨[], { T .solo with ports := [(0, { upPort with spdmStage := 0, sessions := [] })] }⟩, 0, by decide +kernel⟩,
    ⟨⟨[], { T .solo with ports := [(0, { upPort with spdmStage := 1, sessions := [] })] }⟩, 0, by decide +kernel⟩,
    ⟨⟨[], { T .solo with ports := [(0, { upPort with spdmStage := 2, sessions := [] })] }⟩, 0, by decide +kernel⟩⟩

theorem witness_RegisterWritesTouchTheirFields :
    (∃ (s : State) (r : Req) (q : _) (f : Fn), s.dev.reaches r ∧ f = r.toFn ∧ unbound s.dev f = false ∧ f.fn = 0 ∧ q < 1024 ∧
      (s.dev.q f q).sqState = .absent)
    ∧ (∃ (s : State) (r : Req) (q : _) (f : Fn), s.dev.reaches r ∧ f = r.toFn ∧ unbound s.dev f = false ∧ f.fn = 0 ∧ q < 1024 ∧
      (s.dev.q f q).sqState ≠ .absent)
    ∧ (∃ (s : State) (r : Req) (q : _) (f : Fn), s.dev.reaches r ∧ f = r.toFn ∧ unbound s.dev f = false ∧ f.fn ≠ 0 ∧ q < 64 ∧
      (s.dev.q f q).cqState = .absent)
    ∧ (∃ (s : State) (r : Req) (off : _) (width : _), s.dev.reaches r ∧ 0x2000 ≤ off ∧ off < inlineWindows r.toFn ∧ off + width ≤
      bar0Size r.toFn ∧ ¬(width = 4 ∧ off % 4 = 0) ∧ ¬(width = 8 ∧ off % 8 = 0))
    ∧ (∃ (s : State) (r : Req) (off : _) (width : _), s.dev.reaches r ∧ inlineWindows r.toFn ≤ off ∧ off < inlineWindows r.toFn +
      512 * queueLimit r.toFn ∧ off + width ≤ bar0Size r.toFn ∧ unbound s.dev r.toFn = false)
    ∧ (∃ (s : State) (r : Req) (off : _) (width : _), s.dev.reaches r ∧ bar0Size r.toFn < off + width)
    ∧ (∃ (s : State) (r : Req) (off : _), s.dev.reaches r ∧ off % 4 = 0 ∧ off < 0x030 ∧ off ≠ 0x014)
    ∧ (∃ (s : State) (r : Req) (off : _), s.dev.reaches r ∧ 0x2000 ≤ off ∧ off < 0x3000 ∧ unbound s.dev r.toFn = true)
    ∧ (∃ (s : State) (f : Fn), portServes s.dev f.port = true ∧ s.dev.fnExists f = true ∧ f.fn = 0)
    ∧ (∃ (s : State) (n : Nat) (i : _), s.dev.reaches s.dev.adminReq ∧ n < 8 ∧ i < 64 ∧ (s.dev.slot n).busy = false)
    ∧ (∃ (s : State) (who : Master), masterUp s.dev who = true) :=
  ⟨⟨⟨[], T .solo⟩, req0, 1023, pf, by decide +kernel⟩,
    ⟨⟨[], withQueue queue0⟩, req0, 1, pf, by decide +kernel⟩,
    ⟨⟨[], (({ T .solo with ports := [(0, { upPort with vfs := 64 })] }).setVal Fam.hostIdeRequired 0 0).setFn ⟨0, 64⟩
      { FnState.absent with bound := some 1 }⟩, ({ port := 0, fn := 64, stream := none }), 63, ⟨0, 64⟩, by decide +kernel⟩,
    ⟨⟨[], T .solo⟩, req0, 0x2004, 2, by decide +kernel⟩,
    ⟨⟨[], T .solo⟩, req0, (inlineWindows pf), 4, by decide +kernel⟩,
    ⟨⟨[], T .solo⟩, req0, 0x1FFFFFFF, 4, by decide +kernel⟩,
    ⟨⟨[], T .solo⟩, req0, 0x02C, by decide +kernel⟩,
    ⟨⟨[], ({ T .solo with ports := [(0, { upPort with vfs := 1 })] }).setVal Fam.hostIdeRequired 0 0⟩, reqVf, 0x2004, by
      decide +kernel⟩,
    ⟨⟨[], T .solo⟩, pf, by decide +kernel⟩,
    ⟨⟨[], T .solo⟩, 7, 63, by decide +kernel⟩,
    ⟨⟨[], T .solo⟩, .admin, by decide +kernel⟩⟩

theorem witness_DoorbellsAcceptByTheRules :
    (∃ (s : State) (r : Req) (f : Fn) (q : _) (v : Word) (x : _), s.dev.reaches r ∧ f = r.toFn ∧ q < queueLimit f ∧ x = s.dev.q f q
      ∧ (x.sqState = .active ∨ x.sqState = .stopped) ∧ v.toNat < 2 ^ 17 ∧ v.toNat % 65536 < x.sqDepth ∧ rCount x.sqDepth x.sqHead
      v.toNat ≤ x.sqDepth ∧ rCount x.sqDepth x.sqHead x.sqTail ≤ rCount x.sqDepth x.sqHead v.toNat)
    ∧ (∃ (s : State) (r : Req) (f : Fn) (q : _) (v : Word) (x : _), s.dev.reaches r ∧ f = r.toFn ∧ q < queueLimit f ∧ x = s.dev.q f
      q ∧ (x.sqState = .active ∨ x.sqState = .stopped) ∧ v.toNat < 2 ^ 17 ∧ v.toNat % 65536 < x.sqDepth ∧ rCount x.sqDepth x.sqHead
      v.toNat ≤ x.sqDepth ∧ rCount x.sqDepth x.sqHead v.toNat < rCount x.sqDepth x.sqHead x.sqTail)
    ∧ (∃ (s : State) (r : Req) (f : Fn) (q : _) (v : Word) (x : _), s.dev.reaches r ∧ f = r.toFn ∧ q < queueLimit f ∧ x = s.dev.q f
      q ∧ (x.sqState = .active ∨ x.sqState = .stopped) ∧ (2 ^ 17 ≤ v.toNat ∨ x.sqDepth ≤ v.toNat % 65536 ∨ x.sqDepth < rCount
      x.sqDepth x.sqHead v.toNat))
    ∧ (∃ (s : State) (r : Req) (f : Fn) (q : _) (v : Word) (x : _), s.dev.reaches r ∧ f = r.toFn ∧ q < queueLimit f ∧ x = s.dev.q f
      q ∧ x.cqState ≠ .absent ∧ v.toNat < 2 ^ 17 ∧ v.toNat % 65536 < x.cqDepth ∧ rCount x.cqDepth v.toNat x.cqTail ≤ rCount
      x.cqDepth x.cqHead x.cqTail)
    ∧ (∃ (s : State) (r : Req) (f : Fn) (q : _) (v : Word) (x : _), s.dev.reaches r ∧ f = r.toFn ∧ q < queueLimit f ∧ x = s.dev.q f
      q ∧ x.cqState ≠ .absent ∧ (2 ^ 17 ≤ v.toNat ∨ x.cqDepth ≤ v.toNat % 65536 ∨ rCount x.cqDepth x.cqHead x.cqTail < rCount
      x.cqDepth v.toNat x.cqTail))
    ∧ (∃ (s : State) (r : Req) (f : Fn) (q : _) (x : _), s.dev.reaches r ∧ f = r.toFn ∧ q < queueLimit f ∧ x = s.dev.q f q ∧
      x.sqState = .absent)
    ∧ (∃ (s : State) (r : Req) (f : Fn) (q : _) (x : _), s.dev.reaches r ∧ f = r.toFn ∧ q < queueLimit f ∧ x = s.dev.q f q ∧
      x.cqState = .absent) :=
  ⟨⟨⟨[], withQueue queue0⟩, req0, pf, 1, 0x10000, _, by decide +kernel, by decide +kernel, by decide +kernel, rfl, by
      decide +kernel, by decide +kernel, by decide +kernel, by decide +kernel, by decide +kernel⟩,
    ⟨⟨[], withQueue queue0⟩, req0, pf, 1, 1, _, by decide +kernel, by decide +kernel, by decide +kernel, rfl, by decide +kernel, by
      decide +kernel, by decide +kernel, by decide +kernel, by decide +kernel⟩,
    ⟨⟨[], withQueue queue0⟩, req0, pf, 1, 0x10001, _, by decide +kernel, by decide +kernel, by decide +kernel, rfl, by
      decide +kernel, by decide +kernel⟩,
    ⟨⟨[], withQueue queue0⟩, req0, pf, 1, 1, _, by decide +kernel, by decide +kernel, by decide +kernel, rfl, by decide +kernel, by
      decide +kernel, by decide +kernel, by decide +kernel⟩,
    ⟨⟨[], withQueue queue0⟩, req0, pf, 1, 2, _, by decide +kernel, by decide +kernel, by decide +kernel, rfl, by decide +kernel, by
      decide +kernel⟩,
    ⟨⟨[], withQueue queue0⟩, req0, pf, 1023, _, by decide +kernel, by decide +kernel, by decide +kernel, rfl, by decide +kernel⟩,
    ⟨⟨[], withQueue queue0⟩, req0, pf, 1023, _, by decide +kernel, by decide +kernel, by decide +kernel, rfl, by decide +kernel⟩⟩

theorem witness_InlineSlotsAreTakenOrCounted :
    (∃ (s : State) (r : Req) (f : Fn) (q : _) (slot : _) (whole : _) (e : Fetched), s.dev.reaches r ∧ f = r.toFn ∧ q < queueLimit f
      ∧ inlineOk s.dev f q slot whole e.raw = true)
    ∧ (∃ (s : State) (r : Req) (f : Fn) (q : _) (slot : _) (whole : _) (e : Fetched), s.dev.reaches r ∧ f = r.toFn ∧ q < queueLimit
      f ∧ inlineOk s.dev f q slot whole e.raw = false) :=
  ⟨⟨⟨[], withQueue queue0⟩, req0, pf, 1, 2, true, ({ raw := BitVec.ofNat 512 (2 * 2 ^ 48), segs := .single }), by decide +kernel⟩,
    ⟨⟨[], withQueue queue0⟩, req0, pf, 1, 2, false, ({ raw := BitVec.ofNat 512 (2 * 2 ^ 48), segs := .single }), by decide +kernel⟩⟩

theorem witness_QueuesAreCreatedAndDeleted :
    (∃ (s : State) (r : Req) (f : Fn) (q : _), s.dev.reaches r ∧ f = r.toFn ∧ q < queueLimit f ∧ opBusy s.dev f q = false ∧ opsHeld
      s.dev = false ∧ createCqCheck s.dev f q (s.dev.q f q) = none)
    ∧ (∃ (s : State) (r : Req) (f : Fn) (q : _), s.dev.reaches r ∧ f = r.toFn ∧ q < queueLimit f ∧ opBusy s.dev f q = false ∧
      opsHeld s.dev = false ∧ createSqCheck s.dev f q (s.dev.q f q) = none)
    ∧ (∃ (s : State) (r : Req) (f : Fn) (q : _) (e : _), s.dev.reaches r ∧ f = r.toFn ∧ q < queueLimit f ∧ opBusy s.dev f q = false
      ∧ opsHeld s.dev = false ∧ createCqCheck s.dev f q (s.dev.q f q) = some e)
    ∧ (∃ (s : State) (r : Req) (f : Fn) (q : _) (e : _), s.dev.reaches r ∧ f = r.toFn ∧ q < queueLimit f ∧ opBusy s.dev f q = false
      ∧ opsHeld s.dev = false ∧ createSqCheck s.dev f q (s.dev.q f q) = some e)
    ∧ (∃ (s : State) (r : Req) (f : Fn) (q : _), s.dev.reaches r ∧ f = r.toFn ∧ q < queueLimit f ∧ opBusy s.dev f q = false ∧
      opsHeld s.dev = false ∧ (s.dev.q f q).sqState ≠ .absent)
    ∧ (∃ (s : State) (r : Req) (f : Fn) (q : _), s.dev.reaches r ∧ f = r.toFn ∧ q < queueLimit f ∧ opBusy s.dev f q = false ∧
      opsHeld s.dev = false ∧ (s.dev.q f q).cqState ≠ .absent ∧ cqBound s.dev f q = false)
    ∧ (∃ (s : State) (r : Req) (f : Fn) (q : _), s.dev.reaches r ∧ f = r.toFn ∧ q < queueLimit f ∧ opBusy s.dev f q = false ∧
      opsHeld s.dev = false ∧ (s.dev.q f q).cqState ≠ .absent ∧ cqBound s.dev f q = true)
    ∧ (∃ (s : State) (r : Req) (f : Fn) (q : _), s.dev.reaches r ∧ f = r.toFn ∧ q < queueLimit f ∧ opBusy s.dev f q = true)
    ∧ (∃ (s : State) (c : _) (f : Fn) (q : _), s.dev.adminNext 0x80 c ∧ (f, q) = namedQueue c.raw ∧ queueField c.raw [1, 2] = none
      ∧ opBusy s.dev f q = false ∧ eWord c.raw 1 ≠ 2 ∧ createCqCheck (s.dev.starts c) f q (createPage c.raw true (s.dev.q f q)) =
      none)
    ∧ (∃ (s : State) (c : _) (f : Fn) (q : _) (e : _), s.dev.adminNext 0x80 c ∧ (f, q) = namedQueue c.raw ∧ queueField c.raw [1, 2]
      = none ∧ opBusy s.dev f q = false ∧ eWord c.raw 1 ≠ 2 ∧ createCqCheck (s.dev.starts c) f q (createPage c.raw true (s.dev.q f
      q)) = some e)
    ∧ (∃ (s : State) (c : _) (f : Fn) (q : _) (e : _), s.dev.adminNext 0x80 c ∧ (f, q) = namedQueue c.raw ∧ queueField c.raw [1, 2]
      = none ∧ opBusy s.dev f q = false ∧ eWord c.raw 1 = 2 ∧ createSqCheck (s.dev.starts c) f q (createPage c.raw false (s.dev.q f
      q)) = some e)
    ∧ (∃ (s : State) (c : _) (f : Fn) (q : _), s.dev.adminNext 0x80 c ∧ (f, q) = namedQueue c.raw ∧ queueField c.raw [1, 2] = none
      ∧ opBusy s.dev f q = false ∧ eWord c.raw 1 = 2 ∧ createSqCheck (s.dev.starts c) f q (createPage c.raw false (s.dev.q f q)) =
      none)
    ∧ (∃ (s : State) (c : _) (f : Fn) (q : _), s.dev.adminNext 0x81 c ∧ (f, q) = namedQueue c.raw ∧ queueField c.raw [3, 4] = none
      ∧ opBusy s.dev f q = true ∧ eWord c.raw 1 = 3)
    ∧ (∃ (s : State) (c : _) (f : Fn) (q : _), s.dev.adminNext 0x81 c ∧ (f, q) = namedQueue c.raw ∧ queueField c.raw [3, 4] = none
      ∧ opBusy s.dev f q = false ∧ eWord c.raw 1 = 3 ∧ (s.dev.q f q).sqState ≠ .absent)
    ∧ (∃ (s : State) (c : _) (f : Fn) (q : _), s.dev.adminNext 0x81 c ∧ (f, q) = namedQueue c.raw ∧ queueField c.raw [3, 4] = none
      ∧ opBusy s.dev f q = false ∧ eWord c.raw 1 ≠ 3 ∧ deleteCqCheck (s.dev.starts c) f q = none)
    ∧ (∃ (s : State) (c : _) (f : Fn) (q : _) (e : _), s.dev.adminNext 0x81 c ∧ (f, q) = namedQueue c.raw ∧ queueField c.raw [3, 4]
      = none ∧ opBusy s.dev f q = false ∧ eWord c.raw 1 ≠ 3 ∧ deleteCqCheck (s.dev.starts c) f q = some e)
    ∧ (∃ (s : State) (f : Fn) (q : _) (d : Dev), (s.dev.q f q).sqState = .draining ∧ (s.dev.q f q).drained = true ∧ s.dev.hostRuns
      = true ∧ s.dev.ctxsOf f q = [] ∧ (s.dev.q f q).sqCount = 0 ∧ d = abortReady f q 0x08 s.dev ∧ cqClear d f q = true)
    ∧ (∃ (s : State) (f : Fn) (q : _) (d : Dev) (x : _), s.dev.sqRuns f q = true ∧ (s.dev.q f q).fetching = 0 ∧ d = consumeInline f
      q s.dev ∧ x = d.q f q ∧ d.sqRuns f q = true ∧ x.fetching = 0 ∧ x.inlineReady = [] ∧ 0 < fetchCount d f q)
    ∧ (∃ (s : State) (f : Fn) (q : _), (s.dev.q f q).fetching ≠ 0 ∧ (s.dev.q f q).sqState = .active)
    ∧ (∃ (s : State) (f : Fn) (q : _), (s.dev.q f q).fetching = 1 ∧ s.dev.sqRuns f q = true ∧ s.dev.room f q 1 = true)
    ∧ (∃ (s : State) (f : Fn) (q : _), (s.dev.q f q).cqState ≠ .absent ∧ (s.dev.q f q).irqEn = true ∧ 0 < (s.dev.q f
      q).unsignalled) :=
  ⟨⟨⟨[], withQueue { QState.absent with sqBase := 0x1000, cqBase := 0x2000, sqDepthM1 := 15, cqDepthM1 := 65535, boundCq := 2 }⟩,
      req0, pf, 1, by decide +kernel⟩,
    ⟨⟨[], (withQueue
      { QState.absent with sqBase := 0x1000, cqBase := 0x2000, sqDepthM1 := 15, cqDepthM1 := 65535, boundCq := 2 }).setQ pf 2
      { QState.absent with cqState := .active }⟩, req0, pf, 1, by decide +kernel⟩,
    ⟨⟨[], withQueue { QState.absent with sqBase := 0x1000, cqBase := 0x2004, sqDepthM1 := 15, cqDepthM1 := 65535, boundCq := 2 }⟩,
      req0, pf, 1, ((0x02, 0x28)), by decide +kernel⟩,
    ⟨⟨[], (withQueue
      { QState.absent with sqBase := 0x1004, cqBase := 0x2000, sqDepthM1 := 15, cqDepthM1 := 65535, boundCq := 2 }).setQ pf 2
      { QState.absent with cqState := .active }⟩, req0, pf, 1, ((0x02, 0x28)), by decide +kernel⟩,
    ⟨⟨[], withQueue queue0⟩, req0, pf, 1, by decide +kernel⟩,
    ⟨⟨[], withQueue { queue0 with boundCq := 2 }⟩, req0, pf, 1, by decide +kernel⟩,
    ⟨⟨[], withQueue queue0⟩, req0, pf, 1, by decide +kernel⟩,
    ⟨⟨[], withQueue { queue0 with sqState := .draining }⟩, req0, pf, 1, by decide +kernel⟩,
    ⟨⟨[], holding [ctx0 (entry 0x80 0 0 0 [0x800, 1, 0x2000, 0, 15, 0, 0])] (T .solo)⟩, (ctx0 (entry 0x80 0 0 0 [0x800, 1, 0x2000,
      0, 15, 0, 0])), pf, 1, by decide +kernel⟩,
    ⟨⟨[], holding [ctx0 (entry 0x80 0 0 0 [0x800, 1, 0x2004, 0, 15, 0, 0])] (T .solo)⟩, (ctx0 (entry 0x80 0 0 0 [0x800, 1, 0x2004,
      0, 15, 0, 0])), pf, 1, ((0x02, 0x28)), by decide +kernel⟩,
    ⟨⟨[], holding [ctx0 (entry 0x80 0 0 0 [0x800, 2, 0x1004, 0, 15, 0x200000, 0])] ((T .solo).setQ pf 2
      { QState.absent with cqState := .active })⟩, (ctx0 (entry 0x80 0 0 0 [0x800, 2, 0x1004, 0, 15, 0x200000, 0])), pf, 1, ((0x02,
      0x28)), by decide +kernel⟩,
    ⟨⟨[], holding [ctx0 (entry 0x80 0 0 0 [0x800, 2, 0x1000, 0, 15, 0x200000, 0])] ((T .solo).setQ pf 2
      { QState.absent with cqState := .active })⟩, (ctx0 (entry 0x80 0 0 0 [0x800, 2, 0x1000, 0, 15, 0x200000, 0])), pf, 1, by
      decide +kernel⟩,
    ⟨⟨[], holding [ctx0 (entry 0x81 0 0 0 [0x800, 3])] (withQueue { queue0 with sqState := .draining })⟩, (ctx0 (entry 0x81 0 0 0
      [0x800, 3])), pf, 1, by decide +kernel⟩,
    ⟨⟨[], holding [ctx0 (entry 0x81 0 0 0 [0x800, 3])] (withQueue queue0)⟩, (ctx0 (entry 0x81 0 0 0 [0x800, 3])), pf, 1, by
      decide +kernel⟩,
    ⟨⟨[], holding [ctx0 (entry 0x81 0 0 0 [0x800, 4])] (withQueue { queue0 with boundCq := 2 })⟩, (ctx0 (entry 0x81 0 0 0 [0x800,
      4])), pf, 1, by decide +kernel⟩,
    ⟨⟨[], holding [ctx0 (entry 0x81 0 0 0 [0x800, 4])] (withQueue queue0)⟩, (ctx0 (entry 0x81 0 0 0 [0x800, 4])), pf, 1, ((0x05,
      0x22)), by decide +kernel⟩,
    ⟨⟨[], withQueue { queue0 with sqState := .draining, drained := true, sqTail := 0 }⟩, pf, 1, _, by decide +kernel, by
      decide +kernel, by decide +kernel, by decide +kernel, by decide +kernel, rfl, by decide +kernel⟩,
    ⟨⟨[], withQueue queue0⟩, pf, 1, _, _, by decide +kernel, by decide +kernel, rfl, rfl, by decide +kernel, by decide +kernel, by
      decide +kernel, by decide +kernel⟩,
    ⟨⟨[], withQueue { queue0 with fetching := 8 }⟩, pf, 1, by decide +kernel⟩,
    ⟨⟨[], withQueue { queue0 with fetching := 1 }⟩, pf, 1, by decide +kernel⟩,
    ⟨⟨[], withQueue queue0⟩, pf, 1, by decide +kernel⟩⟩

theorem witness_HostCommandsStartTheirWork :
    (∃ (s : State) (id : Nat) (c : Ctx), s.dev.cmdNext id opRead c)
    ∧ (∃ (s : State) (id : Nat) (c : Ctx), s.dev.cmdNext id opWrite c)
    ∧ (∃ (s : State) (id : Nat) (c : Ctx), s.dev.cmdNext id opTrim c)
    ∧ (∃ (s : State) (id : Nat) (c : Ctx), s.dev.cmdNext id opZeroes c)
    ∧ (∃ (s : State) (id : Nat) (c : Ctx), s.dev.cmdNext id opCopy c ∧ freeCopyChannel s.dev = none)
    ∧ (∃ (s : State) (id : Nat) (c : Ctx) (n : Nat), s.dev.cmdNext id opCopy c ∧ freeCopyChannel s.dev = some n)
    ∧ (∃ (s : State) (id : Nat) (c : Ctx), s.dev.cmdNext id opFlush c)
    ∧ (∃ (s : State) (id : Nat) (c : Ctx), s.dev.cmdNext id opFence c)
    ∧ (∃ (s : State) (id : Nat) (c : Ctx) (e : _) (l : _), s.dev.cmdNext id opAbort c ∧ e = s.dev.startsCmd c id ∧ l = abortTargets
      e c.fn (eWord c.raw 0 % 1024) (eWord c.raw 1 % 65536) ∧ l = [])
    ∧ (∃ (s : State) (id : Nat) (c : Ctx) (e : _) (l : _) (st : Nat), s.dev.cmdNext id opAbort c ∧ e = s.dev.startsCmd c id ∧ l =
      abortTargets e c.fn (eWord c.raw 0 % 1024) (eWord c.raw 1 % 65536) ∧ l = [(st, none)])
    ∧ (∃ (s : State) (id : Nat) (c : Ctx) (e : _) (l : _) (st : Nat) (t : Ctx), s.dev.cmdNext id opAbort c ∧ e = s.dev.startsCmd c
      id ∧ l = abortTargets e c.fn (eWord c.raw 0 % 1024) (eWord c.raw 1 % 65536) ∧ l = [(st, some t)] ∧ (t.phase = .ended ∨
      (t.phase = .started ∧ isAdminOp (eOpcode t.raw) = true)))
    ∧ (∃ (s : State) (id : Nat) (c : Ctx) (e : _) (l : _) (st : Nat) (t : Ctx), s.dev.cmdNext id opAbort c ∧ e = s.dev.startsCmd c
      id ∧ l = abortTargets e c.fn (eWord c.raw 0 % 1024) (eWord c.raw 1 % 65536) ∧ l = [(st, some t)] ∧ t.phase = .started ∧
      isAdminOp (eOpcode t.raw) = false)
    ∧ (∃ (s : State) (id : Nat) (c : Ctx) (e : _) (l : _) (st : Nat) (t : Ctx), s.dev.cmdNext id opAbort c ∧ e = s.dev.startsCmd c
      id ∧ l = abortTargets e c.fn (eWord c.raw 0 % 1024) (eWord c.raw 1 % 65536) ∧ l = [(st, some t)] ∧ t.phase ≠ .started ∧
      t.phase ≠ .ended)
    ∧ (∃ (s : State) (id : Nat) (c : Ctx) (v : _), s.dev.cmdNext id opQuery c ∧ eWord c.raw 0 % 256 = 0 ∧ s.dev.vol? (eVolume
      c.raw) = some v ∧ (s.dev.fnS c.fn).busMaster = true)
    ∧ (∃ (s : State) (id : Nat) (c : Ctx) (v : _), s.dev.cmdNext id opQuery c ∧ eWord c.raw 0 % 256 = 0 ∧ s.dev.vol? (eVolume
      c.raw) = some v ∧ (s.dev.fnS c.fn).busMaster = false)
    ∧ (∃ (s : State) (id : Nat) (c : Ctx), s.dev.cmdNext id opQuery c ∧ eWord c.raw 0 % 256 = 1 ∧ (s.dev.fnS c.fn).busMaster =
      true)
    ∧ (∃ (s : State) (id : Nat) (c : Ctx) (r : _), s.dev.ctx? id = some c ∧ c.phase = .admitted ∧ c.waitOn = none ∧ c.stopping =
      false ∧ s.dev.hostRuns = true ∧ recheck s.dev c = some r ∧ eOpcode c.raw = opRead)
    ∧ (∃ (s : State) (id : Nat) (c : Ctx) (r : _), s.dev.ctx? id = some c ∧ c.phase = .admitted ∧ c.waitOn = none ∧ c.stopping =
      false ∧ s.dev.hostRuns = true ∧ recheck s.dev c = some r ∧ eOpcode c.raw = opWrite)
    ∧ (∃ (s : State) (id : Nat) (c : Ctx) (r : _), s.dev.ctx? id = some c ∧ c.phase = .admitted ∧ c.waitOn = none ∧ c.stopping =
      false ∧ s.dev.hostRuns = true ∧ recheck s.dev c = some r ∧ eOpcode c.raw = opTrim)
    ∧ (∃ (s : State) (id : Nat) (c : Ctx) (r : _), s.dev.ctx? id = some c ∧ c.phase = .admitted ∧ c.waitOn = none ∧ c.stopping =
      false ∧ s.dev.hostRuns = true ∧ recheck s.dev c = some r ∧ eOpcode c.raw = opZeroes)
    ∧ (∃ (s : State) (id : Nat) (c : Ctx) (r : _), s.dev.ctx? id = some c ∧ c.phase = .admitted ∧ c.waitOn = none ∧ c.stopping =
      false ∧ s.dev.hostRuns = true ∧ recheck s.dev c = some r ∧ eOpcode c.raw = opCopy)
    ∧ (∃ (s : Dev) (c : Ctx), checkState s c.fn c.raw = some (0x05, 0x15, 0)) :=
  ⟨⟨⟨[], holding [ctx0 (entry (opRead) 0 0 1 [])] (store arr0)⟩, 0, (ctx0 (entry (opRead) 0 0 1 [])), by decide +kernel⟩,
    ⟨⟨[], holding [ctx0 (entry (opWrite) 0 0 1 [])] (store arr0)⟩, 0, (ctx0 (entry (opWrite) 0 0 1 [])), by decide +kernel⟩,
    ⟨⟨[], holding [ctx0 (entry (opTrim) 0 0 1 [])] (store arr0)⟩, 0, (ctx0 (entry (opTrim) 0 0 1 [])), by decide +kernel⟩,
    ⟨⟨[], holding [ctx0 (entry (opZeroes) 0 0 1 [])] (store arr0)⟩, 0, (ctx0 (entry (opZeroes) 0 0 1 [])), by decide +kernel⟩,
    ⟨⟨[], holding [ctx0 (entry (opCopy) 0 0 1 [])]
      ({ store arr0 with chans := [(12, { Chan.unbound with ctx := some 1 }), (13, { Chan.unbound with ctx := some 1 }), (14, { Chan.unbound with ctx := some 1 }), (15, { Chan.unbound with ctx := some 1 })] })⟩,
      0, (ctx0 (entry (opCopy) 0 0 1 [])), by decide +kernel⟩,
    ⟨⟨[], holding [ctx0 (entry (opCopy) 0 0 1 [])] (store arr0)⟩, 0, (ctx0 (entry (opCopy) 0 0 1 [])), 12, by decide +kernel⟩,
    ⟨⟨[], holding [ctx0 (entry (opFlush) 0 0 1 [])] (store arr0)⟩, 0, (ctx0 (entry (opFlush) 0 0 1 [])), by decide +kernel⟩,
    ⟨⟨[], holding [ctx0 (entry (opFence) 0 0 1 [])] (store arr0)⟩, 0, (ctx0 (entry (opFence) 0 0 1 [])), by decide +kernel⟩,
    ⟨⟨[], holding [ctx0 (entry opAbort 0 0 1 [0, 9])] (store arr0)⟩, 0, (ctx0 (entry opAbort 0 0 1 [0, 9])), _, _, by
      decide +kernel, rfl, rfl, by decide +kernel⟩,
    ⟨⟨[], (holding [ctx0 (entry opAbort 0 0 1 [])] (store arr0)).setQ pf 0
      { queue0 with boundCq := 0, overflow := [{ sq := 0, cid := 0, status := 0, qual := 0, result := 0, stamp := 0, opcode := opRead, record := none }] }⟩,
      0, (ctx0 (entry opAbort 0 0 1 [])), _, _, 0, by decide +kernel, rfl, rfl, by decide +kernel⟩,
    ⟨⟨[], holding [ctx0 (entry opAbort 0 0 1 []), { ctx0 (entry opRead 0 0 1 []) with id := 1, phase := .ended }] (store arr0)⟩, 0,
      (ctx0 (entry opAbort 0 0 1 [])), _, _, 0, ({ ctx0 (entry opRead 0 0 1 []) with id := 1, phase := .ended }), by
      decide +kernel, rfl, rfl, by decide +kernel, by decide +kernel⟩,
    ⟨⟨[], holding [ctx0 (entry opAbort 0 0 1 []), { ctx0 (entry opRead 0 0 1 []) with id := 1, phase := .started }] (store arr0)⟩,
      0, (ctx0 (entry opAbort 0 0 1 [])), _, _, 0, ({ ctx0 (entry opRead 0 0 1 []) with id := 1, phase := .started }), by
      decide +kernel, rfl, rfl, by decide +kernel, by decide +kernel, by decide +kernel⟩,
    ⟨⟨[], holding [ctx0 (entry opAbort 0 0 1 []), { ctx0 (entry opRead 0 0 1 []) with id := 1, phase := .admitted }] (store arr0)⟩,
      0, (ctx0 (entry opAbort 0 0 1 [])), _, _, 0, ({ ctx0 (entry opRead 0 0 1 []) with id := 1, phase := .admitted }), by
      decide +kernel, rfl, rfl, by decide +kernel, by decide +kernel, by decide +kernel⟩,
    ⟨⟨[], (holding [ctx0 (entry opQuery 0 0 1 [0])] (store arr0)).setFn pf { FnState.absent with busMaster := true }⟩, 0, (ctx0
      (entry opQuery 0 0 1 [0])), vol0, by decide +kernel⟩,
    ⟨⟨[], (holding [ctx0 (entry opQuery 0 0 1 [0])] (store arr0))⟩, 0, (ctx0 (entry opQuery 0 0 1 [0])), vol0, by decide +kernel⟩,
    ⟨⟨[], (holding [ctx0 (entry opQuery 0 0 1 [1])] (store arr0)).setFn pf { FnState.absent with busMaster := true }⟩, 0, (ctx0
      (entry opQuery 0 0 1 [1])), by decide +kernel⟩,
    ⟨⟨[], holding [ctx0 (entry (opRead) 0 0 1 [])] (store { arr0 with offline := 1 })⟩, 0, (ctx0 (entry (opRead) 0 0 1 [])),
      ((0x05, 0x10, 0)), by decide +kernel⟩,
    ⟨⟨[], holding [ctx0 (entry (opWrite) 0 0 1 [])] (store { arr0 with offline := 1 })⟩, 0, (ctx0 (entry (opWrite) 0 0 1 [])),
      ((0x05, 0x10, 0)), by decide +kernel⟩,
    ⟨⟨[], holding [ctx0 (entry (opTrim) 0 0 1 [])] (store { arr0 with offline := 1 })⟩, 0, (ctx0 (entry (opTrim) 0 0 1 [])),
      ((0x05, 0x10, 0)), by decide +kernel⟩,
    ⟨⟨[], holding [ctx0 (entry (opZeroes) 0 0 1 [])] (store { arr0 with offline := 1 })⟩, 0, (ctx0 (entry (opZeroes) 0 0 1 [])),
      ((0x05, 0x10, 0)), by decide +kernel⟩,
    ⟨⟨[], holding [ctx0 (entry (opCopy) 0 0 1 [])] (store { arr0 with offline := 1 })⟩, 0, (ctx0 (entry (opCopy) 0 0 1 [])),
      ((0x05, 0x10, 0)), by decide +kernel⟩,
    ⟨({ store arr0 with vols := [(0, { vol0 with st := .deleting })] }), (ctx0 (entry opRead 0 0 1 [])), by decide +kernel⟩⟩

theorem witness_IrisAdmitsByTheBuckets :
    (∃ (s : State) (t : _) (cls : _) (c : _) (x : _), irisHead s.dev (some t) cls = some c ∧ s.dev.hostRuns = true ∧ isolatedFn
      s.dev c.fn = false ∧ x = (s.dev.ten t).refilled s.dev.tm.now ∧ eClass c.raw ≠ 0 ∧ x.admits (byteCost c.raw) = true)
    ∧ (∃ (s : State) (t : _) (cls : _) (c : _) (x : _), irisHead s.dev (some t) cls = some c ∧ s.dev.hostRuns = true ∧ isolatedFn
      s.dev c.fn = false ∧ x = (s.dev.ten t).refilled s.dev.tm.now ∧ eClass c.raw ≠ 0 ∧ x.admits (byteCost c.raw) = false)
    ∧ (∃ (s : State) (cls : _) (c : _), irisHead s.dev none cls = some c ∧ s.dev.hostRuns = true ∧ eClass c.raw = 0 ∧ drawReserve
      s.dev c.fn.port (towardsHost c.raw) (byteCost c.raw) = none)
    ∧ (∃ (x : Tenant) (bytes : _), x.opRate ≠ 0 ∧ x.byteRate ≠ 0 ∧ x.admits bytes = true) :=
  ⟨⟨⟨[], inIris { ctx0 (entry (opRead + 256) 0 0 1 []) with phase := .iris, tenant := some 1 } (store arr0)⟩, 1, 1,
      ({ ctx0 (entry (opRead + 256) 0 0 1 []) with phase := .iris, tenant := some 1 }), _, by decide +kernel, by decide +kernel, by
      decide +kernel, rfl, by decide +kernel, by decide +kernel⟩,
    ⟨⟨[], inIris { ctx0 (entry (opRead + 256) 0 0 1 []) with phase := .iris, tenant := some 1 }
      ({ store arr0 with tenants := [(1, { ten1 with opRate := 1, opDepth := 1 })] })⟩, 1, 1,
      ({ ctx0 (entry (opRead + 256) 0 0 1 []) with phase := .iris, tenant := some 1 }), _, by decide +kernel, by decide +kernel, by
      decide +kernel, rfl, by decide +kernel, by decide +kernel⟩,
    ⟨⟨[], inIris { ctx0 (entry opRead 0 0 1 []) with phase := .iris } (store arr0)⟩, 0,
      ({ ctx0 (entry opRead 0 0 1 []) with phase := .iris }), by decide +kernel⟩,
    ⟨({ ten1 with opRate := 1, byteRate := 1, opLevel := 1000000000, byteLevel := 0 }), 0, by decide +kernel⟩⟩

theorem witness_TenantsFunctionsAndMeters :
    (∃ (s : State) (c : _), s.dev.adminNext 0x8B c ∧ bit (eWord c.raw 0) 31 = false ∧ tenantField c.raw = none ∧ s.dev.mt.enabled =
      false)
    ∧ (∃ (s : State) (c : _) (t : _), s.dev.adminNext 0x8B c ∧ bit (eWord c.raw 0) 31 = true ∧ stray c.raw 0 0x80000FFF = false ∧ t
      = eWord c.raw 0 % 4096 ∧ (s.dev.ten t).defined = false)
    ∧ (∃ (s : State) (c : _) (t : _), s.dev.adminNext 0x8B c ∧ bit (eWord c.raw 0) 31 = true ∧ stray c.raw 0 0x80000FFF = false ∧ t
      = eWord c.raw 0 % 4096 ∧ (s.dev.ten t).defined = true ∧ ownsAny s.dev t = true)
    ∧ (∃ (s : State) (c : _) (t : _), s.dev.adminNext 0x8B c ∧ bit (eWord c.raw 0) 31 = true ∧ stray c.raw 0 0x80000FFF = false ∧ t
      = eWord c.raw 0 % 4096 ∧ (s.dev.ten t).defined = true ∧ ownsAny s.dev t = false)
    ∧ (∃ (s : State) (c : _), s.dev.adminNext 0x8C c ∧ bit (eWord c.raw 0) 31 = false ∧ bindTarget s.dev c.raw = false ∧ stray
      c.raw 1 0xFFF = false ∧ (s.dev.ten (eWord c.raw 1 % 4096)).defined = true ∧ eWord c.raw 2 ≠ 0 ∧ eWord c.raw 2 ≤ queueLimit
      (bindFn c.raw) ∧ slotsHeld s.dev (bindFn c.raw) = 0)
    ∧ (∃ (s : State) (c : _), s.dev.adminNext 0x8C c ∧ bit (eWord c.raw 0) 31 = true ∧ bindTarget s.dev c.raw = false ∧ 0 <
      slotsHeld s.dev (bindFn c.raw))
    ∧ (∃ (s : State) (c : _), s.dev.adminNext 0x8C c ∧ bit (eWord c.raw 0) 31 = true ∧ bindTarget s.dev c.raw = false ∧ slotsHeld
      s.dev (bindFn c.raw) = 0)
    ∧ (∃ (s : State) (c : _) (t : _), s.dev.adminNext 0x8D c ∧ t = eWord c.raw 0 % 4096 ∧ stray c.raw 0 0xFFF = false ∧ (s.dev.ten
      t).defined = true ∧ (s.dev.ten t).isolated = true)
    ∧ (∃ (s : State) (c : _) (t : _), s.dev.adminNext 0x8D c ∧ t = eWord c.raw 0 % 4096 ∧ stray c.raw 0 0xFFF = false ∧ (s.dev.ten
      t).defined = true ∧ (s.dev.ten t).isolated = false)
    ∧ (∃ (s : State) (t : _) (id : _) (n : Nat), s.dev.cm.isolating = some (t, id, n) ∧ s.dev.hostRuns = true ∧ (tenantCtxs s.dev
      t).filter (·.stopping) = [])
    ∧ (∃ (s : State) (c : _) (t : _), s.dev.adminNext 0x8E c ∧ t = eWord c.raw 0 % 4096 ∧ stray c.raw 0 0xFFF = false ∧ (s.dev.ten
      t).defined = true)
    ∧ (∃ (s : State) (c : _), s.dev.adminNext 0x97 c ∧ eWord c.raw 2 < 1000000000 ∧ s.dev.val Fam.timeSource ≠ 2)
    ∧ (∃ (s : State) (c : _), s.dev.adminNext 0x95 c ∧ (eWord c.raw 0 + 2 ^ 32 * eWord c.raw 1) % 4096 = 0 ∧ stray c.raw 2 0xFFFF =
      false ∧ 1 ≤ eWord c.raw 2 ∧ (definedTenants s.dev).length ≤ eWord c.raw 2 + 1 ∧ stray c.raw 3 0x800007FF = false)
    ∧ (∃ (s : State) (c : _), s.dev.adminNext 0x96 c ∧ stray c.raw 0 0x80000FFF = false ∧ bit (eWord c.raw 0) 31 = false ∧
      (s.dev.ten (eWord c.raw 0 % 4096)).defined = true)
    ∧ (∃ (s : State), metersWritten s.dev = true ∧ s.dev.mt.lastMinute < s.dev.tm.device / 60000000000)
    ∧ (∃ (s : State), metersWritten s.dev = false)
    ∧ (∃ (s : State), s.dev.coreUp = true ∧ s.dev.inMode .eclipse = false ∧ s.dev.inMode .mirror = false)
    ∧ (∃ (s : State) (q : _) (recs : _) (r : _), s.dev.mt.backlog = (q, recs) :: r ∧ s.dev.mt.enabled = true ∧ metersWritten s.dev
      = true ∧ rCount s.dev.mt.depth (s.dev.val Fam.meterRingHead) (s.dev.val Fam.meterRingTail) + recs.length ≤ s.dev.mt.depth)
    ∧ (∃ (s : State) (who : Master) (v : Word), s.dev.accepts who Fam.meterRingHead 0 ∧ meterHeadOk (BitVec.toNat v) s.dev = true)
    ∧ (∃ (s : State) (who : Master) (v : Word), s.dev.accepts who Fam.meterRingHead 0 ∧ meterHeadOk (BitVec.toNat v) s.dev = false) :=
  ⟨⟨⟨[], holding [ctx0 (entry 0x8b 0 0 0 [2, 100, 100, 0, 0, 520])] (T .solo)⟩, (ctx0 (entry 0x8b 0 0 0 [2, 100, 100, 0, 0,
      520])), by decide +kernel⟩,
    ⟨⟨[], holding [ctx0 (entry 0x8b 0 0 0 [0x80000002])] (T .solo)⟩, (ctx0 (entry 0x8b 0 0 0 [0x80000002])), 2, by decide +kernel⟩,
    ⟨⟨[], holding [ctx0 (entry 0x8b 0 0 0 [0x80000001])] (store arr0)⟩, (ctx0 (entry 0x8b 0 0 0 [0x80000001])), 1, by
      decide +kernel⟩,
    ⟨⟨[], holding [ctx0 (entry 0x8b 0 0 0 [0x80000001])] ({ store arr0 with vols := [] })⟩, (ctx0 (entry 0x8b 0 0 0 [0x80000001])),
      1, by decide +kernel⟩,
    ⟨⟨[], holding [ctx0 (entry 0x8c 0 0 0 [16, 1, 64])] (store arr0)⟩, (ctx0 (entry 0x8c 0 0 0 [16, 1, 64])), by decide +kernel⟩,
    ⟨⟨[], holding [ctx0 (entry 0x8c 0 0 0 [0x80000010])]
      ({ store arr0 with cm := { Commands.empty with slots := [(0, 16384)] } })⟩, (ctx0 (entry 0x8c 0 0 0 [0x80000010])), by
      decide +kernel⟩,
    ⟨⟨[], holding [ctx0 (entry 0x8c 0 0 0 [0x80000010])] (store arr0)⟩, (ctx0 (entry 0x8c 0 0 0 [0x80000010])), by decide +kernel⟩,
    ⟨⟨[], holding [ctx0 (entry 0x8d 0 0 0 [1])] ({ store arr0 with tenants := [(1, { ten1 with isolated := true })] })⟩, (ctx0
      (entry 0x8d 0 0 0 [1])), 1, by decide +kernel⟩,
    ⟨⟨[], holding [ctx0 (entry 0x8d 0 0 0 [1])] (store arr0)⟩, (ctx0 (entry 0x8d 0 0 0 [1])), 1, by decide +kernel⟩,
    ⟨⟨[], { store arr0 with cm := { Commands.empty with isolating := some (1, 0, 0) } }⟩, 1, 0, 0, by decide +kernel⟩,
    ⟨⟨[], holding [ctx0 (entry 0x8e 0 0 0 [1])] (store arr0)⟩, (ctx0 (entry 0x8e 0 0 0 [1])), 1, by decide +kernel⟩,
    ⟨⟨[], holding [ctx0 (entry 0x97 0 0 0 [0, 0, 999999999])] (store arr0)⟩, (ctx0 (entry 0x97 0 0 0 [0, 0, 999999999])), by
      decide +kernel⟩,
    ⟨⟨[], holding [ctx0 (entry 0x95 0 0 0 [0x1000, 0, 0xFFFF, 0x800007FF])] (store arr0)⟩, (ctx0 (entry 0x95 0 0 0 [0x1000, 0,
      0xFFFF, 0x800007FF])), by decide +kernel⟩,
    ⟨⟨[], holding [ctx0 (entry 0x96 0 0 0 [1])] (store arr0)⟩, (ctx0 (entry 0x96 0 0 0 [1])), by decide +kernel⟩,
    ⟨⟨[], { T .solo with tm := { TimeState.zero with device := 60000000000 } }⟩, by decide +kernel⟩,
    ⟨⟨[], T .mirror⟩, by decide +kernel⟩,
    ⟨⟨[], T .solo⟩, by decide +kernel⟩,
    ⟨⟨[], { T .solo with mt := { Meter.off with depth := 16, enabled := true, backlog := [(0, [[]])] } }⟩, 0, ([[]]), ([]), by
      decide +kernel⟩,
    ⟨⟨[], ({ T .solo with mt := { Meter.off with depth := 16, enabled := true, backlog := [(0, [[]])] } }).setVal Fam.meterRingTail
      0 1⟩, .admin, 1, by decide +kernel⟩,
    ⟨⟨[], ({ T .solo with mt := { Meter.off with depth := 16, enabled := true, backlog := [(0, [[]])] } }).setVal Fam.meterRingTail
      0 1⟩, .admin, 2, by decide +kernel⟩⟩

theorem witness_BeamsMapAndCleanerSteps :
    (∃ (s : State) (id : _) (k : Nat) (c : _) (p : Piece), s.dev.ctx? id = some c ∧ c.units[k]? = some p ∧ c.phase = .started ∧
      eOpcode c.raw = opWrite ∧ p.st = .reading ∧ s.dev.hostRuns = true)
    ∧ (∃ (s : State) (id : _) (k : Nat) (c : Ctx) (p : Piece) (seq : Nat) (v : Vol), s.dev.ctx? id = some c ∧ c.units[k]? = some p
      ∧ p.st = .placed seq ∧ p.again = true ∧ s.dev.vol? (eVolume c.raw) = some v ∧ s.dev.hostRuns = true)
    ∧ (∃ (s : State) (id : _) (c : _) (e : _), s.dev.ctx? id = some c ∧ c.phase = .started ∧ s.dev.hostRuns = true ∧ eOpcode c.raw
      ≠ 0x84 ∧ c.stopping = false ∧ e =
      (match s.dev.vol? (eVolume c.raw) with | some v => replaceAll v.array s.dev | none => s.dev))
    ∧ (∃ (s : State) (id : _) (c : _), s.dev.ctx? id = some c ∧ c.phase = .started ∧ s.dev.hostRuns = true ∧ eOpcode c.raw = 0x84)
    ∧ (∃ (s : State) (a : _) (n : Nat) (x : _) (b : _), s.dev.arr? a = some x ∧ x.beams.find? (·.num == n) = some b ∧ commitReady
      s.dev x b = true)
    ∧ (∃ (s : State) (a : _) (n : Nat) (x : _) (b : _), s.dev.arr? a = some x ∧ x.beams.find? (·.num == n) = some b ∧ commitReady
      s.dev x b = false)
    ∧ (∃ (s : State), s.dev.executing = true ∧ s.dev.memberIo = true ∧ s.dev.ms.checkpoint = false)
    ∧ (∃ (s : State) (p : Nat × Nat), s.dev.executing = true ∧ s.dev.ms.checkpoint = true ∧ pagesBusy s.dev = false ∧ p ∈
      s.dev.ms.unwritten ∧ p.1 < 16384)
    ∧ (∃ (a : _) (x : Arr) (m : _) (d : Dev), d.arr? a = some x ∧ x.ckpt = some m)
    ∧ (∃ (s : State) (a : _) (x : _), s.dev.arr? a = some x ∧ x.jdirty ≠ [] ∧ s.dev.executing = true)
    ∧ (∃ (s : State) (a : _) (x : _) (g : _), s.dev.arr? a = some x ∧ sweepsRun s.dev x = true ∧ x.cleanerHold = false ∧
      x.freeSegments * 100 < s.dev.val Fam.cleanerStartFreePct * x.segs ∧ cleanerChoice x = some g)
    ∧ (∃ (s : State) (a : _) (x : _) (g : _) (h : Nat), s.dev.arr? a = some x ∧ cleanerChoice x = some g ∧ (sweepsRun s.dev x =
      false ∨ h ≠ g))
    ∧ (∃ (x : Arr) (g : Nat) (e : Nat × Segment), cleanerChoice x = some g ∧ e ∈ x.seg ∧ e.2.st = .sealed ∧ x.beforeHorizon e.1 =
      true)
    ∧ (∃ (s : State) (a : _) (g : _) (x : _), s.dev.arr? a = some x ∧ segmentReleasable s.dev a x g = true ∧ s.dev.serving = true ∧
      s.dev.executing = true)
    ∧ (∃ (s : State), s.dev.serving = false)
    ∧ (∃ (s : State) (id : _) (j : Job) (x : _) (l : List (Nat × Bool)), s.dev.job? id = some j ∧ s.dev.arr? j.loc.array = some x ∧
      jobClassZero s.dev j = true ∧ isPlatter (x.geom.members.headD 0) = false ∧ s.dev.executing = true ∧ l = (j.reading s.dev
      x).filter (!j.extra.contains ·) ∧ l ≠ [] ∧ (∀ b, (survivors (j.geom x) (j.erased s.dev x b ++ (l.filter (·.2 == b)).map
      (·.1))).isSome = true) ∧ s.dev.val Fam.arrayReadaroundMax j.loc.array ≤ readArounds s.dev j.loc.array)
    ∧ (∃ (s : State) (id : _) (j : Job) (x : _) (l : List (Nat × Bool)), s.dev.job? id = some j ∧ s.dev.arr? j.loc.array = some x ∧
      jobClassZero s.dev j = true ∧ isPlatter (x.geom.members.headD 0) = false ∧ s.dev.executing = true ∧ l = (j.reading s.dev
      x).filter (!j.extra.contains ·) ∧ l ≠ [] ∧ (∀ b, (survivors (j.geom x) (j.erased s.dev x b ++ (l.filter (·.2 == b)).map
      (·.1))).isSome = true) ∧ readArounds s.dev j.loc.array < s.dev.val Fam.arrayReadaroundMax j.loc.array) :=
  ⟨⟨⟨[], holding [{ ctx0 (entry opWrite 0 0 1 []) with phase := .started, units := [{ lba := 0, len := 1, st := .reading }] }]
      (store arr0)⟩, 0, 0,
      ({ ctx0 (entry opWrite 0 0 1 []) with phase := .started, units := [{ lba := 0, len := 1, st := .reading }] }),
      ({ lba := 0, len := 1, st := .reading }), by decide +kernel⟩,
    ⟨⟨[], holding
      [{ ctx0 (entry opWrite 0 0 1 []) with phase := .started, units := [{ lba := 0, len := 1, st := .placed 1, again := true }] }]
      (store arr0)⟩, 0, 0,
      ({ ctx0 (entry opWrite 0 0 1 []) with phase := .started, units := [{ lba := 0, len := 1, st := .placed 1, again := true }] }),
      ({ lba := 0, len := 1, st := .placed 1, again := true }), 1, vol0, by decide +kernel⟩,
    ⟨⟨[], holding [{ ctx0 (entry opWrite 0 0 1 []) with phase := .started, units := [{ lba := 0, len := 1, st := .reading }] }]
      (store arr0)⟩, 0,
      ({ ctx0 (entry opWrite 0 0 1 []) with phase := .started, units := [{ lba := 0, len := 1, st := .reading }] }), _, by
      decide +kernel, by decide +kernel, by decide +kernel, by decide +kernel, by decide +kernel, rfl⟩,
    ⟨⟨[], holding [{ ctx0 (entry 0x84 0 0 1 []) with phase := .started, units := [{ lba := 0, len := 1, st := .reading }] }] (store
      arr0)⟩, 0, ({ ctx0 (entry 0x84 0 0 1 []) with phase := .started, units := [{ lba := 0, len := 1, st := .reading }] }), by
      decide +kernel⟩,
    ⟨⟨[], store
      { arr0 with beams := [{ beam0 0 [] with closed := true, facets := List.replicate 5 .written, journalled := true }] }⟩, 0, 0,
      ({ arr0 with beams := [{ beam0 0 [] with closed := true, facets := List.replicate 5 .written, journalled := true }] }),
      ({ beam0 0 [] with closed := true, facets := List.replicate 5 .written, journalled := true }), by decide +kernel⟩,
    ⟨⟨[], store { arr0 with beams := [beam0 0 []] }⟩, 0, 0, ({ arr0 with beams := [beam0 0 []] }), (beam0 0 []), by decide +kernel⟩,
    ⟨⟨[], T .focus⟩, by decide +kernel⟩,
    ⟨⟨[],
      { store { arr0 with ckpt := some ([], 0, 0, []) } with ms := { (T .solo).ms with checkpoint := true, unwritten := [(0, 0)] } }⟩,
      ((0, 0)), by decide +kernel⟩,
    ⟨0, ({ arr0 with ckpt := some ([], 0, 0, []) }), (([], 0, 0, [])), (store { arr0 with ckpt := some ([], 0, 0, []) }), by
      decide +kernel⟩,
    ⟨⟨[], store { arr0 with jdirty := [0] }⟩, 0, ({ arr0 with jdirty := [0] }), by decide +kernel⟩,
    ⟨⟨[], store { arr0 with segs := 1, seg := [(0, seg0 .sealed [])] }⟩, 0,
      ({ arr0 with segs := 1, seg := [(0, seg0 .sealed [])] }), 0, by decide +kernel⟩,
    ⟨⟨[], store { arr0 with segs := 1, seg := [(0, seg0 .sealed [])], offline := 1 }⟩, 0,
      ({ arr0 with segs := 1, seg := [(0, seg0 .sealed [])], offline := 1 }), 0, 0, by decide +kernel⟩,
    ⟨({ arr0 with seg := [(0, seg0 .sealed [])] }), 0, ((0, seg0 .sealed [])), by decide +kernel⟩,
    ⟨⟨[], store { arr0 with seg := [(0, seg0 .cleaning [])] }⟩, 0, 0, ({ arr0 with seg := [(0, seg0 .cleaning [])] }), by
      decide +kernel⟩,
    ⟨⟨[], T .focus⟩, by decide +kernel⟩,
    ⟨⟨[], (reading arr0).setVal Fam.arrayReadaroundMax 0 0⟩, 0, job0, arr0, _, by decide +kernel, by decide +kernel, by
      decide +kernel, by decide +kernel, by decide +kernel, rfl, by decide +kernel, by decide +kernel, by decide +kernel⟩,
    ⟨⟨[], reading arr0⟩, 0, job0, arr0, _, by decide +kernel, by decide +kernel, by decide +kernel, by decide +kernel, by
      decide +kernel, rfl, by decide +kernel, by decide +kernel, by decide +kernel⟩⟩

theorem witness_VolumesAndKeysAreManaged :
    (∃ (s : State) (c : _) (v : _) (e : _), s.dev.adminNext 0x82 c ∧ v = wVolume c.raw ∧ stray c.raw 0 0x3F3FFF = false ∧
      s.dev.vol? v = none ∧ (s.dev.arr? (bits (eWord c.raw 0) 21 16)).isSome = true ∧ s.dev.arrayOffline (bits (eWord c.raw 0) 21
      16) = false ∧ stray c.raw 1 0xFFF = false ∧ (s.dev.ten (eWord c.raw 1 % 4096)).defined = true ∧ capacityBad s.dev (wCapacity
      c.raw) 0 = false ∧ stray c.raw 4 1 = false ∧ addExtents v (volumeExtents (wCapacity c.raw)) (s.dev.starts c) = some e)
    ∧ (∃ (s : State) (c : _) (v : _) (x : _), s.dev.adminNext 0x83 c ∧ v = wVolume c.raw ∧ s.dev.vol? v = some x ∧ stray c.raw 0
      0x3FFF = false ∧ x.st = .deleting)
    ∧ (∃ (s : State) (c : _) (v : _) (x : _), s.dev.adminNext 0x83 c ∧ v = wVolume c.raw ∧ s.dev.vol? v = some x ∧ stray c.raw 0
      0x3FFF = false ∧ x.st = .ready)
    ∧ (∃ (s : State) (c : _) (v : _) (x : _) (cap : _) (e : _), s.dev.adminNext 0x84 c ∧ v = wVolume c.raw ∧ cap = wCapacity c.raw
      ∧ s.dev.vol? v = some x ∧ stray c.raw 0 0x3FFF = false ∧ capacityBad s.dev cap (pagesOf x.capacity) = false ∧ x.st = .ready ∧
      x.capacity ≤ cap ∧ addExtents v (volumeExtents cap - volumeExtents x.capacity) (s.dev.starts c) = some e)
    ∧ (∃ (s : State) (c : _) (v : _) (x : _) (cap : _), s.dev.adminNext 0x84 c ∧ v = wVolume c.raw ∧ cap = wCapacity c.raw ∧
      s.dev.vol? v = some x ∧ stray c.raw 0 0x3FFF = false ∧ capacityBad s.dev cap (pagesOf x.capacity) = false ∧ x.st = .ready ∧
      cap < x.capacity ∧ volumeBusy s.dev v = true)
    ∧ (∃ (s : State) (c : _) (v : _) (x : _) (cap : _), s.dev.adminNext 0x84 c ∧ v = wVolume c.raw ∧ cap = wCapacity c.raw ∧
      s.dev.vol? v = some x ∧ stray c.raw 0 0x3FFF = false ∧ capacityBad s.dev cap (pagesOf x.capacity) = false ∧ x.st = .ready ∧
      cap < x.capacity ∧ volumeBusy s.dev v = false)
    ∧ (∃ (s : State) (c : _) (x : _), s.dev.adminNext 0x85 c ∧ s.dev.vol? (eVolume c.raw) = some x ∧ stray c.raw 0 0x101 = false ∧
      x.st = .deleting)
    ∧ (∃ (s : State) (c : _) (x : _), s.dev.adminNext 0x85 c ∧ s.dev.vol? (eVolume c.raw) = some x ∧ stray c.raw 0 0x101 = false ∧
      x.st = .ready)
    ∧ (∃ (s : State) (c : _) (x : _), s.dev.adminNext 0x8F c ∧ bit (eWord c.raw 0) 17 = false ∧ adminDescField c.raw = none ∧
      keyVolume s.dev c.raw = some x ∧ x.st = .deleting)
    ∧ (∃ (s : State) (c : _) (bytes : _) (x : _) (b : _), s.dev.adminNext 0x8F c ∧ bit (eWord c.raw 0) 17 = false ∧ adminDescField
      c.raw = none ∧ keyVolume s.dev c.raw = some x ∧ x.st = .ready ∧ adminData c 72 bytes = .inl b)
    ∧ (∃ (s : State) (c : _) (x : _), s.dev.adminNext 0x8F c ∧ bit (eWord c.raw 0) 17 = true ∧ keyVolume s.dev c.raw = some x ∧
      x.st = .deleting)
    ∧ (∃ (s : State) (c : _) (x : _), s.dev.adminNext 0x8F c ∧ bit (eWord c.raw 0) 17 = true ∧ keyVolume s.dev c.raw = some x ∧
      x.st = .ready) :=
  ⟨⟨⟨[], holding [ctx0 (entry 0x82 0 0 0 [1, 1, 1000])] (store arr0)⟩, (ctx0 (entry 0x82 0 0 0 [1, 1, 1000])), 1, (((holding [ctx0
      (entry 0x82 0 0 0 [1, 1, 1000])] (store arr0)).starts (ctx0 (entry 0x82 0 0 0 [1, 1, 1000]))) |> addExtents 1 1 |>.getD (T
      .solo)), by decide +kernel⟩,
    ⟨⟨[], holding [ctx0 (entry 0x83 0 0 0 [0])] ({ store arr0 with vols := [(0, { vol0 with st := .deleting })] })⟩, (ctx0 (entry
      0x83 0 0 0 [0])), 0, ({ vol0 with st := .deleting }), by decide +kernel⟩,
    ⟨⟨[], holding [ctx0 (entry 0x83 0 0 0 [0])] (store arr0)⟩, (ctx0 (entry 0x83 0 0 0 [0])), 0, vol0, by decide +kernel⟩,
    ⟨⟨[], holding [ctx0 (entry 0x84 0 0 0 [0, 0, 1000])] (store arr0)⟩, (ctx0 (entry 0x84 0 0 0 [0, 0, 1000])), 0, vol0, 1000,
      (((holding [ctx0 (entry 0x84 0 0 0 [0, 0, 1000])] (store arr0)).starts (ctx0 (entry 0x84 0 0 0 [0, 0, 1000]))) |> addExtents
      0 0 |>.getD (T .solo)), by decide +kernel⟩,
    ⟨⟨[], holding [ctx0 (entry 0x84 0 0 0 [0, 0, 999]), { ctx0 (entry opRead 0 0 1 []) with id := 1, fn := ⟨0, 1⟩ }] (store arr0)⟩,
      (ctx0 (entry 0x84 0 0 0 [0, 0, 999])), 0, vol0, 999, by decide +kernel⟩,
    ⟨⟨[], holding [ctx0 (entry 0x84 0 0 0 [0, 0, 999])] (store arr0)⟩, (ctx0 (entry 0x84 0 0 0 [0, 0, 999])), 0, vol0, 999, by
      decide +kernel⟩,
    ⟨⟨[], holding [ctx0 (entry 0x85 0 0 0 [0x101])] ({ store arr0 with vols := [(0, { vol0 with st := .deleting })] })⟩, (ctx0
      (entry 0x85 0 0 0 [0x101])), ({ vol0 with st := .deleting }), by decide +kernel⟩,
    ⟨⟨[], holding [ctx0 (entry 0x85 0 0 0 [0x101])] (store arr0)⟩, (ctx0 (entry 0x85 0 0 0 [0x101])), vol0, by decide +kernel⟩,
    ⟨⟨[], holding [ctx0 (buffer 4096 72 (entry 0x8f 0 0 0 [0x10000]))]
      ({ store arr0 with vols := [(0, { vol0 with st := .deleting })] })⟩, (ctx0 (buffer 4096 72 (entry 0x8f 0 0 0 [0x10000]))),
      ({ vol0 with st := .deleting }), by decide +kernel⟩,
    ⟨⟨[], holding [ctx0 (buffer 4096 72 (entry 0x8f 0 0 0 [0x10000]))] (store arr0)⟩, (ctx0 (buffer 4096 72 (entry 0x8f 0 0 0
      [0x10000]))), (.bytes []), vol0, (fitBytes 72 []), by decide +kernel⟩,
    ⟨⟨[], holding [ctx0 (entry 0x8f 0 0 0 [0x20000])] ({ store arr0 with vols := [(0, { vol0 with st := .deleting })] })⟩, (ctx0
      (entry 0x8f 0 0 0 [0x20000])), ({ vol0 with st := .deleting }), by decide +kernel⟩,
    ⟨⟨[], holding [ctx0 (entry 0x8f 0 0 0 [0x20000])] (store arr0)⟩, (ctx0 (entry 0x8f 0 0 0 [0x20000])), vol0, by decide +kernel⟩⟩

theorem witness_ArraysAreCreatedRebuiltReshaped :
    (∃ (s : State) (c : _) (bytes : _) (b : _) (a : _) (shift : _) (g : Geom) (l : _) (e : _), s.dev.adminNext 0x86 c ∧
      adminDescField c.raw = none ∧ a = eWord c.raw 0 % 64 ∧ shift = (if bits (eWord c.raw 1) 20 16 = 0 then 17 else bits (eWord
      c.raw 1) 20 16) ∧ g = wordGeom (bit (eWord c.raw 0) 8) (bits (eWord c.raw 1) 7 0) (bits (eWord c.raw 1) 10 8) ∧ geomOk g
      shift = true ∧ stray c.raw 1 0x1F07FF = false ∧ stray c.raw 0 0x33F = false ∧ s.dev.arr? a = none ∧ adminData c (2 * g.width)
      bytes = .inl b ∧ l = tableEntries g.width b ∧ tableBad s.dev shift l = false ∧ 3 ≤ (mapMembers s.dev).length ∧ addExtents
      (arrayOwner a) (arrayExtents (segmentsOf s.dev shift l)) (s.dev.starts c) = some e)
    ∧ (∃ (s : State) (c : _) (a : _) (x : _), s.dev.adminNext 0x87 c ∧ a = eWord c.raw 0 % 64 ∧ s.dev.arr? a = some x ∧ stray c.raw
      0 0x3F = false ∧ ((s.dev.vols.any fun v => v.2.array == a) = true))
    ∧ (∃ (s : State) (c : _) (a : _) (x : _), s.dev.adminNext 0x87 c ∧ a = eWord c.raw 0 % 64 ∧ s.dev.arr? a = some x ∧ stray c.raw
      0 0x3F = false ∧ ((s.dev.vols.any fun v => v.2.array == a) = false) ∧ x.barrier = none)
    ∧ (∃ (s : State) (c : _) (a : _) (x : _) (k : _) (w : _), s.dev.adminNext 0x87 c ∧ a = eWord c.raw 0 % 64 ∧ s.dev.arr? a = some
      x ∧ stray c.raw 0 0x3F = false ∧ ((s.dev.vols.any fun v => v.2.array == a) = false) ∧ x.barrier = some (k, some w))
    ∧ (∃ (s : State) (c : _) (a : _) (x : _), s.dev.adminNext 0x89 c ∧ bits (eWord c.raw 0) 13 12 = 0 ∧ a = eWord c.raw 0 % 64 ∧
      s.dev.arr? a = some x ∧ rebuildField s.dev c.raw = false ∧ bits (eWord c.raw 0) 9 8 = 1 ∧ stray c.raw 1 0xFF07FF = false ∧
      bits (eWord c.raw 1) 23 16 = 0xFF ∧ bits (eWord c.raw 1) 10 0 = 0x7FF ∧ x.offline = 0 ∧ x.reshaping = false ∧ x.rebuilding =
      false ∧ x.failed s.dev = [])
    ∧ (∃ (s : State) (c : _) (a : _) (x : _), s.dev.adminNext 0x89 c ∧ bits (eWord c.raw 0) 13 12 = 0 ∧ a = eWord c.raw 0 % 64 ∧
      s.dev.arr? a = some x ∧ rebuildField s.dev c.raw = false ∧ bits (eWord c.raw 0) 9 8 = 1 ∧ stray c.raw 1 0xFF07FF = false ∧
      bits (eWord c.raw 1) 23 16 = 0xFF ∧ bits (eWord c.raw 1) 10 0 = 0x7FF ∧ x.offline = 0 ∧ x.reshaping = false ∧ x.rebuilding =
      false ∧ x.failed s.dev ≠ [] ∧ sparesFor s.dev a x = [])
    ∧ (∃ (s : State) (c : _) (a : _) (x : _) (f : _) (fs : _) (sp : _) (sps : _), s.dev.adminNext 0x89 c ∧ bits (eWord c.raw 0) 13
      12 = 0 ∧ a = eWord c.raw 0 % 64 ∧ s.dev.arr? a = some x ∧ rebuildField s.dev c.raw = false ∧ bits (eWord c.raw 0) 9 8 = 1 ∧
      stray c.raw 1 0xFF07FF = false ∧ bits (eWord c.raw 1) 23 16 = 0xFF ∧ bits (eWord c.raw 1) 10 0 = 0x7FF ∧ x.offline = 0 ∧
      x.reshaping = false ∧ x.rebuilding = false ∧ x.failed s.dev = f :: fs ∧ sparesFor s.dev a x = sp :: sps)
    ∧ (∃ (s : State) (c : _) (a : _) (x : _), s.dev.adminNext 0x89 c ∧ bits (eWord c.raw 0) 13 12 = 0 ∧ a = eWord c.raw 0 % 64 ∧
      s.dev.arr? a = some x ∧ rebuildField s.dev c.raw = false ∧ bits (eWord c.raw 0) 9 8 = 0 ∧ relocationFits s.dev a x (x.failed
      s.dev) = true ∧ x.offline = 0 ∧ x.reshaping = false ∧ x.rebuilding = false ∧ x.failed s.dev ≠ [])
    ∧ (∃ (s : State) (c : _) (a : _) (x : _), s.dev.adminNext 0x89 c ∧ a = eWord c.raw 0 % 64 ∧ s.dev.arr? a = some x ∧
      rebuildField s.dev c.raw = false ∧ x.offline = 0 ∧ x.reshaping = false ∧ x.rebuilding = true ∧ x.sweep.isSome = true ∧ bits
      (eWord c.raw 0) 13 12 = 1)
    ∧ (∃ (s : State) (c : _) (a : _) (x : _), s.dev.adminNext 0x89 c ∧ a = eWord c.raw 0 % 64 ∧ s.dev.arr? a = some x ∧
      rebuildField s.dev c.raw = false ∧ x.offline = 0 ∧ x.reshaping = false ∧ x.rebuilding = true ∧ x.sweep.isSome = true ∧ bits
      (eWord c.raw 0) 13 12 = 2)
    ∧ (∃ (s : State) (c : _) (a : _) (x : _), s.dev.adminNext 0x88 c ∧ a = eWord c.raw 0 % 64 ∧ s.dev.arr? a = some x ∧ stray c.raw
      0 0x313F = false ∧ x.offline = 0 ∧ x.sweep = some .reshape ∧ bits (eWord c.raw 0) 13 12 = 1)
    ∧ (∃ (s : State) (c : _) (a : _) (x : _), s.dev.adminNext 0x88 c ∧ a = eWord c.raw 0 % 64 ∧ s.dev.arr? a = some x ∧ stray c.raw
      0 0x313F = false ∧ x.offline = 0 ∧ x.sweep = some .reshape ∧ bits (eWord c.raw 0) 13 12 = 2)
    ∧ (∃ (s : State) (c : _) (a : _) (x : _), s.dev.adminNext 0x88 c ∧ bits (eWord c.raw 0) 13 12 = 0 ∧ a = eWord c.raw 0 % 64 ∧
      s.dev.arr? a = some x ∧ stray c.raw 0 0x313F = false ∧ x.offline ≠ 0)
    ∧ (∃ (s : State) (c : _) (a : _) (x : _), s.dev.adminNext 0x88 c ∧ bits (eWord c.raw 0) 13 12 = 0 ∧ a = eWord c.raw 0 % 64 ∧
      s.dev.arr? a = some x ∧ stray c.raw 0 0x313F = false ∧ x.offline = 0 ∧ x.reshaping = true)
    ∧ (∃ (s : State) (c : _) (a : _) (x : _), s.dev.adminNext 0x88 c ∧ bits (eWord c.raw 0) 13 12 = 0 ∧ a = eWord c.raw 0 % 64 ∧
      s.dev.arr? a = some x ∧ stray c.raw 0 0x313F = false ∧ x.offline = 0 ∧ x.reshaping = false ∧ x.rebuilding = true)
    ∧ (∃ (s : State) (c : _) (bytes : _) (a : _) (x : _) (g : Geom) (g' : Geom) (b : _) (l : _), s.dev.adminNext 0x88 c ∧ bits
      (eWord c.raw 0) 13 12 = 0 ∧ a = eWord c.raw 0 % 64 ∧ s.dev.arr? a = some x ∧ stray c.raw 0 0x313F = false ∧ x.offline = 0 ∧
      x.reshaping = false ∧ x.rebuilding = false ∧ arrayState s.dev x ≠ 4 ∧ g = wordGeom (bit (eWord c.raw 0) 8) (bits (eWord c.raw
      1) 7 0) (bits (eWord c.raw 1) 10 8) ∧ geomOk g x.shift = true ∧ stray c.raw 1 0x7FF = false ∧ adminDescField c.raw = none ∧
      adminData c (2 * g.width) bytes = .inl b ∧ l = tableEntries g.width b ∧ g' =
      { g with k := if g.mirror then 1 else g.k, members := l } ∧ reshapeTableBad s.dev x l = false ∧ capacityFits s.dev a x
      (g'.blocks x.shift) = true) :=
  ⟨⟨⟨[], holding [ctx0 (buffer 4096 12 (entry 0x86 0 0 0 [0, 0x104]))] ({ store arr0 with arrays := [], vols := [] })⟩, (ctx0
      (buffer 4096 12 (entry 0x86 0 0 0 [0, 0x104]))), (.bytes [0, 0, 1, 0, 2, 0, 3, 0, 4, 0]), ([0, 0, 1, 0, 2, 0, 3, 0, 4, 0]),
      0, 17, ({ mirror := false, k := 4, m := 1, members := [], epoch := 1 }), ([0, 1, 2, 3, 4]), (((holding [ctx0 (buffer 0x1000
      12 (entry 0x86 0 0 0 [0, 0x104]))] { store arr0 with arrays := [], vols := [] }).starts (ctx0 (buffer 0x1000 12 (entry 0x86 0
      0 0 [0, 0x104])))) |> addExtents 16384 1 |>.getD (T .solo)), by decide +kernel⟩,
    ⟨⟨[], holding [ctx0 (entry 0x87 0 0 0 [0])] (store arr0)⟩, (ctx0 (entry 0x87 0 0 0 [0])), 0, arr0, by decide +kernel⟩,
    ⟨⟨[], holding [ctx0 (entry 0x87 0 0 0 [0])] ({ store arr0 with vols := [] })⟩, (ctx0 (entry 0x87 0 0 0 [0])), 0, arr0, by
      decide +kernel⟩,
    ⟨⟨[], holding [ctx0 (entry 0x87 0 0 0 [0])] ({ store { arr0 with barrier := some (.relocation, some 7) } with vols := [] })⟩,
      (ctx0 (entry 0x87 0 0 0 [0])), 0, ({ arr0 with barrier := some (.relocation, some 7) }), .relocation, 7, by decide +kernel⟩,
    ⟨⟨[], holding [ctx0 (entry 0x89 0 0 0 [0x100, 0xFF07FF])] (store arr0)⟩, (ctx0 (entry 0x89 0 0 0 [0x100, 0xFF07FF])), 0, arr0,
      by decide +kernel⟩,
    ⟨⟨[], holding [ctx0 (entry 0x89 0 0 0 [0x100, 0xFF07FF])] ((store arr0).setMem 2 { mem0 with st := .failed })⟩, (ctx0 (entry
      0x89 0 0 0 [0x100, 0xFF07FF])), 0, arr0, by decide +kernel⟩,
    ⟨⟨[], holding [ctx0 (entry 0x89 0 0 0 [0x100, 0xFF07FF])] (((store arr0).setMem 2 { mem0 with st := .failed }).setMem 5
      { mem0 with st := .spare })⟩, (ctx0 (entry 0x89 0 0 0 [0x100, 0xFF07FF])), 0, arr0, 2, ([]), 5, ([]), by decide +kernel⟩,
    ⟨⟨[], holding [ctx0 (entry 0x89 0 0 0 [0])] ((store arr0).setMem 2 { mem0 with st := .failed })⟩, (ctx0 (entry 0x89 0 0 0
      [0])), 0, arr0, by decide +kernel⟩,
    ⟨⟨[], holding [ctx0 (entry 0x89 0 0 0 [0x1000])] (store { arr0 with sweep := some .relocation })⟩, (ctx0 (entry 0x89 0 0 0
      [0x1000])), 0, ({ arr0 with sweep := some .relocation }), by decide +kernel⟩,
    ⟨⟨[], holding [ctx0 (entry 0x89 0 0 0 [0x2000])] (store { arr0 with sweep := some .relocation })⟩, (ctx0 (entry 0x89 0 0 0
      [0x2000])), 0, ({ arr0 with sweep := some .relocation }), by decide +kernel⟩,
    ⟨⟨[], holding [ctx0 (entry 0x88 0 0 0 [0x1000])] (store { arr0 with sweep := some .reshape })⟩, (ctx0 (entry 0x88 0 0 0
      [0x1000])), 0, ({ arr0 with sweep := some .reshape }), by decide +kernel⟩,
    ⟨⟨[], holding [ctx0 (entry 0x88 0 0 0 [0x2000])] (store { arr0 with sweep := some .reshape })⟩, (ctx0 (entry 0x88 0 0 0
      [0x2000])), 0, ({ arr0 with sweep := some .reshape }), by decide +kernel⟩,
    ⟨⟨[], holding [ctx0 (entry 0x88 0 0 0 [0])] (store { arr0 with offline := 1 })⟩, (ctx0 (entry 0x88 0 0 0 [0])), 0,
      ({ arr0 with offline := 1 }), by decide +kernel⟩,
    ⟨⟨[], holding [ctx0 (entry 0x88 0 0 0 [0])] (store { arr0 with sweep := some .reshape })⟩, (ctx0 (entry 0x88 0 0 0 [0])), 0,
      ({ arr0 with sweep := some .reshape }), by decide +kernel⟩,
    ⟨⟨[], holding [ctx0 (entry 0x88 0 0 0 [0])] (store { arr0 with sweep := some .relocation })⟩, (ctx0 (entry 0x88 0 0 0 [0])), 0,
      ({ arr0 with sweep := some .relocation }), by decide +kernel⟩,
    ⟨⟨[], holding [ctx0 (buffer 4096 12 (entry 0x88 0 0 0 [0, 0x105]))] (store { arr0 with segs := 128 })⟩, (ctx0 (buffer 4096 12
      (entry 0x88 0 0 0 [0, 0x105]))), (.bytes [0, 0, 1, 0, 2, 0, 3, 0, 4, 0, 5, 0]), 0, ({ arr0 with segs := 128 }),
      ({ mirror := false, k := 5, m := 1, members := [], epoch := 1 }),
      ({ mirror := false, k := 5, m := 1, members := [0, 1, 2, 3, 4, 5], epoch := 1 }), ([0, 0, 1, 0, 2, 0, 3, 0, 4, 0, 5, 0]),
      ([0, 1, 2, 3, 4, 5]), by decide +kernel⟩⟩

theorem witness_BarriersAndSweepsAdvance :
    (∃ (s : State) (a : _) (x : Arr) (k : Barrier) (ctx : Option Nat), s.dev.arr? a = some x ∧ x.barrier = some (k, ctx) ∧ x.beams
      = [] ∧ s.dev.executing = true ∧ x.offline = 0 ∧ x.allPassed = false)
    ∧ (∃ (s : State) (a : _) (x : Arr) (k : Barrier) (ctx : Option Nat), s.dev.arr? a = some x ∧ x.barrier = some (k, ctx) ∧
      x.beams = [] ∧ s.dev.executing = true ∧ x.offline = 0 ∧ x.allPassed = true ∧ barrierPlan s.dev a x k = none)
    ∧ (∃ (s : State) (a : _) (x : _) (k : _) (ctx : _) (p : Barrier) (slot : _) (spare : _), s.dev.arr? a = some x ∧ x.barrier =
      some (k, ctx) ∧ x.beams = [] ∧ s.dev.executing = true ∧ x.offline = 0 ∧ x.allPassed = true ∧ barrierPlan s.dev a x k = some p
      ∧ p = .facet slot spare)
    ∧ (∃ (s : State) (a : _) (x : _) (k : _) (ctx : _) (p : Barrier), s.dev.arr? a = some x ∧ x.barrier = some (k, ctx) ∧ x.beams =
      [] ∧ s.dev.executing = true ∧ x.offline = 0 ∧ x.allPassed = true ∧ barrierPlan s.dev a x k = some p ∧ p = .relocation)
    ∧ (∃ (s : State) (a : _) (x : _) (k : _) (ctx : _) (p : Barrier) (g : _), s.dev.arr? a = some x ∧ x.barrier = some (k, ctx) ∧
      x.beams = [] ∧ s.dev.executing = true ∧ x.offline = 0 ∧ x.allPassed = true ∧ barrierPlan s.dev a x k = some p ∧ p = .reshape
      g)
    ∧ (∃ (d : Dev) (spare : Nat), (d.mem spare).st = .spare)
    ∧ (∃ (d : Dev) (a : Nat) (x : Arr), relocationFits d a x (x.failed d) = false)
    ∧ (∃ (s : State) (a : _) (x : Arr) (k : Barrier) (ctx : Option Nat), s.dev.arr? a = some x ∧ x.barrier = some (k, ctx) ∧
      x.beams ≠ [])
    ∧ (∃ (s : State) (a : _) (x : Arr) (slot : Nat) (m : Nat) (up : Bool), s.dev.arr? a = some x ∧ x.sweep = some (.facet slot m
      up) ∧ sweepsRun s.dev x = true ∧ x.paused = false ∧ x.onHold = false ∧ (s.dev.mem m).st = .target ∧ x.rebuild.isSome = true)
    ∧ (∃ (s : State) (a : _) (x : Arr) (slot : Nat) (m : Nat) (up : Bool), s.dev.arr? a = some x ∧ x.sweep = some (.facet slot m
      up) ∧ sweepsRun s.dev x = true ∧ x.paused = false ∧ x.onHold = false ∧ (s.dev.mem m).st = .target ∧ x.rebuild = none ∧
      x.lacking slot = [])
    ∧ (∃ (s : State) (a : _) (seg : _) (x : _) (slot : _) (m : Nat) (up : _) (g : Nat) (rest : List Nat), s.dev.arr? a = some x ∧
      x.sweep = some (.facet slot m up) ∧ sweepsRun s.dev x = true ∧ x.paused = false ∧ x.onHold = false ∧ (s.dev.mem m).st =
      .target ∧ x.rebuild = none ∧ x.lacking slot = g :: rest ∧ seg ≠ g)
    ∧ (∃ (s : State) (a : _) (g : Nat) (x : _), s.dev.arr? a = some x ∧ (x.sweep = some .relocation ∨ x.sweep = some .reshape) ∧
      sweepsRun s.dev x = true ∧ x.paused = false ∧ x.onHold = false ∧ x.barrier = none ∧ g = s.dev.val Fam.arrayMeridian a ∧
      ((x.segment g).st = .free ∨ (x.segment g).epoch = x.geom.epoch))
    ∧ (∃ (s : State) (a : _) (g : Nat) (x : _), s.dev.arr? a = some x ∧ (x.sweep = some .relocation ∨ x.sweep = some .reshape) ∧
      sweepsRun s.dev x = true ∧ x.paused = false ∧ x.onHold = false ∧ x.barrier = none ∧ g = s.dev.val Fam.arrayMeridian a ∧
      (x.segment g).st = .opened ∧ (x.segment g).epoch ≠ x.geom.epoch)
    ∧ (∃ (s : State) (a : _) (g : Nat) (x : _) (h : _), s.dev.arr? a = some x ∧ (x.sweep = some .relocation ∨ x.sweep = some
      .reshape) ∧ sweepsRun s.dev x = true ∧ x.paused = false ∧ x.onHold = false ∧ x.barrier = none ∧ g = s.dev.val
      Fam.arrayMeridian a ∧ h ≠ g)
    ∧ (∃ (s : State) (a : _) (g : Nat) (x : _), s.dev.arr? a = some x ∧ (x.sweep = some .relocation ∨ x.sweep = some .reshape) ∧
      sweepsRun s.dev x = true ∧ x.paused = false ∧ x.onHold = false ∧ x.barrier = none ∧ g = s.dev.val Fam.arrayMeridian a ∧
      (x.segment g).st = .sealed ∧ (x.segment g).epoch ≠ x.geom.epoch ∧ x.cleaning.contains g = false)
    ∧ (∃ (s : State) (a : _) (x : Arr) (y : _), s.dev.arr? a = some x ∧ (∀ slot m up, x.sweep = some (.facet slot m up) →
      (s.dev.mem m).st ≠ .slow) ∧ (y =
      { x with onHold := false, cleanerHold := false, rebuild := x.rebuild.map fun r => if r.writing then r else { r with checked := false } })
      ∧ (x.cleanerHold || x.onHold) = true ∧ sweepsRun s.dev y = true)
    ∧ (∃ (s : State) (a : _) (x : Arr) (y : _), s.dev.arr? a = some x ∧ (∀ slot m up, x.sweep = some (.facet slot m up) →
      (s.dev.mem m).st ≠ .slow) ∧ (y =
      { x with onHold := false, cleanerHold := false, rebuild := x.rebuild.map fun r => if r.writing then r else { r with checked := false } })
      ∧ ((x.cleanerHold || x.onHold) = false ∨ sweepsRun s.dev y = false))
    ∧ (∃ (s : State) (a : _) (slot : Nat) (x : Arr), s.dev.arr? a = some x ∧ x.rebuildDue.contains slot = true ∧ (x.failed
      s.dev).contains slot = true ∧ s.dev.serving = true)
    ∧ (∃ (s : State) (a : _) (seg : Nat) (off : Nat) (x : Arr) (e : Nat), s.dev.arr? a = some x ∧ sweepsRun s.dev x = true ∧
      s.dev.val Fam.arrayScrubIntervalH a ≠ 0 ∧ off < 64 ∧ e = (x.segment seg).epoch ∧ (x.segment seg).beams.contains off = true ∧
      (∀ b ∈ x.reads, b.use ≠ .scrub))
    ∧ (∃ (s : State) (a : _) (seg : Nat) (off : Nat) (x : Arr) (e : Nat), s.dev.arr? a = some x ∧ sweepsRun s.dev x = true ∧
      s.dev.val Fam.arrayScrubIntervalH a ≠ 0 ∧ off < 64 ∧ e = (x.segment seg).epoch ∧ (x.segment seg).beams.contains off = true ∧
      (∃ b ∈ x.reads, b.use = .scrub))
    ∧ (∃ (s : State) (a : _) (seg : Nat) (off : Nat) (x : Arr) (e : Nat) (i : Nat) (j : Nat), s.dev.arr? a = some x ∧ sweepsRun
      s.dev x = true ∧ s.dev.val Fam.arrayScrubIntervalH a ≠ 0 ∧ off < 64 ∧ e = (x.segment seg).epoch ∧ (x.segment
      seg).beams.contains off = true ∧ (i ≠ x.inst ∨ j ≠ e)) :=
  ⟨⟨⟨[], store { arr0 with barrier := some (.relocation, none), log := [(0, 0, [])] }⟩, 0,
      ({ arr0 with barrier := some (.relocation, none), log := [(0, 0, [])] }), .relocation, none, by decide +kernel⟩,
    ⟨⟨[], store { arr0 with barrier := some (.facet 0 5, none) }⟩, 0, ({ arr0 with barrier := some (.facet 0 5, none) }), (.facet 0
      5), none, by decide +kernel⟩,
    ⟨⟨[], (store { arr0 with barrier := some (.facet 0 5, none) }).setMem 5 { mem0 with st := .spare }⟩, 0,
      ({ arr0 with barrier := some (.facet 0 5, none) }), (.facet 0 5), none, (.facet 0 5), 0, 5, by decide +kernel⟩,
    ⟨⟨[], store { arr0 with barrier := some (.relocation, none) }⟩, 0, ({ arr0 with barrier := some (.relocation, none) }),
      .relocation, none, .relocation, by decide +kernel⟩,
    ⟨⟨[], store { arr0 with barrier := some (.reshape arr0.geom, none) }⟩, 0,
      ({ arr0 with barrier := some (.reshape arr0.geom, none) }), (.reshape arr0.geom), none, (.reshape arr0.geom), arr0.geom, by
      decide +kernel⟩,
    ⟨((store arr0).setMem 5 { mem0 with st := .spare }), 5, by decide +kernel⟩,
    ⟨((store { arr0 with geom := { arr0.geom with k := 2, members := [0, 1, 2] } }).setMem 1 { mem0 with st := .failed }), 0,
      ({ arr0 with geom := { arr0.geom with k := 2, members := [0, 1, 2] } }), by decide +kernel⟩,
    ⟨⟨[], store { arr0 with barrier := some (.relocation, none), beams := [beam0 0 []] }⟩, 0,
      ({ arr0 with barrier := some (.relocation, none), beams := [beam0 0 []] }), .relocation, none, by decide +kernel⟩,
    ⟨⟨[], (store
      { arr0 with sweep := some (.facet 0 5 false), rebuild := some { seg := 0, slot := 0, target := 5, done := [], checked := false, fixes := [], writing := false } }).setMem
      5 { mem0 with st := .target }⟩, 0,
      ({ arr0 with sweep := some (.facet 0 5 false), rebuild := some { seg := 0, slot := 0, target := 5, done := [], checked := false, fixes := [], writing := false } }),
      0, 5, false, by decide +kernel⟩,
    ⟨⟨[], (store { arr0 with sweep := some (.facet 0 5 false) }).setMem 5 { mem0 with st := .target }⟩, 0,
      ({ arr0 with sweep := some (.facet 0 5 false) }), 0, 5, false, by decide +kernel⟩,
    ⟨⟨[], (store { arr0 with sweep := some (.facet 0 5 false), seg := [(3, seg0 .sealed [0])] }).setMem 5
      { mem0 with st := .target }⟩, 0, 0, ({ arr0 with sweep := some (.facet 0 5 false), seg := [(3, seg0 .sealed [0])] }), 0, 5,
      false, 3, ([]), by decide +kernel⟩,
    ⟨⟨[], store { arr0 with sweep := some .reshape }⟩, 0, 0, ({ arr0 with sweep := some .reshape }), by decide +kernel⟩,
    ⟨⟨[], store { arr0 with sweep := some .relocation, seg := [(0, { seg0 .opened [] with epoch := 2 })] }⟩, 0, 0,
      ({ arr0 with sweep := some .relocation, seg := [(0, { seg0 .opened [] with epoch := 2 })] }), by decide +kernel⟩,
    ⟨⟨[], store { arr0 with sweep := some .reshape }⟩, 0, 0, ({ arr0 with sweep := some .reshape }), 1, by decide +kernel⟩,
    ⟨⟨[], store { arr0 with sweep := some .relocation, seg := [(0, { seg0 .sealed [] with epoch := 2 })] }⟩, 0, 0,
      ({ arr0 with sweep := some .relocation, seg := [(0, { seg0 .sealed [] with epoch := 2 })] }), by decide +kernel⟩,
    ⟨⟨[], store { arr0 with sweep := some .reshape, onHold := true }⟩, 0, ({ arr0 with sweep := some .reshape, onHold := true }),
      _, by decide +kernel, (by intro slot m up h; cases h), rfl, by decide +kernel, by decide +kernel⟩,
    ⟨⟨[], store { arr0 with sweep := some .reshape }⟩, 0, ({ arr0 with sweep := some .reshape }), _, by decide +kernel,
      (by intro slot m up h; cases h), rfl, by decide +kernel⟩,
    ⟨⟨[], (store { arr0 with rebuildDue := [2] }).setMem 2 { mem0 with st := .failed }⟩, 0, 2, ({ arr0 with rebuildDue := [2] }),
      by decide +kernel⟩,
    ⟨⟨[], (store { arr0 with seg := [(0, { seg0 .sealed [] with beams := [63] })] }).setVal Fam.arrayScrubIntervalH 0 168⟩, 0, 0,
      63, ({ arr0 with seg := [(0, { seg0 .sealed [] with beams := [63] })] }), 1, by decide +kernel⟩,
    ⟨⟨[], (store
      { arr0 with seg := [(0, { seg0 .sealed [] with beams := [63] })], reads := [{ use := .scrub, beam := 63, unit := 4096, got := [] }] }).setVal
      Fam.arrayScrubIntervalH 0 168⟩, 0, 0, 63,
      ({ arr0 with seg := [(0, { seg0 .sealed [] with beams := [63] })], reads := [{ use := .scrub, beam := 63, unit := 4096, got := [] }] }),
      1, by decide +kernel⟩,
    ⟨⟨[], (store { arr0 with seg := [(0, { seg0 .sealed [] with beams := [63] })] }).setVal Fam.arrayScrubIntervalH 0 168⟩, 0, 0,
      63, ({ arr0 with seg := [(0, { seg0 .sealed [] with beams := [63] })] }), 1, 9, 1, by decide +kernel⟩⟩

theorem witness_MemberSetMovesMembers :
    (∃ (s : State) (c : _) (m : Nat) (w : _), s.dev.adminNext 0x8A c ∧ stray c.raw 0 0xF7FF = false ∧ m = bits (eWord c.raw 0) 10 0
      ∧ w = eWord c.raw 1 ∧ bits (eWord c.raw 0) 15 12 = 0 ∧ stray c.raw 1 0xFF = false ∧ (s.dev.mem m).st ≠ .absent)
    ∧ (∃ (s : State) (c : _) (m : Nat) (w : _), s.dev.adminNext 0x8A c ∧ stray c.raw 0 0xF7FF = false ∧ m = bits (eWord c.raw 0) 10
      0 ∧ w = eWord c.raw 1 ∧ bits (eWord c.raw 0) 15 12 = 0 ∧ stray c.raw 1 0xFF = false ∧ (s.dev.mem m).st = .absent)
    ∧ (∃ (s : State) (c : _) (m : Nat) (w : _), s.dev.adminNext 0x8A c ∧ stray c.raw 0 0xF7FF = false ∧ m = bits (eWord c.raw 0) 10
      0 ∧ w = eWord c.raw 1 ∧ bits (eWord c.raw 0) 15 12 = 1 ∧ stray c.raw 1 0x13F = false ∧ (s.dev.mem m).st = .online ∧
      unassigned s.dev m = true)
    ∧ (∃ (s : State) (c : _) (m : Nat) (w : _), s.dev.adminNext 0x8A c ∧ stray c.raw 0 0xF7FF = false ∧ m = bits (eWord c.raw 0) 10
      0 ∧ w = eWord c.raw 1 ∧ bits (eWord c.raw 0) 15 12 = 1 ∧ stray c.raw 1 0x13F = false ∧ unassigned s.dev m = false)
    ∧ (∃ (s : State) (c : _) (m : Nat) (w : _), s.dev.adminNext 0x8A c ∧ stray c.raw 0 0xF7FF = false ∧ m = bits (eWord c.raw 0) 10
      0 ∧ w = eWord c.raw 1 ∧ bits (eWord c.raw 0) 15 12 = 2 ∧ (s.dev.mem m).st = .spare)
    ∧ (∃ (s : State) (c : _) (m : Nat) (w : _), s.dev.adminNext 0x8A c ∧ stray c.raw 0 0xF7FF = false ∧ m = bits (eWord c.raw 0) 10
      0 ∧ w = eWord c.raw 1 ∧ bits (eWord c.raw 0) 15 12 = 2 ∧ (s.dev.mem m).st = .failed ∧ holdsSlot s.dev m = false)
    ∧ (∃ (s : State) (c : _) (m : Nat) (w : _) (a : _) (slot : _), s.dev.adminNext 0x8A c ∧ stray c.raw 0 0xF7FF = false ∧ m = bits
      (eWord c.raw 0) 10 0 ∧ w = eWord c.raw 1 ∧ bits (eWord c.raw 0) 15 12 = 3 ∧ slotHeld s.dev m = some (a, slot) ∧ (s.dev.mem
      m).st ≠ .failed)
    ∧ (∃ (s : State) (c : _) (m : Nat) (w : _), s.dev.adminNext 0x8A c ∧ stray c.raw 0 0xF7FF = false ∧ m = bits (eWord c.raw 0) 10
      0 ∧ w = eWord c.raw 1 ∧ bits (eWord c.raw 0) 15 12 = 3 ∧ slotHeld s.dev m = none)
    ∧ (∃ (s : State) (c : _) (m : Nat) (w : _), s.dev.adminNext 0x8A c ∧ stray c.raw 0 0xF7FF = false ∧ m = bits (eWord c.raw 0) 10
      0 ∧ w = eWord c.raw 1 ∧ bits (eWord c.raw 0) 15 12 = 4 ∧ (s.dev.mem m).st = .online ∧ unassigned s.dev m = true ∧ isPlatter m
      = false)
    ∧ (∃ (s : State) (c : _) (m : Nat) (w : _), s.dev.adminNext 0x8A c ∧ stray c.raw 0 0xF7FF = false ∧ m = bits (eWord c.raw 0) 10
      0 ∧ w = eWord c.raw 1 ∧ bits (eWord c.raw 0) 15 12 = 4 ∧ isPlatter m = true) :=
  ⟨⟨⟨[], holding [ctx0 (entry 0x8a 0 0 0 [3, 0xFF])] (store arr0)⟩, (ctx0 (entry 0x8a 0 0 0 [3, 0xFF])), _, _, by decide +kernel,
      by decide +kernel, rfl, rfl, by decide +kernel, by decide +kernel, by decide +kernel⟩,
    ⟨⟨[], holding [ctx0 (entry 0x8a 0 0 0 [7, 1])] (store arr0)⟩, (ctx0 (entry 0x8a 0 0 0 [7, 1])), _, _, by decide +kernel, by
      decide +kernel, rfl, rfl, by decide +kernel, by decide +kernel, by decide +kernel⟩,
    ⟨⟨[], holding [ctx0 (entry 0x8a 0 0 0 [0x1005, 1])] (store arr0)⟩, (ctx0 (entry 0x8a 0 0 0 [0x1005, 1])), _, _, by
      decide +kernel, by decide +kernel, rfl, rfl, by decide +kernel, by decide +kernel, by decide +kernel, by decide +kernel⟩,
    ⟨⟨[], holding [ctx0 (entry 0x8a 0 0 0 [0x1002, 0])] (store arr0)⟩, (ctx0 (entry 0x8a 0 0 0 [0x1002, 0])), _, _, by
      decide +kernel, by decide +kernel, rfl, rfl, by decide +kernel, by decide +kernel, by decide +kernel⟩,
    ⟨⟨[], holding [ctx0 (entry 0x8a 0 0 0 [0x2005])] ((store arr0).setMem 5 { mem0 with st := .spare })⟩, (ctx0 (entry 0x8a 0 0 0
      [0x2005])), _, _, by decide +kernel, by decide +kernel, rfl, rfl, by decide +kernel, by decide +kernel⟩,
    ⟨⟨[], holding [ctx0 (entry 0x8a 0 0 0 [0x2005])] ((store arr0).setMem 5 { mem0 with st := .failed })⟩, (ctx0 (entry 0x8a 0 0 0
      [0x2005])), _, _, by decide +kernel, by decide +kernel, rfl, rfl, by decide +kernel, by decide +kernel, by decide +kernel⟩,
    ⟨⟨[], holding [ctx0 (entry 0x8a 0 0 0 [0x3002])] (store arr0)⟩, (ctx0 (entry 0x8a 0 0 0 [0x3002])), _, _, 0, 2, by
      decide +kernel, by decide +kernel, rfl, rfl, by decide +kernel, by decide +kernel, by decide +kernel⟩,
    ⟨⟨[], holding [ctx0 (entry 0x8a 0 0 0 [0x3005])] (store arr0)⟩, (ctx0 (entry 0x8a 0 0 0 [0x3005])), _, _, by decide +kernel, by
      decide +kernel, rfl, rfl, by decide +kernel, by decide +kernel⟩,
    ⟨⟨[], holding [ctx0 (entry 0x8a 0 0 0 [0x4005])] (store arr0)⟩, (ctx0 (entry 0x8a 0 0 0 [0x4005])), _, _, by decide +kernel, by
      decide +kernel, rfl, rfl, by decide +kernel, by decide +kernel, by decide +kernel, by decide +kernel⟩,
    ⟨⟨[], holding [ctx0 (entry 0x8a 0 0 0 [0x47E8])] (store arr0)⟩, (ctx0 (entry 0x8a 0 0 0 [0x47E8])), _, _, by decide +kernel, by
      decide +kernel, rfl, rfl, by decide +kernel, by decide +kernel⟩⟩

theorem witness_MemberCommandsEndAndEscalate :
    (∃ (s : State) (tag : _) (c : MCmd), s.dev.coreUp = true ∧ s.dev.mb.cmds.find? (·.tag == tag) = some c ∧ c.dead = false ∧
      (s.dev.inMode .eclipse && c.forHost) = false ∧ c.write = false)
    ∧ (∃ (s : State) (tag : _) (c : MCmd), s.dev.coreUp = true ∧ s.dev.mb.cmds.find? (·.tag == tag) = some c ∧ c.dead = false ∧
      (s.dev.inMode .eclipse && c.forHost) = false ∧ c.why ≠ .tie)
    ∧ (∃ (s : State) (tag : _) (c : MCmd), s.dev.coreUp = true ∧ s.dev.mb.cmds.find? (·.tag == tag) = some c ∧ c.dead = false ∧
      (s.dev.inMode .eclipse && c.forHost) = false ∧ c.write = true)
    ∧ (∃ (s : State) (tag : _) (c : MCmd), s.dev.mb.cmds.find? (·.tag == tag) = some c ∧ c.dead = false ∧ c.waiting = false ∧
      s.dev.executing = true ∧ s.dev.memberIo = true)
    ∧ (∃ (tag : _) (c : MCmd) (d : Dev), (d.mb.cmds.find? (fun c => c.tag == tag && !c.expired && !c.waiting) = some c) ∧ isPlatter
      c.member = true ∧ (d.mem c.member).st = .online ∧ 1 < d.val Fam.memberFailTimeouts ∧ (d.mem c.member).timeoutAt = [])
    ∧ (∃ (s : State) (m : Nat) (t : Nat) (r : List Nat), s.dev.working = true ∧ (s.dev.mem m).esc = .aborting (t :: r))
    ∧ (∃ (s : State) (m : Nat), s.dev.working = true ∧ (s.dev.mem m).esc = .disabling)
    ∧ (∃ (s : State) (m : Nat), s.dev.working = true ∧ ((s.dev.mem m).esc = .disabling ∨ (s.dev.mem m).esc = .enabling))
    ∧ (∃ (s : State) (m : Nat), s.dev.working = true ∧ (s.dev.mem m).esc = .relinking)
    ∧ (∃ (s : State) (m : Nat), (s.dev.mem m).st = .slow ∧ (s.dev.mem m).queues = true ∧ (s.dev.mem m).unfenced = false ∧
      s.dev.executing = true ∧ (∀ c ∈ s.dev.mb.cmds, c.member = m → c.dead = true ∨ c.why ≠ .probe ∧ c.why ≠ .fence ∧ c.why ≠
      .label))
    ∧ (∃ (s : State) (m : Nat), s.dev.working = true ∧ (s.dev.mem m).st = .absent ∧ holdsSlot s.dev m = true)
    ∧ (∃ (s : State) (port : _) (half : _) (levels : _) (speed : _) (width : _), halfExists s.dev port half = true ∧
      s.dev.unstopped = true ∧ portsRun s.dev = true ∧ levels ≤ 3 ∧ 1 ≤ speed ∧ speed ≤ 5 ∧ (width = 1 ∨ width = 2 ∨ (width = 4 ∧
      s.dev.mb.bifurcated.contains port = false)) ∧ (∀ m, (s.dev.mem m).esc ≠ .disabling))
    ∧ (∃ (s : State) (port : Nat) (half : Nat), s.dev.mb.bifurcated.contains port = false ∧ half ≠ 0)
    ∧ (∃ (s : State) (c : Controller), portsRun s.dev = true ∧ s.dev.unstopped = true ∧ s.dev.mb.dir.find? (·.2 == identOf c) =
      none)
    ∧ (∃ (s : State) (c : Controller) (m : Nat) (i : BitVec 128), portsRun s.dev = true ∧ s.dev.unstopped = true ∧
      s.dev.mb.dir.find? (·.2 == identOf c) = some (m, i) ∧ (s.dev.mem m).st ≠ .absent ∧ (s.dev.mem m).esc = .enabling ∧
      c.rdyInTime = true)
    ∧ (∃ (c : Controller), c.nguid ≠ 0)
    ∧ (∃ (c : Controller), c.nguid = 0)
    ∧ (∃ (c : Controller) (d : Dev), c.nvme = true ∧ halfExists d c.port c.half = true ∧ 3 < c.levels)
    ∧ (∃ (c : Controller) (m : Nat) (r : Nat) (d : Dev), c.nvme = true ∧ halfExists d c.port c.half = true ∧ c.levels ≤ 3 ∧
      d.mb.dir.find? (·.2 == identOf c) = none ∧ directoryIndex d (identOf c) = some m ∧ rejectCode d c false = some r)
    ∧ (∃ (c : Controller) (m : Nat) (d : Dev), c.nvme = true ∧ halfExists d c.port c.half = true ∧ c.levels ≤ 3 ∧ d.mb.dir.find?
      (·.2 == identOf c) = none ∧ directoryIndex d (identOf c) = some m ∧ rejectCode d c false = none ∧ c.foreignResv = false)
    ∧ (∃ (c : Controller) (m : Nat) (d : Dev), c.nvme = true ∧ halfExists d c.port c.half = true ∧ c.levels ≤ 3 ∧ d.mb.dir.find?
      (·.2 == identOf c) = none ∧ directoryIndex d (identOf c) = some m ∧ rejectCode d c false = none ∧ c.foreignResv = true)
    ∧ (∃ (c : Controller) (d : Dev), c.nvme = true ∧ halfExists d c.port c.half = true ∧ c.levels ≤ 3 ∧ d.mb.dir.find? (·.2 ==
      identOf c) = none ∧ directoryIndex d (identOf c) = none ∧ rejectCode d c false = none)
    ∧ (∃ (s : State) (m : Nat), portsRun s.dev = true ∧ isPlatter m = false ∧ (s.dev.mem m).st ≠ .absent ∧ (s.dev.mem m).queues =
      false)
    ∧ (∃ (s : State) (m : Nat) (b : Byte), portsRun s.dev = true ∧ isPlatter m = false ∧ (s.dev.mem m).st ≠ .absent ∧ b.toNat % 8 ≠
      0 ∧ b.toNat / 8 % 8 = 0)
    ∧ (∃ (s : State) (m : Nat) (b : Byte), portsRun s.dev = true ∧ isPlatter m = false ∧ (s.dev.mem m).st ≠ .absent ∧ b.toNat % 8 =
      0 ∧ b.toNat / 8 % 8 ≠ 0)
    ∧ (∃ (s : State) (m : Nat), s.dev.coreUp = true ∧ s.dev.inMode .eclipse = false ∧ isPlatter m = false ∧ (s.dev.mem m).st ≠
      .absent) :=
  ⟨⟨⟨[], { T .solo with mb := { (T .solo).mb with cmds := [probeOf 3] } }⟩, 0, (probeOf 3), by decide +kernel⟩,
    ⟨⟨[], { T .solo with mb := { (T .solo).mb with cmds := [probeOf 3] } }⟩, 0, (probeOf 3), by decide +kernel⟩,
    ⟨⟨[], { T .solo with mb := { (T .solo).mb with cmds := [{ probeOf 3 with write := true, why := .label }] } }⟩, 0,
      ({ probeOf 3 with write := true, why := .label }), by decide +kernel⟩,
    ⟨⟨[], { T .solo with mb := { (T .solo).mb with cmds := [probeOf 3] } }⟩, 0, (probeOf 3), by decide +kernel⟩,
    ⟨0, (probeOf 0x7E8), ({ T .solo with mb := { (T .solo).mb with cmds := [probeOf 0x7E8], tbl := [(0x7E8, mem0)] } }), by
      decide +kernel⟩,
    ⟨⟨[], (T .solo).setMem 3 { mem0 with esc := .aborting [9] }⟩, 3, 9, ([]), by decide +kernel⟩,
    ⟨⟨[], (T .solo).setMem 3 { mem0 with esc := .disabling }⟩, 3, by decide +kernel⟩,
    ⟨⟨[], (T .solo).setMem 3 { mem0 with esc := .enabling }⟩, 3, by decide +kernel⟩,
    ⟨⟨[], (T .solo).setMem 3 { mem0 with esc := .relinking }⟩, 3, by decide +kernel⟩,
    ⟨⟨[], (T .solo).setMem 3 { mem0 with st := .slow }⟩, 3, by decide +kernel⟩,
    ⟨⟨[], (store arr0).setMem 3 Member.absent⟩, 3, by decide +kernel⟩,
    ⟨⟨[], T .solo⟩, 31, 0, 3, 5, 4, by decide +kernel, by decide +kernel, by decide +kernel, by decide +kernel, by decide +kernel,
      by decide +kernel, by decide +kernel, fun _ => (by decide : Escalation.idle ≠ .disabling)⟩,
    ⟨⟨[], T .solo⟩, 0, 1, by decide +kernel⟩,
    ⟨⟨[], T .solo⟩, controller0, by decide +kernel⟩,
    ⟨⟨[], { T .solo with mb := { (T .solo).mb with dir := [(3, 1)], tbl := [(3, { mem0 with esc := .enabling })] } }⟩, controller0,
      3, 1, by decide +kernel⟩,
    ⟨controller0, by decide +kernel⟩,
    ⟨({ controller0 with nguid := 0 }), by decide +kernel⟩,
    ⟨({ controller0 with levels := 4 }), (T .solo), by decide +kernel⟩,
    ⟨({ controller0 with rdyInTime := false }), 0, 1, (T .solo), by decide +kernel⟩,
    ⟨controller0, 0, (T .solo), by decide +kernel⟩,
    ⟨({ controller0 with foreignResv := true }), 0, ((T .solo).setVal Fam.mportPreemptForeign 0 1), by decide +kernel⟩,
    ⟨controller0, (fullDirectory (List.range 2024)), by decide +kernel, by decide +kernel, by decide +kernel,
      fullDirectory_other _ indices, fullDirectory_index _ indices fun _ h => h, by decide +kernel⟩,
    ⟨⟨[], (T .solo).setMem 2023 { mem0 with queues := false }⟩, 2023, by decide +kernel⟩,
    ⟨⟨[], (T .solo).setMem 3 { mem0 with acl := 0 }⟩, 3, 1, by decide +kernel⟩,
    ⟨⟨[], (T .solo).setMem 3 { mem0 with acl := 0 }⟩, 3, 8, by decide +kernel⟩,
    ⟨⟨[], (T .solo).setMem 3 { mem0 with acl := 0 }⟩, 3, by decide +kernel⟩⟩

theorem witness_FrontEndCommandsAreAcknowledged :
    (∃ (n : Nat) (reg : _), n < 24 ∧ 0x800 ≤ reg % 4096)
    ∧ (∃ (n : Nat) (reg : _), n < 24 ∧ reg % 4096 < 0x800)
    ∧ (∃ (s : State) (n : Nat) (khz : _), n < 24 ∧ (s.dev.fe n).gate = false ∧ (s.dev.fe n).clockTag = none ∧ (khz < 600000 ∨
      3600000 < khz))
    ∧ (∃ (s : State) (n : Nat) (khz : _), n < 24 ∧ (s.dev.fe n).gate = false ∧ (s.dev.fe n).clockTag = none ∧ 600000 ≤ khz ∧ khz ≤
      3600000)
    ∧ (∃ (n : Nat) (a : Byte) (b : Byte) (c : Byte), n < 24 ∧ (31 < a.toNat ∨ 31 < b.toNat ∨ 31 < c.toNat))
    ∧ (∃ (n : Nat) (a : Byte) (b : Byte) (c : Byte), n < 24 ∧ a.toNat ≤ 31 ∧ b.toNat ≤ 31 ∧ c.toNat ≤ 31)
    ∧ (∃ (s : State) (n : Nat) (h : _), n < 24 ∧ (s.dev.fe n).gate = false ∧ (feRegister n (s.dev.fe n) 3).toNat ≤ h)
    ∧ (∃ (s : State) (n : Nat) (h : _), n < 24 ∧ (s.dev.fe n).gate = false ∧ h < (feRegister n (s.dev.fe n) 3).toNat)
    ∧ (∃ (s : State) (n : Nat) (x : _), n < 24 ∧ x = s.dev.fe n ∧ (x.gate = true ∨ x.loaded = false ∨ x.moving.isSome = true ∨
      x.clockKhz = 0))
    ∧ (∃ (s : State) (n : Nat) (count : _) (x : _), n < 24 ∧ x = s.dev.fe n ∧ x.gate = false ∧ x.loaded = true ∧ x.moving = none ∧
      0 < x.clockKhz ∧ x.clockKhz < feAhead x count)
    ∧ (∃ (s : State) (n : Nat) (count : _) (x : _), n < 24 ∧ x = s.dev.fe n ∧ x.gate = false ∧ x.loaded = true ∧ x.moving = none ∧
      0 < x.clockKhz ∧ feAhead x count ≤ x.clockKhz)
    ∧ (∃ (s : State) (n : Nat), n < 24 ∧ (s.dev.fe n).moving = none ∧ (s.dev.fe n).gate = false)
    ∧ (∃ (s : State) (n : Nat) (c : WriteEnd), n < 24 ∧ (s.dev.fe n).gate = false ∧ c ≠ .shock)
    ∧ (∃ (s : State) (n : Nat) (c : WriteEnd) (t : _), n < 24 ∧ (s.dev.fe n).gate = true ∧ (s.dev.fe n).writeTag = some t ∧ (c =
      .count0 ∨ c = .endWrite))
    ∧ (∃ (s : State) (n : Nat) (c : WriteEnd) (t : _) (k : _), n < 24 ∧ (s.dev.fe n).gate = true ∧ (s.dev.fe n).writeTag = some t ∧
      feWriteCause c = some k)
    ∧ (∃ (n : Nat) (d : Dev) (e : Dev), (e.fe n).shown = (d.fe n).shown)
    ∧ (∃ (n : Nat) (d : Dev) (e : Dev), (e.fe n).shown ≠ (d.fe n).shown)
    ∧ (∃ (s : State) (n : Nat) (t : _), n < 24 ∧ (s.dev.fe n).settling = true ∧ (s.dev.fe n).clockTag = some t)
    ∧ (∃ (s : State) (n : Nat) (t : _) (up : _), n < 24 ∧ (s.dev.fe n).settling = false ∧ (s.dev.fe n).moving = some (up, t)) :=
  ⟨⟨0, 0xFFF, by decide +kernel⟩,
    ⟨0, 0x7FF, by decide +kernel⟩,
    ⟨⟨[], onFe fe0⟩, 0, 3600001, by decide +kernel⟩,
    ⟨⟨[], onFe fe0⟩, 0, 3600000, by decide +kernel⟩,
    ⟨0, 32, 0, 0, by decide +kernel⟩,
    ⟨0, 31, 31, 31, by decide +kernel⟩,
    ⟨⟨[], onFe fe0⟩, 0, 32, by decide +kernel, by decide +kernel,
      by show (BitVec.ofNat 32 (_ % 32 + 1)).toNat ≤ 32; simp only [BitVec.toNat_ofNat]; omega⟩,
    ⟨⟨[], onFe fe0⟩, 0, 0, by decide +kernel, by decide +kernel,
      by show 0 < (BitVec.ofNat 32 (_ % 32 + 1)).toNat; simp only [BitVec.toNat_ofNat]; omega⟩,
    ⟨⟨[], onFe { fe0 with clockKhz := 0 }⟩, 0, _, by decide +kernel, rfl, by decide +kernel⟩,
    ⟨⟨[], onFe fe0⟩, 0, 600001, _, by decide +kernel, rfl, by decide +kernel, by decide +kernel, by decide +kernel, by
      decide +kernel, by decide +kernel⟩,
    ⟨⟨[], onFe fe0⟩, 0, 600000, _, by decide +kernel, rfl, by decide +kernel, by decide +kernel, by decide +kernel, by
      decide +kernel, by decide +kernel⟩,
    ⟨⟨[], onFe fe0⟩, 0, by decide +kernel⟩,
    ⟨⟨[], onFe fe0⟩, 0, .count0, by decide +kernel⟩,
    ⟨⟨[], onFe feWriting⟩, 0, .count0, 7, by decide +kernel⟩,
    ⟨⟨[], onFe feWriting⟩, 0, .shock, 7, 2, by decide +kernel⟩,
    ⟨0, (T .solo), (T .solo), by decide +kernel⟩,
    ⟨0, (T .solo), (onFe fe0), by decide +kernel⟩,
    ⟨⟨[], onFe { fe0 with settling := true, clockTag := some 7 }⟩, 0, 7, by decide +kernel⟩,
    ⟨⟨[], onFe { fe0 with moving := some (true, 7) }⟩, 0, 7, true, by decide +kernel⟩⟩

theorem witness_FrontEndFollowsItsOwner :
    (∃ (n : Nat) (link : Nat) (seq : Nat) (epoch : Nat) (crc : BitVec 24) (blocks : List DownBlock), n < 24 ∧ link < 2 ∧ crc ≠
      downCrc seq epoch blocks)
    ∧ (∃ (s : State) (n : Nat) (link : Nat) (seq : Nat) (epoch : Nat) (x : _) (y : _), n < 24 ∧ link < 2 ∧ epoch < 65536 ∧ x =
      s.dev.fe n ∧ feInOrder x link (seq % 256) = true ∧ y = (if link = 0 then { x with seqA := some (seq % 256) } else
      { x with seqB := some (seq % 256) }) ∧ x.eMax = none)
    ∧ (∃ (s : State) (n : Nat) (link : Nat) (seq : Nat) (epoch : Nat) (x : _) (y : _), n < 24 ∧ link < 2 ∧ epoch < 65536 ∧ x =
      s.dev.fe n ∧ feInOrder x link (seq % 256) = true ∧ y = (if link = 0 then { x with seqA := some (seq % 256) } else
      { x with seqB := some (seq % 256) }) ∧ x.eMax = some epoch ∧ x.ownerLink = some link)
    ∧ (∃ (s : State) (n : Nat) (link : Nat) (seq : Nat) (epoch : Nat) (x : _) (y : _) (e : _), n < 24 ∧ link < 2 ∧ epoch < 65536 ∧
      x = s.dev.fe n ∧ feInOrder x link (seq % 256) = true ∧ y = (if link = 0 then { x with seqA := some (seq % 256) } else
      { x with seqB := some (seq % 256) }) ∧ x.eMax = some e ∧ epochNewer epoch e = false ∧ (x.ownerLink ≠ some link ∨ epoch ≠ e))
    ∧ (∃ (s : State) (n : Nat) (link : Nat) (seq : Nat) (epoch : Nat) (x : _) (y : _) (e : _), n < 24 ∧ link < 2 ∧ epoch < 65536 ∧
      x = s.dev.fe n ∧ feInOrder x link (seq % 256) = true ∧ y = (if link = 0 then { x with seqA := some (seq % 256) } else
      { x with seqB := some (seq % 256) }) ∧ x.eMax = some e ∧ epochNewer epoch e = true ∧ x.ownerLink = some link)
    ∧ (∃ (s : State) (n : Nat) (link : Nat) (seq : Nat) (epoch : Nat) (x : _) (y : _) (e : _) (d : Dev), n < 24 ∧ link < 2 ∧ epoch
      < 65536 ∧ x = s.dev.fe n ∧ feInOrder x link (seq % 256) = true ∧ y = (if link = 0 then { x with seqA := some (seq % 256) }
      else { x with seqB := some (seq % 256) }) ∧ x.eMax = some e ∧ epochNewer epoch e = true ∧ x.ownerLink ≠ some link ∧ d =
      writeEnds n .ownerChange (s.dev.setFe n y))
    ∧ (∃ (a : _) (b : _), a < 65536 ∧ b < 65536)
    ∧ (∃ (s : State) (n : Nat), n < 24 ∧ (s.dev.fe n).ownerLink = none)
    ∧ (∃ (s : State) (n : Nat), n < 24 ∧ (s.dev.fe n).ownerLink.isSome = true)
    ∧ (∃ (s : State) (n : Nat) (x : _), n < 24 ∧ x = s.dev.fe n ∧ x.lossHold = false)
    ∧ (∃ (s : State) (n : Nat) (x : _), n < 24 ∧ x = s.dev.fe n ∧ x.lossHold = true ∧ x.moving = none)
    ∧ (∃ (s : State) (n : Nat) (x : _) (t : _), n < 24 ∧ x = s.dev.fe n ∧ x.lossHold = true ∧ x.moving = some (false, t))
    ∧ (∃ (s : State) (n : Nat) (x : _) (t : _), n < 24 ∧ x = s.dev.fe n ∧ x.lossHold = true ∧ x.moving = some (true, t)) :=
  ⟨⟨23, 0, 0, 65535, (downCrc 0 65535 [] + 1), ([]), by decide +kernel, by decide +kernel, succ_ne _⟩,
    ⟨⟨[], onFe FrontEnd.idle⟩, 0, 0, 0, 65535, _, _, by decide +kernel, by decide +kernel, by decide +kernel, rfl, by
      decide +kernel, rfl, by decide +kernel⟩,
    ⟨⟨[], onFe fe0⟩, 0, 0, 0, 5, _, _, by decide +kernel, by decide +kernel, by decide +kernel, rfl, by decide +kernel, rfl, by
      decide +kernel, by decide +kernel⟩,
    ⟨⟨[], onFe fe0⟩, 0, 0, 0, 4, _, _, 5, by decide +kernel, by decide +kernel, by decide +kernel, rfl, by decide +kernel, rfl, by
      decide +kernel, by decide +kernel, by decide +kernel⟩,
    ⟨⟨[], onFe fe0⟩, 0, 0, 0, 32772, _, _, 5, by decide +kernel, by decide +kernel, by decide +kernel, rfl, by decide +kernel, rfl,
      by decide +kernel, by decide +kernel, by decide +kernel⟩,
    ⟨⟨[], onFe fe0⟩, 0, 1, 0, 6, _, _, 5, _, by decide +kernel, by decide +kernel, by decide +kernel, rfl, by decide +kernel, rfl,
      by decide +kernel, by decide +kernel, by decide +kernel, rfl⟩,
    ⟨65535, 0, by decide +kernel⟩,
    ⟨⟨[], onFe FrontEnd.idle⟩, 0, by decide +kernel⟩,
    ⟨⟨[], onFe fe0⟩, 0, by decide +kernel⟩,
    ⟨⟨[], onFe fe0⟩, 0, _, by decide +kernel, rfl, by decide +kernel⟩,
    ⟨⟨[], onFe { fe0 with lossHold := true }⟩, 0, _, by decide +kernel, rfl, by decide +kernel, by decide +kernel⟩,
    ⟨⟨[], onFe { fe0 with lossHold := true, moving := some (false, 7) }⟩, 0, _, 7, by decide +kernel, rfl, by decide +kernel, by
      decide +kernel⟩,
    ⟨⟨[], onFe { fe0 with lossHold := true, moving := some (true, 7) }⟩, 0, _, 7, by decide +kernel, rfl, by decide +kernel, by
      decide +kernel⟩⟩

theorem witness_LensLinksAndSectorReads :
    (∃ (s : State) (n : Nat) (seq : Nat) (epoch : Nat) (flags : Nat) (crc : BitVec 24) (blocks : List UpBlock), n < 24 ∧
      s.dev.coreUp = true ∧ crc ≠ upCrc seq epoch flags blocks)
    ∧ (∃ (s : State) (n : Nat) (seq : Nat) (epoch : Nat) (flags : Nat) (blocks : List UpBlock) (e : Dev) (l : _), n < 24 ∧
      s.dev.coreUp = true ∧ l = (s.dev.lens n).gapped seq ∧ (e = blocks.foldl (fun d b => upBlock n d b) (s.dev.setLens n
      { l with lastSeq := some seq, accepted := min 16 (l.accepted + 1), blockLock := true, owner := bit flags 0, parked := bit flags 3, gate := bit flags 2 }))
      ∧ epochNewer epoch (e.val Fam.lensOwnerEpoch) = true ∧ bit flags 0 = false ∧ e.inMode .lead = true)
    ∧ (∃ (s : State) (n : Nat) (seq : Nat) (epoch : Nat) (flags : Nat) (blocks : List UpBlock) (e : Dev) (l : _), n < 24 ∧
      s.dev.coreUp = true ∧ l = (s.dev.lens n).gapped seq ∧ (e = blocks.foldl (fun d b => upBlock n d b) (s.dev.setLens n
      { l with lastSeq := some seq, accepted := min 16 (l.accepted + 1), blockLock := true, owner := bit flags 0, parked := bit flags 3, gate := bit flags 2 }))
      ∧ (epochNewer epoch (e.val Fam.lensOwnerEpoch) = false ∨ bit flags 0 = true ∨ e.inMode .lead = false))
    ∧ (∃ (l : Lens) (q : Nat) (seq : _), l.lastSeq = some q ∧ seq = (q + 1) % 256)
    ∧ (∃ (l : Lens) (q : Nat) (p : Nat) (seq : _), l.lastSeq = some q ∧ seq ≠ (q + 1) % 256 ∧ l.gapAt = none ∧ l.nextSample = some
      p)
    ∧ (∃ (n : Nat) (d : Dev) (tag : _) (op : _), (d.lens n).waiting.find? (·.1 == tag) = some (tag, op) ∧ op ≠ 0x07 ∧ op ≠ 0x0A)
    ∧ (∃ (s : State) (n : Nat) (version : Nat) (low : Word) (high : Word) (serial : Quad) (surfaces : Nat) (tables : List (List
      (List Byte × List Byte))) (copies : List TableCopy) (k : Lens) (q : Dev), n < 24 ∧ s.dev.coreUp = true ∧ (s.dev.lens n).up =
      false ∧ (s.dev.lens n).blockLock = true ∧ 16 ≤ (s.dev.lens n).accepted ∧ serial = moduleSerial low high ∧ (q = (List.range
      6).foldl (fun y r => lensCmd n 0x01 (BitVec.ofNat 44 r) y) s.dev) ∧ k = loadRealloc serial.toNat copies (loadTables
      (surfaceTables surfaces tables) (q.lens n)) ∧ version ≠ 1)
    ∧ (∃ (s : State) (n : Nat) (version : Nat) (low : Word) (high : Word) (serial : Quad) (surfaces : Nat) (tables : List (List
      (List Byte × List Byte))) (copies : List TableCopy) (k : Lens) (q : Dev), n < 24 ∧ s.dev.coreUp = true ∧ (s.dev.lens n).up =
      false ∧ (s.dev.lens n).blockLock = true ∧ 16 ≤ (s.dev.lens n).accepted ∧ serial = moduleSerial low high ∧ (q = (List.range
      6).foldl (fun y r => lensCmd n 0x01 (BitVec.ofNat 44 r) y) s.dev) ∧ k = loadRealloc serial.toNat copies (loadTables
      (surfaceTables surfaces tables) (q.lens n)) ∧ version = 1 ∧ s.dev.working = false)
    ∧ (∃ (s : State) (n : Nat) (version : Nat) (low : Word) (high : Word) (serial : Quad) (surfaces : Nat) (tables : List (List
      (List Byte × List Byte))) (copies : List TableCopy) (k : Lens) (q : Dev), n < 24 ∧ s.dev.coreUp = true ∧ (s.dev.lens n).up =
      false ∧ (s.dev.lens n).blockLock = true ∧ 16 ≤ (s.dev.lens n).accepted ∧ serial = moduleSerial low high ∧ (q = (List.range
      6).foldl (fun y r => lensCmd n 0x01 (BitVec.ofNat 44 r) y) s.dev) ∧ k = loadRealloc serial.toNat copies (loadTables
      (surfaceTables surfaces tables) (q.lens n)) ∧ version = 1 ∧ s.dev.working = true ∧ (surfaceTables surfaces tables).all
      Option.isSome = true)
    ∧ (∃ (s : State) (n : Nat) (version : Nat) (low : Word) (high : Word) (serial : Quad) (surfaces : Nat) (tables : List (List
      (List Byte × List Byte))) (copies : List TableCopy) (k : Lens) (q : Dev), n < 24 ∧ s.dev.coreUp = true ∧ (s.dev.lens n).up =
      false ∧ (s.dev.lens n).blockLock = true ∧ 16 ≤ (s.dev.lens n).accepted ∧ serial = moduleSerial low high ∧ (q = (List.range
      6).foldl (fun y r => lensCmd n 0x01 (BitVec.ofNat 44 r) y) s.dev) ∧ k = loadRealloc serial.toNat copies (loadTables
      (surfaceTables surfaces tables) (q.lens n)) ∧ version = 1 ∧ s.dev.working = true ∧ (surfaceTables surfaces tables).all
      Option.isSome = false)
    ∧ (∃ (s : State) (n : Nat), n < 24 ∧ s.dev.coreUp = true ∧ (s.dev.lens n).up = true)
    ∧ (∃ (s : State) (n : Nat) (r : SectorRead) (l : _) (p : _) (d : Dev), n < 24 ∧ s.dev.executing = true ∧ l = s.dev.lens n ∧ p =
      r.tag.pba ∧ l.up = true ∧ l.parked = false ∧ intendedTag s.dev n p = some r.tag ∧ readsOf s.dev n p ≠ [] ∧ l.rereads.find?
      (·.1 == p) = none ∧ l.irWait.any (·.1 == p) = false ∧ contentLost l p = false ∧ d = s.dev.setLens n
      { l with rereads := l.rereads.filter (·.1 != p) } ∧ (samplesLost l r.span = true ∨ offTrack s.dev r.pes = true))
    ∧ (∃ (s : State) (n : Nat) (r : SectorRead) (l : _) (p : _) (d : Dev), n < 24 ∧ s.dev.executing = true ∧ l = s.dev.lens n ∧ p =
      r.tag.pba ∧ l.up = true ∧ l.parked = false ∧ intendedTag s.dev n p = some r.tag ∧ readsOf s.dev n p ≠ [] ∧ l.rereads.find?
      (·.1 == p) = none ∧ l.irWait.any (·.1 == p) = false ∧ contentLost l p = false ∧ d = s.dev.setLens n
      { l with rereads := l.rereads.filter (·.1 != p) } ∧ samplesLost l r.span = false ∧ offTrack s.dev r.pes = false)
    ∧ (∃ (s : State) (n : Nat) (p : _) (wide : _) (count : _) (kind : _), n < 24 ∧ s.dev.executing = true ∧ (s.dev.lens
      n).rereads.find? (·.1 == p) = some (p, wide, count, kind) ∧ kind = 1)
    ∧ (∃ (s : State) (n : Nat) (p : _) (wide : _) (count : _) (kind : _), n < 24 ∧ s.dev.executing = true ∧ (s.dev.lens
      n).rereads.find? (·.1 == p) = some (p, wide, count, kind) ∧ kind = 2)
    ∧ (∃ (s : State) (a : Nat) (rel : List (Nat × Option IrFacet)) (x : Arr) (beam : Nat) (off : Nat) (l : _) (r : _), s.dev.coreUp
      = true ∧ irFirst s.dev a = some (x, beam, off) ∧ l = relationSectors s.dev x beam off ∧ relationHolds s.dev x beam = true ∧
      s.dev.executing = true ∧ poolFits rel = true ∧ rel.map (·.1) = List.range l.length ∧ relationRead s.dev l rel = true ∧ r =
      irRun a beam (s.dev.val Fam.lensIrRounds) 0 (irParts s.dev l rel) (s.dev.bump Fam.lensIrJobs))
    ∧ (∃ (s : State) (a : Nat) (rel : List (Nat × Option IrFacet)) (x : Arr) (beam : Nat) (off : Nat) (l : _), s.dev.coreUp = true
      ∧ irFirst s.dev a = some (x, beam, off) ∧ l = relationSectors s.dev x beam off ∧ relationHolds s.dev x beam = true ∧
      s.dev.executing = true ∧ relationRead s.dev l rel = false)
    ∧ (∃ (s : State) (a : Nat) (x : Arr) (beam : Nat) (off : Nat) (l : _), s.dev.coreUp = true ∧ irFirst s.dev a = some (x, beam,
      off) ∧ l = relationSectors s.dev x beam off ∧ (relationHolds s.dev x beam = false ∨ s.dev.executing = false))
    ∧ (∃ (d : Dev) (p : IrPart) (a : Attempt) (q : List Int) (r : List (Attempt × List Int)) (t : SectorTag), p.left = some ((a, q)
      :: r) ∧ intendedTag d p.sector.1 p.sector.2 = some t)
    ∧ (∃ (d : Dev) (p : IrPart), irWaits d p.sector.1 p.sector.2 = true ∧ p.saved = none) :=
  ⟨⟨⟨[], T .solo⟩, 0, 0, 1, 0, (upCrc 0 1 0 [] + 1), ([]), by decide +kernel, by decide +kernel, succ_ne _⟩,
    ⟨⟨[], T .lead⟩, 0, 0, 1, 0, ([]), _, _, by decide +kernel, by decide +kernel, rfl, rfl, by decide +kernel, by decide +kernel,
      by decide +kernel⟩,
    ⟨⟨[], onLens lens0⟩, 0, 0, 1, 0, ([]), _, _, by decide +kernel, by decide +kernel, rfl, rfl, by decide +kernel⟩,
    ⟨({ lens0 with lastSeq := some 1 }), 1, 2, by decide +kernel⟩,
    ⟨({ lens0 with lastSeq := some 1, nextSample := some 5 }), 1, 5, 3, by decide +kernel⟩,
    ⟨0, (onLens { lens0 with waiting := [(3, 1)] }), 3, 1, by decide +kernel⟩,
    ⟨⟨[], onLens { lens0 with up := false, blockLock := true, accepted := 16 }⟩, 0, 2, 5, 0, 5, 1, ([]), ([]), _, _, by
      decide +kernel, by decide +kernel, by decide +kernel, by decide +kernel, by decide +kernel, by decide +kernel, rfl, rfl, by
      decide +kernel⟩,
    ⟨⟨[], pw (onLens { lens0 with up := false, blockLock := true, accepted := 16 }) (fun p => { p with mode := some .eclipse })⟩,
      0, 1, 5, 0, 5, 1, ([]), ([]), _, _, by decide +kernel, by decide +kernel, by decide +kernel, by decide +kernel, by
      decide +kernel, by decide +kernel, rfl, rfl, by decide +kernel, by decide +kernel⟩,
    ⟨⟨[], onLens { lens0 with up := false, blockLock := true, accepted := 16 }⟩, 0, 1, 5, 0, 5, 0, ([]), ([]), _, _, by
      decide +kernel, by decide +kernel, by decide +kernel, by decide +kernel, by decide +kernel, by decide +kernel, rfl, rfl, by
      decide +kernel, by decide +kernel, by decide +kernel⟩,
    ⟨⟨[], onLens { lens0 with up := false, blockLock := true, accepted := 16 }⟩, 0, 1, 5, 0, 5, 1, ([]), ([]), _, _, by
      decide +kernel, by decide +kernel, by decide +kernel, by decide +kernel, by decide +kernel, by decide +kernel, rfl, rfl, by
      decide +kernel, by decide +kernel, by decide +kernel⟩,
    ⟨⟨[], onLens lens0⟩, 0, by decide +kernel⟩,
    ⟨⟨[], { onLens { lens0 with lostSpans := [(0, 10)] } with mb := { (T .solo).mb with cmds := [probeOf 0x7E8] } }⟩, 0,
      ({ sector0 with span := (0, 1) }), _, _, _, by decide +kernel, by decide +kernel, rfl, rfl, by decide +kernel, by
      decide +kernel, by decide +kernel, by decide +kernel, by decide +kernel, by decide +kernel, by decide +kernel, rfl, by
      decide +kernel⟩,
    ⟨⟨[], { onLens lens0 with mb := { (T .solo).mb with cmds := [probeOf 0x7E8] } }⟩, 0, sector0, _, _, _, by decide +kernel, by
      decide +kernel, rfl, rfl, by decide +kernel, by decide +kernel, by decide +kernel, by decide +kernel, by decide +kernel, by
      decide +kernel, by decide +kernel, rfl, by decide +kernel, by decide +kernel⟩,
    ⟨⟨[], onLens { lens0 with rereads := [(0, false, 0, 1)] }⟩, 0, 0, false, 0, 1, by decide +kernel⟩,
    ⟨⟨[], onLens { lens0 with rereads := [(0, false, 2, 2)] }⟩, 0, 0, false, 2, 2, by decide +kernel⟩,
    ⟨⟨[],
      { onIr { lens0 with irWait := [(mem0.a0 / 4096, tag0)] } with ls := { (onIr { lens0 with irWait := [(mem0.a0 / 4096, tag0)] }).ls with irHeld := (List.range 4).map fun f => ((f + 1, mem0.a0 / 4096), []) } }⟩,
      0, ((0, some { llrs := [], rounds := [] }) :: (List.range 4).map fun f => (f + 1, none)), arrP, 0, 0, _, _, by
      decide +kernel, by decide +kernel, rfl, by decide +kernel, by decide +kernel, by decide +kernel, by decide +kernel, by
      decide +kernel, rfl⟩,
    ⟨⟨[], onIr { lens0 with irWait := [(mem0.a0 / 4096, tag0)] }⟩, 0, ((0, some { llrs := [], rounds := [] }) :: (List.range 4).map
      fun f => (f + 1, none)), arrP, 0, 0, _, by decide +kernel, by decide +kernel, rfl, by decide +kernel, by decide +kernel, by
      decide +kernel⟩,
    ⟨⟨[], (onIr { lens0 with irWait := [(mem0.a0 / 4096, tag0)] }).setMem 0x7E9 { mem0 with st := .failed }⟩, 0, arrP, 0, 0, _, by
      decide +kernel, by decide +kernel, rfl, by decide +kernel⟩,
    ⟨(onLens lens0),
      ({ sector := (0, 0), llrs := [], left := some [({ user := [], crc := 0, tag := tag0, parity := [] }, [])], saved := none }),
      ({ user := [], crc := 0, tag := tag0, parity := [] }), ([]), ([]), tag0, by decide +kernel⟩,
    ⟨(onIr { lens0 with irWait := [(mem0.a0 / 4096, tag0)] }),
      ({ sector := (0, mem0.a0 / 4096), llrs := [], left := none, saved := none }), by decide +kernel⟩⟩

theorem witness_ZoneTablesAndReallocation :
    (∃ (s : State) (n : Nat) (zone : _) (head : _) (fir : _) (g : _) (o : _) (a : _) (stored : ZoneEntry) (live : ZoneEntry) (r :
      _) (d : Dev), n < 24 ∧ zone < 64 ∧ s.dev.executing = true ∧ s.dev.val Fam.lensAdaptEnable ≠ 0 ∧ (s.dev.lens n).up = true ∧
      tfind (s.dev.lens n).zones (head * 64 + zone) = some (stored, live) ∧ (s.dev.lens n).adaptDue.contains (head * 64 + zone) =
      true ∧ r = adaptEntry stored live fir g o a ∧ d = lensCmd n 0x04 (setReadOperand r.1) (s.dev.setLens n
      { s.dev.lens n with adaptDue := (s.dev.lens n).adaptDue.filter (· != head * 64 + zone), zones := tput (s.dev.lens n).zones (head * 64 + zone) (stored, r.1) })
      ∧ r.2 = false)
    ∧ (∃ (s : State) (n : Nat) (zone : _) (head : _) (fir : _) (g : _) (o : _) (a : _) (stored : ZoneEntry) (live : ZoneEntry) (r :
      _) (d : Dev), n < 24 ∧ zone < 64 ∧ s.dev.executing = true ∧ s.dev.val Fam.lensAdaptEnable ≠ 0 ∧ (s.dev.lens n).up = true ∧
      tfind (s.dev.lens n).zones (head * 64 + zone) = some (stored, live) ∧ (s.dev.lens n).adaptDue.contains (head * 64 + zone) =
      true ∧ r = adaptEntry stored live fir g o a ∧ d = lensCmd n 0x04 (setReadOperand r.1) (s.dev.setLens n
      { s.dev.lens n with adaptDue := (s.dev.lens n).adaptDue.filter (· != head * 64 + zone), zones := tput (s.dev.lens n).zones (head * 64 + zone) (stored, r.1) })
      ∧ r.2 = true)
    ∧ (∃ (s : State) (n : Nat) (zone : _) (head : _), n < 24 ∧ zone < 64 ∧ s.dev.executing = true ∧ (s.dev.lens
      n).adaptDue.contains (head * 64 + zone) = false)
    ∧ (∃ (stored : ZoneEntry) (live : ZoneEntry) (i : _), i < 10 ∧ (live.fir.getD i 0 - stored.fir.getD i 0).natAbs ≤ 16)
    ∧ (∃ (stored : ZoneEntry) (live : ZoneEntry), (live.gain - stored.gain).natAbs ≤ 16)
    ∧ (∃ (s : State) (n : Nat), n < 24 ∧ s.dev.working = true ∧ (s.dev.lens n).up = true ∧ (∃ e ∈ (s.dev.lens n).zones, e.2.1 ≠
      e.2.2) ∧ flushElapsed s.dev (s.dev.lens n).flushedAt = true)
    ∧ (∃ (s : State) (n : Nat), n < 24 ∧ s.dev.working = true ∧ (∀ e ∈ (s.dev.lens n).zones, e.2.1 = e.2.2))
    ∧ (∃ (s : State) (n : Nat) (t : _), n < 24 ∧ (s.dev.lens n).flushedAt = some t ∧ s.dev.tm.now < t + s.dev.val
      Fam.lensTableFlushMin * 60000000000)
    ∧ (∃ (s : State) (n : Nat) (pba : Nat) (dec : Option Block) (p : Place) (z : _), n < 24 ∧ s.dev.executing = true ∧ (s.dev.lens
      n).reported.find? (·.1 == pba) = some (pba, dec) ∧ placeNow (s.dev.lens n) pba = some p ∧ (s.dev.lens n).journal.length <
      1024 ∧ (s.dev.lens n).up = true ∧ liveZone (s.dev.lens n) 0 p.zone = some z ∧ cadenceHeld s.dev (lensMember n) = false ∧
      (s.dev.lens n).realloc.length + (s.dev.lens n).retired.length < 262144 ∧ chooseSpare (s.dev.lens n) z p.head = none)
    ∧ (∃ (s : State) (n : Nat) (pba : Nat) (content : Option Block) (dec : Option Block) (p : Place) (z : _) (sp : _), n < 24 ∧
      s.dev.executing = true ∧ (s.dev.lens n).reported.find? (·.1 == pba) = some (pba, dec) ∧ placeNow (s.dev.lens n) pba = some p
      ∧ (s.dev.lens n).journal.length < 1024 ∧ (s.dev.lens n).up = true ∧ liveZone (s.dev.lens n) 0 p.zone = some z ∧ cadenceHeld
      s.dev (lensMember n) = false ∧ (s.dev.lens n).realloc.length + (s.dev.lens n).retired.length < 262144 ∧ chooseSpare
      (s.dev.lens n) z p.head = some sp ∧ dec = none ∧ content = none)
    ∧ (∃ (s : State) (n : Nat) (pba : Nat) (content : Option Block) (clean : Bool) (dec : Option Block) (p : Place) (z : _) (sp :
      _) (b : Block), n < 24 ∧ s.dev.executing = true ∧ (s.dev.lens n).reported.find? (·.1 == pba) = some (pba, dec) ∧ placeNow
      (s.dev.lens n) pba = some p ∧ (s.dev.lens n).journal.length < 1024 ∧ (s.dev.lens n).up = true ∧ liveZone (s.dev.lens n) 0
      p.zone = some z ∧ cadenceHeld s.dev (lensMember n) = false ∧ (s.dev.lens n).realloc.length + (s.dev.lens n).retired.length <
      262144 ∧ chooseSpare (s.dev.lens n) z p.head = some sp ∧ (dec <|> content) = some b ∧ b.length = 4096 ∧ clean = true)
    ∧ (∃ (s : State) (n : Nat) (pba : Nat) (content : Option Block) (clean : Bool) (dec : Option Block) (p : Place) (z : _) (sp :
      _) (b : Block), n < 24 ∧ s.dev.executing = true ∧ (s.dev.lens n).reported.find? (·.1 == pba) = some (pba, dec) ∧ placeNow
      (s.dev.lens n) pba = some p ∧ (s.dev.lens n).journal.length < 1024 ∧ (s.dev.lens n).up = true ∧ liveZone (s.dev.lens n) 0
      p.zone = some z ∧ cadenceHeld s.dev (lensMember n) = false ∧ (s.dev.lens n).realloc.length + (s.dev.lens n).retired.length <
      262144 ∧ chooseSpare (s.dev.lens n) z p.head = some sp ∧ (dec <|> content) = some b ∧ clean = false)
    ∧ (∃ (s : State) (n : Nat), n < 24 ∧ s.dev.executing = true ∧ cadenceHeld s.dev (lensMember n) = true)
    ∧ (∃ (l : Lens) (z : _) (head : _) (c : _) (h : _) (i : _) (e : Nat × Nat × Nat × Nat × Bool), freeSpare l z head = some (c, h,
      i) ∧ e ∈ l.realloc)
    ∧ (∃ (s : State) (n : Nat), tableDue s.dev n = false)
    ∧ (∃ (s : State) (n : Nat) (l : Lens) (second : Bool) (gen : Nat), n < 24 ∧ s.dev.working = true ∧ l = s.dev.lens n ∧ l.up =
      true ∧ tableDue s.dev n = true ∧ l.journal.any (·.1 == s.dev.val Fam.lensFeSerial n) = true ∧ second = decide (l.copyB <
      l.copyA) ∧ gen = max l.copyA l.copyB + 1) :=
  ⟨⟨⟨[], onLens { lens0 with adaptDue := [0] }⟩, 0, 0, 0, (List.replicate 10 0), 0, 0, 0, zone0, zone0, _, _, by decide +kernel,
      by decide +kernel, by decide +kernel, by decide +kernel, by decide +kernel, by decide +kernel, by decide +kernel, rfl, rfl,
      by decide +kernel⟩,
    ⟨⟨[], onLens { lens0 with zones := [(0, (zone0, { zone0 with gain := 16 }))], adaptDue := [0] }⟩, 0, 0, 0, (List.replicate 10
      0), 127, 0, 0, zone0, ({ zone0 with gain := 16 }), _, _, by decide +kernel, by decide +kernel, by decide +kernel, by
      decide +kernel, by decide +kernel, by decide +kernel, by decide +kernel, rfl, rfl, by decide +kernel⟩,
    ⟨⟨[], onLens lens0⟩, 0, 0, 0, by decide +kernel⟩,
    ⟨zone0, ({ zone0 with fir := List.replicate 10 16 }), 9, by decide +kernel⟩,
    ⟨zone0, ({ zone0 with gain := -16 }), by decide +kernel⟩,
    ⟨⟨[], onLens { lens0 with zones := [(0, (zone0, { zone0 with gain := 1 }))] }⟩, 0, by decide +kernel⟩,
    ⟨⟨[], onLens lens0⟩, 0, by decide +kernel⟩,
    ⟨⟨[], onLens { lens0 with flushedAt := some 0 }⟩, 0, 0, by decide +kernel⟩,
    ⟨⟨[], onLens noSpares⟩, 0, 0, none, ⟨0, 0, 0, 0⟩, ({ zone0 with last := 1, sectors := 1 }), by decide +kernel⟩,
    ⟨⟨[], onLens { lens0 with reported := [(0, none)] }⟩, 0, 0, none, none, ⟨0, 0, 0, 0⟩, zone0, ((998, 0, 0)), by decide +kernel⟩,
    ⟨⟨[], onLens { lens0 with reported := [(0, none)] }⟩, 0, 0, (some (List.replicate 4096 0)), true, none, ⟨0, 0, 0, 0⟩, zone0,
      ((998, 0, 0)), (List.replicate 4096 0), by decide +kernel, by decide +kernel, by decide +kernel, by decide +kernel, by
      decide +kernel, by decide +kernel, by decide +kernel, by decide +kernel, by decide +kernel, by decide +kernel, rfl,
      List.length_replicate, by decide +kernel⟩,
    ⟨⟨[], onLens { lens0 with reported := [(0, none)] }⟩, 0, 0, (some []), false, none, ⟨0, 0, 0, 0⟩, zone0, ((998, 0, 0)), ([]),
      by decide +kernel⟩,
    ⟨⟨[], (platters { arrP with cadenceTo := some 1 } lens0)⟩, 0, by decide +kernel⟩,
    ⟨({ lens0 with realloc := [(5, (998, 0, 0, false))] }), zone0, 0, 998, 0, 1, ((5, (998, 0, 0, false))), by decide +kernel⟩,
    ⟨⟨[], onLens { lens0 with tableAt := some 0 }⟩, 0, by decide +kernel⟩,
    ⟨⟨[], onLens { lens0 with journal := [(0, 1, { pba := 0, cylinder := 0, head := 0, sector := 0, lost := false })] }⟩, 0, _, _,
      _, by decide +kernel, by decide +kernel, rfl, by decide +kernel, by decide +kernel, by decide +kernel, rfl, rfl⟩⟩

theorem witness_ServoShutterAndCadence :
    (∃ (s : State) (n : Nat) (w : Wedge) (l : _) (pes : _), n < 24 ∧ s.dev.coreUp = true ∧ l = s.dev.lens n ∧ pes = pesOf w
      (s.dev.val Fam.lensCylinder n) ∧ (l.up = false ∨ l.parked = true))
    ∧ (∃ (s : State) (n : Nat) (w : Wedge) (l : _) (pes : _), n < 24 ∧ s.dev.coreUp = true ∧ l = s.dev.lens n ∧ pes = pesOf w
      (s.dev.val Fam.lensCylinder n) ∧ l.up = true ∧ l.parked = false ∧ samErrors w.sam ≤ 1 ∧ 0 < w.tAA ∧ w.number < 384 ∧ l.region
      = none ∧ -32768 ≤ pes ∧ pes ≤ 32767)
    ∧ (∃ (s : State) (n : Nat) (w : Wedge) (l : _) (pes : _), n < 24 ∧ s.dev.coreUp = true ∧ l = s.dev.lens n ∧ pes = pesOf w
      (s.dev.val Fam.lensCylinder n) ∧ l.up = true ∧ l.parked = false ∧ (1 < samErrors w.sam ∨ w.tAA = 0 ∨ 384 ≤ w.number) ∧
      l.region = none)
    ∧ (∃ (n : Nat) (pes : Int) (d : Dev), (d.lens n).region.isSome = true ∧ pesAbove pes (d.val Fam.lensShutterPes n) = true ∧
      pesAbove pes (2 * d.val Fam.lensShutterPes n) = false)
    ∧ (∃ (s : State) (n : Nat), n < 24 ∧ s.dev.working = true ∧ (s.dev.lens n).missed < 16)
    ∧ (∃ (s : State) (n : Nat), n < 24 ∧ s.dev.working = true ∧ (s.dev.lens n).up = true ∧ 16 ≤ (s.dev.lens n).missed)
    ∧ (∃ (s : State) (n : Nat) (c : _) (l : _), n < 24 ∧ s.dev.executing = true ∧ l = s.dev.lens n ∧ inService s.dev n = some c ∧
      l.rewrite ≠ [] ∧ s.dev.val Fam.lensShutterRetries ≤ l.shutterRevs + 1 ∧ l.shockHold = false)
    ∧ (∃ (s : State) (n : Nat) (c : _) (l : _), n < 24 ∧ s.dev.executing = true ∧ l = s.dev.lens n ∧ inService s.dev n = some c ∧
      l.rewrite ≠ [] ∧ (l.shutterRevs + 1 < s.dev.val Fam.lensShutterRetries ∨ l.shockHold = true))
    ∧ (∃ (s : State) (n : Nat) (l : Lens) (cyl : _) (head : _) (w : Nat), n < 24 ∧ s.dev.executing = true ∧ l = s.dev.lens n ∧
      l.verifyDue = some (cyl, head, w))
    ∧ (∃ (s : State) (a : _) (x : _), s.dev.executing = true ∧ s.dev.arr? a = some x ∧ isPlatter (x.geom.members.headD 0) = true ∧
      x.cadenceTo.isSome = true)
    ∧ (∃ (s : State) (a : _) (x : _), s.dev.executing = true ∧ s.dev.arr? a = some x ∧ isPlatter (x.geom.members.headD 0) = true ∧
      x.cadenceTo = none ∧ (arrayState s.dev x = 2 ∨ arrayState s.dev x = 3 ∨ arrayState s.dev x = 4) ∧ x.cadence < 7200)
    ∧ (∃ (s : State) (a : _) (x : _), s.dev.executing = true ∧ s.dev.arr? a = some x ∧ isPlatter (x.geom.members.headD 0) = true ∧
      x.cadenceTo = none ∧ arrayState s.dev x = 1 ∧ s.dev.val Fam.lensCadencePolicy = 0 ∧ s.dev.val Fam.lensCadenceFixed =
      x.cadence)
    ∧ (∃ (s : State) (a : _) (x : _) (rpm : _), s.dev.executing = true ∧ s.dev.arr? a = some x ∧ x.cadenceTo = some rpm ∧ (∃ n ∈
      arrayChannels s.dev x, (inService s.dev n).isSome = true))
    ∧ (∃ (s : State) (a : _) (x : _) (rpm : _), s.dev.executing = true ∧ s.dev.arr? a = some x ∧ x.cadenceTo = some rpm ∧ (∀ n ∈
      arrayChannels s.dev x, inService s.dev n = none))
    ∧ (∃ (s : State) (a : _) (x : _) (rpm : _), s.dev.executing = true ∧ s.dev.arr? a = some x ∧ x.cadenceTo = some rpm ∧ (∀ n ∈
      arrayChannels s.dev x, (s.dev.lens n).atSpeed = true ∧ s.dev.val Fam.lensCadenceRpm n = rpm))
    ∧ (∃ (s : State) (a : _) (x : _) (rpm : _), s.dev.executing = true ∧ s.dev.arr? a = some x ∧ x.cadenceTo = some rpm ∧ (∃ n ∈
      arrayChannels s.dev x, (s.dev.lens n).atSpeed = false))
    ∧ (∃ (s : State) (n : Nat), n < 24 ∧ s.dev.working = true ∧ (s.dev.lens n).up = true ∧ (s.dev.lens n).spinning = true ∧
      (s.dev.lens n).atSpeed = false)
    ∧ (∃ (s : State) (n : Nat), n < 24 ∧ s.dev.working = true ∧ (s.dev.lens n).up = true ∧ (s.dev.lens n).spinning = true ∧
      (s.dev.lens n).atSpeed = true) :=
  ⟨⟨⟨[], T .solo⟩, 0, wedge0, _, _, by decide +kernel, by decide +kernel, rfl, rfl, by decide +kernel⟩,
    ⟨⟨[], onLens lens0⟩, 0, wedge0, _, _, by decide +kernel, by decide +kernel, rfl, rfl, by decide +kernel, by decide +kernel, by
      decide +kernel, by decide +kernel, by decide +kernel, by decide +kernel, by decide +kernel, by decide +kernel⟩,
    ⟨⟨[], onLens lens0⟩, 0, ({ wedge0 with sam := 0x1E58 }), _, _, by decide +kernel, by decide +kernel, rfl, rfl, by
      decide +kernel, by decide +kernel, by decide +kernel, by decide +kernel⟩,
    ⟨0, 901, (onLens { lens0 with region := some (1, 0) }), by decide +kernel⟩,
    ⟨⟨[], onLens lens0⟩, 0, by decide +kernel⟩,
    ⟨⟨[], onLens { lens0 with missed := 16 }⟩, 0, by decide +kernel⟩,
    ⟨⟨[], platters arrP { lens0 with rewrite := [0], shutterRevs := 100, cur := some 0 }⟩, 0, (probeOf 0x7E8), _, by
      decide +kernel, by decide +kernel, rfl, by decide +kernel, by decide +kernel, by decide +kernel, by decide +kernel⟩,
    ⟨⟨[], platters arrP { lens0 with rewrite := [0], shockHold := true, cur := some 0 }⟩, 0, (probeOf 0x7E8), _, by decide +kernel,
      by decide +kernel, rfl, by decide +kernel, by decide +kernel, by decide +kernel⟩,
    ⟨⟨[], onLens { lens0 with verifyDue := some (1, 0, 383) }⟩, 0, _, 1, 0, 383, by decide +kernel, by decide +kernel, rfl, by
      decide +kernel⟩,
    ⟨⟨[], platters { arrP with cadenceTo := some 7200 } lens0⟩, 0, ({ arrP with cadenceTo := some 7200 }), by decide +kernel⟩,
    ⟨⟨[], platters { arrP with sweep := some .relocation } lens0⟩, 0, ({ arrP with sweep := some .relocation }), by decide +kernel⟩,
    ⟨⟨[], ((platters { arrP with geom := { arrP.geom with m := 2, members := arrP.geom.members ++ [0x7ED] }, cadence := 7200 }
      lens0).setVal Fam.lensCadencePolicy 0 0).setVal Fam.lensCadenceFixed 0 7200⟩, 0,
      ({ arrP with geom := { arrP.geom with m := 2, members := arrP.geom.members ++ [0x7ED] }, cadence := 7200 }), by
      decide +kernel⟩,
    ⟨⟨[], platters { arrP with cadenceTo := some 7200 } { lens0 with cur := some 0 }⟩, 0, ({ arrP with cadenceTo := some 7200 }),
      7200, by decide +kernel⟩,
    ⟨⟨[], platters { arrP with cadenceTo := some 7200 } lens0⟩, 0, ({ arrP with cadenceTo := some 7200 }), 7200, by decide +kernel⟩,
    ⟨⟨[], (platters { arrP with cadenceTo := some 7200 } { lens0 with atSpeed := true }).setVal Fam.lensCadenceRpm 0 7200⟩, 0,
      ({ arrP with cadenceTo := some 7200 }), 7200, by decide +kernel⟩,
    ⟨⟨[], platters { arrP with cadenceTo := some 7200 } lens0⟩, 0, ({ arrP with cadenceTo := some 7200 }), 7200, by decide +kernel⟩,
    ⟨⟨[], onLens { lens0 with spinning := true }⟩, 0, by decide +kernel⟩,
    ⟨⟨[], onLens { lens0 with spinning := true, atSpeed := true }⟩, 0, by decide +kernel⟩⟩

theorem witness_PairFormsDissolvesAndSwaps :
    (∃ (s : State) (c : _) (d : Dev), s.dev.adminNext 0x92 c ∧ stray c.raw 0 1 = false ∧ d = s.dev.starts c ∧ s.dev.val
      Fam.pairEnable = 0)
    ∧ (∃ (s : State) (c : _) (d : Dev), s.dev.adminNext 0x92 c ∧ stray c.raw 0 1 = false ∧ d = s.dev.starts c ∧ s.dev.val
      Fam.pairEnable ≠ 0 ∧ strapsEqual s.dev = true)
    ∧ (∃ (s : State) (c : _) (d : Dev), s.dev.adminNext 0x92 c ∧ stray c.raw 0 1 = false ∧ d = s.dev.starts c ∧ s.dev.val
      Fam.pairEnable ≠ 0 ∧ strapsEqual s.dev = false ∧ s.dev.transiting = true)
    ∧ (∃ (s : State) (c : _) (d : Dev), s.dev.adminNext 0x92 c ∧ stray c.raw 0 1 = false ∧ d = s.dev.starts c ∧ s.dev.val
      Fam.pairEnable ≠ 0 ∧ strapsEqual s.dev = false ∧ s.dev.transiting = false ∧ s.dev.inMode .focus = true ∧ s.dev.pw.recovering
      ≠ [])
    ∧ (∃ (s : State) (c : _) (d : Dev), s.dev.adminNext 0x92 c ∧ stray c.raw 0 1 = false ∧ d = s.dev.starts c ∧ s.dev.val
      Fam.pairEnable ≠ 0 ∧ strapsEqual s.dev = false ∧ s.dev.transiting = false ∧ s.dev.inMode .focus = true ∧ s.dev.pw.recovering
      = [] ∧ s.dev.pr.linkUp = false ∧ eWord c.raw 0 % 2 = 0)
    ∧ (∃ (s : State) (c : _) (d : Dev), s.dev.adminNext 0x92 c ∧ stray c.raw 0 1 = false ∧ d = s.dev.starts c ∧ s.dev.val
      Fam.pairEnable ≠ 0 ∧ strapsEqual s.dev = false ∧ s.dev.transiting = false ∧ s.dev.inMode .focus = true ∧ s.dev.pw.recovering
      = [] ∧ s.dev.pr.linkUp = false ∧ eWord c.raw 0 % 2 = 1)
    ∧ (∃ (s : State) (c : _) (pl : _) (ps : _) (d : Dev), s.dev.adminNext 0x92 c ∧ stray c.raw 0 1 = false ∧ d = s.dev.starts c ∧
      s.dev.val Fam.pairEnable ≠ 0 ∧ strapsEqual s.dev = false ∧ s.dev.transiting = false ∧ s.dev.inMode .focus = true ∧
      s.dev.pw.recovering = [] ∧ s.dev.pr.linkUp = true ∧ (pl = true ∨ ps = true))
    ∧ (∃ (s : State) (c : _) (pl : _) (ps : _) (d : Dev), s.dev.adminNext 0x92 c ∧ stray c.raw 0 1 = false ∧ d = s.dev.starts c ∧
      s.dev.val Fam.pairEnable ≠ 0 ∧ strapsEqual s.dev = false ∧ s.dev.transiting = false ∧ s.dev.inMode .focus = true ∧
      s.dev.pw.recovering = [] ∧ s.dev.pr.linkUp = true ∧ pl = false ∧ ps = false)
    ∧ (∃ (s : State) (c : _) (d : Dev), s.dev.adminNext 0x92 c ∧ stray c.raw 0 1 = false ∧ d = s.dev.starts c ∧ s.dev.val
      Fam.pairEnable ≠ 0 ∧ strapsEqual s.dev = false ∧ s.dev.transiting = false ∧ s.dev.inMode .solo = true ∧ s.dev.pr.partnerReady
      = true)
    ∧ (∃ (s : State) (c : _) (d : Dev), s.dev.adminNext 0x92 c ∧ stray c.raw 0 1 = false ∧ d = s.dev.starts c ∧ s.dev.val
      Fam.pairEnable ≠ 0 ∧ strapsEqual s.dev = false ∧ s.dev.transiting = false ∧ s.dev.inMode .solo = true ∧ s.dev.pr.partnerReady
      = false)
    ∧ (∃ (s : State) (c : _) (d : Dev), s.dev.adminNext 0x92 c ∧ stray c.raw 0 1 = false ∧ d = s.dev.starts c ∧ s.dev.val
      Fam.pairEnable ≠ 0 ∧ strapsEqual s.dev = false ∧ s.dev.transiting = false ∧ (s.dev.inMode .lead = true ∨ s.dev.inMode .mirror
      = true))
    ∧ (∃ (s : State) (c : _) (d : Dev) (e : _), s.dev.adminNext 0x93 c ∧ s.dev.val Fam.pairEnable ≠ 0 ∧ strapsEqual s.dev = false ∧
      s.dev.pw.trans = none ∧ s.dev.pr.guarding = false ∧ d = s.dev.starts c ∧ e = (if s.dev.pr.linkUp then pairMsg "LEAVE" 0 0 d
      else d) ∧ s.dev.inMode .lead = true)
    ∧ (∃ (s : State) (c : _) (d : Dev) (e : _), s.dev.adminNext 0x93 c ∧ s.dev.val Fam.pairEnable ≠ 0 ∧ strapsEqual s.dev = false ∧
      s.dev.pw.trans = none ∧ s.dev.pr.guarding = false ∧ d = s.dev.starts c ∧ e = (if s.dev.pr.linkUp then pairMsg "LEAVE" 0 0 d
      else d) ∧ s.dev.inMode .mirror = true)
    ∧ (∃ (s : State) (c : _) (d : Dev) (e : _), s.dev.adminNext 0x93 c ∧ s.dev.val Fam.pairEnable ≠ 0 ∧ strapsEqual s.dev = false ∧
      s.dev.pw.trans = none ∧ s.dev.pr.guarding = false ∧ d = s.dev.starts c ∧ e = (if s.dev.pr.linkUp then pairMsg "LEAVE" 0 0 d
      else d) ∧ s.dev.inMode .focus = true ∧ (s.dev.val Fam.pairState = 1 ∨ s.dev.val Fam.pairState = 2))
    ∧ (∃ (s : State) (c : _) (d : Dev) (e : _), s.dev.adminNext 0x93 c ∧ s.dev.val Fam.pairEnable ≠ 0 ∧ strapsEqual s.dev = false ∧
      s.dev.pw.trans = none ∧ s.dev.pr.guarding = false ∧ d = s.dev.starts c ∧ e = (if s.dev.pr.linkUp then pairMsg "LEAVE" 0 0 d
      else d) ∧ s.dev.inMode .focus = true ∧ s.dev.val Fam.pairState = 0)
    ∧ (∃ (s : State) (c : _) (d : Dev) (e : _), s.dev.adminNext 0x93 c ∧ s.dev.val Fam.pairEnable ≠ 0 ∧ strapsEqual s.dev = false ∧
      s.dev.pw.trans = none ∧ s.dev.pr.guarding = false ∧ d = s.dev.starts c ∧ e = (if s.dev.pr.linkUp then pairMsg "LEAVE" 0 0 d
      else d) ∧ s.dev.inMode .solo = true)
    ∧ (∃ (s : State) (c : _), s.dev.adminNext 0x93 c ∧ s.dev.val Fam.pairEnable = 0)
    ∧ (∃ (s : State) (c : _), s.dev.adminNext 0x93 c ∧ s.dev.val Fam.pairEnable ≠ 0 ∧ strapsEqual s.dev = false ∧
      (s.dev.pw.trans.isSome = true ∨ s.dev.pr.guarding = true))
    ∧ (∃ (s : State) (c : _) (d : Dev), s.dev.adminNext 0x94 c ∧ d = s.dev.starts c ∧ (s.dev.val Fam.pairEnable = 0 ∨ (s.dev.inMode
      .lead = false ∧ s.dev.inMode .mirror = false)))
    ∧ (∃ (s : State) (c : _) (d : Dev), s.dev.adminNext 0x94 c ∧ d = s.dev.starts c ∧ s.dev.val Fam.pairEnable ≠ 0 ∧ strapsEqual
      s.dev = false ∧ s.dev.transiting = true ∧ (s.dev.inMode .lead = true ∨ s.dev.inMode .mirror = true))
    ∧ (∃ (s : State) (c : _) (d : Dev), s.dev.adminNext 0x94 c ∧ d = s.dev.starts c ∧ s.dev.val Fam.pairEnable ≠ 0 ∧ strapsEqual
      s.dev = false ∧ s.dev.transiting = false ∧ s.dev.inMode .lead = true ∧ s.dev.val Fam.pairState ≠ 3)
    ∧ (∃ (s : State) (c : _) (d : Dev), s.dev.adminNext 0x94 c ∧ d = s.dev.starts c ∧ s.dev.val Fam.pairEnable ≠ 0 ∧ strapsEqual
      s.dev = false ∧ s.dev.transiting = false ∧ s.dev.inMode .lead = true ∧ s.dev.val Fam.pairState = 3 ∧ s.dev.pr.lease = false)
    ∧ (∃ (s : State) (c : _) (d : Dev), s.dev.adminNext 0x94 c ∧ d = s.dev.starts c ∧ s.dev.val Fam.pairEnable ≠ 0 ∧ strapsEqual
      s.dev = false ∧ s.dev.transiting = false ∧ s.dev.inMode .lead = true ∧ s.dev.val Fam.pairState = 3 ∧ s.dev.pr.lease = true)
    ∧ (∃ (s : State) (c : _) (d : Dev), s.dev.adminNext 0x94 c ∧ d = s.dev.starts c ∧ s.dev.val Fam.pairEnable ≠ 0 ∧ strapsEqual
      s.dev = false ∧ s.dev.transiting = false ∧ s.dev.inMode .mirror = true ∧ s.dev.pr.caughtUp = false)
    ∧ (∃ (s : State) (c : _) (d : Dev), s.dev.adminNext 0x94 c ∧ d = s.dev.starts c ∧ s.dev.val Fam.pairEnable ≠ 0 ∧ strapsEqual
      s.dev = false ∧ s.dev.transiting = false ∧ s.dev.inMode .mirror = true ∧ s.dev.pr.caughtUp = true ∧ s.dev.pr.lease = true)
    ∧ (∃ (s : State), s.dev.adminHead = none ∧ pairedLead s.dev = true ∧ s.dev.pr.lease = true ∧ s.dev.pr.linkUp = true ∧
      s.dev.transiting = false)
    ∧ (∃ (s : State), s.dev.adminHead = none ∧ pairedLead s.dev = true ∧ s.dev.pr.lease = true ∧ s.dev.pr.linkUp = true ∧
      s.dev.transiting = true)
    ∧ (∃ (s : State), s.dev.pw.trans = some (.swap none) ∧ swapDrained s.dev none = true ∧ s.dev.executing = true)
    ∧ (∃ (s : State) (ctx : _), s.dev.pw.trans = some (.swap ctx) ∧ swapDrained s.dev ctx = false)
    ∧ (∃ (s : State) (id : _), s.dev.executing = true ∧ s.dev.pw.trans = some (.swap (some id)))
    ∧ (∃ (s : State) (id : _), s.dev.executing = true ∧ s.dev.pw.trans = some (.swapAsked id))
    ∧ (∃ (s : State) (id : _), s.dev.inMode .mirror = true ∧ (s.dev.pw.trans = none ∨ s.dev.pw.trans = some (.swapAsked id)))
    ∧ (∃ (s : State), s.dev.working = true ∧ s.dev.inMode .mirror = true ∧ s.dev.contending = false)
    ∧ (∃ (s : State), s.dev.working = true ∧ s.dev.inMode .lead = true ∧ s.dev.contending = false)
    ∧ (∃ (s : State), s.dev.working = true ∧ s.dev.inMode .solo = true)
    ∧ (∃ (s : State), s.dev.working = true ∧ s.dev.inMode .focus = true ∧ s.dev.val Fam.pairState = 2 ∧ s.dev.pr.resync = none) :=
  ⟨⟨⟨[], holding [ctx0 (entry 0x92 0 0 0 [0])] (T .focus)⟩, (ctx0 (entry 0x92 0 0 0 [0])), _, by decide +kernel, by
      decide +kernel, rfl, by decide +kernel⟩,
    ⟨⟨[], holding [ctx0 (entry 0x92 0 0 0 [0])] (paired .focus 0 { link0 with partnerStrap := false })⟩, (ctx0 (entry 0x92 0 0 0
      [0])), _, by decide +kernel, by decide +kernel, rfl, by decide +kernel, by decide +kernel⟩,
    ⟨⟨[], holding [ctx0 (entry 0x92 0 0 0 [0])] ((paired .solo 0 link0).setTrans (some .focusDrain))⟩, (ctx0 (entry 0x92 0 0 0
      [0])), _, by decide +kernel, by decide +kernel, rfl, by decide +kernel, by decide +kernel, by decide +kernel⟩,
    ⟨⟨[], holding [ctx0 (entry 0x92 0 0 0 [0])] (pw (paired .focus 0 link0) (fun p => { p with recovering := [0] }))⟩, (ctx0 (entry
      0x92 0 0 0 [0])), _, by decide +kernel, by decide +kernel, rfl, by decide +kernel, by decide +kernel, by decide +kernel, by
      decide +kernel, by decide +kernel⟩,
    ⟨⟨[], holding [ctx0 (entry 0x92 0 0 0 [0])] (paired .focus 0 { link0 with linkUp := false })⟩, (ctx0 (entry 0x92 0 0 0 [0])),
      _, by decide +kernel, by decide +kernel, rfl, by decide +kernel, by decide +kernel, by decide +kernel, by decide +kernel, by
      decide +kernel, by decide +kernel, by decide +kernel⟩,
    ⟨⟨[], holding [ctx0 (entry 0x92 0 0 0 [1])] (paired .focus 0 { link0 with linkUp := false })⟩, (ctx0 (entry 0x92 0 0 0 [1])),
      _, by decide +kernel, by decide +kernel, rfl, by decide +kernel, by decide +kernel, by decide +kernel, by decide +kernel, by
      decide +kernel, by decide +kernel, by decide +kernel⟩,
    ⟨⟨[], holding [ctx0 (entry 0x92 0 0 0 [0])] (paired .focus 0 link0)⟩, (ctx0 (entry 0x92 0 0 0 [0])), false, true, _, by
      decide +kernel, by decide +kernel, rfl, by decide +kernel, by decide +kernel, by decide +kernel, by decide +kernel, by
      decide +kernel, by decide +kernel, by decide +kernel⟩,
    ⟨⟨[], holding [ctx0 (entry 0x92 0 0 0 [0])] (paired .focus 0 link0)⟩, (ctx0 (entry 0x92 0 0 0 [0])), false, false, _, by
      decide +kernel, by decide +kernel, rfl, by decide +kernel, by decide +kernel, by decide +kernel, by decide +kernel, by
      decide +kernel, by decide +kernel, by decide +kernel, by decide +kernel⟩,
    ⟨⟨[], holding [ctx0 (entry 0x92 0 0 0 [0])] (paired .solo 0 { link0 with partnerReady := true })⟩, (ctx0 (entry 0x92 0 0 0
      [0])), _, by decide +kernel, by decide +kernel, rfl, by decide +kernel, by decide +kernel, by decide +kernel, by
      decide +kernel, by decide +kernel⟩,
    ⟨⟨[], holding [ctx0 (entry 0x92 0 0 0 [0])] (paired .solo 0 link0)⟩, (ctx0 (entry 0x92 0 0 0 [0])), _, by decide +kernel, by
      decide +kernel, rfl, by decide +kernel, by decide +kernel, by decide +kernel, by decide +kernel, by decide +kernel⟩,
    ⟨⟨[], holding [ctx0 (entry 0x92 0 0 0 [0])] (paired .lead 3 link0)⟩, (ctx0 (entry 0x92 0 0 0 [0])), _, by decide +kernel, by
      decide +kernel, rfl, by decide +kernel, by decide +kernel, by decide +kernel, by decide +kernel⟩,
    ⟨⟨[], holding [ctx0 (entry 0x93 0 0 0 [])] (paired .lead 3 link0)⟩, (ctx0 (entry 0x93 0 0 0 [])), _, _, by decide +kernel, by
      decide +kernel, by decide +kernel, by decide +kernel, by decide +kernel, rfl, rfl, by decide +kernel⟩,
    ⟨⟨[], holding [ctx0 (entry 0x93 0 0 0 [])] (paired .mirror 3 link0)⟩, (ctx0 (entry 0x93 0 0 0 [])), _, _, by decide +kernel, by
      decide +kernel, by decide +kernel, by decide +kernel, by decide +kernel, rfl, rfl, by decide +kernel⟩,
    ⟨⟨[], holding [ctx0 (entry 0x93 0 0 0 [])] (paired .focus 2 link0)⟩, (ctx0 (entry 0x93 0 0 0 [])), _, _, by decide +kernel, by
      decide +kernel, by decide +kernel, by decide +kernel, by decide +kernel, rfl, rfl, by decide +kernel, by decide +kernel⟩,
    ⟨⟨[], holding [ctx0 (entry 0x93 0 0 0 [])] (paired .focus 0 link0)⟩, (ctx0 (entry 0x93 0 0 0 [])), _, _, by decide +kernel, by
      decide +kernel, by decide +kernel, by decide +kernel, by decide +kernel, rfl, rfl, by decide +kernel, by decide +kernel⟩,
    ⟨⟨[], holding [ctx0 (entry 0x93 0 0 0 [])] (paired .solo 0 link0)⟩, (ctx0 (entry 0x93 0 0 0 [])), _, _, by decide +kernel, by
      decide +kernel, by decide +kernel, by decide +kernel, by decide +kernel, rfl, rfl, by decide +kernel⟩,
    ⟨⟨[], holding [ctx0 (entry 0x93 0 0 0 [])] (T .solo)⟩, (ctx0 (entry 0x93 0 0 0 [])), by decide +kernel⟩,
    ⟨⟨[], holding [ctx0 (entry 0x93 0 0 0 [])] ((paired .lead 3 link0).setTrans (some .focusDrain))⟩, (ctx0 (entry 0x93 0 0 0 [])),
      by decide +kernel⟩,
    ⟨⟨[], holding [ctx0 (entry 0x94 0 0 0 [])] (paired .solo 0 link0)⟩, (ctx0 (entry 0x94 0 0 0 [])), _, by decide +kernel, rfl, by
      decide +kernel⟩,
    ⟨⟨[], holding [ctx0 (entry 0x94 0 0 0 [])] ((paired .lead 3 link0).setTrans (some .focusDrain))⟩, (ctx0 (entry 0x94 0 0 0 [])),
      _, by decide +kernel, rfl, by decide +kernel, by decide +kernel, by decide +kernel, by decide +kernel⟩,
    ⟨⟨[], holding [ctx0 (entry 0x94 0 0 0 [])] (paired .lead 4 link0)⟩, (ctx0 (entry 0x94 0 0 0 [])), _, by decide +kernel, rfl, by
      decide +kernel, by decide +kernel, by decide +kernel, by decide +kernel, by decide +kernel⟩,
    ⟨⟨[], holding [ctx0 (entry 0x94 0 0 0 [])] (paired .lead 3 link0)⟩, (ctx0 (entry 0x94 0 0 0 [])), _, by decide +kernel, rfl, by
      decide +kernel, by decide +kernel, by decide +kernel, by decide +kernel, by decide +kernel, by decide +kernel⟩,
    ⟨⟨[], holding [ctx0 (entry 0x94 0 0 0 [])] (paired .lead 3 { link0 with lease := true })⟩, (ctx0 (entry 0x94 0 0 0 [])), _, by
      decide +kernel, rfl, by decide +kernel, by decide +kernel, by decide +kernel, by decide +kernel, by decide +kernel, by
      decide +kernel⟩,
    ⟨⟨[], holding [ctx0 (entry 0x94 0 0 0 [])] (paired .mirror 3 link0)⟩, (ctx0 (entry 0x94 0 0 0 [])), _, by decide +kernel, rfl,
      by decide +kernel, by decide +kernel, by decide +kernel, by decide +kernel, by decide +kernel⟩,
    ⟨⟨[], holding [ctx0 (entry 0x94 0 0 0 [])] (paired .mirror 3 { link0 with caughtUp := true, lease := true })⟩, (ctx0 (entry
      0x94 0 0 0 [])), _, by decide +kernel, rfl, by decide +kernel, by decide +kernel, by decide +kernel, by decide +kernel, by
      decide +kernel, by decide +kernel⟩,
    ⟨⟨[], paired .lead 3 { link0 with lease := true }⟩, by decide +kernel⟩,
    ⟨⟨[], (paired .lead 3 { link0 with lease := true }).setTrans (some .focusDrain)⟩, by decide +kernel⟩,
    ⟨⟨[], (paired .lead 3 link0).setTrans (some (.swap none))⟩, by decide +kernel⟩,
    ⟨⟨[], (paired .lead 3 { link0 with unacked := [(1, .key 0 none)] }).setTrans (some (.swap none))⟩, none, by decide +kernel⟩,
    ⟨⟨[], (paired .lead 3 link0).setTrans (some (.swap (some 0)))⟩, 0, by decide +kernel⟩,
    ⟨⟨[], (paired .mirror 3 link0).setTrans (some (.swapAsked 0))⟩, 0, by decide +kernel⟩,
    ⟨⟨[], (paired .mirror 3 link0).setTrans (some (.swapAsked 0))⟩, 0, by decide +kernel⟩,
    ⟨⟨[], paired .mirror 3 link0⟩, by decide +kernel⟩,
    ⟨⟨[], paired .lead 3 link0⟩, by decide +kernel⟩,
    ⟨⟨[], paired .solo 0 link0⟩, by decide +kernel⟩,
    ⟨⟨[], paired .focus 2 link0⟩, by decide +kernel⟩⟩

theorem witness_LeaseLinkAndTakeover :
    (∃ (s : State) (strap : _), s.dev.coreUp = true ∧ strap = !s.dev.pw.pairId)
    ∧ (∃ (s : State) (strap : _), s.dev.coreUp = true ∧ strap = s.dev.pw.pairId)
    ∧ (∃ (s : State) (w : _), s.dev.coreUp = true ∧ s.dev.pr.linkUp = true ∧ w < 16)
    ∧ (∃ (s : State), s.dev.inMode .lead = true ∧ s.dev.pr.linkUp = true ∧ s.dev.contending = false ∧ s.dev.softResetting = false)
    ∧ (∃ (s : State) (e : _), s.dev.inMode .mirror = true ∧ s.dev.contending = false ∧ e ≤ ownEpoch s.dev)
    ∧ (∃ (s : State) (e : _), s.dev.inMode .mirror = true ∧ s.dev.contending = false ∧ ownEpoch s.dev < e)
    ∧ (∃ (s : State), s.dev.inMode .focus = true ∧ s.dev.val Fam.pairState = 2)
    ∧ (∃ (s : State) (q : _), s.dev.inMode .lead = true ∧ s.dev.contending = false ∧ s.dev.pr.renewAcked < q ∧ q ≤
      s.dev.pr.renewSeq)
    ∧ (∃ (s : State) (q : _), s.dev.inMode .lead = true ∧ s.dev.contending = false ∧ (q ≤ s.dev.pr.renewAcked ∨ s.dev.pr.renewSeq <
      q))
    ∧ (∃ (s : State), s.dev.inMode .mirror = false)
    ∧ (∃ (s : State) (d : Dev), pairedLead s.dev = true ∧ s.dev.pw.trans = none ∧ d =
      { s.dev with pr := { s.dev.pr with lease := false } } ∧ s.dev.pr.unacked ≠ [])
    ∧ (∃ (s : State), s.dev.pr.unacked = [])
    ∧ (∃ (s : State), s.dev.inMode .mirror = true ∧ s.dev.contending = false ∧ s.dev.fw.activating = none ∧ s.dev.pr.guarding =
      false)
    ∧ (∃ (s : State), s.dev.inMode .mirror = true ∧ s.dev.contending = false ∧ s.dev.fw.activating = none ∧ s.dev.pr.guarding =
      true)
    ∧ (∃ (s : State), s.dev.inMode .mirror = true ∧ s.dev.pr.guarding = true ∧ s.dev.pw.trans = none)
    ∧ (∃ (s : State) (source : _) (ctx : _), s.dev.pw.trans = some (.tie source ctx))
    ∧ (∃ (s : State) (m : Nat), s.dev.inMode .lead = true ∧ memberServes s.dev m = true ∧ (s.dev.mem m).unfenced = true)
    ∧ (∃ (s : State) (m : Nat), s.dev.inMode .lead = true ∧ memberServes s.dev m = true ∧ (s.dev.mem m).unfenced = false ∧
      isPlatter m = false)
    ∧ (∃ (s : State), s.dev.pw.trans = some (.takeover none) ∧ s.dev.working = true ∧ s.dev.pr.partnerReady = false)
    ∧ (∃ (s : State) (d : Dev), (d = { s.dev with arrays := s.dev.arrays.map fun e => (e.1, { e.2 with embargo := [] }) }) ∧
      s.dev.executing = false)
    ∧ (∃ (s : State) (d : Dev), (d = { s.dev with arrays := s.dev.arrays.map fun e => (e.1, { e.2 with embargo := [] }) }) ∧
      s.dev.executing = true) :=
  ⟨⟨⟨[], paired .solo 0 link0⟩, true, by decide +kernel⟩,
    ⟨⟨[], paired .solo 0 link0⟩, false, by decide +kernel⟩,
    ⟨⟨[], paired .lead 3 link0⟩, 15, by decide +kernel⟩,
    ⟨⟨[], paired .lead 3 link0⟩, by decide +kernel⟩,
    ⟨⟨[], paired .mirror 3 link0⟩, 0, by decide +kernel⟩,
    ⟨⟨[], paired .mirror 3 link0⟩, 1, by decide +kernel⟩,
    ⟨⟨[], paired .focus 2 link0⟩, by decide +kernel⟩,
    ⟨⟨[], paired .lead 3 { link0 with renewSeq := 1 }⟩, 1, by decide +kernel⟩,
    ⟨⟨[], paired .lead 3 link0⟩, 1, by decide +kernel⟩,
    ⟨⟨[], paired .lead 3 link0⟩, by decide +kernel⟩,
    ⟨⟨[], paired .lead 3 { link0 with unacked := [(1, .key 0 none)] }⟩, _, by decide +kernel, by decide +kernel, rfl, by
      decide +kernel⟩,
    ⟨⟨[], paired .lead 3 link0⟩, by decide +kernel⟩,
    ⟨⟨[], paired .mirror 3 link0⟩, by decide +kernel⟩,
    ⟨⟨[], paired .mirror 3 { link0 with guarding := true }⟩, by decide +kernel⟩,
    ⟨⟨[], paired .mirror 3 { link0 with guarding := true }⟩, by decide +kernel⟩,
    ⟨⟨[], (paired .mirror 3 link0).setTrans (some (.tie .mirror none))⟩, .mirror, none, by decide +kernel⟩,
    ⟨⟨[], (paired .lead 4 link0).setMem 3 { mem0 with unfenced := true }⟩, 3, by decide +kernel⟩,
    ⟨⟨[], (paired .lead 4 link0).setMem 3 mem0⟩, 3, by decide +kernel⟩,
    ⟨⟨[], (paired .mirror 3 link0).setTrans (some (.takeover none))⟩, by decide +kernel⟩,
    ⟨⟨[], T .dark⟩, _, rfl, by decide +kernel⟩,
    ⟨⟨[], paired .lead 4 link0⟩, _, rfl, by decide +kernel⟩⟩

theorem witness_StreamResyncAndKnownAnswerTest :
    (∃ (s : State) (q : Nat), takesStream s.dev = true ∧ q ≤ s.dev.pr.streamSeen)
    ∧ (∃ (s : State) (q : Nat), takesStream s.dev = true ∧ s.dev.pr.streamSeen + 1 < q)
    ∧ (∃ (s : State) (q : Nat) (i : StreamItem) (d : Dev), takesStream s.dev = true ∧ q = s.dev.pr.streamSeen + 1 ∧ d =
      { s.dev with pr := { s.dev.pr with streamSeen := q } } ∧ itemMismatch i d = none)
    ∧ (∃ (s : State) (q : Nat) (i : StreamItem) (d : Dev) (a : _) (b : _), takesStream s.dev = true ∧ q = s.dev.pr.streamSeen + 1 ∧
      d = { s.dev with pr := { s.dev.pr with streamSeen := q } } ∧ itemMismatch i d = some (a, b))
    ∧ (∃ (s : State), takesStream s.dev = false)
    ∧ (∃ (d : Dev) (i : StreamItem), d.pr.deferred = [] ∧ itemEarly d i = false)
    ∧ (∃ (d : Dev) (i : StreamItem), d.pr.deferred = [] ∧ itemEarly d i = true)
    ∧ (∃ (d : Dev) (v : Nat) (x : Vol), d.vol? v = some x)
    ∧ (∃ (s : State) (q : Nat) (d : Dev), s.dev.serving = true ∧ s.dev.contending = false ∧ (d =
      { s.dev with pr := { s.dev.pr with unacked := s.dev.pr.unacked.filter fun e => !decide (e.1 ≤ q) } }) ∧ (∀ e ∈
      s.dev.pr.unacked, q < e.1))
    ∧ (∃ (s : State) (fromLead : _) (id : _) (d : Dev), s.dev.inMode .focus = true ∧ s.dev.pr.resync = some (fromLead, id) ∧ d =
      (replaceDirectory { s.dev with pr := { s.dev.pr with resync := none, caughtUp := true, lease := fromLead } }).setVal
      Fam.pairResyncPct 0 100 ∧ fromLead = true)
    ∧ (∃ (s : State) (fromLead : _) (id : _) (d : Dev), s.dev.inMode .focus = true ∧ s.dev.pr.resync = some (fromLead, id) ∧ d =
      (replaceDirectory { s.dev with pr := { s.dev.pr with resync := none, caughtUp := true, lease := fromLead } }).setVal
      Fam.pairResyncPct 0 100 ∧ fromLead = false)
    ∧ (∃ (s : State), s.dev.inMode .solo = true)
    ∧ (∃ (s : State), s.dev.inMode .lead = true ∧ s.dev.val Fam.pairState = 4 ∧ s.dev.contending = false)
    ∧ (∃ (s : State), s.dev.inMode .focus = true ∧ s.dev.val Fam.pairState = 2 ∧ s.dev.pr.resync = none)
    ∧ (∃ (s : State) (l : _) (id : _), s.dev.inMode .focus = true ∧ s.dev.val Fam.pairState = 1 ∧ s.dev.pr.resync = some (l, id))
    ∧ (∃ (s : State), s.dev.inMode .mirror = true ∧ s.dev.contending = false ∧ s.dev.pr.guarding = false)
    ∧ (∃ (s : State) (who : Master), s.dev.accepts who Fam.prismKat 0)
    ∧ (∃ (s : State) (failed : _), s.dev.pw.katRunning = true ∧ s.dev.coreUp = true ∧ s.dev.pr.verdict = none ∧ failed = 0) :=
  ⟨⟨⟨[], paired .mirror 3 link0⟩, 0, by decide +kernel⟩,
    ⟨⟨[], paired .mirror 3 link0⟩, 2, by decide +kernel⟩,
    ⟨⟨[], paired .mirror 3 link0⟩, 1, (.arbiter 0), _, by decide +kernel, by decide +kernel, rfl, by decide +kernel⟩,
    ⟨⟨[], paired .mirror 3 link0⟩, 1, (.beam 0 0 false false 0 [] 1 []), _, 0, 0, by decide +kernel, by decide +kernel, rfl, by
      decide +kernel⟩,
    ⟨⟨[], T .solo⟩, by decide +kernel⟩,
    ⟨(T .solo), (.arbiter 0), by decide +kernel⟩,
    ⟨(T .solo), (.key 0 none), by decide +kernel⟩,
    ⟨(store arr0), 0, _, rfl⟩,
    ⟨⟨[], paired .lead 3 link0⟩, 0, _, by decide +kernel, by decide +kernel, rfl, by decide +kernel⟩,
    ⟨⟨[], paired .focus 1 { link0 with resync := some (true, 0) }⟩, true, 0, _, by decide +kernel, by decide +kernel, rfl, by
      decide +kernel⟩,
    ⟨⟨[], paired .focus 1 { link0 with resync := some (false, 0) }⟩, false, 0, _, by decide +kernel, by decide +kernel, rfl, by
      decide +kernel⟩,
    ⟨⟨[], T .solo⟩, by decide +kernel⟩,
    ⟨⟨[], paired .lead 4 link0⟩, by decide +kernel⟩,
    ⟨⟨[], paired .focus 2 link0⟩, by decide +kernel⟩,
    ⟨⟨[], paired .focus 1 { link0 with resync := some (true, 0) }⟩, true, 0, by decide +kernel⟩,
    ⟨⟨[], paired .mirror 3 link0⟩, by decide +kernel⟩,
    ⟨⟨[], pw (T .solo) (fun p => { p with katRunning := true })⟩, .admin, by decide +kernel⟩,
    ⟨⟨[], pw (T .solo) (fun p => { p with katRunning := true })⟩, 0, by decide +kernel⟩⟩

theorem witness_CopyChainsRunAndEnd :
    (∃ (s : State) (r : Req) (f : Fn) (addr : Quad) (c : Nat) (x : Chan) (g : Dev), s.dev.reaches r ∧ f = r.toFn ∧ unbound s.dev f
      = false ∧ chanOf s.dev f = some c ∧ x = s.dev.chan c ∧ x.st = 1 ∧ x.depthM1 ≠ 0 ∧ addr.toNat % 64 = 0 ∧ isolatedFn s.dev f =
      false ∧ g = s.dev.setChan c
      { x with st := 2, hops := 0, work := .fetch addr.toNat, addr := addr.toNat, staged := false, record := none, next := none, buffer := [] })
    ∧ (∃ (s : State) (r : Req) (f : Fn) (addr : Quad) (c : Nat) (x : Chan), s.dev.reaches r ∧ f = r.toFn ∧ unbound s.dev f = false
      ∧ chanOf s.dev f = some c ∧ x = s.dev.chan c ∧ (x.st ≠ 1 ∨ x.depthM1 = 0 ∨ addr.toNat % 64 ≠ 0 ∨ isolatedFn s.dev f = true))
    ∧ (∃ (s : State) (r : Req) (f : Fn) (c : Nat) (x : Chan), s.dev.reaches r ∧ f = r.toFn ∧ unbound s.dev f = false ∧ chanOf s.dev
      f = some c ∧ x = s.dev.chan c ∧ x.st = 2 ∧ x.work ≠ .waitStage)
    ∧ (∃ (s : State) (r : Req) (f : Fn) (c : Nat) (x : Chan), s.dev.reaches r ∧ f = r.toFn ∧ unbound s.dev f = false ∧ chanOf s.dev
      f = some c ∧ x = s.dev.chan c ∧ x.st = 2 ∧ x.work = .waitStage)
    ∧ (∃ (s : State) (r : Req) (f : Fn) (c : Nat) (x : Chan), s.dev.reaches r ∧ f = r.toFn ∧ unbound s.dev f = false ∧ chanOf s.dev
      f = some c ∧ x = s.dev.chan c ∧ x.st ≠ 2)
    ∧ (∃ (s : State) (r : Req) (f : Fn) (addr : Quad) (c : Nat) (x : Chan), s.dev.reaches r ∧ f = r.toFn ∧ unbound s.dev f = false
      ∧ chanOf s.dev f = some c ∧ x = s.dev.chan c ∧ x.st = 1 ∧ addr.toNat % 4096 = 0)
    ∧ (∃ (s : State) (r : Req) (f : Fn) (addr : Quad) (c : Nat) (x : Chan), s.dev.reaches r ∧ f = r.toFn ∧ unbound s.dev f = false
      ∧ chanOf s.dev f = some c ∧ x = s.dev.chan c ∧ (x.st ≠ 1 ∨ addr.toNat % 4096 ≠ 0))
    ∧ (∃ (s : State) (r : Req) (f : Fn) (c : Nat) (x : Chan) (v : Word), s.dev.reaches r ∧ f = r.toFn ∧ unbound s.dev f = false ∧
      chanOf s.dev f = some c ∧ x = s.dev.chan c ∧ headOk (x.depthM1 + 1) x.head x.tail v.toNat = true ∧ x.st ≠ 3)
    ∧ (∃ (s : State) (r : Req) (f : Fn) (c : Nat) (x : Chan) (v : Word), s.dev.reaches r ∧ f = r.toFn ∧ unbound s.dev f = false ∧
      chanOf s.dev f = some c ∧ x = s.dev.chan c ∧ headOk (x.depthM1 + 1) x.head x.tail v.toNat = true ∧ x.st = 3)
    ∧ (∃ (s : State) (r : Req) (f : Fn) (c : Nat) (x : Chan) (v : Word), s.dev.reaches r ∧ f = r.toFn ∧ unbound s.dev f = false ∧
      chanOf s.dev f = some c ∧ x = s.dev.chan c ∧ headOk (x.depthM1 + 1) x.head x.tail v.toNat = false)
    ∧ (∃ (s : State) (r : Req), s.dev.reaches r ∧ (chanOf s.dev r.toFn = none ∨ unbound s.dev r.toFn = true))
    ∧ (∃ (s : State) (c : Nat) (a : _) (x : Chan) (d : BitVec 512) (e : Dev), x = s.dev.chan c ∧ x.work = .fetch a ∧ chanRuns s.dev
      c = true ∧ e = s.dev.setChan c { x with desc := d, addr := a, staged := false } ∧ x.st = 4)
    ∧ (∃ (s : State) (c : Nat) (a : _) (x : Chan) (d : BitVec 512) (e : Dev), x = s.dev.chan c ∧ x.work = .fetch a ∧ chanRuns s.dev
      c = true ∧ e = s.dev.setChan c { x with desc := d, addr := a, staged := false } ∧ x.st ≠ 4 ∧ s.dev.inMode .eclipse = true)
    ∧ (∃ (s : State) (c : Nat) (a : _) (x : Chan) (d : BitVec 512) (e : Dev), x = s.dev.chan c ∧ x.work = .fetch a ∧ chanRuns s.dev
      c = true ∧ e = s.dev.setChan c { x with desc := d, addr := a, staged := false } ∧ x.st ≠ 4 ∧ s.dev.inMode .eclipse = false ∧
      descInvalid d = true)
    ∧ (∃ (s : State) (c : Nat) (a : _) (x : Chan) (d : BitVec 512) (e : Dev), x = s.dev.chan c ∧ x.work = .fetch a ∧ chanRuns s.dev
      c = true ∧ e = s.dev.setChan c { x with desc := d, addr := a, staged := false } ∧ x.st ≠ 4 ∧ s.dev.inMode .eclipse = false ∧
      descInvalid d = false ∧ descOverlaps d = false)
    ∧ (∃ (s : State) (c : Nat) (a : _) (x : Chan) (d : BitVec 512) (e : Dev), x = s.dev.chan c ∧ x.work = .fetch a ∧ chanRuns s.dev
      c = true ∧ e = s.dev.setChan c { x with desc := d, addr := a, staged := false } ∧ x.st ≠ 4 ∧ s.dev.inMode .eclipse = false ∧
      descInvalid d = false ∧ descOverlaps d = true ∧ 64 * 2 ^ 20 < dTotal d)
    ∧ (∃ (s : State) (c : Nat) (a : _) (x : Chan) (d : BitVec 512) (e : Dev), x = s.dev.chan c ∧ x.work = .fetch a ∧ chanRuns s.dev
      c = true ∧ e = s.dev.setChan c { x with desc := d, addr := a, staged := false } ∧ x.st ≠ 4 ∧ s.dev.inMode .eclipse = false ∧
      descInvalid d = false ∧ descOverlaps d = true ∧ dTotal d ≤ 64 * 2 ^ 20 ∧ s.dev.staging = none)
    ∧ (∃ (s : State) (c : Nat) (a : _) (x : Chan) (d : BitVec 512) (e : Dev), x = s.dev.chan c ∧ x.work = .fetch a ∧ chanRuns s.dev
      c = true ∧ e = s.dev.setChan c { x with desc := d, addr := a, staged := false } ∧ x.st ≠ 4 ∧ s.dev.inMode .eclipse = false ∧
      descInvalid d = false ∧ descOverlaps d = true ∧ dTotal d ≤ 64 * 2 ^ 20 ∧ s.dev.staging.isSome = true)
    ∧ (∃ (s : State) (c : Nat) (x : Chan) (w : Nat) (n : Nat) (e : Dev) (b : List Byte) (g : Dev), x = s.dev.chan c ∧ x.work =
      .move w w ∧ x.staged = false ∧ chanRuns s.dev c = true ∧ n = burstLen x w w ∧ burstCharge c n s.dev = some e ∧ e.chan c = x ∧
      g = ((sendData (chanFn e c) (dstAddr x.desc w) (fitBytes n b) e).addVal Fam.copyChanBytes c n).setChan c
      { x with work := .move (w + n) (w + n) } ∧ dTotal x.desc ≤ w + n)
    ∧ (∃ (s : State) (c : Nat) (x : Chan) (w : Nat) (n : Nat) (e : Dev) (b : List Byte) (g : Dev), x = s.dev.chan c ∧ x.work =
      .move w w ∧ x.staged = false ∧ chanRuns s.dev c = true ∧ n = burstLen x w w ∧ burstCharge c n s.dev = some e ∧ e.chan c = x ∧
      g = ((sendData (chanFn e c) (dstAddr x.desc w) (fitBytes n b) e).addVal Fam.copyChanBytes c n).setChan c
      { x with work := .move (w + n) (w + n) } ∧ w + n < dTotal x.desc ∧ x.st = 4)
    ∧ (∃ (s : State) (c : Nat) (x : Chan) (w : Nat) (n : Nat) (e : Dev) (b : List Byte) (g : Dev), x = s.dev.chan c ∧ x.work =
      .move w w ∧ x.staged = false ∧ chanRuns s.dev c = true ∧ n = burstLen x w w ∧ burstCharge c n s.dev = some e ∧ e.chan c = x ∧
      g = ((sendData (chanFn e c) (dstAddr x.desc w) (fitBytes n b) e).addVal Fam.copyChanBytes c n).setChan c
      { x with work := .move (w + n) (w + n) } ∧ w + n < dTotal x.desc ∧ x.st = 2 ∧ s.dev.inMode .eclipse = false)
    ∧ (∃ (s : State) (c : Nat) (rd : _) (wr : _), (s.dev.chan c).work = .move rd wr ∧ burstCharge c (burstLen (s.dev.chan c) rd wr)
      s.dev = none ∧ (s.dev.chan c).st ≠ 4)
    ∧ (∃ (s : State) (c : Nat) (x : Chan), x = s.dev.chan c ∧ x.work = .waitStage ∧ s.dev.staging = none ∧ s.dev.inMode .eclipse =
      false)
    ∧ (∃ (s : State) (c : Nat) (x : Chan), x = s.dev.chan c ∧ x.work = .waitStage ∧ s.dev.staging.isSome = true)
    ∧ (∃ (s : State) (c : _) (rd : _) (wr : _), (s.dev.chan c).work = .move rd wr ∧ chanRuns s.dev c = true ∧ burstCharge c
      (burstLen (s.dev.chan c) rd wr) s.dev = none ∧ (s.dev.chan c).st = 4)
    ∧ (∃ (s : State) (c : _), chanRuns s.dev c = false)
    ∧ (∃ (s : State) (f : Fn) (on : _), portServes s.dev f.port = true ∧ s.dev.fnExists f = true ∧ (chanOf s.dev f = none ∨ on =
      false ∨ (s.dev.fnS f).busMaster = true))
    ∧ (∃ (s : State) (f : Fn) (c : Nat) (g : Dev), portServes s.dev f.port = true ∧ s.dev.fnExists f = true ∧ chanOf s.dev f = some
      c ∧ (s.dev.fnS f).busMaster = false ∧ g = s.dev.setFn f { s.dev.fnS f with busMaster := true } ∧ (s.dev.chan c).record.isSome
      = true)
    ∧ (∃ (s : State) (f : Fn) (c : Nat) (g : Dev), portServes s.dev f.port = true ∧ s.dev.fnExists f = true ∧ chanOf s.dev f = some
      c ∧ (s.dev.fnS f).busMaster = false ∧ g = s.dev.setFn f { s.dev.fnS f with busMaster := true } ∧ (s.dev.chan c).record = none
      ∧ (s.dev.chan c).st = 4)
    ∧ (∃ (s : State) (f : Fn) (c : Nat) (g : Dev), portServes s.dev f.port = true ∧ s.dev.fnExists f = true ∧ chanOf s.dev f = some
      c ∧ (s.dev.fnS f).busMaster = false ∧ g = s.dev.setFn f { s.dev.fnS f with busMaster := true } ∧ (s.dev.chan c).record = none
      ∧ (s.dev.chan c).st = 2 ∧ s.dev.inMode .eclipse = false) :=
  ⟨⟨⟨[], copying { Chan.unbound with st := 1, depthM1 := 15 }⟩, req0, pf, 0x1000, 0, _, _, by decide +kernel, by decide +kernel,
      by decide +kernel, by decide +kernel, rfl, by decide +kernel, by decide +kernel, by decide +kernel, by decide +kernel, rfl⟩,
    ⟨⟨[], copying { Chan.unbound with st := 2 }⟩, req0, pf, 0x1000, 0, _, by decide +kernel, by decide +kernel, by decide +kernel,
      by decide +kernel, rfl, by decide +kernel⟩,
    ⟨⟨[], copying { Chan.unbound with st := 2 }⟩, req0, pf, 0, _, by decide +kernel, by decide +kernel, by decide +kernel, by
      decide +kernel, rfl, by decide +kernel, by decide +kernel⟩,
    ⟨⟨[], copying { Chan.unbound with st := 2, work := .waitStage }⟩, req0, pf, 0, _, by decide +kernel, by decide +kernel, by
      decide +kernel, by decide +kernel, rfl, by decide +kernel, by decide +kernel⟩,
    ⟨⟨[], copying { Chan.unbound with st := 1 }⟩, req0, pf, 0, _, by decide +kernel, by decide +kernel, by decide +kernel, by
      decide +kernel, rfl, by decide +kernel⟩,
    ⟨⟨[], copying { Chan.unbound with st := 1 }⟩, req0, pf, 0x1000, 0, _, by decide +kernel, by decide +kernel, by decide +kernel,
      by decide +kernel, rfl, by decide +kernel, by decide +kernel⟩,
    ⟨⟨[], copying { Chan.unbound with st := 2 }⟩, req0, pf, 0x1000, 0, _, by decide +kernel, by decide +kernel, by decide +kernel,
      by decide +kernel, rfl, by decide +kernel⟩,
    ⟨⟨[], copying { Chan.unbound with st := 1, depthM1 := 15, tail := 2 }⟩, req0, pf, 0, _, 1, by decide +kernel, by
      decide +kernel, by decide +kernel, by decide +kernel, rfl, by decide +kernel, by decide +kernel⟩,
    ⟨⟨[], copying { Chan.unbound with st := 3, depthM1 := 15, tail := 2 }⟩, req0, pf, 0, _, 2, by decide +kernel, by
      decide +kernel, by decide +kernel, by decide +kernel, rfl, by decide +kernel, by decide +kernel⟩,
    ⟨⟨[], copying { Chan.unbound with st := 1, depthM1 := 15, tail := 2 }⟩, req0, pf, 0, _, 3, by decide +kernel, by
      decide +kernel, by decide +kernel, by decide +kernel, rfl, by decide +kernel⟩,
    ⟨⟨[], T .solo⟩, req0, by decide +kernel⟩,
    ⟨⟨[], copying { Chan.unbound with st := 4, work := .fetch 0x1000 }⟩, 0, 0x1000, _, 0, _, rfl, by decide +kernel, by
      decide +kernel, rfl, by decide +kernel⟩,
    ⟨⟨[], { copying { Chan.unbound with st := 2, work := .fetch 0x1000 } with pw := (T .eclipse).pw }⟩, 0, 0x1000, _, 0, _, rfl, by
      decide +kernel, by decide +kernel, rfl, by decide +kernel, by decide +kernel⟩,
    ⟨⟨[], copying { Chan.unbound with st := 2, work := .fetch 0x1000 }⟩, 0, 0x1000, _, 0, _, rfl, by decide +kernel, by
      decide +kernel, rfl, by decide +kernel, by decide +kernel, by decide +kernel⟩,
    ⟨⟨[], copying { Chan.unbound with st := 2, work := .fetch 0x1000 }⟩, 0, 0x1000, _, (desc 0x1000 0x3000 64 1), _, rfl, by
      decide +kernel, by decide +kernel, rfl, by decide +kernel, by decide +kernel, by decide +kernel, by decide +kernel⟩,
    ⟨⟨[], copying { Chan.unbound with st := 2, work := .fetch 0x1000 }⟩, 0, 0x1000, _, (desc 0x1000 0x1001 0x100000 65), _, rfl, by
      decide +kernel, by decide +kernel, rfl, by decide +kernel, by decide +kernel, by decide +kernel, by decide +kernel, by
      decide +kernel⟩,
    ⟨⟨[], copying { Chan.unbound with st := 2, work := .fetch 0x1000 }⟩, 0, 0x1000, _, (desc 0x1000 0x1001 64 1), _, rfl, by
      decide +kernel, by decide +kernel, rfl, by decide +kernel, by decide +kernel, by decide +kernel, by decide +kernel, by
      decide +kernel, by decide +kernel⟩,
    ⟨⟨[], { copying { Chan.unbound with st := 2, work := .fetch 0x1000 } with staging := some 1 }⟩, 0, 0x1000, _, (desc 0x1000
      0x1001 64 1), _, rfl, by decide +kernel, by decide +kernel, rfl, by decide +kernel, by decide +kernel, by decide +kernel, by
      decide +kernel, by decide +kernel, by decide +kernel⟩,
    ⟨⟨[], copying { Chan.unbound with st := 2, work := .move 0 0, desc := desc 0x1000 0x3000 64 1 }⟩, 0, _, 0, _, _, ([]), _, rfl,
      by decide +kernel, by decide +kernel, by decide +kernel, rfl, rfl, rfl, rfl, by decide +kernel⟩,
    ⟨⟨[], copying { Chan.unbound with st := 4, work := .move 0 0, desc := desc 0x1000 0x3000 64 2 }⟩, 0, _, 0, _, _, ([]), _, rfl,
      by decide +kernel, by decide +kernel, by decide +kernel, rfl, rfl, rfl, rfl, by decide +kernel, by decide +kernel⟩,
    ⟨⟨[], copying { Chan.unbound with st := 2, work := .move 0 0, desc := desc 0x1000 0x3000 64 2 }⟩, 0, _, 0, _, _, ([]), _, rfl,
      by decide +kernel, by decide +kernel, by decide +kernel, rfl, rfl, rfl, rfl, by decide +kernel, by decide +kernel, by
      decide +kernel⟩,
    ⟨⟨[],
      ({ onVf { FnState.absent with bound := some 1, busMaster := true } with chans := [(0, { Chan.unbound with st := 2, work := .move 0 0, desc := desc 0x1000 0x3000 64 1 })], tenants := [(1, { ten1 with byteRate := 1, byteDepth := 1 })] }).setVal
      Fam.copyChanFunction 0 16⟩, 0, 0, 0, by decide +kernel⟩,
    ⟨⟨[], copying { Chan.unbound with st := 2, work := .waitStage }⟩, 0, _, rfl, by decide +kernel, by decide +kernel, by
      decide +kernel⟩,
    ⟨⟨[], { copying { Chan.unbound with st := 2, work := .waitStage } with staging := some 1 }⟩, 0, _, rfl, by decide +kernel, by
      decide +kernel⟩,
    ⟨⟨[],
      (({ onVf { FnState.absent with bound := some 1, busMaster := true } with chans := [(0, { Chan.unbound with st := 4, work := .move 0 0, desc := desc 0x1000 0x3000 64 1 })], tenants := [(1, { ten1 with byteRate := 1, byteDepth := 1 })] }).setVal
      Fam.copyChanFunction 0 16)⟩, 0, 0, 0, by decide +kernel⟩,
    ⟨⟨[], ((fun (x : Chan) => ({ onPf FnState.absent with chans := [(0, x)] }).setVal Fam.copyChanFunction 0 0)
      { Chan.unbound with st := 2 })⟩, 0, by decide +kernel⟩,
    ⟨⟨[], T .solo⟩, pf, true, by decide +kernel⟩,
    ⟨⟨[], ((fun (x : Chan) => ({ onPf FnState.absent with chans := [(0, x)] }).setVal Fam.copyChanFunction 0 0)
      { Chan.unbound with st := 3, record := some { status := 0, chainEnd := true, writeSide := false, staged := false, hops := 1, lines := 1, desc := 0, residue := 0, tag := 0, irq := false } })⟩,
      pf, 0, _, by decide +kernel, by decide +kernel, by decide +kernel, by decide +kernel, rfl, by decide +kernel⟩,
    ⟨⟨[], ((fun (x : Chan) => ({ onPf FnState.absent with chans := [(0, x)] }).setVal Fam.copyChanFunction 0 0)
      { Chan.unbound with st := 4 })⟩, pf, 0, _, by decide +kernel, by decide +kernel, by decide +kernel, by decide +kernel, rfl,
      by decide +kernel, by decide +kernel⟩,
    ⟨⟨[], ((fun (x : Chan) => ({ onPf FnState.absent with chans := [(0, x)] }).setVal Fam.copyChanFunction 0 0)
      { Chan.unbound with st := 2 })⟩, pf, 0, _, by decide +kernel, by decide +kernel, by decide +kernel, by decide +kernel, rfl,
      by decide +kernel, by decide +kernel, by decide +kernel⟩⟩

theorem witness_ExtentsHoldEveryByteOfADescriptor :
    (∃ (d : BitVec 512) (p : Nat) (q : Nat), descInvalid d = false ∧ descOverlaps d = false ∧ p < dTotal d ∧ q < dTotal d)
    ∧ (∃ (d : BitVec 512) (p : Nat) (i : Nat), descInvalid d = false ∧ p < dTotal d ∧ i < burstAt d p (srcAddr d p)) :=
  ⟨⟨(desc 0x1000 0x3000 64 2), 127, 64, by decide +kernel⟩,
    ⟨(desc 0x1000 0x3000 64 2), 127, 0, by decide +kernel⟩⟩

theorem witness_MailboxWordsAndDoorbells :
    (∃ (s : State) (r : Req) (f : Fn), s.dev.reaches r ∧ f = r.toFn ∧ unbound s.dev f = false ∧ (s.dev.fnS f).tx.length < 8)
    ∧ (∃ (s : State) (r : Req) (f : Fn), s.dev.reaches r ∧ f = r.toFn ∧ unbound s.dev f = false ∧ 8 ≤ (s.dev.fnS f).tx.length)
    ∧ (∃ (s : State) (r : Req), s.dev.reaches r ∧ unbound s.dev r.toFn = true)
    ∧ (∃ (s : State) (r : Req) (f : Fn) (v : Word), s.dev.reaches r ∧ f = r.toFn ∧ unbound s.dev f = false ∧ (s.dev.fnS f).owed =
      [] ∧ v.getLsbD 0 = true)
    ∧ (∃ (s : State) (r : Req) (f : Fn) (v : Word), s.dev.reaches r ∧ f = r.toFn ∧ unbound s.dev f = false ∧ (s.dev.fnS f).owed =
      [] ∧ v.getLsbD 0 = false)
    ∧ (∃ (s : State) (f : Fn), firmwareRuns s.dev = true ∧ (s.dev.fnS f).purges = [])
    ∧ (∃ (s : State) (f : Fn), firmwareRuns s.dev = true ∧ (s.dev.fnS f).purges ≠ [])
    ∧ (∃ (s : State) (f : Fn), firmwareRuns s.dev = true ∧ (s.dev.fnS f).owed = [] ∧ (s.dev.fnS f).rx.length < 8)
    ∧ (∃ (s : State) (f : Fn), firmwareRuns s.dev = true ∧ (s.dev.fnS f).owed = [] ∧ 8 ≤ (s.dev.fnS f).rx.length)
    ∧ (∃ (s : State), firmwareRuns s.dev = false)
    ∧ (∃ (d : Dev) (f : Fn) (p : Nat), p < 4 ∧ (d.fnS f).flrEpoch < 32 ∧ f.fn < 128 ∧ f.port < 16) :=
  ⟨⟨⟨[], T .solo⟩, req0, pf, by decide +kernel⟩,
    ⟨⟨[], onPf { FnState.absent with tx := List.replicate 8 (0, 0) }⟩, req0, pf, by decide +kernel⟩,
    ⟨⟨[], (onVf FnState.absent)⟩, reqVf, by decide +kernel⟩,
    ⟨⟨[], T .solo⟩, req0, pf, 1, by decide +kernel⟩,
    ⟨⟨[], T .solo⟩, req0, pf, 2, by decide +kernel⟩,
    ⟨⟨[], T .solo⟩, pf, by decide +kernel⟩,
    ⟨⟨[], onPf { FnState.absent with purges := [0] }⟩, pf, by decide +kernel⟩,
    ⟨⟨[], T .solo⟩, pf, by decide +kernel⟩,
    ⟨⟨[], onPf { FnState.absent with rx := List.replicate 8 (0, 0) }⟩, pf, by decide +kernel⟩,
    ⟨⟨[], T .eclipse⟩, by decide +kernel⟩,
    ⟨(T .solo), pf, 3, by decide +kernel⟩⟩

theorem witness_WriteClaimBelongsToOne :
    (∃ (s : State) (who : Master) (d : Dev), s.dev.accepts who Fam.claimRequest 0 ∧ claimant who ≠ 0 ∧ d =
      { s.dev with dc := { s.dev.dc with holder := claimant who, expiry := s.dev.tm.now + 10000000000 } } ∧ (s.dev.dc.holder = 0 ∨
      s.dev.dc.holder = claimant who))
    ∧ (∃ (s : State) (who : Master) (d : Dev), s.dev.accepts who Fam.claimRequest 0 ∧ claimant who ≠ 0 ∧ d =
      { s.dev with dc := { s.dev.dc with holder := claimant who, expiry := s.dev.tm.now + 10000000000 } } ∧ s.dev.dc.holder ≠ 0 ∧
      s.dev.dc.holder ≠ claimant who)
    ∧ (∃ (s : State) (who : Master) (d : Dev), s.dev.accepts who Fam.claimRequest 0 ∧ claimant who ≠ 0 ∧ d =
      { s.dev with dc := { s.dev.dc with holder := claimant who, expiry := s.dev.tm.now + 10000000000 } } ∧ s.dev.dc.holder =
      claimant who)
    ∧ (∃ (s : State), s.dev.accepts .admin Fam.claimRequest 0)
    ∧ (∃ (s : State), s.dev.accepts .sideband Fam.claimRequest 0 ∧ adminUnreachable s.dev = false)
    ∧ (∃ (s : State), s.dev.accepts .sideband Fam.claimRequest 0 ∧ adminUnreachable s.dev = true)
    ∧ (∃ (d : Dev) (who : Master) (v : Nat), 1 ≤ v ∧ v ≤ 4 ∧ writeTest d who Fam.claimRequest 0 1 = 0 ∧ claimRefusal who v d = 0)
    ∧ (∃ (d : Dev) (f : Nat) (i : Nat), f ≠ Fam.claimRequest ∧ d.dc.holder = 2 ∧ accessTest d .admin f i true = 0)
    ∧ (∃ (d : Dev) (f : Nat) (i : Nat), f ≠ Fam.claimRequest ∧ d.dc.holder = 1 ∧ accessTest d .sideband f i true = 0) :=
  ⟨⟨⟨[], T .solo⟩, .admin, _, by decide +kernel, by decide +kernel, rfl, by decide +kernel⟩,
    ⟨⟨[], { T .solo with dc := { Dev.reset.dc with holder := 2 } }⟩, .admin, _, by decide +kernel, by decide +kernel, rfl, by
      decide +kernel, by decide +kernel⟩,
    ⟨⟨[], { T .solo with dc := { Dev.reset.dc with holder := 1 } }⟩, .admin, _, by decide +kernel, by decide +kernel, rfl, by
      decide +kernel⟩,
    ⟨⟨[], T .solo⟩, by decide +kernel⟩,
    ⟨⟨[], T .solo⟩, by decide +kernel⟩,
    ⟨⟨[], T .dark⟩, by decide +kernel⟩,
    ⟨(T .solo), .admin, 1, by decide +kernel⟩,
    ⟨({ T .solo with dc := { Dev.reset.dc with holder := 2 } }), Fam.lensAdaptEnable, 0, by decide +kernel⟩,
    ⟨({ T .solo with dc := { Dev.reset.dc with holder := 1 } }), Fam.lensAdaptEnable, 0, by decide +kernel⟩⟩

theorem witness_ExclusiveObjectsNeedTheClaim :
    (∃ (f : Nat), f < catalogue.length)
    ∧ (∃ (d : Dev) (f : Nat) (i : Nat), (famRow f).exclusive = true ∧ f ≠ Fam.claimRequest ∧ d.dc.holder ≠ 1 ∧ accessTest d .admin
      f i true = 0)
    ∧ (∃ (d : Dev) (f : Nat) (i : Nat), (famRow f).exclusive = true ∧ f ≠ Fam.claimRequest ∧ d.dc.holder ≠ 2 ∧ accessTest d
      .sideband f i true = 0) :=
  ⟨⟨0, by decide +kernel⟩,
    ⟨(T .solo), Fam.settingsStore, 0, by decide +kernel⟩,
    ⟨(T .solo), Fam.settingsStore, 0, by decide +kernel⟩⟩

theorem witness_RefusedWritesHaveNoEffect :
    (∃ (s : State) (c : Instr) (who : Master) (f : Nat) (i : Nat), writeRow c = some (who, f, i) ∧ masterUp s.dev who = false)
    ∧ (∃ (s : State) (c : Instr) (who : Master) (f : Nat) (i : Nat), writeRow c = some (who, f, i) ∧ masterUp s.dev who = true ∧
      writeTest s.dev who f i (famRow f).length ≠ 0)
    ∧ (∃ (f : Nat) (i : Nat), valKey f i ≠ valKey Fam.dictRefusedWrites 0)
    ∧ (∃ (f : Nat) (i : Nat) (r : _), r = famRow f ∧ (r.instances ≤ i ∨ catalogue.length ≤ f))
    ∧ (∃ (d : Dev) (who : Master) (f : Nat) (i : Nat) (r : _) (t : Nat), r = famRow f ∧ i < r.instances ∧ f < catalogue.length ∧
      who = .tenant t ∧ inScope d t f i = false)
    ∧ (∃ (d : Dev) (who : Master) (f : Nat) (i : Nat) (r : _), r = famRow f ∧ i < r.instances ∧ f < catalogue.length ∧ (∀ t, who =
      .tenant t → inScope d t f i = true) ∧ r.access = .RO)
    ∧ (∃ (d : Dev) (who : Master) (f : Nat) (i : Nat) (r : _), r = famRow f ∧ i < r.instances ∧ f < catalogue.length ∧ (∀ t, who =
      .tenant t → inScope d t f i = true) ∧ r.access ≠ .RO ∧ bit (rightsOf who r.rights) 1 = false)
    ∧ (∃ (d : Dev) (who : Master) (f : Nat) (i : Nat) (r : _), r = famRow f ∧ i < r.instances ∧ f < catalogue.length ∧ (∀ t, who =
      .tenant t → inScope d t f i = true) ∧ r.access ≠ .RO ∧ bit (rightsOf who r.rights) 1 = true ∧ claimBars d who r.exclusive =
      true ∧ f ≠ Fam.claimRequest)
    ∧ (∃ (d : Dev) (who : Master) (f : Nat) (i : Nat) (b : List Byte) (r : _), r = famRow f ∧ i < r.instances ∧ f <
      catalogue.length ∧ (∀ t, who = .tenant t → inScope d t f i = true) ∧ r.access ≠ .RO ∧ bit (rightsOf who r.rights) 1 = true ∧
      (claimBars d who r.exclusive = false ∨ f = Fam.claimRequest) ∧ b.length ≠ r.length)
    ∧ (∃ (d : Dev) (who : Master) (f : Nat) (i : Nat) (b : List Byte) (r : _), r = famRow f ∧ i < r.instances ∧ f <
      catalogue.length ∧ (∀ t, who = .tenant t → inScope d t f i = true) ∧ r.access ≠ .RO ∧ bit (rightsOf who r.rights) 1 = true ∧
      (claimBars d who r.exclusive = false ∨ f = Fam.claimRequest) ∧ b.length = r.length ∧ d.inMode .dark = true ∧ r.periscope =
      false)
    ∧ (∃ (d : Dev) (who : Master) (f : Nat) (i : Nat) (b : List Byte) (r : _), r = famRow f ∧ i < r.instances ∧ f <
      catalogue.length ∧ (∀ t, who = .tenant t → inScope d t f i = true) ∧ r.access ≠ .RO ∧ bit (rightsOf who r.rights) 1 = true ∧
      (claimBars d who r.exclusive = false ∨ f = Fam.claimRequest) ∧ b.length = r.length ∧ (d.inMode .dark = false ∨ r.periscope =
      true) ∧ valueRefusal who f i b d = 0) :=
  ⟨⟨⟨[], Dev.reset⟩, (.prismKat .admin), .admin, Fam.prismKat, 0, by decide +kernel⟩,
    ⟨⟨[], { T .solo with dc := { Dev.reset.dc with holder := 2 } }⟩, (.prismKat .admin), .admin, Fam.prismKat, 0, by
      decide +kernel⟩,
    ⟨Fam.lensAdaptEnable, 0, by decide +kernel⟩,
    ⟨Fam.lensAdaptEnable, 100000, _, rfl, by decide +kernel⟩,
    ⟨(T .solo), (.tenant 1), Fam.tenantEntry, 2, _, 1, rfl, by decide +kernel, by decide +kernel, by decide +kernel, by
      decide +kernel⟩,
    ⟨(T .solo), .admin, Fam.timeSource, 0, _, rfl, by decide +kernel, by decide +kernel, (fun _ h => nomatch h), by decide +kernel⟩,
    ⟨(T .solo), .sideband, Fam.meterRingHead, 0, _, rfl, by decide +kernel, by decide +kernel, (fun _ h => nomatch h), by
      decide +kernel, by decide +kernel⟩,
    ⟨({ T .solo with dc := { Dev.reset.dc with holder := 2 } }), .admin, Fam.lensAdaptEnable, 0, _, rfl, by decide +kernel, by
      decide +kernel, (fun _ h => nomatch h), by decide +kernel, by decide +kernel, by decide +kernel, by decide +kernel⟩,
    ⟨(T .solo), .admin, Fam.lensAdaptEnable, 0, ([]), _, rfl, by decide +kernel, by decide +kernel, (fun _ h => nomatch h), by
      decide +kernel, by decide +kernel, by decide +kernel, by decide +kernel⟩,
    ⟨(T .dark), .admin, Fam.lensAdaptEnable, 0, ([0]), _, rfl, by decide +kernel, by decide +kernel, (fun _ h => nomatch h), by
      decide +kernel, by decide +kernel, by decide +kernel, by decide +kernel, by decide +kernel, by decide +kernel⟩,
    ⟨(T .solo), .admin, Fam.lensAdaptEnable, 0, ([0]), _, rfl, by decide +kernel, by decide +kernel, (fun _ h => nomatch h), by
      decide +kernel, by decide +kernel, by decide +kernel, by decide +kernel, by decide +kernel, by decide +kernel⟩⟩

theorem witness_SlotsAndMailboxReachTheObjects :
    (∃ (s : State) (n : Nat) (x : DictSlot) (r : _), n < 8 ∧ s.dev.reaches s.dev.adminReq ∧ x = s.dev.slot n ∧ x.busy = false ∧ r =
      readObject .admin x.index x.sub s.dev)
    ∧ (∃ (s : State) (n : Nat) (x : DictSlot) (r : _), n < 8 ∧ s.dev.reaches s.dev.adminReq ∧ x = s.dev.slot n ∧ x.busy = false ∧ r
      = writeObject .admin x.index x.sub (fitBytes x.length x.data) s.dev)
    ∧ (∃ (s : State) (n : Nat), n < 8 ∧ s.dev.reaches s.dev.adminReq ∧ (s.dev.slot n).busy = true)
    ∧ (∃ (s : State) (f : Fn) (w : Quad) (st : BitVec 18) (rest : List (Quad × BitVec 18)) (who : Master) (r : _), firmwareRuns
      s.dev = true ∧ (s.dev.fnS f).purges = [] ∧ mailWords (s.dev.fnS f) = (w, st) :: rest ∧ mOp w = 1 ∧ mailMaster s.dev f st =
      some who ∧ r = readObject who (mIndex w) (mSub w) s.dev)
    ∧ (∃ (s : State) (f : Fn) (w : Quad) (st : BitVec 18) (rest : List (Quad × BitVec 18)) (who : Master) (r : _), firmwareRuns
      s.dev = true ∧ (s.dev.fnS f).purges = [] ∧ mailWords (s.dev.fnS f) = (w, st) :: rest ∧ mOp w = 2 ∧ mailMaster s.dev f st =
      some who ∧ cdiv (mLength w) 8 ≤ rest.length ∧ (r = writeObject who (mIndex w) (mSub w) (fitBytes (mLength w) ((rest.take
      (cdiv (mLength w) 8)).flatMap fun e => le 8 e.1.toNat)) s.dev))
    ∧ (∃ (s : State) (f : Fn) (w : Quad) (st : BitVec 18) (rest : List (Quad × BitVec 18)), firmwareRuns s.dev = true ∧ (s.dev.fnS
      f).purges = [] ∧ mailWords (s.dev.fnS f) = (w, st) :: rest ∧ mOp w = 1 ∧ mailMaster s.dev f st = none)
    ∧ (∃ (s : State) (f : Fn) (w : Quad) (st : BitVec 18) (rest : List (Quad × BitVec 18)), firmwareRuns s.dev = true ∧ (s.dev.fnS
      f).purges = [] ∧ mailWords (s.dev.fnS f) = (w, st) :: rest ∧ mOp w = 2 ∧ rest.length < cdiv (mLength w) 8)
    ∧ (∃ (s : State) (f : Fn) (w : Quad) (st : BitVec 18) (rest : List (Quad × BitVec 18)), firmwareRuns s.dev = true ∧ (s.dev.fnS
      f).purges = [] ∧ mailWords (s.dev.fnS f) = (w, st) :: rest ∧ mOp w ≠ 1 ∧ mOp w ≠ 2)
    ∧ (∃ (s : State) (f : Fn), (s.dev.fnS f).purges ≠ []) :=
  ⟨⟨⟨[],
      { T .solo with dc := { Dev.reset.dc with slots := [(0, { DictSlot.reset with index := 0x1000, sub := 1, busy := false })] } }⟩,
      0, _, _, by decide +kernel, by decide +kernel, rfl, by decide +kernel, rfl⟩,
    ⟨⟨[],
      { T .solo with dc := { Dev.reset.dc with slots := [(0, { DictSlot.reset with index := 0x1000, sub := 1, busy := false })] } }⟩,
      0, _, _, by decide +kernel, by decide +kernel, rfl, by decide +kernel, rfl⟩,
    ⟨⟨[],
      { T .solo with dc := { Dev.reset.dc with slots := [(0, { DictSlot.reset with index := 0x1000, sub := 1, busy := true })] } }⟩,
      0, by decide +kernel⟩,
    ⟨⟨[], onPf { FnState.absent with tx := [(0x1000001000010000#64, 0x800)] }⟩, pf, (0x1000001000010000#64), 0x800, ([]), .admin,
      _, by decide +kernel, by decide +kernel, by decide +kernel, by decide +kernel, by decide +kernel, rfl⟩,
    ⟨⟨[], onPf { FnState.absent with tx := [(0x2000086000060000, 0x800), (0, 0x800)] }⟩, pf, 0x2000086000060000, 0x800, ([(0,
      0x800)]), .admin, _, by decide +kernel, by decide +kernel, by decide +kernel, by decide +kernel, by decide +kernel, by
      decide +kernel, rfl⟩,
    ⟨⟨[], onPf { FnState.absent with tx := [(0x1000001000010000#64, 0)] }⟩, pf, (0x1000001000010000#64), 0, ([]), by
      decide +kernel⟩,
    ⟨⟨[], onPf { FnState.absent with tx := [(0x2000086000060000, 0x800)] }⟩, pf, 0x2000086000060000, 0x800, ([]), by
      decide +kernel⟩,
    ⟨⟨[], onPf { FnState.absent with tx := [(0x3000000000000000, 0x800)] }⟩, pf, 0x3000000000000000, 0x800, ([]), by
      decide +kernel⟩,
    ⟨⟨[], onPf { FnState.absent with purges := [0] }⟩, pf, by decide +kernel⟩⟩

theorem witness_SettingsStoreAndFactoryReset :
    (∃ (s : State) (who : Master), s.dev.accepts who Fam.settingsStore 0 ∧ s.dev.dc.storing = none)
    ∧ (∃ (s : State) (who : Master), s.dev.accepts who Fam.settingsStore 0 ∧ s.dev.dc.storing.isSome = true)
    ∧ (∃ (s : State) (who : Master) (v : Nat), s.dev.accepts who Fam.settingsStore 0 ∧ v ≠ 0x5EA1)
    ∧ (∃ (d : Dev), (newCopy d).1 = 0)
    ∧ (∃ (d : Dev), (newCopy d).1 ≠ 0)
    ∧ (∃ (d : Dev), d.inMode .dark = false)
    ∧ (∃ (s : State) (n : Nat) (c : Settings), s.dev.periscope = true ∧ s.dev.dc.storing = some (n, c) ∧ s.dev.dc.storeFor = none ∧
      n = 0)
    ∧ (∃ (s : State) (n : Nat) (c : Settings), s.dev.periscope = true ∧ s.dev.dc.storing = some (n, c) ∧ s.dev.dc.storeFor = none ∧
      n ≠ 0)
    ∧ (∃ (s : State) (who : Master) (q : Nat), s.dev.accepts who Fam.settingsFactoryReset 0 ∧ q = max s.dev.dc.copyA.seqIn
      s.dev.dc.copyB.seqIn ∧ (s.dev.inMode .dark = true ∨ s.dev.inMode .focus = true ∨ s.dev.inMode .eclipse = true) ∧
      s.dev.dc.storing = none)
    ∧ (∃ (s : State) (who : Master) (q : Nat), s.dev.accepts who Fam.settingsFactoryReset 0 ∧ q = max s.dev.dc.copyA.seqIn
      s.dev.dc.copyB.seqIn ∧ (s.dev.inMode .dark = true ∨ s.dev.inMode .focus = true ∨ s.dev.inMode .eclipse = true) ∧
      s.dev.dc.storing.isSome = true)
    ∧ (∃ (s : State) (who : Master) (q : Nat), s.dev.accepts who Fam.settingsFactoryReset 0 ∧ q = max s.dev.dc.copyA.seqIn
      s.dev.dc.copyB.seqIn ∧ (s.dev.serving = true ∨ s.dev.inMode .mirror = true))
    ∧ (∃ (s : State) (who : Master) (q : Nat) (v : Nat), s.dev.accepts who Fam.settingsFactoryReset 0 ∧ q = max
      s.dev.dc.copyA.seqIn s.dev.dc.copyB.seqIn ∧ v ≠ 0xFAC7) :=
  ⟨⟨⟨[], { T .solo with dc := { Dev.reset.dc with holder := 1 } }⟩, .admin, by decide +kernel⟩,
    ⟨⟨[], { T .solo with dc := { Dev.reset.dc with holder := 1, storing := some (0, Dev.reset.dc.copyA) } }⟩, .admin, by
      decide +kernel⟩,
    ⟨⟨[], { T .solo with dc := { Dev.reset.dc with holder := 1 } }⟩, .admin, 0, by decide +kernel⟩,
    ⟨(T .solo), by decide +kernel⟩,
    ⟨({ T .solo with dc := { Dev.reset.dc with copyA := { Dev.reset.dc.copyA with valid := true, seq := 1000 } } }), by
      decide +kernel⟩,
    ⟨(T .solo), by decide +kernel⟩,
    ⟨⟨[], { T .solo with dc := { Dev.reset.dc with holder := 1, storing := some (0, Dev.reset.dc.copyA) } }⟩, 0,
      Dev.reset.dc.copyA, by decide +kernel⟩,
    ⟨⟨[], { T .solo with dc := { Dev.reset.dc with holder := 1, storing := some (1, Dev.reset.dc.copyA) } }⟩, 1,
      Dev.reset.dc.copyA, by decide +kernel⟩,
    ⟨⟨[], { T .focus with dc := { Dev.reset.dc with holder := 1 } }⟩, .admin, _, by decide +kernel, rfl, by decide +kernel, by
      decide +kernel⟩,
    ⟨⟨[], { T .focus with dc := { Dev.reset.dc with holder := 1, storing := some (0, Dev.reset.dc.copyA) } }⟩, .admin, _, by
      decide +kernel, rfl, by decide +kernel, by decide +kernel⟩,
    ⟨⟨[], { T .solo with dc := { Dev.reset.dc with holder := 1 } }⟩, .admin, _, by decide +kernel, rfl, by decide +kernel⟩,
    ⟨⟨[], { T .solo with dc := { Dev.reset.dc with holder := 1 } }⟩, .admin, _, 0, by decide +kernel, rfl, by decide +kernel⟩⟩

theorem witness_SideBandRequestsAreAuthenticated :
    (∃ (s : State) (m : FalferMsg) (l : List (Nat × Nat)), sbReady s.dev = true ∧ genuine s.dev m 0x01 (targetBytes l) = false)
    ∧ (∃ (s : State) (m : FalferMsg) (l : List (Nat × Nat)), sbReady s.dev = true ∧ genuine s.dev m 0x01 (targetBytes l) = true ∧
      seqFresh s.dev m = false)
    ∧ (∃ (s : State) (m : FalferMsg) (l : List (Nat × Nat)) (r : _), s.dev.heard m 0x01 (targetBytes l) ∧ r = getTargets l
      (s.dev.noted m) ∧ 0 < l.length ∧ l.length ≤ 16)
    ∧ (∃ (s : State) (m : FalferMsg) (l : List (Nat × Nat)) (r : _), s.dev.heard m 0x01 (targetBytes l) ∧ r = getTargets l
      (s.dev.noted m) ∧ (l.length = 0 ∨ 16 < l.length))
    ∧ (∃ (d : Dev) (k : Nat) (q : _), q = tget d.sb.seqOut k 0 + 1)
    ∧ (∃ (s : State) (l : List (Nat × Nat)), sbReady s.dev = true ∧ l.all discoverable = true ∧ 0 < l.length ∧ l.length ≤ 16)
    ∧ (∃ (s : State) (l : List (Nat × Nat)), sbReady s.dev = true ∧ l.all discoverable = false)
    ∧ (∃ (s : State) (m : FalferMsg) (index : Nat) (sub : Nat) (b : List Byte) (d : Dev) (r : _), s.dev.heard m 0x02 (le 2 index ++
      le 1 sub ++ le 1 0 ++ b) ∧ d = s.dev.noted m ∧ r = writeObject .sideband index sub b d ∧ keyBarred m index sub b d = false)
    ∧ (∃ (s : State) (m : FalferMsg) (index : Nat) (sub : Nat) (b : List Byte) (d : Dev) (r : _), s.dev.heard m 0x02 (le 2 index ++
      le 1 sub ++ le 1 0 ++ b) ∧ d = s.dev.noted m ∧ r = writeObject .sideband index sub b d ∧ keyBarred m index sub b d = true)
    ∧ (∃ (s : State) (m : FalferMsg) (d : Dev) (r : _), s.dev.heard m 0x03 [] ∧ d = s.dev.noted m ∧ r = writeFamily .sideband
      Fam.settingsStore 0 (le 2 0x5EA1) d ∧ r.1 = 0)
    ∧ (∃ (s : State) (m : FalferMsg) (d : Dev) (r : _), s.dev.heard m 0x03 [] ∧ d = s.dev.noted m ∧ r = writeFamily .sideband
      Fam.settingsStore 0 (le 2 0x5EA1) d ∧ r.1 ≠ 0)
    ∧ (∃ (s : State) (m : FalferMsg) (a : Nat) (r : _), s.dev.heard m 0x04 (le 1 a ++ le 3 0) ∧ r = writeFamily .sideband
      Fam.claimRequest 0 (le 1 a) (s.dev.noted m))
    ∧ (∃ (s : State) (m : FalferMsg) (sev : Nat) (kinds : Nat) (udp : Nat) (life : Nat) (d : Dev) (n : Nat), s.dev.heard m 0x05 (le
      1 sev ++ le 1 kinds ++ le 2 udp ++ le 2 life) ∧ d = s.dev.noted m ∧ life = 0 ∧ subscriptionOf s.dev m.sender udp = some n)
    ∧ (∃ (s : State) (m : FalferMsg) (sev : Nat) (kinds : Nat) (udp : Nat) (life : Nat) (d : Dev), s.dev.heard m 0x05 (le 1 sev ++
      le 1 kinds ++ le 2 udp ++ le 2 life) ∧ d = s.dev.noted m ∧ 0 < life ∧ (sev < 1 ∨ 4 < sev))
    ∧ (∃ (s : State) (m : FalferMsg) (sev : Nat) (kinds : Nat) (udp : Nat) (life : Nat) (d : Dev) (n : Nat), s.dev.heard m 0x05 (le
      1 sev ++ le 1 kinds ++ le 2 udp ++ le 2 life) ∧ d = s.dev.noted m ∧ 0 < life ∧ 1 ≤ sev ∧ sev ≤ 4 ∧ (subscriptionOf s.dev
      m.sender udp <|> freeSubscription s.dev) = some n)
    ∧ (∃ (s : State) (m : FalferMsg) (sev : Nat) (kinds : Nat) (udp : Nat) (life : Nat) (d : Dev), s.dev.heard m 0x05 (le 1 sev ++
      le 1 kinds ++ le 2 udp ++ le 2 life) ∧ d = s.dev.noted m ∧ 0 < life ∧ 1 ≤ sev ∧ sev ≤ 4 ∧ subscriptionOf s.dev m.sender udp =
      none ∧ freeSubscription s.dev = none)
    ∧ (∃ (s : State), s.dev.periscope = true)
    ∧ (∃ (s : State) (m : FalferMsg) (file : Nat) (off : Nat) (len : Nat), s.dev.heard m 0x06 (fileBytes 1 file len off []) ∧ file
      = 1 ∧ len ≤ 1024 ∧ off + len ≤ 4194304)
    ∧ (∃ (s : State) (m : FalferMsg) (file : Nat) (off : Nat) (len : Nat), s.dev.heard m 0x06 (fileBytes 1 file len off []) ∧ (file
      ≠ 1 ∨ 1024 < len ∨ 4194304 < off + len))
    ∧ (∃ (s : State) (m : FalferMsg) (file : Nat) (off : Nat) (b : List Byte) (d : Dev), s.dev.heard m 0x06 (fileBytes 2 file
      b.length off b) ∧ d = s.dev.noted m ∧ (file = 2 ∨ file = 3) ∧ s.dev.dc.holder ≠ 2)
    ∧ (∃ (s : State) (m : FalferMsg) (file : Nat) (off : Nat) (b : List Byte) (d : Dev), s.dev.heard m 0x06 (fileBytes 2 file
      b.length off b) ∧ d = s.dev.noted m ∧ writeRefusal file off b.length s.dev = 0)
    ∧ (∃ (s : State) (m : FalferMsg) (file : Nat), s.dev.heard m 0x06 (fileBytes 3 file 0 0 []) ∧ (file = 2 ∨ file = 3) ∧
      s.dev.dc.holder ≠ 2)
    ∧ (∃ (s : State) (m : FalferMsg) (file : Nat), s.dev.heard m 0x06 (fileBytes 3 file 0 0 []) ∧ fileRefusal file s.dev = 0) :=
  ⟨⟨⟨[], T .solo⟩, (msg0 0), ([(0x1000, 1)]), by decide +kernel⟩,
    ⟨⟨[], { keyed (T .solo) with sb := { (keyed (T .solo)).sb with seqIn := [(0, 5)] } }⟩, (msg 0 0x01 (targetBytes [(0x1000,
      1)])), ([(0x1000, 1)]), by decide +kernel, genuine_msg _ _ _ _ rfl (by decide) rfl, by decide +kernel⟩,
    ⟨⟨[], keyed (T .solo)⟩, (msg 0 0x01 (targetBytes [(0x1000, 1)])), ([(0x1000, 1)]), _,
      heard_msg _ _ _ _ (by decide +kernel) rfl (by decide) rfl rfl, rfl, by decide +kernel, by decide +kernel⟩,
    ⟨⟨[], keyed (T .solo)⟩, (msg 0 0x01 (targetBytes [])), ([]), _, heard_msg _ _ _ _ (by decide +kernel) rfl (by decide) rfl rfl,
      rfl, by decide +kernel⟩,
    ⟨(T .solo), 3, _, rfl⟩,
    ⟨⟨[], keyed (T .solo)⟩, ([(0x1000, 1)]), by decide +kernel⟩,
    ⟨⟨[], keyed (T .solo)⟩, ([(0x1000, 4)]), by decide +kernel⟩,
    ⟨⟨[], keyed (T .solo)⟩, (msg 0 0x02 (le 2 0x6000 ++ le 1 6 ++ le 1 0 ++ [0])), 0x6000, 6, ([0]), _, _,
      heard_msg _ _ _ _ (by decide +kernel) rfl (by decide) rfl rfl, rfl, rfl, by decide +kernel⟩,
    ⟨⟨[], { keyed (T .solo) with dc := { Dev.reset.dc with holder := 2 } }⟩, (msg 1 0x02 (le 2 8016 ++ le 1 17 ++ le 1 0 ++
      List.replicate 32 0)), 8016, 17, (List.replicate 32 0), _, _, heard_msg _ _ _ _ (by decide +kernel) rfl (by decide) rfl rfl,
      rfl, rfl, by decide +kernel⟩,
    ⟨⟨[], { keyed (T .solo) with dc := { Dev.reset.dc with holder := 2 } }⟩, (msg 0 0x03 []), _, _,
      heard_msg _ _ _ _ (by decide +kernel) rfl (by decide) rfl rfl, rfl, rfl, by decide +kernel⟩,
    ⟨⟨[], keyed (T .solo)⟩, (msg 0 0x03 []), _, _, heard_msg _ _ _ _ (by decide +kernel) rfl (by decide) rfl rfl, rfl, rfl, by
      decide +kernel⟩,
    ⟨⟨[], keyed (T .solo)⟩, (msg 0 0x04 (le 1 1 ++ le 3 0)), 1, _, heard_msg _ _ _ _ (by decide +kernel) rfl (by decide) rfl rfl,
      rfl⟩,
    ⟨⟨[], { keyed (T .solo) with sb := { (keyed (T .solo)).sb with subs := [(2, (0, 7, 0, 1, 0))] } }⟩, (msg 0 0x05 (le 1 1 ++ le 1
      0 ++ le 2 7 ++ le 2 0)), 1, 0, 7, 0, _, 2, heard_msg _ _ _ _ (by decide +kernel) rfl (by decide) rfl rfl, rfl, by
      decide +kernel, by decide +kernel⟩,
    ⟨⟨[], keyed (T .solo)⟩, (msg 0 0x05 (le 1 5 ++ le 1 0 ++ le 2 7 ++ le 2 10)), 5, 0, 7, 10, _,
      heard_msg _ _ _ _ (by decide +kernel) rfl (by decide) rfl rfl, rfl, by decide +kernel, by decide +kernel⟩,
    ⟨⟨[], keyed (T .solo)⟩, (msg 0 0x05 (le 1 4 ++ le 1 0 ++ le 2 7 ++ le 2 10)), 4, 0, 7, 10, _, 0,
      heard_msg _ _ _ _ (by decide +kernel) rfl (by decide) rfl rfl, rfl, by decide +kernel, by decide +kernel, by decide +kernel,
      by decide +kernel⟩,
    ⟨⟨[],
      { keyed (T .solo) with sb := { (keyed (T .solo)).sb with subs := [(0, (1, 7, 0, 1, 0)), (1, (2, 7, 0, 1, 0)), (2, (3, 7, 0, 1, 0)), (3, (4, 7, 0, 1, 0))] } }⟩,
      (msg 0 0x05 (le 1 1 ++ le 1 0 ++ le 2 7 ++ le 2 10)), 1, 0, 7, 10, _,
      heard_msg _ _ _ _ (by decide +kernel) rfl (by decide) rfl rfl, rfl, by decide +kernel, by decide +kernel, by decide +kernel,
      by decide +kernel, by decide +kernel⟩,
    ⟨⟨[], T .solo⟩, by decide +kernel⟩,
    ⟨⟨[], keyed (T .solo)⟩, (msg 0 0x06 (fileBytes 1 1 1024 4193280 [])), 1, 4193280, 1024,
      heard_msg _ _ _ _ (by decide +kernel) rfl (by decide) rfl rfl, by decide +kernel, by decide +kernel, by decide +kernel⟩,
    ⟨⟨[], keyed (T .solo)⟩, (msg 0 0x06 (fileBytes 1 1 1025 0 [])), 1, 0, 1025,
      heard_msg _ _ _ _ (by decide +kernel) rfl (by decide) rfl rfl, by decide +kernel⟩,
    ⟨⟨[], keyed (T .solo)⟩, (msg 0 0x06 (fileBytes 2 2 ([] : List Byte).length 0 [])), 2, 0, ([]), _,
      heard_msg _ _ _ _ (by decide +kernel) rfl (by decide) rfl rfl, rfl, by decide +kernel, by decide +kernel⟩,
    ⟨⟨[], { keyed (T .solo) with dc := { Dev.reset.dc with holder := 2 } }⟩, (msg 0 0x06 (fileBytes 2 3 (List.replicate 256 (0 :
      Byte)).length 0 (List.replicate 256 0))), 3, 0, (List.replicate 256 0), _,
      heard_msg _ _ _ _ (by decide +kernel) rfl (by decide) rfl rfl, rfl, by decide +kernel⟩,
    ⟨⟨[], keyed (T .solo)⟩, (msg 0 0x06 (fileBytes 3 2 0 0 [])), 2, heard_msg _ _ _ _ (by decide +kernel) rfl (by decide) rfl rfl,
      by decide +kernel, by decide +kernel⟩,
    ⟨⟨[], { keyed (T .solo) with dc := { Dev.reset.dc with holder := 2 } }⟩, (msg 0 0x06 (fileBytes 3 3 0 0 [])), 3,
      heard_msg _ _ _ _ (by decide +kernel) rfl (by decide) rfl rfl, by decide +kernel⟩⟩

theorem witness_TimeFollowsTheGrandmaster :
    (∃ (s : State), s.dev.periscope = true ∧ s.dev.pw.sbPhyRstHigh = true)
    ∧ (∃ (s : State) (t : BitVec 128), sbReady s.dev = true ∧ t = ownAddress s.dev)
    ∧ (∃ (s : State) (t : BitVec 128), sbReady s.dev = true ∧ t ≠ ownAddress s.dev)
    ∧ (∃ (s : State) (gm : _) (rank : _) (t : Nat), sbReady s.dev = true ∧ s.dev.tm.master = some (gm, rank) ∧ s.dev.tm.syncArrival
      = some t)
    ∧ (∃ (s : State) (gm : BitVec 64) (rank : Nat) (g : BitVec 64), sbReady s.dev = true ∧ s.dev.tm.master = some (gm, rank) ∧ g ≠
      gm)
    ∧ (∃ (origin : Int) (arrive : Nat) (d : Dev) (off : Int), off = (arrive : Int) - origin - d.tm.pathDelay ∧ d.val Fam.timeSource
      ≠ 2 ∧ 1000000 < off.natAbs ∧ 0 ≤ (d.tm.device : Int) - off ∧ (d.tm.device : Int) - off < 2 ^ 64)
    ∧ (∃ (origin : Int) (arrive : Nat) (d : Dev) (off : Int), off = (arrive : Int) - origin - d.tm.pathDelay ∧ off.natAbs < 10000 ∧
      15 ≤ d.tm.goodSyncs)
    ∧ (∃ (s : State), sbReady s.dev = true ∧ s.dev.tm.master.isSome = true)
    ∧ (∃ (s : State) (gm : _) (rank : _) (t : Nat), sbReady s.dev = true ∧ s.dev.tm.master = some (gm, rank) ∧ s.dev.tm.delaySent =
      some t)
    ∧ (∃ (s : State) (domain : Nat), sbReady s.dev = true ∧ domain ≠ s.dev.val Fam.timeDomain)
    ∧ (∃ (s : State) (gm : BitVec 64) (domain : Nat) (rank : Nat) (g : BitVec 64) (r : Nat), sbReady s.dev = true ∧ domain =
      s.dev.val Fam.timeDomain ∧ s.dev.tm.master = some (g, r) ∧ g ≠ gm ∧ r ≤ rank)
    ∧ (∃ (s : State) (gm : BitVec 64) (domain : Nat) (rank : Nat) (g : BitVec 64) (r : Nat), sbReady s.dev = true ∧ domain =
      s.dev.val Fam.timeDomain ∧ s.dev.tm.master = some (g, r) ∧ g ≠ gm ∧ rank < r)
    ∧ (∃ (s : State) (gm : BitVec 64) (domain : Nat) (r : Nat), sbReady s.dev = true ∧ domain = s.dev.val Fam.timeDomain ∧
      s.dev.tm.master = some (gm, r)) :=
  ⟨⟨⟨[], T .solo⟩, by decide +kernel⟩,
    ⟨⟨[], T .solo⟩, (ownAddress (T .solo)), by decide +kernel⟩,
    ⟨⟨[], T .solo⟩, 0, by decide +kernel⟩,
    ⟨⟨[], timed (fun t => { t with syncArrival := some 3 })⟩, 1, 5, 3, by decide +kernel⟩,
    ⟨⟨[], timed id⟩, 1, 5, 2, by decide +kernel⟩,
    ⟨0, 2000000, (timed (fun t => { t with device := 5000000 })), _, rfl, by decide +kernel, by decide +kernel, by decide +kernel,
      by decide +kernel⟩,
    ⟨0, 5000, (timed (fun t => { t with goodSyncs := 15 })), _, rfl, by decide +kernel, by decide +kernel⟩,
    ⟨⟨[], timed id⟩, by decide +kernel⟩,
    ⟨⟨[], timed (fun t => { t with delaySent := some 9 })⟩, 1, 5, 9, by decide +kernel⟩,
    ⟨⟨[], timed id⟩, 1, by decide +kernel⟩,
    ⟨⟨[], timed id⟩, 2, 0, 5, 1, 5, by decide +kernel⟩,
    ⟨⟨[], timed id⟩, 2, 0, 3, 1, 5, by decide +kernel⟩,
    ⟨⟨[], timed id⟩, 1, 0, 5, by decide +kernel⟩⟩

theorem witness_StepTakesTheFrontCommand :
    (∃ (c : Instr) (r : List Instr) (s : State), s.pending = c :: r) :=
  ⟨.volumeCreate, ([]), ⟨[.volumeCreate], T .solo⟩, by decide +kernel⟩

theorem witness_QueueStaysWellFormed :
    (∃ (s : State), s.queueWf) :=
  ⟨⟨[.volumeCreate], T .solo⟩, by decide +kernel⟩

theorem witness_IdleStepsLetTimePass :
    (∃ (d : Dev) (f : Nat) (i : Nat), d.periscope = true ∧ valKey f i ≠ valKey Fam.lifeHours 0 ∧ valKey f i ≠ valKey
      Fam.fwActivationState 0)
    ∧ (∃ (n : Nat) (d : Dev), d.periscope = true ∧ 0 < n)
    ∧ (∃ (d : Dev), d.periscope = true ∧ d.inMode .eclipse = true)
    ∧ (∃ (n : Nat) (d : Dev), d.periscope = true ∧ d.tm.slew = 0 ∧ d.tm.device + 1000 * n < 2 ^ 64)
    ∧ (∃ (d : Dev) (c : Nat), d.periscope = true ∧ (d.fe c).gate = false)
    ∧ (∃ (d : Dev) (c : Nat), d.periscope = true ∧ (d.fe c).loaded = false)
    ∧ (∃ (d : Dev), d.periscope = false) :=
  ⟨⟨(T .solo), Fam.timeOffsetNs, 0, by decide +kernel⟩,
    ⟨1, (T .solo), by decide +kernel⟩,
    ⟨(T .eclipse), by decide +kernel⟩,
    ⟨1, (T .solo), by decide +kernel⟩,
    ⟨(T .solo), 0, by decide +kernel⟩,
    ⟨(T .solo), 0, by decide +kernel⟩,
    ⟨Dev.reset, by decide +kernel⟩⟩

theorem witness_HostCommandsWaitWhileHeld :
    (∃ (c : Instr) (s : State), hostRow c = true ∧ s.dev.hostRuns = false)
    ∧ (∃ (d : Dev), (d.inMode .eclipse = true ∨ d.contending = true ∨ d.pc.quiet = true ∨ d.softResetting = true)) :=
  ⟨⟨.volumeCreate, ⟨[], T .eclipse⟩, by decide +kernel⟩,
    ⟨(T .eclipse), by decide +kernel⟩⟩

theorem witness_FrontEndsStayLegal :
    (∃ (c : Instr) (r : List Instr) (s : State) (t : State), s.pending = c :: r ∧ frontEndRow c = true ∧ (∀ n, (s.dev.fe n).Legal)
      ∧ step s = .next t)
    ∧ (∃ (s : State) (t : State), s.pending = [] ∧ (∀ n, (s.dev.fe n).Legal) ∧ step s = .next t) :=
  ⟨⟨(.feSpindleStop 0), ([]), ⟨[.feSpindleStop 0], Dev.reset⟩, _, by decide +kernel, by decide +kernel, fun _ => idle_legal, rfl⟩,
    ⟨⟨[], Dev.reset⟩, _, by decide +kernel, fun _ => idle_legal, rfl⟩⟩

theorem witness_RingCountsFollowTheRule :
    (∃ (d : Nat) (h : Nat) (t : Nat), 2 ≤ d ∧ d ≤ 65536 ∧ h < 131072 ∧ t < 131072 ∧ h % 65536 < d ∧ t % 65536 < d ∧ rCount d h t <
      d)
    ∧ (∃ (d : Nat) (h : Nat) (t : Nat), 2 ≤ d ∧ d ≤ 65536 ∧ h < 131072 ∧ t < 131072 ∧ h % 65536 < d ∧ t % 65536 < d ∧ 0 < rCount d
      h t)
    ∧ (∃ (d : Nat) (h : Nat) (t : Nat) (v : Nat), 2 ≤ d ∧ d ≤ 65536 ∧ h < 131072 ∧ t < 131072 ∧ h % 65536 < d ∧ t % 65536 < d ∧
      tailOk d h v = true)
    ∧ (∃ (d : Nat) (h : Nat) (t : Nat) (v : Nat), 2 ≤ d ∧ d ≤ 65536 ∧ h < 131072 ∧ t < 131072 ∧ h % 65536 < d ∧ t % 65536 < d ∧
      headOk d h t v = true ∧ rCount d h t ≤ d) :=
  ⟨⟨65536, 131071, 131071, by decide +kernel⟩,
    ⟨65536, 131071, 65535, by decide +kernel⟩,
    ⟨65536, 131071, 131071, 65535, by decide +kernel⟩,
    ⟨2, 65537, 1, 65537, by decide +kernel⟩⟩

theorem witness_WrittenSectorsReadBack :
    (∃ (user : List Byte) (r : SectorRead) (i : Nat) (w : Bool) (k : Nat), user.length = 4096 ∧ 0 < i ∧ k ≤ r.marks.length ∧ (∀ b ∈
      r.marks, (acceptMark (if w then 64 else 16) (markPlaces (if w then 64 else 16) b)).isSome = true))
    ∧ (∃ (a : Attempt) (t : SectorTag), a.tag ≠ t) :=
  ⟨⟨(List.replicate 4096 0), ({ sector0 with marks := [List.replicate 64 false ++ syncMark ++ List.replicate 64 false] }), 1,
      false, 1, List.length_replicate, by decide +kernel, by decide +kernel, by decide +kernel⟩,
    ⟨({ user := [], crc := 0, tag := { tag0 with head := 1 }, parity := [] }), tag0, by decide +kernel⟩⟩

theorem witness_SyncMarkIsTheBestCandidate :
    (∃ (w : Nat) (l : List (Int × Nat)) (c : Int × Nat) (e : Int × Nat), acceptMark w l = some c ∧ e ∈ l ∧ e.2 ≤ 2 ∧ e.1.natAbs ≤
      w)
    ∧ (∃ (pre : List Bool) (w : _), pre.length = 64 ∧ w ≤ 64)
    ∧ (∃ (w : _) (bits : List Bool) (c : _), c ∈ markPlaces w bits) :=
  ⟨⟨16, ([(-16, 2), (3, 1)]), ((3, 1)), ((-16, 2)), by decide +kernel⟩,
    ⟨(List.replicate 64 false), 16, List.length_replicate, by decide +kernel⟩,
    ⟨16, (List.replicate 64 false ++ syncMark ++ List.replicate 64 false), ((0, 0)), by decide +kernel⟩⟩

theorem witness_FacetsTurnWithTheBeam :
    (∃ (g : Geom) (j : Nat), j < g.width)
    ∧ (∃ (g : Geom) (shift : Nat) (s : Nat) (u : Nat), 12 ≤ shift ∧ s < g.slots shift ∧ Geom.place shift u = Geom.place shift s)
    ∧ (∃ (g : Geom) (shift : Nat) (n : Nat), 3 ≤ g.slots shift ∧ n < g.blocks shift) :=
  ⟨⟨arr0.geom, 4, by decide +kernel⟩,
    ⟨arr0.geom, 17, 0, 0, by decide +kernel⟩,
    ⟨arr0.geom, 17, 0, by decide +kernel⟩⟩

theorem witness_LostFacetIsRebuilt :
    (∃ (g : Geom) (erased : List Nat) (l : List Nat) (f : Nat), g.mirror = false ∧ survivors g erased = some l ∧ f ∈ l)
    ∧ (∃ (g : Geom) (len : Nat) (f : Nat) (data : Nat → List Byte), g.mirror = false ∧ 2 ≤ g.k ∧ g.k ≤ 64 ∧ f < g.k ∧ (∀ i, i < g.k
      → (data i).length = len))
    ∧ (∃ (f : Nat) (have_ : List (Nat × List Byte)) (b : List Byte), (have_.find? (fun e => e.1 == f) = some (f, b)))
    ∧ (∃ (g : Geom), g.mirror = true) :=
  ⟨⟨arr0.geom, ([1]), ([0, 2, 3, 4]), 4, by decide +kernel⟩,
    ⟨arr0.geom, 4, 3, (fun _ => [1, 2, 3, 4]), by decide +kernel, by decide +kernel, by decide +kernel, by decide +kernel,
      by intro i _; rfl⟩,
    ⟨4, ([(4, [1])]), ([1]), by decide +kernel⟩,
    ⟨({ arr0.geom with mirror := true }), by decide +kernel⟩⟩

theorem witness_RangesCutIntoAtomicUnits :
    (∃ (fuel : Nat) (l : Nat) (lba : Nat) (n : Nat) (u : Nat × Nat), 1 ≤ l ∧ n / 64 + 2 ≤ fuel ∧ u ∈ atomicUnits fuel l lba n) :=
  ⟨3, 64, 63, 65, ((64, 64)), by decide +kernel⟩

theorem witness_TenantsCannotProbe :
    (∃ (d : Dev) (t : Nat) (index : Nat) (sub : Nat) (f : Nat) (i : Nat), findObject index sub = some (f, i) ∧ inScope d t f i =
      false)
    ∧ (∃ (index : Nat) (sub : Nat), findObject index sub = none) :=
  ⟨⟨(T .solo), 1, 12544, 2, Fam.tenantEntry, 2, by decide +kernel⟩,
    ⟨0, 2, by decide +kernel⟩⟩

theorem witness_PortCommandsComplete :
    (∃ (s : State) (n : Nat), n < 16 ∧ (s.dev.coreUp = false ∨ (s.dev.port n).linkUp = false))
    ∧ (∃ (s : State) (n : Nat), n < 16 ∧ s.dev.coreUp = true ∧ (s.dev.port n).linkUp = true)
    ∧ (∃ (s : State) (n : Nat) (speed : Nat) (width : Nat), n < 16 ∧ s.dev.coreUp = true ∧ s.dev.pw.hostTerminated = true ∧
      (s.dev.port n).readyToTrain = true ∧ (s.dev.port n).perstLow = false ∧ (s.dev.port n).linkUp = false ∧ 1 ≤ speed ∧ speed ≤
      s.dev.val Fam.hostPortMaxSpeed n ∧ (width = 1 ∨ width = 2 ∨ width = 4))
    ∧ (∃ (s : State) (f : Fn), portServes s.dev f.port = true ∧ s.dev.fnExists f = true ∧ f.fn ≠ 0 ∧ (s.dev.fnS f).inFlr = false ∧
      (s.dev.fnS ⟨f.port, 0⟩).inFlr = false)
    ∧ (∃ (s : State) (n : Nat), portServes s.dev n = true ∧ s.dev.fnExists ⟨n, 0⟩ = true ∧ (s.dev.fnS ⟨n, 0⟩).inFlr = false)
    ∧ (∃ (s : State) (n : Nat) (k : Nat), portServes s.dev n = true ∧ (s.dev.port n).vfs = 0 ∧ k ≤ (s.dev.port n).totalVfs)
    ∧ (∃ (s : State), s.dev.coreUp = true ∧ s.dev.pw.ddrReady = true)
    ∧ (∃ (s : State) (n : Nat) (i : Nat) (x : _), tfind (s.dev.port n).ide i = some x ∧ x.secure = true ∧ portServes s.dev n =
      true) :=
  ⟨⟨⟨[], T .dark⟩, 15, by decide +kernel⟩,
    ⟨⟨[], T .solo⟩, 0, by decide +kernel⟩,
    ⟨⟨[], { T .solo with ports := [(0, { upPort with linkUp := false, readyToTrain := true })] }⟩, 0, 5, 4, by decide +kernel⟩,
    ⟨⟨[], { T .solo with ports := [(0, { upPort with vfs := 1 })] }⟩, vf, by decide +kernel⟩,
    ⟨⟨[], T .solo⟩, 0, by decide +kernel⟩,
    ⟨⟨[], T .solo⟩, 0, 64, by decide +kernel⟩,
    ⟨⟨[], T .solo⟩, by decide +kernel⟩,
    ⟨⟨[], withStream stream0⟩, 0, 16, stream0, by decide +kernel⟩⟩

theorem witness_LensTablesReadBack :
    (∃ (surface : Nat) (h : ZoneHeader) (k : Nat), surface < 256 ∧ 1 ≤ h.zones ∧ h.zones ≤ 64 ∧ h.formatId < 2 ^ 32 ∧ h.generation
      < 2 ^ 64 ∧ k ≠ surface)
    ∧ (∃ (z : ZoneEntry), z.first < 2 ^ 32 ∧ z.last < 2 ^ 32 ∧ z.sectors < 2 ^ 16 ∧ z.rate < 2 ^ 16 ∧ z.boost < 256 ∧ -128 ≤ z.gain
      ∧ z.gain < 128 ∧ -128 ≤ z.offset ∧ z.offset < 128 ∧ -128 ≤ z.asym ∧ z.asym < 128 ∧ z.fir.length = 10 ∧ (∀ t ∈ z.fir, -32768 ≤
      t ∧ t < 32768) ∧ z.target.length = 3 ∧ (∀ t ∈ z.target, -128 ≤ t ∧ t < 128) ∧ z.precomp.length = 3 ∧ (∀ t ∈ z.precomp, t <
      256))
    ∧ (∃ (e : ReallocEntry), e.pba < 2 ^ 48 ∧ e.head < 256 ∧ e.cylinder < 2 ^ 32 ∧ e.sector < 2 ^ 16)
    ∧ (∃ (g : Nat) (l : List ReallocEntry) (c : TableCopy), (∀ e ∈ l, e.pba < 2 ^ 48 ∧ e.head < 256 ∧ e.cylinder < 2 ^ 32 ∧
      e.sector < 2 ^ 16) ∧ c.generation = g ∧ c.bytes = l.flatMap ReallocEntry.bytes) :=
  ⟨⟨255, ⟨64, 0xFFFFFFFF, 0xFFFFFFFFFFFFFFFF⟩, 0, by decide +kernel⟩,
    ⟨({ zone0 with target := [-128, 0, 127], precomp := [0, 128, 255], gain := -128 }), by decide +kernel⟩,
    ⟨⟨0xFFFFFFFFFFFF, 0xFFFFFFFF, 255, 65535, true⟩, by decide +kernel⟩,
    ⟨1, ([⟨0xFFFFFFFFFFFF, 0xFFFFFFFF, 255, 65535, true⟩]), ⟨1, ReallocEntry.bytes ⟨0xFFFFFFFFFFFF, 0xFFFFFFFF, 255, 65535, true⟩,
      0⟩, by decide +kernel⟩⟩

/-- The clause of the last statement in which 262,144 spares are used. -/
theorem lens_full (k : Nat) : let s : State := ⟨[], onLens (lensRetired k)⟩
    0 < 24 ∧ s.dev.executing = true ∧ (s.dev.lens 0).reported.find? (·.1 == 0) = some (0, none)
    ∧ placeNow (s.dev.lens 0) 0 = some ⟨0, 0, 0, 0⟩ ∧ (s.dev.lens 0).journal.length < 1024 ∧ (s.dev.lens 0).up = true
    ∧ liveZone (s.dev.lens 0) 0 (Place.mk 0 0 0 0).zone = some zone0 ∧ cadenceHeld s.dev (lensMember 0) = false
    ∧ k ≤ (s.dev.lens 0).realloc.length + (s.dev.lens 0).retired.length := by
  have hp : placeNow lens0 0 = some ⟨0, 0, 0, 0⟩ := by decide +kernel
  exact ⟨by decide, rfl, rfl, hp, Nat.zero_lt_succ _, rfl, rfl, rfl, (lensRetired_length k).ge⟩

theorem witness_ZoneTablesAndReallocation_full : ∃ (s : State) (n pba : Nat) (dec : Option Block) (p : Place) (z : ZoneEntry),
    n < 24 ∧ s.dev.executing = true ∧ (s.dev.lens n).reported.find? (·.1 == pba) = some (pba, dec)
    ∧ placeNow (s.dev.lens n) pba = some p ∧ (s.dev.lens n).journal.length < 1024 ∧ (s.dev.lens n).up = true
    ∧ liveZone (s.dev.lens n) 0 p.zone = some z ∧ cadenceHeld s.dev (lensMember n) = false
    ∧ 262144 ≤ (s.dev.lens n).realloc.length + (s.dev.lens n).retired.length :=
  ⟨_, 0, 0, none, ⟨0, 0, 0, 0⟩, zone0, lens_full 262144⟩

/-! ### Ill-formed commands -/

theorem test_wellFormed_registers : (
    [.registerWrite (.bar0 { req0 with port := 16 } 0 4 0), .registerWrite (.bar0 req0 0x100000 4 0), .registerWrite (.bar0 req0 0 9 0),
     .registerWrite (.bar0 { req0 with stream := some 17 } 0 4 0), .registerWrite (.bar2 0x1000000 4 0), .registerWrite (.bar2 0 9 0),
     .registerWrite (.busMaster ⟨0, 65⟩ true), .registerWrite (.msixControl ⟨0, 65⟩ true true), .registerWrite (.aerMask ⟨0, 65⟩ 0),
     .registerWrite (.aerSeverity ⟨16, 0⟩ 0), .registerWrite (.config ⟨16, 0⟩ (.bar 0) 0), .registerWrite (.config pf (.bar 6) 0),
     .registerWrite (.config pf (.vfBar 6) 0), .registerWrite (.object (.tenant 4096) 0 0 []), .registerWrite (.object .admin 65536 0 []),
     .registerWrite (.object .admin 0 256 [])]
    : List Instr).all (fun i => !i.wf) = true := by decide

theorem test_wellFormed_1 : (
    [.porNRelease 4 false, .imageVerifyComplete 2 none, .recoveryComplete 64, .modeRequestFocus (.tenant 4096),
     .modeRequestSolo (.tenant 4096), .softReset (.tenant 4096) 0, .fabricPeakReset (.tenant 4096), .sagSensorBelow 16,
     .sagDeepCut 16, .thermalThreshold .alert 0 16, .collapseRestart 4 false, .hpPerstNAssert 16, .hpPerstNRelease 16,
     .hostLinkDown 16 false, .hostLinkUp 16 0 0, .flr ⟨16, 0⟩, .vfEnableClear 16, .receivedErrorTlp ⟨16, 0⟩ .poisonedWrite,
     .completionTimeout ⟨16, 0⟩ (.copyFetch 0), .ideIntegrityFailure 16 0, .ideIntegrityFailure 0 17, .ideKeySetSwitch 16 0,
     .ideKeySetSwitch 0 17, .ideKmKeyProgram 16 0 0 0 0 ⟨0, 0, []⟩] : List Instr).all (fun i => !i.wf) = true := by decide

theorem test_wellFormed_2 : (
    [.ideKmKeyProgram 0 17 0 0 0 ⟨0, 0, []⟩, .ideKmKeyProgram 0 0 0 2 0 ⟨0, 0, []⟩,
     .ideKmKeyProgram 0 0 0 0 0 ⟨0, 0, List.replicate 3 (0, 0)⟩, .doeDiscovery 16 0, .getVersion 16, .getCapabilities 16,
     .negotiateAlgorithms 16, .getDigests 16, .getCertificate 16 0 0 0, .getCertificate 0 8 0 0, .challenge 16 0 0,
     .challenge 0 8 0, .getMeasurements 16 0 0, .keyExchange 16 [], .finish 16 0 false, .heartbeat 16 0, .keyUpdate 16 0,
     .endSession 16 0, .msixPendingSend ⟨16, 0⟩ 0, .msixPendingSend pf 2048, .sqTailDoorbell { req0 with port := 16 } 0 0,
     .sqTailDoorbell req0 1024 0, .cqHeadDoorbell { req0 with port := 16 } 0 0, .cqHeadDoorbell req0 1024 0] : List Instr).all (fun i => !i.wf) = true := by decide

theorem test_wellFormed_3 : (
    [.createCq { req0 with port := 16 } 0, .createCq req0 1024, .createSq { req0 with port := 16 } 0, .createSq req0 1024,
     .deleteSq { req0 with port := 16 } 0, .deleteSq req0 1024, .deleteCq { req0 with port := 16 } 0, .deleteCq req0 1024,
     .sqShutdownDrained ⟨16, 0⟩ 0, .sqShutdownDrained pf 1024, .sqShutdownFinish ⟨16, 0⟩ 0 [], .sqShutdownFinish pf 1024 [],
     .inlinePush { req0 with port := 16 } 0 0 false ⟨0, .single⟩, .inlinePush req0 1024 0 false ⟨0, .single⟩,
     .inlinePush req0 0 8 false ⟨0, .single⟩, .sqFetch ⟨16, 0⟩ 0, .sqFetch pf 1024, .sqFetchComplete ⟨16, 0⟩ 0 none,
     .sqFetchComplete pf 1024 none, .overflowDrain ⟨16, 0⟩ 0, .overflowDrain pf 1024, .coalesceTimerExpire ⟨16, 0⟩ 0,
     .coalesceTimerExpire pf 1024, .irisAdmit none 4] : List Instr).all (fun i => !i.wf) = true := by decide

theorem test_wellFormed_4 : (
    [.downloadWriterExpire 2, .svnCommit (.tenant 4096) 0, .meterRingHead (.tenant 4096) 0, .prismKat (.tenant 4096),
     .scrubBeam 64 0 0 0 0, .scrubBeam 0 0 0 0 64, .beamCloseTimer 64 0, .beamCommit 64 0, .journalBatchTimer 64,
     .cleanerSelect 64 0, .segmentFree 64 0, .dumpVaultFailed 2, .holdupAttest (.tenant 4096), .trackingSlot 12 (0, 0) (0, 0),
     .probeIssue 2048, .absentFailTimeout 2048, .rebuildDelayExpire 64 0, .rebuildDelayExpire 0 32, .epochBarrierComplete 64,
     .facetRebuildStep 64 0, .meridianSweepStep 64 0, .holdRetryTimer 64, .hotplugArrival 32 0 (0, 0) 0 0,
     .hotplugArrival 0 2 (0, 0) 0 0] : List Instr).all (fun i => !i.wf) = true := by decide

theorem test_wellFormed_5 : (
    [.abortWaitExpire 2048, .readyLimitExpire 2048, .memberReturnTimeout 2048, .memberPathError 32 (0, .dpc) [],
     .memberPathError 0 (2, .dpc) [], .memberLinkDownTimeout 2048, .memberCriticalWarning 2048 .fatal, .smartPoll 2048 0,
     .lensUpstreamFrame 24 0 0 0 0 [], .lensUpstreamFrame 0 0 0 0 0 (List.replicate 32 (.readData 0 0)),
     .lensLinkUp 24 0 0 0 0 [] [] none, .lensLinkUp 0 0 0 0 33 [] [] none,
     .lensLinkUp 0 0 0 0 0 [] (List.replicate 3 ⟨0, [], 0⟩) none, .lensLinkLoss 24, .feDownstreamFrame 24 0 0 0 0 [],
     .feDownstreamFrame 0 2 0 0 0 [], .feDownstreamFrame 0 0 0 0 0 (List.replicate 32 (.vcm 0 0)), .feOwnerLossDetect 24,
     .feHeadRetract 24, .feEpochForget 24, .feSpindleStop 24, .nop 24 0, .nop 0 256, .readReg 24 0 0] : List Instr).all (fun i => !i.wf) = true := by decide

theorem test_wellFormed_6 : (
    [.readReg 0 256 0, .writeReg 24 0 0 0, .writeReg 0 256 0 0, .setClock 24 0 0, .setClock 0 256 0, .setRead 24 0 0 0 0,
     .setRead 0 256 0 0 0, .setPrecomp 24 0 0 0 0, .setPrecomp 0 256 0 0 0, .selectHead 24 0 0, .selectHead 0 256 0,
     .selectHead 0 0 256, .startWrite 24 0 0, .startWrite 0 256 0, .endWrite 24 0, .endWrite 0 256, .spindle 24 0 0 0,
     .spindle 0 256 0 0, .load 24 0, .load 0 256, .park 24 0, .park 0 256, .setShock 24 0 0, .setShock 0 256 0] : List Instr).all (fun i => !i.wf) = true := by decide

theorem test_wellFormed_7 : (
    [.feWriteEnd 24 .count0, .sectorDecode 24 sector0, .sectorReread 24 0, .irJobStart 64 [], .adaptUpdate 24 0 0 [] 0 0 0,
     .adaptUpdate 0 64 0 [] 0 0 0, .adaptUpdate 0 0 256 [] 0 0 0, .zoneTableFlush 24, .servoWedge 24 wedge0, .servoLost 24,
     .shutterRewrite 24, .shockHoldEnd 24, .adjacentVerify 24 [], .cadenceDecide 64 [] false, .cadenceDrained 64,
     .cadenceSettled 64, .spinupTimeout 24, .reallocate 24 0 none false, .reallocTableWrite 24,
     .copyStart { req0 with port := 16 } 0, .copyAbort { req0 with port := 16 }, .copyRingBase { req0 with port := 16 } 0,
     .copyRingHead { req0 with port := 16 } 0, .copyDescriptorFetched 16 none] : List Instr).all (fun i => !i.wf) = true := by decide

theorem test_wellFormed_8 : (
    [.copyBurstComplete 16 (.bytes []) false, .copyStagingGranted 16, .txWord { req0 with port := 16 } 0,
     .txDoorbell { req0 with port := 16 } 0, .rxPop { req0 with port := 16 } 0, .rxDoorbellClear { req0 with port := 16 } 0,
     .firmwareTakeWord ⟨16, 0⟩, .firmwarePostWord ⟨16, 0⟩ 0, .faultOnset 640 0, .faultLiveEnd 640,
     .faultClear (.tenant 4096) 0 0, .faultClear .admin 640 0, .faultClearAll (.tenant 4096), .firstFaultClear (.tenant 4096),
     .faultInjectPulse (.tenant 4096) 0 0 0 false, .faultInjectPulse .admin 640 0 0 false,
     .faultInjectHold (.tenant 4096) 0 0 0 false, .faultInjectHold .admin 640 0 0 false, .faultInjectRelease (.tenant 4096) 0,
     .faultInjectRelease .admin 640, .bboxErase (.tenant 4096) 0, .dictSlotGet 8, .dictSlotSet 8, .mailboxDictGet ⟨16, 0⟩] : List Instr).all (fun i => !i.wf) = true := by decide

theorem test_wellFormed_9 : (
    [.mailboxDictSet ⟨16, 0⟩, .take (.tenant 4096), .renew (.tenant 4096), .claimRelease (.tenant 4096), .force (.tenant 4096),
     .settingsStore (.tenant 4096) 0, .factoryReset (.tenant 4096) 0, .get (msg0 4) [], .get (msg0 0) [(65536, 0)],
     .discoveryGet 0 0 16 [], .discoveryGet 0 0 0 [(65536, 0)], .set (msg0 4) 0 0 [], .set (msg0 0) 0 256 [], .store (msg0 4),
     .claim (msg0 4) 0, .subscribe (msg0 4) 0 0 0 0, .subscriptionExpire 4, .fileRead (msg0 4) 0 0 0,
     .fileWrite (msg0 4) 0 0 [], .fileCommit (msg0 4) 0 none, .vfEnableSet 16 0, .cstsRdyFall 2048, .feCommandDone 24,
     .firmwareRaiseDoorbell ⟨16, 0⟩ 0] : List Instr).all (fun i => !i.wf) = true := by decide

theorem test_wellFormed_10 : (
    [.firmwareTakeDoorbell ⟨16, 0⟩ 0] : List Instr).all (fun i => !i.wf) = true := by decide

/-- In range, the largest numbers are well-formed. -/
theorem test_wellFormed_accepts : (
    [.flr ⟨15, 64⟩, .take (.tenant 4095), .sqFetch pf 1023, .registerWrite (.bar0 ⟨⟨15, 64⟩, some 16⟩ 0xFFFFF 8 0), .faultOnset 639 0, .lensLinkLoss 23, .probeIssue 2047, .copyStagingGranted 15]
    : List Instr).all (·.wf) = true := by decide

/-! ### Worked examples and tables of the manual -/

/-- The device after a command. -/
def run (c : Instr) (d : Dev) : Dev := match exec c ⟨[], d⟩ with | .next s => s.dev | .fault _ => d | .refused _ => d

def digits : List Byte := (List.range 9).map fun i => BitVec.ofNat 8 (0x31 + i)

/-- R179. -/
theorem test_crc32c : crc32c digits = 0xE3069283 := by decide +kernel
/-- R326. -/
theorem test_crc32 : crc32 digits = 0xCBF43926 := by decide +kernel

def four : List (Nat × List Byte) := [(0, [1]), (1, [2]), (2, [3]), (3, [4])]
def g42 : Geom := { mirror := false, k := 4, m := 2, members := [0, 1, 2, 3, 4, 5], epoch := 1 }

/-- Table 6.4. -/
theorem test_coefficients : (List.range 4).map (coef 0) = [1, 1, 1, 1] ∧ (List.range 4).map (coef 1) = [0xA6, 0x46, 0xBB, 0x7B] := by
  decide +kernel
theorem test_parity : parityOf 0 1 four = [0x04] ∧ parityOf 1 1 four = [0x0B] := by decide +kernel
/-- D1 and D3 erased. -/
theorem test_erasure : [1, 3].map (fun f => reconstructFacet g42 1 f [(0, [1]), (2, [3]), (4, [0x04]), (5, [0x0B])]) = [[2], [4]] := by
  decide +kernel

/-- D, C, S and L of a row of Table 6.2. -/
def row62 (mirror : Bool) (k m shift : Nat) : List Nat :=
  let g : Geom := { mirror := mirror, k := k, m := m, members := [], epoch := 1 }
  [g.slots shift, g.blocks shift, summarySlots (g.blocks shift), atomicLimitOf (g.blocks shift)]

/-- Table 6.2. -/
theorem test_geometries : [row62 false 2 1 14, row62 false 4 2 14, row62 false 4 2 17, row62 false 16 4 17, row62 false 64 4 20,
      row62 true 0 3 14, row62 true 0 3 17]
    = [[8, 6, 1, 6], [16, 14, 1, 14], [128, 126, 1, 64], [512, 509, 2, 64], [16384, 16319, 64, 64], [4, 2, 1, 2], [32, 30, 1, 30]] := by
  decide +kernel

/-- R123. -/
theorem test_atomicUnits : atomicUnits 4 64 4660 20 = [(4660, 12), (4672, 8)] ∧ atomicUnits 4 14 4660 20 = [(4660, 12), (4672, 8)]
    ∧ atomicUnits 4 14 4608 20 = [(4608, 14), (4622, 6)] := by decide +kernel

/-- Table 3.4 and the depth-65,536 example. -/
theorem test_ringCounts : rCount 2 0 1 = 1 ∧ rCount 2 0 0x10000 = 2 ∧ tailOk 2 0 0x10001 = false ∧ rCount 2 0x10000 0 = 2
    ∧ rNext 2 1 = 0x10000 ∧ rNext 2 0x10001 = 0 ∧ rCount 65536 0x1FFF0 0x10 = 32 ∧ rCount 65536 0x8000 0x18000 = 65536
    ∧ tailOk 65536 0x8000 0x18001 = false := by decide +kernel

/-- Slot 1,029 of the queue counters, and source 561 of the fault hub. -/
theorem test_objectIndex : objectAt Fam.qCqStalls 1029 = (0x2201, 0x12) ∧ objectAt Fam.faultCount 0x231 = (0x9123, 0x13)
    ∧ objectAt Fam.faultStatus 0x231 = (0x9123, 0x11) := by decide +kernel

/-- R139: a full byte bucket of 4,194,304 B at 500 MB/s takes a WRITE of 8,388,608 B, then a block 8,396.8 µs later. -/
def bucket : Tenant := { ten1 with byteRate := 500, byteDepth := 4096, byteLevel := 4194304000000000 }
theorem test_bucket : bucket.admits 8388608 = true ∧ (bucket.charge 8388608).byteLevel = -4194304000000000
    ∧ ((bucket.charge 8388608).refilled 8396799).admits 4096 = false ∧ ((bucket.charge 8388608).refilled 8396800).admits 4096 = true := by
  decide +kernel

/-- Table 4.9: commands 1 to 4. -/
theorem test_overlaps :
    let a := entry opWrite 0x123 0x1000 0x10 []
    let b := entry opRead 0x123 0x1008 0x10 []
    let c := entry opWrite 0x123 0x1008 8 []
    let d := entry opRead 0x123 0x2000 4 []
    overlaps a b = true ∧ overlaps a c = true ∧ overlaps b c = true ∧ overlaps a d = false ∧ overlaps b d = false ∧ overlaps c d = false := by
  decide +kernel

/-- Twelve 64 GiB modules and a window of 16 GiB. -/
theorem test_warmLimit : warmLimit 768 16 = 196014080 := by decide +kernel

/-- 16 GiB over two members of 12 GB/s with 266 W on the board, and 8 GiB. -/
def dumping (gib : Nat) : Dev :=
  ({ T .solo with pc := { (T .solo).pc with windowGib := gib, r0 := 12000, r1 := 12000 } }).setVal Fam.pcacheBoardPowerW 0 266
theorem test_requiredEnergy : requiredEnergy (dumping 16) = 307 ∧ requiredEnergy (dumping 8) = 180 := by decide +kernel

/-- R346 at 3,000 Mbit/s. -/
theorem test_trackLayout : intervalBits 3000 = 65104 ∧ guardBits 3000 = 4800 ∧ regionBits 3000 = 60304
    ∧ trackLayout 3000 2 = [[⟨0, 0, 0, 37120⟩], [⟨0, 37256, 0, 22928⟩, ⟨1, 0, 22928, 14192⟩]] := by decide +kernel

/-- R347: +0.48 track pitch from either Gray code. -/
theorem test_position : [1234567, 1234566].map (fun t => pesOf { wedge0 with gray := BitVec.ofNat 24 (t ^^^ (t / 2)), tAB := 1812, tAA := 4800 } 1234566)
    = [1967, 1967] := by decide +kernel

/-- R330: the nearer of two candidates with one differing bit. -/
theorem test_syncMark : acceptMark 16 [(2, 1), (5, 1)] = some (2, 1) := by decide

/-- R339: the priors of D1 and D3. -/
theorem test_irPrior : irPrior 1 [31, -31, -31, -5] = -4 ∧ irPrior 1 [31, -31, -31, 3] = 2 := by decide

/-- R397: 8 lines of 0x1000 at a stride of 0x1000, 0x800 apart. -/
def shifted : BitVec 512 := desc 0x40000000 0x40000800 0x1000 8 ||| BitVec.ofNat 512 (0x1000 * 2 ^ 192 + 0x1000 * 2 ^ 224)
theorem test_extents : srcExtent shifted = (0x40000000, 0x40008000) ∧ dstExtent shifted = (0x40000800, 0x40008800)
    ∧ descOverlaps shifted = true ∧ dTotal shifted = 32768 := by decide +kernel

/-! Table 15.5, step by step. -/

def ide3 : Nat := 0x08D
def injecting : Dev := (((T .solo).setVal Fam.faultInjectEnable 0 1).setVal Fam.faultInjectMax 0 2).setVal Fam.faultSeverity ide3 2
def runs (l : List Instr) (d : Dev) : Dev := l.foldl (fun d c => run c d) d

/-- After step 1: live, latched, injected, latched_sev 1. -/
theorem test_injection : let d := run (.faultInjectHold .admin ide3 1 0 false) injecting
    (d.src ide3).status = 0x17 ∧ (d.src ide3).count = 1 := by decide +kernel
/-- After steps 2 and 3: real too, latched_sev 2; the hold keeps live. -/
theorem test_realFault : let d := runs [.faultInjectHold .admin ide3 1 0 false, .faultOnset ide3 0, .faultLiveEnd ide3] injecting
    (d.src ide3).status = 0x2F ∧ (d.src ide3).count = 2 := by decide +kernel
/-- Step 4. -/
theorem test_clearRefused :
    let d := runs [.faultInjectHold .admin ide3 1 0 false, .faultOnset ide3 0, .faultClear .admin ide3 2] injecting
    (d.src ide3).latched = true ∧ (d.src ide3).clearDenied = true ∧ d.val Fam.faultClearRefused = 1 := by decide +kernel
/-- Steps 5 and 6. -/
theorem test_released :
    let d := runs [.faultInjectHold .admin ide3 1 0 false, .faultOnset ide3 0, .faultLiveEnd ide3, .faultInjectRelease .admin ide3,
      .faultClear .admin ide3 2] injecting
    (d.src ide3).latched = false ∧ (d.src ide3).latchedSev = 0 ∧ (d.src ide3).count = 2 := by decide +kernel

/-! Table 16.8, step by step. -/

def adminDown (holder : Nat) : Dev :=
  { keyed (T .solo) with ports := [(0, { upPort with linkUp := false })], dc := { Dev.reset.dc with holder := holder, expiry := 7000000000 } }

theorem test_takeClaimed : (run (.take .sideband) (adminDown 1)).dc = (adminDown 1).dc := by decide +kernel
theorem test_force : let d := run (.force .sideband) (adminDown 1)
    d.dc.holder = 2 ∧ d.dc.expiry = 10000000000 ∧ (d.src 0x254).latched = true := by decide +kernel
theorem test_renewClaimed : (run (.renew .admin) (adminDown 2)).dc.holder = 2 := by decide +kernel
theorem test_claimExpire : (run .claimExpire (adminDown 2)).dc.holder = 0 := by decide +kernel

/-! ### Published test vectors -/

/-- FIPS 197, appendix C.3. -/
theorem test_aes256 :
    aesEncrypt ((List.range 32).map fun i => BitVec.ofNat 8 i) ((List.range 16).map fun i => BitVec.ofNat 8 (17 * i))
      = [0x8E, 0xA2, 0xB7, 0xCA, 0x51, 0x67, 0x45, 0xBF, 0xEA, 0xFC, 0x49, 0x90, 0x4B, 0x49, 0x60, 0x89] := by decide +kernel

/-- RFC 4231, case 1. -/
theorem test_hmacSha256 : unle (hmacSha256 (List.replicate 20 0x0B) [0x48, 0x69, 0x20, 0x54, 0x68, 0x65, 0x72, 0x65]).reverse
      = 0xb0344c61d8db38535ca8afceaf0bf12b881dc200c9833da726e9376c2e32cff7 := by decide +kernel

/-! ### Single commands -/

/-- Reset leaves POR_N asserted; its release starts DARK. -/
theorem test_porNRelease : (run (.porNRelease 0 false) Dev.reset).pw.mode = some .dark := by decide +kernel
theorem test_step : step ⟨[.porNAssert, .claimExpire], T .solo⟩ = exec .porNAssert ⟨[.claimExpire], T .solo⟩ := rfl
theorem test_mailboxFull : ((run (.txWord req0 5) (onPf { FnState.absent with tx := List.replicate 8 (0, 0) })).fnS pf).tx.length = 8 := by
  decide +kernel
theorem test_copyStart : ((run (.copyStart req0 0x1000) (copying { Chan.unbound with st := 1, depthM1 := 15 })).chan 0).work = .fetch 0x1000 := by
  decide +kernel
theorem test_nop : (run (.nop 0 3) (onFe fe0)).fe 0 = { fe0 with upSeq := (1, 1) } := by decide +kernel
theorem test_ownerLoss : ((run (.feOwnerLossDetect 0) (onFe feWriting)).fe 0).gate = false := by decide +kernel
theorem test_linkDown : (run (.hostLinkDown 0 false) (T .solo)).val Fam.hostPortLinkDowns 0 = 1 := by decide +kernel
theorem test_deviceTime : (tick (T .solo)).tm.now = 1000 ∧ (tick (T .solo)).tm.device = 1000 := by decide +kernel

end Sys2Proof.Tests
end

section
/-!
SUPPORT. What a command does to the device alone, and the runs of a queue that follow from it (O44, O46).
-/

namespace Sys2Proof.Machine

/-- What a command makes of the device, told from its run on an empty queue. -/
def devAfter (c : Instr) (d : Dev) : Dev :=
  match exec c { pending := [], dev := d } with
  | .next t => t.dev
  | _ => d

/-- Every row of the table acts on the device alone: the queue behind a command is neither read nor changed. -/
theorem exec_eq_onDev (c : Instr) (s : State) : exec c s = onDev s (devAfter c) := by
  cases c <;> rfl

/-- What a list of commands makes of the device, one after the other. -/
def devAfterList (cs : List Instr) (d : Dev) : Dev := cs.foldl (fun e c => devAfter c e) d

theorem devAfterList_cons (c : Instr) (cs : List Instr) (d : Dev) :
    devAfterList (c :: cs) d = devAfterList cs (devAfter c d) := rfl

theorem runList_cons (c : Instr) (cs : List Instr) (s : State) :
    runList (c :: cs) s = runList cs { s with dev := devAfter c s.dev } := by
  rw [runList, exec_eq_onDev, onDev_eq]

theorem runSteps_succ_cons (n : Nat) (c : Instr) (q : List Instr) (d : Dev) :
    runSteps (n + 1) { pending := c :: q, dev := d } = runSteps n { pending := q, dev := devAfter c d } := by
  rw [runSteps, step_cons rfl, exec_eq_onDev, onDev_eq]

theorem runList_eq (cs : List Instr) (s : State) : runList cs s = .next { s with dev := devAfterList cs s.dev } := by
  induction cs generalizing s with
  | nil => rfl
  | cons c cs ih => rw [runList_cons, ih, devAfterList_cons]

theorem runSteps_length_append (cs rest : List Instr) (d : Dev) :
    runSteps cs.length { pending := cs ++ rest, dev := d } = .next { pending := rest, dev := devAfterList cs d } := by
  induction cs generalizing d with
  | nil => rfl
  | cons c cs ih => rw [List.length_cons, List.cons_append, runSteps_succ_cons, ih, devAfterList_cons]

/-- Settles O46: a step and a run of one command make the same of the device, whatever waits behind (`exec_eq_onDev`). -/
theorem queueRunsInOrder : Obligations.QueueRunsInOrder := by
  intro cs rest d
  exact ⟨devAfterList cs d, runSteps_length_append cs rest d, fun q => runList_eq cs _⟩

/-- Settles O44. -/
theorem stepTakesTheFrontCommand : Obligations.StepTakesTheFrontCommand := by
  exact ⟨fun c r s h => step_cons h, fun n w s => ⟨rfl, rfl⟩⟩

end Sys2Proof.Machine
end

section
/-!
SUPPORT. Host commands that wait (R31, R33, R127, R372): each row of a host command starts through `withAdmin` or `withCmd`, which
start nothing while host commands are held (O50).
-/

namespace Sys2Proof.Machine

/-- A host row starts either the admin command at the head of its queue or the command of a tenant queue that it names. -/
theorem exec_hostRow {c : Instr} (h : hostRow c = true) :
    (∃ op sel k, ∀ s, exec c s = onDev s (withAdmin op sel k))
      ∨ ∃ id op sel k, ∀ s, exec c s = onDev s (withCmd id op sel k) := by
  cases c with
  | read | write | trim | writeZeroes | copy | flush | fence | abort | queryVolume | queryDarkMap =>
    exact .inr ⟨_, _, _, _, fun _ => rfl⟩
  | volumeCreate | volumeDelete | volumeResize | volumeSet | keyLoad | keyUnload | arrayCreate | arrayDelete | arrayRebuildStart
  | arrayRebuildPause | arrayRebuildResume | arrayReshapeStart | arrayReshapePause | arrayReshapeResume | domain | spare | release
  | fail | vault | firmwareDownload | firmwareActivate | pairStart | pairDissolve | queueCreateCq | queueCreateSq | queueDeleteSq
  | queueDeleteCq | tenantSet | tenantDelete | functionBind | functionUnbind | tenantIsolate | tenantRelease | meterRingSet
  | meterRollover | timeSet =>
    exact .inl ⟨_, _, _, fun _ => rfl⟩
  | _ => cases h

theorem exec_hostRow_held {c : Instr} {s : State} (h : hostRow c = true) (held : s.dev.hostRuns = false) : exec c s = .next s := by
  rcases exec_hostRow h with ⟨op, sel, k, e⟩ | ⟨id, op, sel, k, e⟩
  · exact runs_of_onDev (e s) (withAdmin_held op sel k held)
  · exact runs_of_onDev (e s) (withCmd_held id op sel k held)

theorem executing_of_contending {d : Dev} (h : d.contending = true) : d.executing = false := by simp [Dev.executing, h]

theorem executing_of_quiet {d : Dev} (h : d.pc.quiet = true) : d.executing = false := by simp [Dev.executing, h]

theorem hostRuns_eq_false_iff (d : Dev) :
    d.hostRuns = false ↔ d.executing = false ∨ d.inMode .eclipse = true ∨ d.softResetting = true := by
  cases he : d.executing <;> cases hm : d.inMode .eclipse <;> simp [Dev.hostRuns, he, hm]

/-- Settles O50. -/
theorem hostCommandsWaitWhileHeld : Obligations.HostCommandsWaitWhileHeld := by
  refine ⟨fun c s h held => exec_hostRow_held h held, fun d held => (hostRuns_eq_false_iff d).mpr ?_⟩
  rcases held with eclipse | contends | quiet | soft
  · exact .inr (.inl eclipse)
  · exact .inl (executing_of_contending contends)
  · exact .inl (executing_of_quiet quiet)
  · exact .inr (.inr soft)

end Sys2Proof.Machine
end

section
/-!
SUPPORT. Mode requests, drains, destage and soft reset (R28, R33, R36, R39, R127): what each of their functions is in each case, and O3.
-/

namespace Sys2Proof.Machine

theorem inMode_iff (d : Dev) (m : Mode) : d.inMode m = true ↔ d.pw.mode = some m := by simp [Dev.inMode]

/-! ### MODE_REQUEST_FOCUS and MODE_REQUEST_SOLO -/

theorem exec_modeRequestFocus_accepted {s : State} {who : Master} (h : s.dev.accepts who Fam.deviceModeRequest 0) :
    exec (.modeRequestFocus who) s = .next { s with dev := shown who (requestFocus s.dev) } :=
  runs_of_onDev rfl (guardedWrite_accepted _ h rfl)

theorem exec_modeRequestSolo_accepted {s : State} {who : Master} (h : s.dev.accepts who Fam.deviceModeRequest 0) :
    exec (.modeRequestSolo who) s = .next { s with dev := shown who (requestSolo s.dev) } :=
  runs_of_onDev rfl (guardedWrite_accepted _ h rfl)

theorem requestFocus_transiting {d : Dev} (t : d.transiting = true) : requestFocus d = refuseMode 2 d := by
  simp [requestFocus, t]

section
variable {d : Dev} (t : d.transiting = false) (m : d.inMode .eclipse = true)
include t m

theorem requestFocus_eclipse :
    requestFocus d =
      if d.noSev4 = false then refuseMode 3 d
      else if d.dumping then refuseMode 5 d
      else beginDestage false (refuseMode 0 d) := by
  rw [inMode_iff] at m
  simp [requestFocus, t, m]

theorem requestFocus_latched (n : d.noSev4 = false) : requestFocus d = refuseMode 3 d := by
  simp [requestFocus_eclipse t m, n]

theorem requestFocus_dumping (n : d.noSev4 = true) (q : d.dumping = true) : requestFocus d = refuseMode 5 d := by
  simp [requestFocus_eclipse t m, n, q]

theorem requestFocus_destages (n : d.noSev4 = true) (q : d.dumping = false) :
    requestFocus d = beginDestage false (refuseMode 0 d) := by
  simp [requestFocus_eclipse t m, n, q]

end

theorem requestFocus_serving {d : Dev} (t : d.transiting = false) (m : d.serving = true) :
    requestFocus d = (tkeys d.arrays).foldl (fun d a => forceClose a (fun b => !b.internal) d)
      ((refuseMode 0 d).setTrans (some .focusDrain)) := by
  rw [Dev.serving, Bool.or_eq_true, inMode_iff, inMode_iff] at m
  rcases m with m | m <;> simp [requestFocus, t, m] <;> rfl

/-- Table 1.4 has no row from these modes. -/
theorem requestFocus_noRow {d : Dev} (t : d.transiting = false)
    (m : d.inMode .dark = true ∨ d.inMode .focus = true ∨ d.inMode .mirror = true) : requestFocus d = refuseMode 1 d := by
  simp only [inMode_iff] at m
  rcases m with m | m | m <;> simp [requestFocus, t, m]

theorem requestSolo_transiting {d : Dev} (t : d.transiting = true) : requestSolo d = refuseMode 2 d := by
  simp [requestSolo, t]

theorem requestSolo_outsideFocus {d : Dev} (t : d.transiting = false) (m : d.inMode .focus = false) :
    requestSolo d = refuseMode 1 d := by
  simp [requestSolo, t, m]

theorem requestSolo_focus {d : Dev} (t : d.transiting = false) (m : d.inMode .focus = true) :
    requestSolo d =
      if d.flag Fam.pairEnable then refuseMode 4 d
      else if d.pw.recovering ≠ [] then refuseMode 5 d
      else settle (enterSolo 0 (refuseMode 0 d)) := by
  simp [requestSolo, t, m]

/-! ### The ends of the drain and of the destage -/

theorem focusDrained_of_drained {d : Dev} (t : d.pw.trans = some .focusDrain) (noCommand : d.cm.ctxs = [])
    (noBeam : ∀ e ∈ d.arrays, e.2.beams = []) :
    focusDrained d = focusEntry (changeMode .focus 0 0xFFFF 0xFF (standDown (flushTables (d.setTrans none)))) := by
  have beams : (d.arrays.all fun e => e.2.beams.isEmpty) = true := by simpa using noBeam
  simp [focusDrained, t, noCommand, beams]

theorem destaging_of_trans {d : Dev} {soft : Bool} (m : d.inMode .eclipse = true) (t : d.pw.trans = some (.eclipseDestage soft)) :
    d.destaging = true := by
  simp [Dev.destaging, m, t]

theorem destageTrigger_of_trans {d : Dev} {soft : Bool} (t : d.pw.trans = some (.eclipseDestage soft)) :
    destageTrigger d = if soft then 6 else 0 := by
  cases soft <;> simp [destageTrigger, t]

/-- With boot finished the destage has ended exactly when no array keeps a beam or an acknowledged unit (R33). -/
theorem destageEnded_of_nothingLeft {d : Dev} (h : ∀ e ∈ d.arrays, e.2.beams = [] ∧ e.2.keptUnits = []) : destageEnded d = true := by
  have all : (d.arrays.all fun e => e.2.beams.isEmpty && e.2.keptUnits.isEmpty) = true := by simpa using h
  simp [destageEnded, all]

theorem destageEnded_of_somethingLeft {d : Dev} (boot : d.val Fam.bootStage = 0)
    (h : ∃ e ∈ d.arrays, e.2.beams ≠ [] ∨ e.2.keptUnits ≠ []) : destageEnded d = false := by
  obtain ⟨e, mem, left⟩ := h
  have all : (d.arrays.all fun e => e.2.beams.isEmpty && e.2.keptUnits.isEmpty) = false :=
    List.all_eq_false.mpr ⟨e, mem, by rcases left with l | l <;> simp [l]⟩
  simp [destageEnded, boot, all]

theorem destageComplete_ended {d : Dev} {soft : Bool} (m : d.inMode .eclipse = true) (t : d.pw.trans = some (.eclipseDestage soft))
    (e : destageEnded d = true) : destageComplete d = leaveEclipse (if soft then 6 else 0) true d := by
  simp [destageComplete, destaging_of_trans m t, destageTrigger_of_trans t, e]

theorem destageComplete_unended {d : Dev} (e : destageEnded d = false) : destageComplete d = d := by
  simp [destageComplete, e]

theorem destageFailed_soft {d : Dev} (m : d.inMode .eclipse = true) (t : d.pw.trans = some (.eclipseDestage true)) :
    destageFailed d = leaveEclipse 6 false (abandonAll d) := by
  simp [destageFailed, destaging_of_trans m t, destageTrigger_of_trans t]

theorem destageFailed_requested {d : Dev} (m : d.inMode .eclipse = true) (t : d.pw.trans = some (.eclipseDestage false)) :
    destageFailed d = stopDestage d := by
  simp [destageFailed, destaging_of_trans m t, destageTrigger_of_trans t]

/-- Abandoning beams leaves the power and mode state alone. -/
theorem abandonFrom_pw (a num : Nat) (d : Dev) : (abandonFrom a num d).pw = d.pw := by
  unfold abandonFrom
  split
  · rfl
  · simp [killFacets]

theorem abandonAll_pw (d : Dev) : (abandonAll d).pw = d.pw := by
  refine foldl_keeps (·.pw) _ (fun d a => ?_) _ d
  dsimp only
  repeat' split
  all_goals simp [abandonFrom_pw]

theorem parkDelay_pending {d : Dev} (h : d.pw.parkPending = true) :
    parkDelay d = (d.lensUp.filter fun n => (d.lens n).owner).foldl (fun e n => lensPark n e)
      { d with pw := { d.pw with parkPending := false } } := by
  simp only [parkDelay, h, if_true]
  rfl

/-! ### Soft reset -/

theorem softRefusal_of_ne {v : Nat} (d : Dev) (h : v ≠ 0x5EF7) : softRefusal v d = rUnavailable := by simp [softRefusal, h]

theorem softRefusal_none {d : Dev} (h : d.softResetting = false) : softRefusal 0x5EF7 d = 0 := by simp [softRefusal, h]

theorem beginSoftReset_of_mode {d : Dev} {m : Mode} (mode : d.pw.mode = some m) (idle : d.fw.activating = none) :
    beginSoftReset d = d.setTrans (some (.softReset m)) := by
  simp [beginSoftReset, mode, abandonActivation, idle]

section
variable {d : Dev} {m : Mode} (t : d.pw.trans = some (.softReset m)) (e : d.inMode .eclipse = true)
include t e

theorem softResetComplete_eclipse :
    softResetComplete d =
      if d.noSev4 = false then refuseMode 3 (d.setTrans none)
      else if d.dumping then refuseMode 5 (d.setTrans none)
      else if destageEnded (beginDestage true (d.setTrans none)) then leaveEclipse 6 true (beginDestage true (d.setTrans none))
      else beginDestage true (d.setTrans none) := by
  have e' : (d.setTrans none).inMode .eclipse = true := e
  simp only [softResetComplete, t, e', if_true]
  rfl

theorem softResetComplete_latched (n : d.noSev4 = false) : softResetComplete d = refuseMode 3 (d.setTrans none) := by
  simp [softResetComplete_eclipse t e, n]

theorem softResetComplete_dumping (n : d.noSev4 = true) (q : d.dumping = true) :
    softResetComplete d = refuseMode 5 (d.setTrans none) := by
  simp [softResetComplete_eclipse t e, n, q]

theorem softResetComplete_destages (n : d.noSev4 = true) (q : d.dumping = false) :
    softResetComplete d =
      let b := beginDestage true (d.setTrans none)
      if destageEnded b then leaveEclipse 6 true b else b := by
  simp [softResetComplete_eclipse t e, n, q]

end

/-- Outside ECLIPSE: commands end, and the open beams of the host are closed by force (log entry 82). -/
theorem softResetComplete_running {d : Dev} {m : Mode} (t : d.pw.trans = some (.softReset m)) (e : d.inMode .eclipse = false) :
    softResetComplete d =
      (let b := performHeldOps (abortCommands (standDown (d.setTrans none)))
       let c := (tkeys b.arrays).foldl (fun e a => forceClose a (fun b => !b.internal) e) b
       if m = .focus then recoveryRestart c else focusEntry (changeMode .focus 6 0xFFFF 0xFF c)) := by
  have e' : (d.setTrans none).inMode .eclipse = false := e
  simp only [softResetComplete, t, e', Bool.false_eq_true, if_false]

/-! ### The transition table -/

/-- Settles O3: one clause for each case of the mode commands, in the order of the statement. -/
theorem modeRequestsFollowTheTransitionTable : Obligations.ModeRequestsFollowTheTransitionTable := by
  refine ⟨?focusTransiting, ?focusLatched, ?focusDestages, ?focusDumping, ?focusDrains, ?focusNoRow, ?soloTransiting, ?soloNoRow,
    ?soloPaired, ?soloRecovering, ?soloEnters, ?drainEnds, ?destageEnds, ?destageGoesOn, ?softDestageFails, ?destageFails, ?parks,
    ?softWrongValue, ?softStarts, ?softLatched, ?softEnters, ?softStays, ?softDestages, ?softDumping⟩
  case focusTransiting => intro s who a t; rw [exec_modeRequestFocus_accepted a, requestFocus_transiting t]; rfl
  case focusLatched => intro s who a t m n; rw [exec_modeRequestFocus_accepted a, requestFocus_latched t m n]; rfl
  case focusDestages =>
    intro s who a t m n q
    rw [exec_modeRequestFocus_accepted a, requestFocus_destages t m n q]; rfl
  case focusDumping =>
    intro s who a t m n q
    rw [exec_modeRequestFocus_accepted a, requestFocus_dumping t m n q]; rfl
  case focusDrains => intro s who a t m; rw [exec_modeRequestFocus_accepted a, requestFocus_serving t m]; rfl
  case focusNoRow => intro s who a t m; rw [exec_modeRequestFocus_accepted a, requestFocus_noRow t m]; rfl
  case soloTransiting => intro s who a t; rw [exec_modeRequestSolo_accepted a, requestSolo_transiting t]; rfl
  case soloNoRow => intro s who a t m; rw [exec_modeRequestSolo_accepted a, requestSolo_outsideFocus t m]; rfl
  case soloPaired => intro s who a t m p; rw [exec_modeRequestSolo_accepted a, requestSolo_focus t m, p]; rfl
  case soloRecovering =>
    intro s who a t m p r
    rw [exec_modeRequestSolo_accepted a, requestSolo_focus t m, p, if_neg Bool.false_ne_true, if_pos r]; rfl
  case soloEnters =>
    intro s who a t m p r
    rw [exec_modeRequestSolo_accepted a, requestSolo_focus t m, p, if_neg Bool.false_ne_true, if_neg (not_not.mpr r)]; rfl
  case drainEnds => intro s t c b; exact runs_of_onDev rfl (focusDrained_of_drained t c b)
  case destageEnds => intro s soft m t h; exact runs_of_onDev rfl (destageComplete_ended m t (destageEnded_of_nothingLeft h))
  case destageGoesOn =>
    intro s soft m t boot h
    exact runs_of_onDev rfl (destageComplete_unended (destageEnded_of_somethingLeft boot h))
  case softDestageFails => intro s t m; exact runs_of_onDev rfl (destageFailed_soft m t)
  case destageFails =>
    intro s t m
    refine ⟨_, ?_, ?_, rfl, runs_of_onDev rfl (destageFailed_requested m t)⟩
    · rw [abandonAll_pw, setTrans_trans]
    · rw [abandonAll_pw, setTrans_mode, setVal_pw]
      exact (inMode_iff _ _).mp m
  case parks => intro s p; exact ⟨_, rfl, runs_of_onDev rfl (parkDelay_pending p)⟩
  case softWrongValue =>
    intro s who v a h
    have r : softRefusal v s.dev = rUnavailable := softRefusal_of_ne _ h
    refine runs_of_onDev rfl ((guardedWrite_refused _ a (r ▸ by decide)).trans ?_)
    rw [r]
  case softStarts =>
    intro s who m a n mode idle
    refine runs_of_onDev rfl ((guardedWrite_accepted _ a (softRefusal_none n)).trans ?_)
    rw [beginSoftReset_of_mode mode idle]
  case softLatched => intro s m t e n; exact runs_of_onDev rfl (softResetComplete_latched t e n)
  case softEnters =>
    intro s m t e ne
    exact ⟨_, rfl, runs_of_onDev rfl ((softResetComplete_running t e).trans (if_neg ne))⟩
  case softStays =>
    intro s t e
    exact ⟨_, rfl, runs_of_onDev rfl ((softResetComplete_running t e).trans (if_pos rfl))⟩
  case softDestages =>
    intro s m t e n q
    exact ⟨_, rfl, runs_of_onDev rfl (softResetComplete_destages t e n q)⟩
  case softDumping =>
    intro s m t e n q
    exact runs_of_onDev rfl (softResetComplete_dumping t e n q)

end Sys2Proof.Machine
end

section
/-!
SUPPORT. REGISTER_WRITE (R48, R52, R54, R55, R69, R433): where a write to BAR0 goes by its offset, what each register does with the bits
written, and O13.
-/

namespace Sys2Proof.Machine

/-! ### The way to a register -/

theorem registerWrite_bar0 {d : Dev} {r : Req} {off width : Nat} (v : Quad) (a : d.reaches r) (fits : off + width ≤ bar0Size r.toFn) :
    registerWrite (.bar0 r off width v) d = bar0Write r.toFn off width v d :=
  (hostAccess_reaches _ a).trans (by rw [if_pos fits])

theorem registerWrite_bar0_pastEnd {d : Dev} {r : Req} {off width : Nat} (v : Quad) (a : d.reaches r)
    (past : bar0Size r.toFn < off + width) : registerWrite (.bar0 r off width v) d = unsupported r.toFn d :=
  (hostAccess_reaches _ a).trans (by rw [if_neg (Nat.not_le.mpr past)])

theorem bar2Size_adminFn (d : Dev) : bar2Size d d.adminFn = 0x1000000 := by simp [bar2Size, Dev.isAdmin, Dev.adminFn]

theorem registerWrite_bar2 {d : Dev} {off width : Nat} (v : Quad) (a : d.reaches d.adminReq) (fits : off + width ≤ 0x1000000) :
    registerWrite (.bar2 off width v) d = bar2Write off width v d :=
  (hostAccess_reaches _ a).trans (by rw [bar2Size_adminFn, if_pos fits])

theorem configAccess_reaches {d : Dev} {f : Fn} (k : Dev → Dev) (serves : portServes d f.port = true) (e : d.fnExists f = true) :
    configAccess f k d = k d := by
  simp [configAccess, serves, e]

/-! ### The pages of BAR0 (Tables 2.3, 2.4) -/

theorem bar0Write_identityPage {f : Fn} {off width : Nat} (v : Quad) (d : Dev) (h : off < 0x1000) :
    bar0Write f off width v d = identityWrite off width d := by
  simp [bar0Write, h]

theorem bar0Write_summaryPage {f : Fn} {off width : Nat} (v : Quad) (d : Dev) (lo : 0x1000 ≤ off) (hi : off < 0x2000) :
    bar0Write f off width v d = summaryWrite f (off - 0x1000) width v d := by
  simp [bar0Write, Nat.not_lt.mpr lo, hi]

/-- Past the summary page, and of a function that serves the page. -/
theorem bar0Write_served {f : Fn} {off width : Nat} (v : Quad) {d : Dev} (lo : 0x2000 ≤ off) (served : unserved d f off = false) :
    bar0Write f off width v d =
      if inlineWindows f ≤ off ∧ off < inlineWindows f + 512 * queueLimit f then
        bumpQ f ((off - inlineWindows f) / 512) Fam.qInlineRejected d
      else if !(sized off width 4 || sized off width 8) then d
      else if roRegister f off then refuseWrite d
      else if 0x2000 ≤ off ∧ off < 0x3000 then mailboxWrite f (off - 0x2000) width v d
      else if queuePages f ≤ off ∧ off < queuePages f + 64 * queueLimit f then
        queueWrite f ((off - queuePages f) / 64) ((off - queuePages f) % 64) width v d
      else if msixTablePage f ≤ off ∧ off < msixTablePage f + 16 * vectorCount f then msixWrite f (off - msixTablePage f) width v d
      else d := by
  have notIdentity : ¬ off < 0x1000 := by omega
  simp only [bar0Write, notIdentity, Nat.not_lt.mpr lo, served, if_false, Bool.false_eq_true]

theorem bar0Write_unserved {f : Fn} {off width : Nat} (v : Quad) {d : Dev} (lo : 0x2000 ≤ off) (u : unserved d f off = true) :
    bar0Write f off width v d = d := by
  have notIdentity : ¬ off < 0x1000 := by omega
  simp [bar0Write, notIdentity, Nat.not_lt.mpr lo, u]

theorem unserved_of_bound {d : Dev} {f : Fn} (off : Nat) (b : unbound d f = false) : unserved d f off = false := by
  simp [unserved, b]

theorem queuePages_ge (f : Fn) : 0x4000 ≤ queuePages f := by unfold queuePages; split <;> omega

theorem inlineWindows_ge (f : Fn) : 0x2000 ≤ inlineWindows f := by unfold inlineWindows; split <;> omega

theorem queuePages_mod (f : Fn) : queuePages f % 64 = 0 := by unfold queuePages; split <;> rfl

theorem queuePages_end_le (f : Fn) : queuePages f + 64 * queueLimit f ≤ inlineWindows f := by
  unfold queuePages queueLimit inlineWindows; split <;> omega

theorem bar0Size_ge (f : Fn) : 0x10000 ≤ bar0Size f := by unfold bar0Size; split <;> omega

theorem inlineWindows_lt_size (f : Fn) : inlineWindows f < bar0Size f := by
  unfold inlineWindows bar0Size; split <;> omega

/-- R48: the mailbox page of an unbound function is not served. -/
theorem unserved_mailboxPage {d : Dev} {f : Fn} {off : Nat} (u : unbound d f = true) (lo : 0x2000 ≤ off) (hi : off < 0x3000) :
    unserved d f off = true := by
  have notQueue : ¬ queuePages f ≤ off := by have := queuePages_ge f; omega
  simp [unserved, u, lo, notQueue]

/-- R52: between the summary page and the inline windows, another width or alignment than a register's has no effect. -/
theorem bar0Write_notSized {f : Fn} {off width : Nat} (v : Quad) {d : Dev} (lo : 0x2000 ≤ off) (hi : off < inlineWindows f)
    (four : ¬(width = 4 ∧ off % 4 = 0)) (eight : ¬(width = 8 ∧ off % 8 = 0)) : bar0Write f off width v d = d := by
  cases served : unserved d f off with
  | true => exact bar0Write_unserved v lo served
  | false =>
    have notInline : ¬(inlineWindows f ≤ off ∧ off < inlineWindows f + 512 * queueLimit f) := by omega
    have notSized : (sized off width 4 || sized off width 8) = false := by
      simpa [sized] using And.intro four eight
    rw [bar0Write_served v lo served, if_neg notInline, notSized]
    rfl

theorem bar0Write_inlineWindow {f : Fn} {off width : Nat} (v : Quad) {d : Dev} (b : unbound d f = false) (lo : inlineWindows f ≤ off)
    (hi : off < inlineWindows f + 512 * queueLimit f) :
    bar0Write f off width v d = bumpQ f ((off - inlineWindows f) / 512) Fam.qInlineRejected d := by
  rw [bar0Write_served v ((inlineWindows_ge f).trans lo) (unserved_of_bound off b), if_pos ⟨lo, hi⟩]

theorem sized_queuePage (f : Fn) (q reg width : Nat) {w : Nat} (h : 64 % w = 0) :
    sized (queuePages f + 64 * q + reg) width w = sized reg width w := by
  have dvd : w ∣ queuePages f + 64 * q :=
    (Nat.dvd_of_mod_eq_zero h).trans (Nat.dvd_add (Nat.dvd_of_mod_eq_zero (queuePages_mod f)) (Nat.dvd_mul_right 64 q))
  rw [sized, sized, Nat.add_mod, Nat.mod_eq_zero_of_dvd dvd, Nat.zero_add, Nat.mod_mod]

/-- On a queue page the registers that are RO as a whole are the three of Table 3.1. -/
theorem roRegister_queuePage {f : Fn} {q reg : Nat} (hq : q < queueLimit f) (inPage : reg < 64) :
    roRegister f (queuePages f + 64 * q + reg) = [0x28, 0x2C, 0x30].contains (reg - reg % 4) := by
  have after : queuePages f ≤ queuePages f + 64 * q + reg := by omega
  have start := queuePages_ge f
  have aligned := queuePages_mod f
  have notMailbox : [0x2008, 0x200C, 0x2018, 0x201C, 0x2020, 0x2024, 0x210C, 0x2124].contains
      (queuePages f + 64 * q + reg - reg % 4) = false := by
    simp only [List.contains_eq_mem, List.mem_cons, List.not_mem_nil, or_false, decide_eq_false_iff_not]
    omega
  have register : (queuePages f + 64 * q + reg - queuePages f) % 64 = reg := by omega
  have word : (queuePages f + 64 * q + reg) % 4 = reg % 4 := by omega
  have inQueues : queuePages f + 64 * q + reg < queuePages f + 64 * queueLimit f := by omega
  rw [roRegister, register, word, notMailbox, decide_eq_true after, decide_eq_true inQueues]
  rfl

/-- The page of queue `q` at its register `reg`, one that is writable and written whole (Table 3.1). -/
theorem bar0Write_queuePage {f : Fn} {q reg width : Nat} (v : Quad) {d : Dev} (b : unbound d f = false) (hq : q < queueLimit f)
    (inPage : reg < 64) (ok : (sized reg width 4 || sized reg width 8) = true)
    (notRo : [0x28, 0x2C, 0x30].contains (reg - reg % 4) = false) :
    bar0Write f (queuePages f + 64 * q + reg) width v d = queueWrite f q reg width v d := by
  have start := queuePages_ge f
  have aligned := queuePages_mod f
  have stop := queuePages_end_le f
  have number : (queuePages f + 64 * q + reg - queuePages f) / 64 = q := by omega
  have register : (queuePages f + 64 * q + reg - queuePages f) % 64 = reg := by omega
  have inQueues : queuePages f ≤ queuePages f + 64 * q + reg ∧ queuePages f + 64 * q + reg < queuePages f + 64 * queueLimit f := by
    omega
  have notInline : ¬(inlineWindows f ≤ queuePages f + 64 * q + reg
      ∧ queuePages f + 64 * q + reg < inlineWindows f + 512 * queueLimit f) := by omega
  have notMailbox : ¬(0x2000 ≤ queuePages f + 64 * q + reg ∧ queuePages f + 64 * q + reg < 0x3000) := by omega
  rw [bar0Write_served v (by omega) (unserved_of_bound _ b), if_neg notInline, sized_queuePage f q reg width (w := 4) rfl,
    sized_queuePage f q reg width (w := 8) rfl, ok,
    roRegister_queuePage hq inPage, notRo, if_neg notMailbox, if_pos inQueues, number, register]
  rfl

/-- Table 2.5 leaves 0x014 to 0x017 reserved; every other dword below 0x030 is of a field, and all fields are RO. -/
theorem identityWrite_field {off : Nat} (d : Dev) (aligned : off % 4 = 0) (hi : off < 0x030) (notReserved : off ≠ 0x014) :
    identityWrite off 4 d = refuseWrite d := by
  have field : (touches 0x000 0x014 off 4 || touches 0x018 0x018 off 4) = true := by simp [touches]; omega
  rw [identityWrite, field, if_pos rfl]

/-! ### Fields written whole -/

theorem placedBits_whole (base n v : Nat) : placedBits base n base n v = v % 2 ^ (8 * n) := by simp [placedBits]

theorem placeField_whole (old base n v : Nat) : placeField old base n base n v = v % 2 ^ (8 * n) := by
  simp [placeField, placedMask, placedBits_whole]

/-! ### The summary page (Table 2.6) -/

theorem summaryWrite_events (f : Fn) (v : Quad) (d : Dev) :
    summaryWrite f 4 4 v d = d.setFn f { d.fnS f with events := (d.fnS f).events &&& ~~~(v.setWidth 32) } := by
  have summary : touches 0x000 4 4 4 = false := by decide
  have events : touches 0x004 4 4 4 = true := by decide
  have vector : touches 0x008 4 4 4 = false := by decide
  have queueErr : touches 0x040 128 4 4 = false := by decide
  have value : BitVec.ofNat 32 (v.toNat % 2 ^ (8 * 4)) = v.setWidth 32 := by
    apply BitVec.eq_of_toNat_eq; simp
  simp only [summaryWrite, summary, events, vector, queueErr, placedBits_whole, value, if_true, if_false, Bool.false_eq_true]

theorem summaryWrite_eventVector (f : Fn) (v : Quad) (d : Dev) :
    summaryWrite f 8 4 v d = d.setFn f { d.fnS f with eventVector := v.toNat % 2048 } := by
  have summary : touches 0x000 4 8 4 = false := by decide
  have events : touches 0x004 4 8 4 = false := by decide
  have vector : touches 0x008 4 8 4 = true := by decide
  have queueErr : touches 0x040 128 8 4 = false := by decide
  have value : v.toNat % 2 ^ (8 * 4) % 2048 = v.toNat % 2048 := Nat.mod_mod_of_dvd _ ⟨2 ^ 21, rfl⟩
  simp only [summaryWrite, summary, events, vector, queueErr, placeField_whole, value, if_true, if_false, Bool.false_eq_true]

/-! ### Queue pages (Table 3.1) and access slots (Table 16.5) -/

theorem queueWrite_sqBase_absent {f : Fn} {q : Nat} (v : Quad) {d : Dev} (h : (d.q f q).sqState = .absent) :
    queueWrite f q 8 8 v d = d.setQ f q { d.q f q with sqBase := v } := by
  simp [queueWrite, baseWrite, h]

theorem queueWrite_sqBase_present {f : Fn} {q : Nat} (v : Quad) {d : Dev} (h : (d.q f q).sqState ≠ .absent) :
    queueWrite f q 8 8 v d = d := by
  simp [queueWrite, h]

theorem queueWrite_coalescing_absent {f : Fn} {q : Nat} (v : Quad) {d : Dev} (h : (d.q f q).cqState = .absent) :
    queueWrite f q 0x20 4 v d = d.setQ f q { d.q f q with
      coalTime := bits (v.toNat % 2 ^ 32) 15 8, coalCount := bits (v.toNat % 2 ^ 32) 7 0 } := by
  simp [queueWrite, h]

theorem queueWrite_sqTail (f : Fn) (q : Nat) (v : Quad) (d : Dev) : queueWrite f q 0 4 v d = ringTail f q (v.toNat % 2 ^ 32) d := by
  simp [queueWrite]

theorem queueWrite_cqHead (f : Fn) (q : Nat) (v : Quad) (d : Dev) : queueWrite f q 4 4 v d = ringHead f q (v.toNat % 2 ^ 32) d := by
  simp [queueWrite]

theorem slotWrite_data {n off width : Nat} (v : Quad) {d : Dev} (idle : (d.slot n).busy = false) (inData : 0x100 ≤ off) :
    slotWrite n off width v d =
      d.setSlot n { d.slot n with data := putBytes (d.slot n).data (off - 0x100) (le width v.toNat) } := by
  have notResult : off ≠ 0x00C := by omega
  have notObject : off ≠ 0x000 := by omega
  have notLength : off ≠ 0x004 := by omega
  have notOp : off ≠ 0x008 := by omega
  simp [slotWrite, idle, inData, notResult, notObject, notLength, notOp]

/-- The dword `i` of the data of slot `n`. -/
theorem bar2Write_slotData {n i : Nat} (v : Quad) {d : Dev} (hn : n < 8) (hi : i < 64) (idle : (d.slot n).busy = false) :
    bar2Write (0x1000 + 0x200 * n + 0x100 + 4 * i) 4 v d =
      d.setSlot n { d.slot n with data := putBytes (d.slot n).data (4 * i) (le 4 v.toNat) } := by
  have aligned : sized (0x1000 + 0x200 * n + 0x100 + 4 * i) 4 4 = true := by simp [sized]; omega
  have lo : 0x1000 ≤ 0x1000 + 0x200 * n + 0x100 + 4 * i := by omega
  have hi' : 0x1000 + 0x200 * n + 0x100 + 4 * i < 0x2000 := by omega
  have slot : (0x1000 + 0x200 * n + 0x100 + 4 * i - 0x1000) / 0x200 = n := by omega
  have register : (0x1000 + 0x200 * n + 0x100 + 4 * i - 0x1000) % 0x200 = 0x100 + 4 * i := by omega
  simp only [bar2Write, aligned, lo, hi', slot, register, decide_true, Bool.true_or, Bool.and_self, if_true]
  rw [slotWrite_data v idle (by omega), Nat.add_sub_cancel_left]

/-! ### The registers as a host writes them -/

/-- A register of a queue page of a bound function. -/
theorem registerWrite_queuePage {d : Dev} {r : Req} {off q width : Nat} (reg : Nat) (v : Quad) (a : d.reaches r)
    (b : unbound d r.toFn = false) (hq : q < queueLimit r.toFn) (place : off = queuePages r.toFn + 64 * q + reg)
    (inPage : reg + width ≤ 64) (ok : (sized reg width 4 || sized reg width 8) = true)
    (notRo : [0x28, 0x2C, 0x30].contains (reg - reg % 4) = false) :
    registerWrite (.bar0 r off width v) d = queueWrite r.toFn q reg width v d := by
  have inBar := queuePages_end_le r.toFn
  have bar := inlineWindows_lt_size r.toFn
  have wide : 0 < width := Nat.pos_of_ne_zero fun h => by simp [h, sized] at ok
  rw [registerWrite_bar0 v a (by omega), place, bar0Write_queuePage v b hq (by omega) ok notRo]

/-- Settles O13: each clause follows a write to its page (R51) and from there to its register. -/
theorem registerWritesTouchTheirFields : Obligations.RegisterWritesTouchTheirFields := by
  refine ⟨?events, ?eventVector, ?sqBase, ?coalescing, ?doorbells, ?otherPlaces, ?configuration, ?slotData, ?object⟩
  case events =>
    rintro s r v f a rfl
    have fits : 0x1004 + 4 ≤ bar0Size r.toFn := by have := bar0Size_ge r.toFn; omega
    refine ends_of_onDev rfl ?_
    rw [registerWrite_bar0 v a fits, bar0Write_summaryPage v _ (by omega) (by omega), summaryWrite_events]
    simp only [fnS_setFn, true_and]
    exact ⟨rfl, fun g h => fnS_setFn_other _ _ h⟩
  case eventVector =>
    intro s r v a
    have fits : 0x1008 + 4 ≤ bar0Size r.toFn := by have := bar0Size_ge r.toFn; omega
    refine runs_of_onDev rfl ?_
    rw [registerWrite_bar0 v a fits, bar0Write_summaryPage v _ (by omega) (by omega), summaryWrite_eventVector]
  case sqBase =>
    rintro s r q v f a rfl b pf hq
    have run : registerWrite (.bar0 r (0x10000 + 64 * q + 8) 8 v) s.dev = queueWrite r.toFn q 8 8 v s.dev :=
      registerWrite_queuePage 8 v a b (by simp [queueLimit, pf, hq]) (by simp [queuePages, pf]) (by omega) rfl rfl
    exact ⟨fun h => runs_of_onDev rfl (run.trans (queueWrite_sqBase_absent v h)),
      fun h => runs_of_onDev rfl (run.trans (queueWrite_sqBase_present v h))⟩
  case coalescing =>
    rintro s r q v f a rfl b vf hq absent
    have run : registerWrite (.bar0 r (0x4000 + 64 * q + 0x20) 4 v) s.dev = queueWrite r.toFn q 0x20 4 v s.dev :=
      registerWrite_queuePage 0x20 v a b (by simp [queueLimit, vf, hq]) (by simp [queuePages, vf]) (by omega) rfl rfl
    exact runs_of_onDev rfl (run.trans (queueWrite_coalescing_absent v absent))
  case doorbells =>
    rintro s r q v f a rfl b pf hq
    have limit : q < queueLimit r.toFn := by simp [queueLimit, pf, hq]
    have page : 0x10000 = queuePages r.toFn := by simp [queuePages, pf]
    have tail : registerWrite (.bar0 r (0x10000 + 64 * q) 4 v) s.dev = queueWrite r.toFn q 0 4 v s.dev :=
      registerWrite_queuePage 0 v a b limit (by rw [← page, Nat.add_zero]) (by omega) rfl rfl
    have head : registerWrite (.bar0 r (0x10000 + 64 * q + 4) 4 v) s.dev = queueWrite r.toFn q 4 4 v s.dev :=
      registerWrite_queuePage 4 v a b limit (by rw [← page]) (by omega) rfl rfl
    exact ⟨runs_of_onDev rfl (tail.trans (queueWrite_sqTail ..)), runs_of_onDev rfl (head.trans (queueWrite_cqHead ..))⟩
  case otherPlaces =>
    intro s r off width v a
    refine ⟨?notSized, ?inlineWindow, ?pastEnd, ?identity, ?unboundMailbox⟩
    case notSized =>
      intro lo hi fits four eight
      exact runs_of_onDev rfl ((registerWrite_bar0 v a fits).trans (bar0Write_notSized v lo hi four eight))
    case inlineWindow =>
      intro lo hi fits b
      exact runs_of_onDev rfl ((registerWrite_bar0 v a fits).trans (bar0Write_inlineWindow v b lo hi))
    case pastEnd => intro past; exact runs_of_onDev rfl (registerWrite_bar0_pastEnd v a past)
    case identity =>
      intro aligned hi notReserved
      have fits : off + 4 ≤ bar0Size r.toFn := by have := bar0Size_ge r.toFn; omega
      refine runs_of_onDev rfl ((registerWrite_bar0 v a fits).trans ?_)
      rw [bar0Write_identityPage v _ (by omega), identityWrite_field _ aligned hi notReserved]
    case unboundMailbox =>
      intro lo hi u
      have fits : off + 4 ≤ bar0Size r.toFn := by have := bar0Size_ge r.toFn; omega
      exact runs_of_onDev rfl ((registerWrite_bar0 v a fits).trans (bar0Write_unserved v lo (unserved_mailboxPage u lo hi)))
  case configuration =>
    intro s f serves e a b m v
    refine ⟨_, rfl, runs_of_onDev rfl ?busMaster, runs_of_onDev rfl ?msixControl, runs_of_onDev rfl ?aerMask,
      runs_of_onDev rfl ?aerSeverity, runs_of_onDev rfl ?aerStatus, fun pf => runs_of_onDev rfl ?linkControl⟩
    case linkControl => rw [registerWrite, configAccess_reaches _ serves e]; simp [configWrite, pf]
    all_goals rw [registerWrite, configAccess_reaches _ serves e]
    rfl
  case slotData =>
    intro s n i v a hn hi idle
    refine runs_of_onDev rfl ?_
    rw [registerWrite_bar2 v a (by omega), bar2Write_slotData v hn hi idle]
  case object => intro s who index sub b up; exact runs_of_onDev rfl (by simp [registerWrite, objectWrite, up])

end Sys2Proof.Machine
end

section
/-!
SUPPORT. Error TLPs (R61, Table 2.8), pending messages (R55) and link encryption (R57 to R59): what each function is in each case, and O11.
-/

namespace Sys2Proof.Machine

/-! ### Error TLPs -/

theorem exec_receivedErrorTlp {s : State} {f : Fn} (e : TlpError) (serves : portServes s.dev f.port = true) :
    exec (.receivedErrorTlp f e) s = .next { s with dev := errorTlp f e s.dev } :=
  runs_of_onDev rfl (if_pos serves)

theorem errorTlp_ecrc_unchecked {d : Dev} {f : Fn} (r : Option TimedRead) (h : (d.fnS f).cfg.ecrcCheck = false) :
    errorTlp f (.ecrc r) d = d := by
  simp [errorTlp, h]

theorem errorTlp_ecrc_request {d : Dev} {f : Fn} (h : (d.fnS f).cfg.ecrcCheck = true) :
    errorTlp f (.ecrc none) d = aerError f 19 false none d := by
  simp [errorTlp, h]

theorem errorTlp_ecrc_completion {d : Dev} {f : Fn} (r : TimedRead) (h : (d.fnS f).cfg.ecrcCheck = true) :
    errorTlp f (.ecrc (some r)) d = readFailed r (aerError f 19 false none d) := by
  simp [errorTlp, h]

/-! ### What AER shows and sends -/

theorem getLsbD_or_oneShift {b : Nat} (x : Word) (h : b < 32) : (x ||| (1#32 <<< b)).getLsbD b = true := by
  simp [h]

theorem aerReport_masked {d : Dev} {f : Fn} {b : Nat} (adv : Bool) (h : Option (BitVec 128))
    (m : (d.fnS f).aerMask.getLsbD b = true) :
    aerReport f b adv h d = d.setFn f { d.fnS f with
      cfg := { (d.fnS f).cfg with aerUncStatus := (d.fnS f).cfg.aerUncStatus ||| (1#32 <<< b) } } := by
  simp [aerReport, m]

/-- An error that is not masked sends one message, ERR_FATAL (2) exactly where its severity bit says so. -/
theorem aerReport_unmasked {d : Dev} {f : Fn} {b : Nat} (adv : Bool) (h : Option (BitVec 128))
    (m : (d.fnS f).aerMask.getLsbD b = false) :
    ∃ k c, aerReport f b adv h d = emit (.aer f true b k) (d.setFn f { d.fnS f with cfg := c })
      ∧ c.aerUncStatus = (d.fnS f).cfg.aerUncStatus ||| (1#32 <<< b) ∧ (k = 2 ↔ (d.fnS f).aerFatal.getLsbD b = true) := by
  refine ⟨_, _, by simp only [aerReport, m, Bool.false_eq_true, if_false]; rfl, rfl, ?_⟩
  cases fatal : (d.fnS f).aerFatal.getLsbD b with
  | true => simp
  | false =>
    simp only [Bool.false_eq_true, if_false, iff_false]
    repeat' split
    all_goals decide

theorem aerReport_status {d : Dev} {f : Fn} {b : Nat} (adv : Bool) (h : Option (BitVec 128)) (hb : b < 32) :
    ((aerReport f b adv h d).fnS f).cfg.aerUncStatus.getLsbD b = true := by
  cases m : (d.fnS f).aerMask.getLsbD b with
  | true => rw [aerReport_masked adv h m, fnS_setFn]; exact getLsbD_or_oneShift _ hb
  | false =>
    obtain ⟨k, c, report, status, -⟩ := aerReport_unmasked adv h m
    have read : (aerReport f b adv h d).fnS f = { d.fnS f with cfg := c } := by
      rw [report]; exact fnS_setFn d f _
    rw [read, status]
    exact getLsbD_or_oneShift _ hb

/-! ### Pending messages -/

theorem pendingSend_allowed {d : Dev} {f : Fn} {v : Nat} (pending : (d.fnS f).pba.contains v = true) (a : msixAllowed d f v = true) :
    pendingSend f v d = sendMsix f v (d.setFn f { d.fnS f with pba := (d.fnS f).pba.filter (· != v) }) := by
  simp only [pendingSend, pending, a, Bool.and_self, if_true]

theorem attr_setFn_pba (d : Dev) (f : Fn) (l : List Nat) (data write : Bool) :
    (d.setFn f { d.fnS f with pba := l }).attr f data write = d.attr f data write := by
  unfold Dev.attr
  rw [fnS_setFn]
  rfl

/-! ### IDE streams -/

theorem setStream_port (n i : Nat) (x : IdeStream) (d : Dev) :
    (setStream n i x d).port n = { d.port n with ide := tput (d.port n).ide i x } :=
  port_setPort d n _

@[simp] theorem tfind_setStream_same (n i : Nat) (x : IdeStream) (d : Dev) : tfind ((setStream n i x d).port n).ide i = some x := by
  rw [setStream_port]; exact tfind_tput_same _ _ _

theorem tfind_setStream_other {n i j : Nat} (x : IdeStream) (d : Dev) (h : j ≠ i) :
    tfind ((setStream n i x d).port n).ide j = tfind (d.port n).ide j := by
  rw [setStream_port]; exact tfind_tput_other _ _ h

section
variable {d : Dev} {n i : Nat} {x : IdeStream} (held : tfind (d.port n).ide i = some x) (serves : portServes d n = true)
include held serves

theorem ideFailure_secure (secure : x.secure = true) :
    ideFailure n i d = raise (0x081 + 4 * n) i false
      ((setStream n i { x with secure := false, key0 := none, key1 := none } d).bump Fam.hostPortIdeFailures n) := by
  simp [ideFailure, held, secure, serves]

theorem ideSwitch_keyed (secure : x.secure = true) (key : (x.keyOf (1 - x.keySet % 2)).isSome = true) :
    ideSwitch n i d = setStream n i { x with keySet := 1 - x.keySet % 2 } d := by
  simp [ideSwitch, held, secure, serves, key]

omit serves in
theorem ideSwitch_keyless (noKey : x.keyOf (1 - x.keySet % 2) = none) : ideSwitch n i d = d := by
  simp [ideSwitch, held, noKey]

end

/-- What a key programming message must bring (R57): a port that serves, a stream and key set that exist, at most two address ranges, and a
secured session. -/
def keyProgrammable (d : Dev) (n i session k : Nat) (g : IdeAssoc) : Prop :=
  portServes d n = true ∧ i ≤ 16 ∧ k ≤ 1 ∧ g.addrs.length ≤ 2 ∧ (d.port n).sessions.contains (session, true) = true

section
variable {d : Dev} {n i session k : Nat} {g : IdeAssoc} (key : BitVec 256) (ok : keyProgrammable d n i session k g)
include ok

theorem ideProgram_programmable :
    ideProgram n i session k key g d =
      let x := (tfind (d.port n).ide i).getD IdeStream.blank
      if x.secure then (if x.keySet = k then d else setStream n i (x.setKey k key) d)
      else setStream n i { IdeStream.blank.setKey k key with
        secure := true, keySet := k, ridLo := g.ridLo, ridHi := g.ridHi, addrs := g.addrs } d := by
  obtain ⟨serves, stream, set, ranges, session⟩ := ok
  simp only [ideProgram, serves, stream, set, ranges, session, decide_true, Bool.and_self, if_true]

theorem ideProgram_insecure (h : ∀ x, tfind (d.port n).ide i = some x → x.secure = false) :
    ideProgram n i session k key g d = setStream n i { IdeStream.blank.setKey k key with
      secure := true, keySet := k, ridLo := g.ridLo, ridHi := g.ridHi, addrs := g.addrs } d := by
  have insecure : ((tfind (d.port n).ide i).getD IdeStream.blank).secure = false := by
    cases held : tfind (d.port n).ide i with
    | none => rfl
    | some x => exact h x held
  simp [ideProgram_programmable key ok, insecure]

theorem ideProgram_inUse {x : IdeStream} (held : tfind (d.port n).ide i = some x) (secure : x.secure = true) (inUse : x.keySet = k) :
    ideProgram n i session k key g d = d := by
  simp [ideProgram_programmable key ok, held, secure, inUse]

theorem ideProgram_notInUse {x : IdeStream} (held : tfind (d.port n).ide i = some x) (secure : x.secure = true) (h : x.keySet ≠ k) :
    ideProgram n i session k key g d = setStream n i (x.setKey k key) d := by
  simp [ideProgram_programmable key ok, held, secure, h]

end

/-- Of two key sets a blank stream has the one that was given to it. -/
theorem keyOf_setKey_blank {k : Nat} (key : BitVec 256) (h : k ≤ 1) :
    (IdeStream.blank.setKey k key).keyOf k = some key ∧ (IdeStream.blank.setKey k key).keyOf (1 - k) = none := by
  interval_cases k <;> exact ⟨rfl, rfl⟩

/-! ### Errors and encryption -/

/-- Settles O11: one clause for each kind of error, for pending messages and for each IDE command. -/
theorem hostErrorsAndLinkEncryption : Obligations.HostErrorsAndLinkEncryption := by
  refine ⟨?errors, ?failedReads, ?report, ?bits, ?pending, ?failure, ?switch, ?program⟩
  case errors =>
    intro s f serves
    refine ⟨fun e => exec_receivedErrorTlp _ serves, exec_receivedErrorTlp _ serves, exec_receivedErrorTlp _ serves,
      fun e => exec_receivedErrorTlp _ serves, fun r off => ?_, fun on => ?_, exec_receivedErrorTlp _ serves,
      _, exec_receivedErrorTlp _ serves⟩
    · rw [exec_receivedErrorTlp _ serves, errorTlp_ecrc_unchecked r off]
    · rw [exec_receivedErrorTlp _ serves, errorTlp_ecrc_request on]
  case failedReads =>
    intro s f r serves
    refine ⟨fun on => ?_, exec_receivedErrorTlp _ serves, exec_receivedErrorTlp _ serves, runs_of_onDev rfl (if_pos serves)⟩
    rw [exec_receivedErrorTlp _ serves, errorTlp_ecrc_completion r on]
  case report =>
    intro f b adv h d hb
    refine ⟨aerReport_status adv h hb, fun m => ?_, fun m => ?_⟩
    · rw [aerReport_masked adv h m, setFn_out]
    · obtain ⟨k, c, report, -, fatal⟩ := aerReport_unmasked adv h m
      exact ⟨k, by rw [report, emit_out, setFn_out], fatal⟩
  case bits => decide
  case pending =>
    intro s f v pending a
    refine ends_of_onDev rfl ?_
    rw [pendingSend_allowed pending a]
    refine ⟨?_, ?_, rfl⟩
    · exact congrArg (fun t => s.dev.out ++ [.msix f v t]) (attr_setFn_pba s.dev f _ false true)
    · exact congrArg FnState.pba (fnS_setFn s.dev f _)
  case failure =>
    intro s n i x held secure serves
    exact ⟨_, rfl, tfind_setStream_same .., runs_of_onDev rfl (ideFailure_secure held serves secure)⟩
  case switch =>
    intro s n i x held secure serves
    refine ⟨fun key => ends_of_onDev rfl ?_, fun noKey => runs_of_onDev rfl (ideSwitch_keyless held noKey)⟩
    rw [ideSwitch_keyed held serves secure key]
    exact ⟨tfind_setStream_same .., fun j h => tfind_setStream_other _ _ h⟩
  case program =>
    intro s n i session k key g serves stream set ranges secured
    have ok : keyProgrammable s.dev n i session k g := ⟨serves, stream, set, ranges, secured⟩
    refine ⟨fun insecure => ends_of_onDev rfl ?_, fun x held secure => ⟨fun inUse => ?_, fun h => ends_of_onDev rfl ?_⟩⟩
    · rw [ideProgram_insecure key ok insecure]
      obtain ⟨given, other⟩ := keyOf_setKey_blank key set
      exact ⟨_, tfind_setStream_same .., rfl, rfl, given, other, rfl, rfl, rfl, fun j h => tfind_setStream_other _ _ h⟩
    · exact runs_of_onDev rfl (ideProgram_inUse key ok held secure inUse)
    · rw [ideProgram_notInUse key ok held secure h]
      exact ⟨tfind_setStream_same .., fun j h => tfind_setStream_other _ _ h⟩

end Sys2Proof.Machine
end

section
/-!
SUPPORT. DOE and SPDM (R60, Table 2.7): a request before its stage, one whose session is not held, the sessions of a port, and O12.
-/

namespace Sys2Proof.Machine

/-! ### Stages of negotiation -/

theorem spdm_reached {d : Dev} {n stage : Nat} (k : Dev → Dev) (serves : portServes d n = true) (h : stage ≤ (d.port n).spdmStage) :
    spdm n stage k d = k d := by
  simp [spdm, serves, h]

/-- UnexpectedRequest, and nothing else. -/
theorem spdm_early {d : Dev} {n stage : Nat} (k : Dev → Dev) (serves : portServes d n = true) (h : (d.port n).spdmStage < stage) :
    spdm n stage k d = emit (.doe n 0x7F [0x04]) d := by
  simp only [spdm, serves, Nat.not_le.mpr h, if_true, if_false]
  rfl

/-- A command whose meaning is `k` once negotiation has reached `stage` runs to `d` when `k` gives `d`. -/
theorem runs_of_spdm {c : Instr} {s : State} {n stage : Nat} {k : Dev → Dev} {d : Dev} (h : exec c s = onDev s (spdm n stage k))
    (serves : portServes s.dev n = true) (reached : stage ≤ (s.dev.port n).spdmStage) (e : k s.dev = d) :
    exec c s = .next { s with dev := d } :=
  runs_of_onDev h ((spdm_reached k serves reached).trans e)

theorem runs_of_spdm_early {c : Instr} {s : State} {n stage : Nat} {k : Dev → Dev} (h : exec c s = onDev s (spdm n stage k))
    (serves : portServes s.dev n = true) (early : (s.dev.port n).spdmStage < stage) :
    exec c s = .next { s with dev := emit (.doe n 0x7F [0x04]) s.dev } :=
  runs_of_onDev h (spdm_early k serves early)

/-! ### Sessions -/

theorem emit_port (o : Out) (d : Dev) (n : Nat) : (emit o d).port n = d.port n := rfl

theorem inSession_held {d : Dev} {n id : Nat} {secured : Bool} (k : Dev → Dev) (h : (d.port n).sessions.contains (id, secured) = true) :
    inSession n id secured k d = k d := by
  rw [inSession, if_pos h]

/-- InvalidSession, and nothing else. -/
theorem inSession_missing {d : Dev} {n id : Nat} {secured : Bool} (k : Dev → Dev)
    (h : (d.port n).sessions.contains (id, secured) = false) :
    inSession n id secured k d = emit (.doe n 0x7F [0x02]) d := by
  rw [inSession, if_neg (by rw [h]; decide)]
  rfl

theorem keyExchange_room {d : Dev} {n : Nat} (share : List Byte) (h : (d.port n).sessions.length < 2) :
    keyExchange n share d = emit (.doe n 0x64 (le 2 (newSession d n) ++ Config.spdmBytes 0x64 (unle share)))
      ((d.setPort n { d.port n with sessions := (d.port n).sessions ++ [(newSession d n, false)] }).draw) := by
  simp [keyExchange, h]

theorem keyExchange_full {d : Dev} {n : Nat} (share : List Byte) (h : 2 ≤ (d.port n).sessions.length) :
    keyExchange n share d = emit (.doe n 0x7F [0x0A]) d := by
  simp only [keyExchange, Nat.not_lt.mpr h, if_false]
  rfl

theorem setSession_secured (n id : Nat) (d : Dev) :
    ((setSession n id (some true) d).port n).sessions = (d.port n).sessions.filter (·.1 != id) ++ [(id, true)] :=
  congrArg HostPort.sessions (port_setPort d n _)

theorem setSession_ended (n id : Nat) (d : Dev) :
    ((setSession n id none d).port n).sessions = (d.port n).sessions.filter (·.1 != id) :=
  congrArg HostPort.sessions (port_setPort d n _)

theorem contains_secured (l : List (Nat × Bool)) (id : Nat) :
    (l.filter (·.1 != id) ++ [(id, true)]).contains (id, true) = true
      ∧ (l.filter (·.1 != id) ++ [(id, true)]).contains (id, false) = false := by
  simp

/-! ### Negotiation -/

theorem spdmTo_stage (n stage : Nat) (d : Dev) : ((spdmTo n stage d).port n).spdmStage = max stage (d.port n).spdmStage :=
  congrArg HostPort.spdmStage (port_setPort d n _)

/-- Settles O12: each request runs through `spdm` at its stage, and those of a session through `inSession`. -/
theorem attestationAnswersInOrder : Obligations.AttestationAnswersInOrder := by
  refine ⟨?discovery, ?version, ?capabilities, ?algorithms, ?complete, ?opens, ?full, ?finishes, ?secured, ?notSecured, ?noUpdate,
    ?noFinish, ?earlyCapabilities, ?earlyAlgorithms, ?early⟩
  case discovery => intro s n i serves; exact runs_of_onDev rfl (if_pos serves)
  case version => intro s n serves; exact runs_of_spdm rfl serves (Nat.zero_le _) rfl
  case capabilities =>
    intro s n serves h
    exact ⟨_, runs_of_spdm rfl serves h rfl, spdmTo_stage n 2 s.dev, by simp [spdmTo]⟩
  case algorithms =>
    intro s n serves h
    exact ⟨_, runs_of_spdm rfl serves h rfl, spdmTo_stage n 3 s.dev, by simp [spdmTo]⟩
  case complete =>
    intro s n serves h off len nonce
    refine ⟨runs_of_spdm rfl serves h rfl, runs_of_spdm rfl serves h rfl, runs_of_spdm rfl serves h rfl, runs_of_spdm rfl serves h rfl,
      fun i lo hi => runs_of_spdm rfl serves h ?_, fun slot other => ⟨?_, ?_⟩⟩
    · rw [if_neg (Nat.ne_of_gt lo), if_pos hi]
    · exact runs_of_spdm rfl serves h (if_neg other)
    · exact runs_of_spdm rfl serves h (if_neg other)
  case opens =>
    intro s n share serves h room
    exact ⟨_, runs_of_spdm rfl serves h (keyExchange_room share room), _, congrArg HostPort.sessions (port_setPort s.dev n _), by simp⟩
  case full => intro s n share serves h noRoom; exact runs_of_spdm rfl serves h (keyExchange_full share noRoom)
  case finishes =>
    intro s n id serves h opened
    refine ⟨_, runs_of_spdm rfl serves h ((inSession_held _ opened).trans (if_pos rfl)), ?_⟩
    rw [emit_port, setSession_secured]
    exact contains_secured _ id
  case secured =>
    intro s n id serves h held
    exact ⟨runs_of_spdm rfl serves h (inSession_held _ held), runs_of_spdm rfl serves h (inSession_held _ held),
      _, runs_of_spdm rfl serves h (inSession_held _ held), setSession_ended n id s.dev⟩
  case notSecured =>
    intro s n id serves h missing
    exact ⟨runs_of_spdm rfl serves h (inSession_missing _ missing), runs_of_spdm rfl serves h (inSession_missing _ missing)⟩
  case noUpdate => intro s n id serves h missing; exact runs_of_spdm rfl serves h (inSession_missing _ missing)
  case noFinish => intro s n id v serves h missing; exact runs_of_spdm rfl serves h (inSession_missing _ missing)
  case earlyCapabilities => intro s n serves h; exact runs_of_spdm_early rfl serves h
  case earlyAlgorithms => intro s n serves h; exact runs_of_spdm_early rfl serves h
  case early =>
    intro s n c serves h request
    rcases request with rfl | ⟨_, _, _, rfl⟩ | ⟨_, _, rfl⟩ | ⟨_, _, rfl⟩ | ⟨_, rfl⟩ | ⟨_, _, rfl⟩ | ⟨_, rfl⟩ | ⟨_, rfl⟩ | ⟨_, rfl⟩ <;>
      exact runs_of_spdm_early rfl serves h

end Sys2Proof.Machine
end

section
/-!
SUPPORT. Commands of a host port (R42, R43, R63, R64): what a port reset, a link command, an FLR and VF Enable leave of the port, and O59.
-/

namespace Sys2Proof.Machine

/-! ### The port after an update of something else -/

theorem port_of_ports {d e : Dev} (h : e.ports = d.ports) (n : Nat) : e.port n = d.port n := congrArg (fun t => tget t n HostPort.idle) h

@[simp] theorem showHostLink_ports (n : Nat) (d : Dev) : (showHostLink n d).ports = d.ports := rfl

theorem hubFall_ports (n : Nat) (d : Dev) : (hubFall n d).ports = d.ports := by rw [hubFall_keeps]

@[simp] theorem loseClaim_pw (d : Dev) : (loseClaim d).pw = d.pw := by unfold loseClaim; split <;> rfl

theorem coreUp_of_pw {d e : Dev} (h : e.pw = d.pw) : e.coreUp = d.coreUp := by simp only [Dev.coreUp, Dev.inMode, h]

/-! ### Port reset, PERST and links -/

theorem portReset_linkUp (n : Nat) (d : Dev) : ((portReset n d).port n).linkUp = false := by
  unfold portReset
  simp only [port_of_ports (showHostLink_ports n _), port_setPort]

/-- HP_PERST_N_ASSERT but for its signal. -/
def perstHeld (n : Nat) (d : Dev) : Dev :=
  let s := if n = d.pw.adminPort then loseClaim d else d
  let s := if s.coreUp then portReset n s else s
  s.setPort n { s.port n with perstLow := true, readyToTrain := false }

theorem perstAssert_eq (n : Nat) (d : Dev) :
    perstAssert n d =
      if (d.port n).linkUp && (perstHeld n d).coreUp then raise (0x082 + 4 * n) 0 false (perstHeld n d) else perstHeld n d := by
  delta perstAssert perstHeld
  with_reducible rfl

theorem perstHeld_perstLow (n : Nat) (d : Dev) : ((perstHeld n d).port n).perstLow = true :=
  congrArg HostPort.perstLow (port_setPort _ n _)

theorem perstHeld_readyToTrain (n : Nat) (d : Dev) : ((perstHeld n d).port n).readyToTrain = false :=
  congrArg HostPort.readyToTrain (port_setPort _ n _)

theorem loseClaimOnAdmin_pw (n : Nat) (d : Dev) : (if n = d.pw.adminPort then loseClaim d else d).pw = d.pw := by
  split <;> simp

/-- With the core up the port is reset, so that a link it had is down. -/
theorem perstHeld_linkUp {n : Nat} {d : Dev} (up : d.coreUp = true) : ((perstHeld n d).port n).linkUp = false := by
  have up' : (if n = d.pw.adminPort then loseClaim d else d).coreUp = true :=
    (coreUp_of_pw (loseClaimOnAdmin_pw n d)).trans up
  unfold perstHeld
  simp only [up', if_true, port_setPort]
  exact portReset_linkUp n _

theorem perstHeld_coreDown {n : Nat} {d : Dev} (down : d.coreUp = false) : (perstHeld n d).coreUp = false := by
  have down' : (if n = d.pw.adminPort then loseClaim d else d).coreUp = false :=
    (coreUp_of_pw (loseClaimOnAdmin_pw n d)).trans down
  unfold perstHeld
  simp only [down', Bool.false_eq_true, if_false]
  exact down'

theorem perstAssert_noLink {n : Nat} {d : Dev} (h : d.coreUp = false ∨ (d.port n).linkUp = false) :
    perstAssert n d = perstHeld n d := by
  rw [perstAssert_eq]
  rcases h with down | noLink
  · rw [perstHeld_coreDown down, Bool.and_false]; rfl
  · rw [noLink, Bool.false_and]; rfl

theorem perstAssert_link {n : Nat} {d : Dev} (link : (d.port n).linkUp = true) :
    perstAssert n d = if (perstHeld n d).coreUp then raise (0x082 + 4 * n) 0 false (perstHeld n d) else perstHeld n d := by
  rw [perstAssert_eq, link, Bool.true_and]

/-- A port of the core with its link down again, ready to train unless PERST holds it. -/
def linkLost (n : Nat) (d : Dev) : Dev :=
  let s := portReset n d
  s.setPort n { s.port n with readyToTrain := !(s.port n).perstLow }

theorem linkLost_linkUp (n : Nat) (d : Dev) : ((linkLost n d).port n).linkUp = false := by
  unfold linkLost
  simp only [port_setPort, portReset_linkUp]

theorem linkLost_readyToTrain (n : Nat) (d : Dev) :
    ((linkLost n d).port n).readyToTrain = !((linkLost n d).port n).perstLow := by
  unfold linkLost
  simp only [port_setPort]

section
variable {n : Nat} {d : Dev} (isPort : n < 16) (up : d.coreUp = true) (link : (d.port n).linkUp = true)
include isPort up link

theorem hostLinkDown_hotReset : hostLinkDown n true d = linkLost n d := by
  simp only [hostLinkDown, isPort, up, link, and_self, if_true]
  rfl

theorem hostLinkDown_lost :
    hostLinkDown n false d = raise (0x082 + 4 * n) 0 false
      ((linkLost n (aerError ⟨n, 0⟩ (fatalErrorBit .surpriseDown) false none d)).bump Fam.hostPortLinkDowns n) := by
  simp only [hostLinkDown, isPort, up, link, and_self, if_true, Bool.false_eq_true, if_false]
  rfl

end

theorem hostLinkDown_noLink {n : Nat} {d : Dev} (hot : Bool) (h : (d.port n).linkUp = false) : hostLinkDown n hot d = d := by
  simp [hostLinkDown, h]

theorem hostLinkUp_trains {n speed width : Nat} {d : Dev} (isPort : n < 16) (up : d.coreUp = true)
    (terminated : d.pw.hostTerminated = true) (ready : (d.port n).readyToTrain = true) (released : (d.port n).perstLow = false)
    (noLink : (d.port n).linkUp = false) (slowest : 1 ≤ speed) (fastest : speed ≤ d.val Fam.hostPortMaxSpeed n)
    (lanes : width = 1 ∨ width = 2 ∨ width = 4) :
    hostLinkUp n speed width d = hubFall (0x082 + 4 * n) (showHostLink n ((settleReserve n d).setPort n
      { (settleReserve n d).port n with linkUp := true, speed := speed, width := width, readyToTrain := false })) := by
  rw [hostLinkUp, if_pos ⟨isPort, up, terminated, ready, released, noLink, slowest, fastest, lanes⟩]

/-! ### Function resets and VF Enable -/

theorem flr_starts {f : Fn} {d : Dev} (serves : portServes d f.port = true) (e : d.fnExists f = true) (idle : (d.fnS f).inFlr = false)
    (pfIdle : (d.fnS ⟨f.port, 0⟩).inFlr = false) :
    flr f d =
      (let s := if d.isAdmin f then loseClaim d else d
       let e := markFlr f (functionReset ((s.fnS f).busMaster && !s.inMode .eclipse) f s)
       if f.fn = 0 then clearVfs f.port e else e) := by
  simp only [flr, serves, e, idle, pfIdle, Bool.not_false, Bool.and_self, if_true]

theorem markFlr_inFlr (f : Fn) (d : Dev) : ((markFlr f d).fnS f).inFlr = true := congrArg FnState.inFlr (fnS_setFn d f _)

theorem clearVfs_vfs (n : Nat) (d : Dev) : ((clearVfs n d).port n).vfs = 0 := congrArg HostPort.vfs (port_setPort _ n _)

theorem foldl_presentSummary_keeps (l : List Fn) (d : Dev) :
    l.foldl presentSummary d = { d with fns := (l.foldl presentSummary d).fns } :=
  foldl_invariant (fun e => e = { d with fns := e.fns }) presentSummary (fun e f h => by rw [presentSummary, h]; rfl) l rfl

theorem vfEnableSet_enables {n k : Nat} {d : Dev} (serves : portServes d n = true) (noVfs : (d.port n).vfs = 0)
    (h : k ≤ (d.port n).totalVfs) :
    vfEnableSet n k d = ((List.range k).map fun v => (⟨n, v + 1⟩ : Fn)).foldl presentSummary
      (d.setPort n { d.port n with vfs := k }) := by
  simp [vfEnableSet, serves, noVfs, h]

/-- Settles O59: each command by its equation in the clause's case, then by what its last update leaves of the port. -/
theorem portCommandsComplete : Obligations.PortCommandsComplete := by
  refine ⟨?perstNoLink, ?perstLink, ?perstRelease, ?hotReset, ?linkLost, ?noLink, ?linkUp, ?flrVf, ?flrPf, ?vfSet, ?vfClear, ?scrub, ?ide⟩
  case perstNoLink =>
    intro s n hn h
    exact ⟨_, runs_of_onDev rfl ((if_pos hn).trans (perstAssert_noLink h)), perstHeld_perstLow n _, perstHeld_readyToTrain n _⟩
  case perstLink =>
    intro s n hn up link
    exact ⟨_, runs_of_onDev rfl ((if_pos hn).trans (perstAssert_link link)), _, rfl, perstHeld_perstLow n _, perstHeld_linkUp up⟩
  case perstRelease =>
    intro s n hn
    refine ⟨_, runs_of_onDev rfl (if_pos hn), ?_, ?_, rfl⟩
    · exact congrArg HostPort.perstLow (port_setPort _ n _)
    · exact congrArg HostPort.readyToTrain (port_setPort _ n _)
  case hotReset =>
    intro s n hn up link
    exact ⟨_, runs_of_onDev rfl (hostLinkDown_hotReset hn up link), linkLost_linkUp n _, linkLost_readyToTrain n _⟩
  case linkLost =>
    intro s n hn up link
    refine ⟨_, runs_of_onDev rfl (hostLinkDown_lost hn up link), _, rfl, ?_⟩
    rw [port_of_ports (bump_ports _ _ _)]
    exact linkLost_linkUp n _
  case noLink => intro s n hot h; exact runs_of_onDev rfl (hostLinkDown_noLink hot h)
  case linkUp =>
    intro s n speed width hn up terminated ready released noLink slowest fastest lanes
    refine ends_of_onDev rfl ?_
    rw [hostLinkUp_trains hn up terminated ready released noLink slowest fastest lanes, port_of_ports (hubFall_ports _ _),
      port_of_ports (showHostLink_ports _ _), port_setPort]
    exact ⟨rfl, rfl, rfl⟩
  case flrVf =>
    intro s f serves e vf idle pfIdle
    exact ⟨_, runs_of_onDev rfl ((flr_starts serves e idle pfIdle).trans (if_neg vf)), markFlr_inFlr f _⟩
  case flrPf =>
    intro s n serves e idle
    exact ⟨_, runs_of_onDev rfl ((flr_starts serves e idle idle).trans (if_pos rfl)), clearVfs_vfs n _⟩
  case vfSet =>
    intro s n k serves noVfs h
    refine ⟨_, runs_of_onDev rfl (vfEnableSet_enables serves noVfs h), ?_⟩
    rw [foldl_presentSummary_keeps]
    exact ⟨congrArg HostPort.vfs (port_setPort _ n _), rfl⟩
  case vfClear =>
    intro s n serves
    exact ⟨_, runs_of_onDev rfl (if_pos serves), clearVfs_vfs n _⟩
  case scrub => intro s ddr k up ready; exact runs_of_onDev rfl (by simp [patrolScrub, up, ready])
  case ide =>
    intro s n i x held secure serves
    refine ⟨_, runs_of_onDev rfl (ideFailure_secure held serves secure), _, rfl, ?_⟩
    rw [port_of_ports (bump_ports _ _ _), tfind_setStream_same]
    rfl

end Sys2Proof.Machine
end

section
/-!
SUPPORT. Ring positions (R77): a position lies in one of the two laps of its ring, counts and steps are arithmetic of the places
0 to 2d - 1, and O52.
-/

namespace Sys2Proof.Machine

/-! ### Positions and their places -/

/-- R77: 17 bits whose index is below the depth. -/
def IsPosition (d v : Nat) : Prop := v < 131072 ∧ v % 65536 < d

/-- Lap 0 holds the places from 0, lap 1 those from `d`. -/
theorem IsPosition.lap_cases {d v : Nat} (p : IsPosition d v) :
    (v < 65536 ∧ v < d ∧ rPos d v = v) ∨ (65536 ≤ v ∧ v - 65536 < d ∧ rPos d v = d + (v - 65536)) := by
  obtain ⟨bits, index⟩ := p
  by_cases lap : v < 65536
  · have zero : v / 65536 = 0 := by omega
    exact .inl ⟨lap, by omega, by rw [rPos, zero, Nat.zero_mul]; omega⟩
  · have one : v / 65536 = 1 := by omega
    exact .inr ⟨by omega, by omega, by rw [rPos, one, Nat.one_mul]; omega⟩

theorem IsPosition.rPos_lt {d v : Nat} (p : IsPosition d v) : rPos d v < 2 * d := by
  rcases p.lap_cases with ⟨_, _, place⟩ | ⟨_, _, place⟩ <;> omega

theorem rPos_eq_shift (d v : Nat) : rPos d v = (v >>> 16) * d + (v &&& 0xFFFF) := by
  rw [Nat.shiftRight_eq_div_pow, Nat.and_two_pow_sub_one_eq_mod v 16]
  rfl

theorem rNext_eq_xor (d v : Nat) :
    rNext d v = if v &&& 0xFFFF = d - 1 then (v ^^^ 0x10000) &&& 0x10000 else v + 1 := by
  have otherLap : (v ^^^ 0x10000) &&& 0x10000 = if v / 65536 % 2 = 0 then 65536 else 0 := by
    have bit : (v ^^^ 0x10000) &&& 0x10000 = ((v ^^^ 2 ^ 16).testBit 16).toNat * 2 ^ 16 := Nat.and_two_pow _ 16
    rw [bit, Nat.testBit_xor, Nat.testBit_two_pow_self, Nat.testBit_eq_decide_div_mod_eq]
    by_cases even : v / 65536 % 2 = 0
    · simp [even]
    · simp [Nat.mod_two_ne_zero.mp even]
  rw [rNext, otherLap, Nat.and_two_pow_sub_one_eq_mod v 16]

/-! ### The step to the next position -/

section
variable {d v : Nat} (deep : d ≤ 65536) (p : IsPosition d v)
include deep p

theorem IsPosition.next : IsPosition d (rNext d v) := by
  obtain ⟨bits, index⟩ := p
  unfold rNext IsPosition
  split
  · split <;> omega
  · omega

theorem rPos_rNext : rPos d (rNext d v) = if rPos d v + 1 = 2 * d then 0 else rPos d v + 1 := by
  have next := (p.next deep).lap_cases
  have here := p.lap_cases
  obtain ⟨bits, index⟩ := p
  unfold rNext at next ⊢
  split_ifs at next ⊢ <;> omega

end

/-! ### Counts -/

theorem rCount_eq {d h t : Nat} (ph : IsPosition d h) (pt : IsPosition d t) :
    rCount d h t = if rPos d h ≤ rPos d t then rPos d t - rPos d h else rPos d t + 2 * d - rPos d h := by
  have hl := ph.rPos_lt
  have tl := pt.rPos_lt
  unfold rCount
  split
  · rw [show rPos d t + 2 * d - rPos d h = rPos d t - rPos d h + 2 * d by omega, Nat.add_mod_right, Nat.mod_eq_of_lt (by omega)]
  · exact Nat.mod_eq_of_lt (by omega)

theorem rCount_cast {d h t : Nat} (ph : IsPosition d h) :
    (rCount d h t : Int) = ((rPos d t : Int) - rPos d h + 2 * d) % (2 * d) := by
  have hl := ph.rPos_lt
  unfold rCount
  rw [Int.natCast_mod, Nat.cast_sub (by omega)]
  push_cast
  congr 1
  ring

section
variable {d h t : Nat} (ph : IsPosition d h) (pt : IsPosition d t)
include ph pt

theorem rCount_eq_zero_iff : rCount d h t = 0 ↔ h = t := by
  have head := ph.lap_cases
  have tail := pt.lap_cases
  rw [rCount_eq ph pt]
  split <;> omega

/-- A full ring: same index, other lap. -/
theorem rCount_eq_depth_iff : rCount d h t = d ↔ h % 65536 = t % 65536 ∧ h / 65536 ≠ t / 65536 := by
  have head := ph.lap_cases
  have tail := pt.lap_cases
  have hbits := ph.1
  have tbits := pt.1
  rw [rCount_eq ph pt]
  split <;> omega

variable (deep : d ≤ 65536)
include deep

/-- The producer's step. -/
theorem rCount_rNext_tail (room : rCount d h t + 1 < 2 * d) : rCount d h (rNext d t) = rCount d h t + 1 := by
  have hl := ph.rPos_lt
  have tl := pt.rPos_lt
  have step := rPos_rNext deep pt
  rw [rCount_eq ph pt] at room ⊢
  rw [rCount_eq ph (pt.next deep), step]
  split_ifs at room ⊢ <;> omega

/-- The consumer's step. -/
theorem rCount_rNext_head (used : 0 < rCount d h t) : rCount d (rNext d h) t = rCount d h t - 1 := by
  have hl := ph.rPos_lt
  have tl := pt.rPos_lt
  have step := rPos_rNext deep ph
  rw [rCount_eq ph pt] at used ⊢
  rw [rCount_eq (ph.next deep) pt, step]
  split_ifs at used ⊢ <;> omega

end

/-! ### Doorbell values -/

theorem tailOk_iff {d h v : Nat} : tailOk d h v = true ↔ v < 131072 ∧ v % 65536 < d ∧ rCount d h v ≤ d := by
  simp [tailOk, and_assoc]

theorem headOk_iff {d h t v : Nat} : headOk d h t v = true ↔ v < 131072 ∧ v % 65536 < d ∧ rCount d v t ≤ rCount d h t := by
  simp [headOk, and_assoc]

theorem tailOk_eq_false_iff {d h v : Nat} : tailOk d h v = false ↔ 131072 ≤ v ∨ d ≤ v % 65536 ∨ d < rCount d h v := by
  rw [← Bool.not_eq_true, tailOk_iff]
  omega

theorem headOk_eq_false_iff {d h t v : Nat} :
    headOk d h t v = false ↔ 131072 ≤ v ∨ d ≤ v % 65536 ∨ rCount d h t < rCount d v t := by
  rw [← Bool.not_eq_true, headOk_iff]
  omega

/-- Settles O52: the parts, each over places of the ring. -/
theorem ringCountsFollowTheRule : Obligations.RingCountsFollowTheRule := by
  intro d h t two deep hbits tbits hindex tindex
  have ph : IsPosition d h := ⟨hbits, hindex⟩
  have pt : IsPosition d t := ⟨tbits, tindex⟩
  obtain ⟨nextBits, nextIndex⟩ := ph.next deep
  have empty : rCount d h h = 0 := (rCount_eq_zero_iff ph ph).mpr rfl
  have one : rCount d h (rNext d h) = 1 := by rw [rCount_rNext_tail ph ph deep (by omega), empty]
  exact ⟨rPos_eq_shift d h, ph.rPos_lt, rCount_cast ph, rCount_eq_zero_iff ph pt, rCount_eq_depth_iff ph pt, rNext_eq_xor d h,
    nextBits, nextIndex, one, fun room => rCount_rNext_tail ph pt deep (by omega), rCount_rNext_head ph pt deep,
    fun v ok => (tailOk_iff.mp ok).2.2, fun v ok full => (headOk_iff.mp ok).2.2.trans full⟩

end Sys2Proof.Machine
end

section
/-!
SUPPORT. Doorbells (R78, R79, R480) and inline push (R82, R83): what a submission changes of a queue, what a doorbell is in each case,
O14 and O15.
-/

namespace Sys2Proof.Machine

/-! ### A submission -/

theorem q_submit (f : Fn) (q tail n : Nat) (d : Dev) :
    (submit f q tail n d).q f q =
      { d.q f q with sqTail := tail, stamps := (d.q f q).stamps ++ (List.range n).map (d.cm.nextStamp + ·) } :=
  q_setQ d f q _

theorem q_submit_other {f g : Fn} {q k : Nat} (tail n : Nat) (d : Dev) (h : qKey g k ≠ qKey f q) :
    (submit f q tail n d).q g k = d.q g k :=
  q_setQ_other d _ h

theorem submit_keeps (f : Fn) (q tail n : Nat) (d : Dev) :
    submit f q tail n d = { d with cm := { d.cm with
      qs := (submit f q tail n d).cm.qs, nextStamp := (submit f q tail n d).cm.nextStamp } } := rfl

/-! ### A tail doorbell -/

theorem ringTail_absent {f : Fn} {q : Nat} (v : Nat) {d : Dev} (h : (d.q f q).sqState = .absent) :
    ringTail f q v d = bumpQ f q Fam.qDoorbellErrors d := by
  simp only [ringTail, h]

section
variable {f : Fn} {q v : Nat} {d : Dev} (present : (d.q f q).sqState = .active ∨ (d.q f q).sqState = .stopped)
include present

theorem ringTail_present :
    ringTail f q v d =
      if tailOk (d.q f q).sqDepth (d.q f q).sqHead v then
        if (d.q f q).sqCount ≤ rCount (d.q f q).sqDepth (d.q f q).sqHead v then
          submit f q v (rCount (d.q f q).sqDepth (d.q f q).sqHead v - (d.q f q).sqCount) d
        else d
      else bumpQ f q Fam.qDoorbellErrors d := by
  rcases present with h | h <;> simp only [ringTail, h] <;> rfl

theorem ringTail_rejected (no : tailOk (d.q f q).sqDepth (d.q f q).sqHead v = false) :
    ringTail f q v d = bumpQ f q Fam.qDoorbellErrors d := by
  rw [ringTail_present present, no]
  rfl

variable (ok : tailOk (d.q f q).sqDepth (d.q f q).sqHead v = true)
include ok

theorem ringTail_advances (ahead : (d.q f q).sqCount ≤ rCount (d.q f q).sqDepth (d.q f q).sqHead v) :
    ringTail f q v d = submit f q v (rCount (d.q f q).sqDepth (d.q f q).sqHead v - (d.q f q).sqCount) d := by
  rw [ringTail_present present, if_pos ok, if_pos ahead]

theorem ringTail_behind (behind : rCount (d.q f q).sqDepth (d.q f q).sqHead v < (d.q f q).sqCount) : ringTail f q v d = d := by
  rw [ringTail_present present, if_pos ok, if_neg (Nat.not_le.mpr behind)]

end

/-! ### A head doorbell -/

theorem ringHead_absent {f : Fn} {q : Nat} (v : Nat) {d : Dev} (h : (d.q f q).cqState = .absent) :
    ringHead f q v d = bumpQ f q Fam.qDoorbellErrors d :=
  if_pos h

section
variable {f : Fn} {q v : Nat} {d : Dev} (present : (d.q f q).cqState ≠ .absent)
include present

theorem ringHead_accepted (ok : headOk (d.q f q).cqDepth (d.q f q).cqHead (d.q f q).cqTail v = true) :
    ringHead f q v d = d.setQ f q { d.q f q with cqHead := v } :=
  (if_neg present).trans (if_pos ok)

theorem ringHead_rejected (no : headOk (d.q f q).cqDepth (d.q f q).cqHead (d.q f q).cqTail v = false) :
    ringHead f q v d = bumpQ f q Fam.qDoorbellErrors d :=
  (if_neg present).trans (if_neg (ne_true_of_eq_false no))

end

/-! ### The commands of a reachable function -/

section
variable {s : State} {r : Req} {q : Nat} {d : Dev} (a : s.dev.reaches r) (hq : q < queueLimit r.toFn)
include a hq

theorem sqTailDoorbell_runs {v : Word} (e : ringTail r.toFn q v.toNat s.dev = d) :
    exec (.sqTailDoorbell r q v) s = .next { s with dev := d } :=
  runs_of_onDev rfl ((if_pos hq).trans ((hostAccess_reaches _ a).trans e))

theorem cqHeadDoorbell_runs {v : Word} (e : ringHead r.toFn q v.toNat s.dev = d) :
    exec (.cqHeadDoorbell r q v) s = .next { s with dev := d } :=
  runs_of_onDev rfl ((if_pos hq).trans ((hostAccess_reaches _ a).trans e))

theorem inlinePush_runs {slot : Nat} {whole : Bool} {c : Fetched} (e : pushInline r.toFn q slot whole c s.dev = d) :
    exec (.inlinePush r q slot whole c) s = .next { s with dev := d } :=
  runs_of_onDev rfl ((if_pos hq).trans ((hostAccess_reaches _ a).trans e))

end

/-- Settles O14: each clause is one case of `ringTail` or `ringHead`. -/
theorem doorbellsAcceptByTheRules : Obligations.DoorbellsAcceptByTheRules := by
  refine ⟨?tail, ?head, ?absent⟩
  case tail =>
    rintro s r f q v x a rfl hq rfl present
    refine ⟨fun bits index fits => ?accepted, fun no => ?rejected⟩
    case accepted =>
      have ok := tailOk_iff.mpr ⟨bits, index, fits⟩
      refine ⟨fun ahead => ⟨_, sqTailDoorbell_runs a hq (ringTail_advances present ok ahead), ?_⟩,
        fun behind => sqTailDoorbell_runs a hq (ringTail_behind present ok behind)⟩
      rw [q_submit]
      exact ⟨rfl, rfl, rfl, submit_keeps .., fun g k other => q_submit_other _ _ _ other⟩
    case rejected => exact sqTailDoorbell_runs a hq (ringTail_rejected present (tailOk_eq_false_iff.mpr no))
  case head =>
    rintro s r f q v x a rfl hq rfl present
    exact ⟨fun bits index fits => cqHeadDoorbell_runs a hq (ringHead_accepted present (headOk_iff.mpr ⟨bits, index, fits⟩)),
      fun no => cqHeadDoorbell_runs a hq (ringHead_rejected present (headOk_eq_false_iff.mpr no))⟩
  case absent =>
    rintro s r f q v x a rfl hq rfl
    exact ⟨fun h => sqTailDoorbell_runs a hq (ringTail_absent _ h), fun h => cqHeadDoorbell_runs a hq (ringHead_absent _ h)⟩

/-- Settles O15: the two branches of Table 3.5's test. -/
theorem inlineSlotsAreTakenOrCounted : Obligations.InlineSlotsAreTakenOrCounted := by
  refine ⟨?taken, ?rejected⟩
  case taken =>
    rintro s r f q slot whole e a rfl hq ok
    refine ⟨_, _, _, rfl, rfl, rfl, ?_, ?_, inlinePush_runs a hq (if_pos ok)⟩ <;> rw [q_submit]
    rfl
  case rejected =>
    rintro s r f q slot whole e a rfl hq no
    exact inlinePush_runs a hq (if_neg (ne_true_of_eq_false no))

end Sys2Proof.Machine
end

section
/-!
SUPPORT. Atomic units (R123): the parts of one piece, the pieces of a range, and O57.
-/

namespace Sys2Proof.Machine

/-! ### The parts of a piece -/

theorem parts_flatMap_range' {l f a r : Nat} (hl : 1 ≤ l) (hf : r ≤ f) :
    ((atomicUnits.parts l f a r).flatMap fun u => List.range' u.1 u.2) = List.range' a r := by
  induction f generalizing a r with
  | zero => rw [Nat.le_zero.mp hf]; rfl
  | succ f ih =>
    rw [atomicUnits.parts]
    split
    next stop => rw [show r = 0 by omega]; rfl
    next go =>
      rw [List.flatMap_cons, ih (by omega), List.range'_append_1, Nat.add_sub_cancel' (Nat.min_le_right l r)]

theorem mem_parts {l f a r : Nat} {u : Nat × Nat} (h : u ∈ atomicUnits.parts l f a r) :
    0 < u.2 ∧ u.2 ≤ l ∧ a ≤ u.1 ∧ u.1 + u.2 ≤ a + r := by
  induction f generalizing a r with
  | zero => cases h
  | succ f ih =>
    rw [atomicUnits.parts] at h
    split at h
    next => cases h
    next go =>
      rcases List.mem_cons.mp h with rfl | later
      · dsimp only; omega
      · have := ih later
        omega

/-! ### The pieces of a range -/

theorem atomicUnits_zero (fuel l lba : Nat) : atomicUnits fuel l lba 0 = [] := by cases fuel <;> rfl

theorem atomicUnits_succ (fuel l lba : Nat) {n : Nat} (h : n ≠ 0) :
    atomicUnits (fuel + 1) l lba n =
      atomicUnits.parts l 64 lba (min n (64 - lba % 64))
        ++ atomicUnits fuel l (lba + min n (64 - lba % 64)) (n - min n (64 - lba % 64)) :=
  if_neg h

/-- One turn of the fuel for each window of 64 blocks that the range touches. -/
theorem atomicUnits_flatMap_range' {fuel l lba n : Nat} (hl : 1 ≤ l) (hf : lba % 64 + n ≤ 64 * fuel) :
    ((atomicUnits fuel l lba n).flatMap fun u => List.range' u.1 u.2) = List.range' lba n := by
  induction fuel generalizing lba n with
  | zero => rw [show n = 0 by omega]; rfl
  | succ fuel ih =>
    rcases Nat.eq_zero_or_pos n with rfl | pos
    · rw [atomicUnits_zero]; rfl
    · rw [atomicUnits_succ _ _ _ (by omega), List.flatMap_append, parts_flatMap_range' hl (by omega)]
      by_cases inWindow : n ≤ 64 - lba % 64
      · rw [Nat.min_eq_left inWindow, Nat.sub_self, atomicUnits_zero, List.flatMap_nil, List.append_nil]
      · rw [Nat.min_eq_right (by omega), ih (by omega), List.range'_append_1, Nat.add_sub_cancel' (by omega)]

theorem mem_atomicUnits {fuel l lba n : Nat} {u : Nat × Nat} (h : u ∈ atomicUnits fuel l lba n) :
    0 < u.2 ∧ u.2 ≤ l ∧ u.1 / 64 = (u.1 + u.2 - 1) / 64 := by
  induction fuel generalizing lba n with
  | zero => cases h
  | succ fuel ih =>
    rcases Nat.eq_zero_or_pos n with rfl | pos
    · rw [atomicUnits_zero] at h; cases h
    · rw [atomicUnits_succ _ _ _ (by omega)] at h
      rcases List.mem_append.mp h with here | later
      · obtain ⟨nonempty, limit, start, stop⟩ := mem_parts here
        omega
      · exact ih later

/-- Settles O57: the parts of a window cover it in order, and so do the windows the range. -/
theorem rangesCutIntoAtomicUnits : Obligations.RangesCutIntoAtomicUnits := by
  intro fuel l lba n hl hf
  refine ⟨atomicUnits_flatMap_range' hl (by omega), fun u h => ?_⟩
  obtain ⟨pos, limit, window⟩ := mem_atomicUnits h
  omega

end Sys2Proof.Machine
end

section
/-!
SUPPORT. Host commands as they start (R97 to R123, R266, R390): what the start itself changes, what each opcode's work is in each case,
and O17.
-/

namespace Sys2Proof.Machine

/-! ### One command in flight -/

theorem id_of_ctx? {d : Dev} {id : Nat} {c : Ctx} (h : d.ctx? id = some c) : c.id = id := by
  simpa using List.find?_some h

theorem ctx?_modCtx {d : Dev} {id : Nat} {c : Ctx} (g : Ctx → Ctx) (h : d.ctx? id = some c) (keeps : ∀ x, (g x).id = x.id) :
    (d.modCtx id g).ctx? id = some (g c) := by
  have number (x : Ctx) : (if x.id = id then g x else x).id = x.id := by split <;> simp [keeps]
  have found : d.cm.ctxs.find? (fun x => x.id == id) = some c := h
  simp only [Dev.ctx?, Dev.modCtx, List.find?_map, Function.comp_def, number, found, Option.map_some, id_of_ctx? h, if_true]

/-! ### The start -/

section
variable (d : Dev) (c : Ctx) (id : Nat)

/-- Lane 2 keeps its rounds with the port. -/
theorem inTurn_keeps : d.inTurn c = { d with ports := (d.inTurn c).ports } := by
  unfold Dev.inTurn laneTurn
  dsimp only
  repeat' split
  all_goals rfl

theorem startsCmd_keeps : d.startsCmd c id = { d with cm := (d.startsCmd c id).cm, ports := (d.startsCmd c id).ports } := by
  unfold Dev.startsCmd
  rw [inTurn_keeps]
  rfl

theorem startsCmd_chan (n : Nat) : (d.startsCmd c id).chan n = d.chan n := by rw [startsCmd_keeps]; rfl

theorem startsCmd_vol? (v : Nat) : (d.startsCmd c id).vol? v = d.vol? v := by rw [startsCmd_keeps]; rfl

theorem startsCmd_arr? (a : Nat) : (d.startsCmd c id).arr? a = d.arr? a := by rw [startsCmd_keeps]; rfl

theorem startsCmd_fnS (f : Fn) : (d.startsCmd c id).fnS f = d.fnS f := by rw [startsCmd_keeps]; rfl

end

/-- R140: only READ and WRITE take turns at a port. -/
theorem inTurn_of_unshared {d : Dev} {c : Ctx} (notRead : eOpcode c.raw ≠ opRead) (notWrite : eOpcode c.raw ≠ opWrite) :
    d.inTurn c = d := by
  simp [Dev.inTurn, laneTurn, sharesPort, notRead, notWrite]

theorem ctx?_startsCmd {d : Dev} {c : Ctx} {id : Nat} (h : d.ctx? id = some c) :
    (d.startsCmd c id).ctx? id = some (d.startedCtx c) := by
  have sameCm : (d.inTurn c).ctx? id = some c := by rw [inTurn_keeps]; exact h
  exact ctx?_modCtx _ sameCm fun _ => rfl

/-- A row of a host command whose command may start runs to what its work `k` gives. -/
theorem runs_of_cmdNext {i : Instr} {s : State} {id op : Nat} {c : Ctx} {sel : BitVec 512 → Bool} {k : Ctx → Dev → Dev} {d : Dev}
    (row : exec i s = onDev s (withCmd id op sel k)) (h : s.dev.cmdNext id op c) (selected : sel c.raw = true)
    (e : k (s.dev.startedCtx c) (s.dev.startsCmd c id) = d) : exec i s = .next { s with dev := d } :=
  runs_of_onDev row ((withCmd_starts k h selected).trans e)

/-- R266: a command that check 5 refuses now ends with that check. -/
theorem withCmd_refused {d : Dev} {id op : Nat} {c : Ctx} {r : Reject} {sel : BitVec 512 → Bool} (k : Ctx → Dev → Dev)
    (h : d.ctx? id = some c) (admitted : c.phase = .admitted) (free : c.waitOn = none) (goesOn : c.stopping = false)
    (runs : d.hostRuns = true) (refused : recheck d c = some r) (opcode : eOpcode c.raw = op) (selected : sel c.raw = true) :
    withCmd id op sel k d = finish id r.1 r.2.1 r.2.2 d := by
  simp [withCmd, h, admitted, free, goesOn, runs, refused, opcode, selected]

/-! ### WRITE -/

/-- Atomic units whose host data has been asked for. -/
def readingUnits (us : List (Nat × Nat)) : List Piece := us.map fun u => { lba := u.1, len := u.2, st := .reading }

theorem readingUnits_ranges (us : List (Nat × Nat)) : (readingUnits us).map (fun p => (p.lba, p.len)) = us := by
  simp [readingUnits, Function.comp_def]

theorem commandUnits_startsCmd (d : Dev) (c : Ctx) (id : Nat) (raw : BitVec 512) :
    commandUnits (d.startsCmd c id) raw = commandUnits d raw := by
  simp only [commandUnits, startsCmd_vol?, startsCmd_arr?]

theorem bufferRead_keeps (f : Fn) (raw : BitVec 512) (sg : SegRead) (off len : Nat) (d : Dev) :
    bufferRead f raw sg off len d = { d with out := (bufferRead f raw sg off len d).out } :=
  foldl_invariant (fun e => e = { d with out := e.out }) _ (fun e p h => by rw [readData, h]; rfl) _ rfl

/-- A WRITE with its units listed, nothing asked of the host yet. -/
def writeUnits (c : Ctx) (d : Dev) : Dev := d.modCtx c.id fun x => { x with units := readingUnits (commandUnits d c.raw) }

/-- The requests to the host are all that follows. -/
theorem startWrite_keeps (c : Ctx) (d : Dev) : startWrite_ c d = { writeUnits c d with out := (startWrite_ c d).out } :=
  foldl_invariant (fun e => e = { writeUnits c d with out := e.out }) _ (fun e u h => by rw [bufferRead_keeps, h]) _ rfl

theorem ctx?_startWrite {c x : Ctx} {d : Dev} (h : d.ctx? c.id = some x) :
    (startWrite_ c d).ctx? c.id = some { x with units := readingUnits (commandUnits d c.raw) } := by
  rw [startWrite_keeps]
  exact ctx?_modCtx _ h fun _ => rfl

/-! ### COPY -/

theorem freeCopyChannel_startsCmd (d : Dev) (c : Ctx) (id : Nat) : freeCopyChannel (d.startsCmd c id) = freeCopyChannel d := by
  simp only [freeCopyChannel, startsCmd_chan]

theorem startCopy_noChannel {d : Dev} (c : Ctx) (h : freeCopyChannel d = none) :
    startCopy c d = d.modCtx c.id fun x => { x with phase := .admitted, keys := [] } := by
  simp only [startCopy, h]

/-- The command on copy channel `n`, with these units and no block of its source read. -/
def Ctx.onChannel (n : Nat) (us : List (Nat × Nat)) (x : Ctx) : Ctx :=
  { x with chan := some n, blocks := List.replicate (eNblk x.raw) .reading, units := readingUnits us }

/-- A COPY takes its channel (R390). -/
def takeChannel (n : Nat) (c : Ctx) (d : Dev) : Dev :=
  (d.setChan n { d.chan n with st := 2, ctx := some c.id }).modCtx c.id (Ctx.onChannel n (commandUnits d c.raw))

theorem startCopy_channel {d : Dev} {n : Nat} (c : Ctx) (h : freeCopyChannel d = some n) :
    startCopy c d =
      settle (copyProgress c.id ((List.range (eNblk c.raw)).foldl (fun e i => copyBlockAt c.id i e) (takeChannel n c d))) := by
  simp only [startCopy, h]
  rfl

theorem ctx?_takeChannel (n : Nat) {c x : Ctx} {d : Dev} (h : d.ctx? c.id = some x) :
    (takeChannel n c d).ctx? c.id = some (x.onChannel n (commandUnits d c.raw)) :=
  ctx?_modCtx (d := d.setChan n { d.chan n with st := 2, ctx := some c.id }) _ h fun _ => rfl

theorem takeChannel_chan (n : Nat) (c : Ctx) (d : Dev) : (takeChannel n c d).chan n = { d.chan n with st := 2, ctx := some c.id } :=
  chan_setChan d n _

/-! ### ABORT -/

section
variable {c : Ctx} {d : Dev}

theorem startAbort_nothing (h : abortTargets d c.fn (eWord c.raw 0 % 1024) (eWord c.raw 1 % 65536) = []) :
    startAbort c d = okWith c.id 1 d := by
  simp [startAbort, h]

theorem startAbort_completed {st : Nat} (h : abortTargets d c.fn (eWord c.raw 0 % 1024) (eWord c.raw 1 % 65536) = [(st, none)]) :
    startAbort c d = abortAnswer c.id st 2 d := by
  simp [startAbort, h]

section
variable {st : Nat} {t : Ctx} (h : abortTargets d c.fn (eWord c.raw 0 % 1024) (eWord c.raw 1 % 65536) = [(st, some t)])
include h

theorem startAbort_inFlight :
    startAbort c d =
      if t.phase = .ended ∨ (t.phase = .started ∧ isAdminOp (eOpcode t.raw) = true) then abortAnswer c.id st 2 d
      else if t.phase = .started then abortAnswer c.id st 0 (finish t.id 0x06 1 0 (dropWork t.id d))
      else abortAnswer c.id st 0 (finish t.id 0x06 0 0 d) := by
  simp [startAbort, h]

theorem startAbort_runsToItsEnd (past : t.phase = .ended ∨ (t.phase = .started ∧ isAdminOp (eOpcode t.raw) = true)) :
    startAbort c d = abortAnswer c.id st 2 d := by
  rw [startAbort_inFlight h, if_pos past]

theorem startAbort_started (started : t.phase = .started) (host : isAdminOp (eOpcode t.raw) = false) :
    startAbort c d = abortAnswer c.id st 0 (finish t.id 0x06 1 0 (dropWork t.id d)) := by
  simp [startAbort_inFlight h, started, host]

theorem startAbort_notStarted (notStarted : t.phase ≠ .started) (notEnded : t.phase ≠ .ended) :
    startAbort c d = abortAnswer c.id st 0 (finish t.id 0x06 0 0 d) := by
  simp [startAbort_inFlight h, notStarted, notEnded]

end
end

/-! ### QUERY -/

theorem answerQuery_busMaster {c : Ctx} {d : Dev} (result : Nat) (b : List Byte) (h : (d.fnS c.fn).busMaster = true) :
    answerQuery c result b d = okWith c.id result (bufferWrite c.fn c.raw c.segs 0 b d) :=
  if_pos h

theorem answerQuery_noBusMaster {c : Ctx} {d : Dev} (result : Nat) (b : List Byte) (h : (d.fnS c.fn).busMaster = false) :
    answerQuery c result b d = finish c.id 0x0E 0x03 0 d := by
  simp [answerQuery, h]

theorem startQueryVolume_volume {c : Ctx} {d : Dev} {v : Vol} (h : d.vol? (eVolume c.raw) = some v) :
    startQueryVolume c d = answerQuery c 64 (volumeRecordQuery d v) d := by
  simp only [startQueryVolume, h]

theorem mapGet_startsCmd (d : Dev) (c : Ctx) (id v lba : Nat) : mapGet (d.startsCmd c id) v lba = mapGet d v lba := by
  simp only [mapGet, startsCmd_vol?]

theorem darkMap_startsCmd (d : Dev) (c : Ctx) (id v lba n : Nat) : darkMap (d.startsCmd c id) v lba n = darkMap d v lba n := by
  simp only [darkMap, mapGet_startsCmd]

/-! ### The commands that may start -/

/-- Settles O17: the start (`withCmd_starts`), then each opcode's work in its case. -/
theorem hostCommandsStartTheirWork : Obligations.HostCommandsStartTheirWork := by
  refine ⟨?read, ?write, ?trim, ?zeroes, ?copyHeld, ?copy, ?flush, ?fence, ?abort, ?queryVolume, ?queryDark, ?refused, ?deleting⟩
  case read => intro s id c h; exact ⟨_, rfl, runs_of_cmdNext rfl h rfl rfl⟩
  case write =>
    intro s id c h
    have found := ctx?_startsCmd h.1
    obtain rfl := id_of_ctx? h.1
    have asked := ctx?_startWrite (c := s.dev.startedCtx c) found
    rw [commandUnits_startsCmd] at asked
    refine ⟨_, rfl, _, runs_of_cmdNext rfl h rfl rfl, ?_, ?_, ?_⟩
    · rw [startWrite_keeps, writeUnits, startsCmd_keeps]; rfl
    · exact congrArg (Option.map (·.phase)) asked
    · exact (congrArg (Option.map _) asked).trans (congrArg some (readingUnits_ranges _))
  case trim => intro s id c h; exact runs_of_cmdNext rfl h rfl rfl
  case zeroes => intro s id c h; exact runs_of_cmdNext rfl h rfl rfl
  case copyHeld =>
    intro s id c h noChannel
    have start := startCopy_noChannel (s.dev.startedCtx c) ((freeCopyChannel_startsCmd _ c id).trans noChannel)
    have run : exec (.copy id) s = _ := runs_of_cmdNext rfl h rfl start
    obtain ⟨held, -, -, -, opcode, -⟩ := h
    have found := ctx?_startsCmd held
    obtain rfl := id_of_ctx? held
    refine ⟨_, run, ?_, ?_⟩
    · rw [Dev.startsCmd, inTurn_of_unshared (by rw [opcode]; decide) (by rw [opcode]; decide)]; rfl
    · exact congrArg (Option.map (·.phase)) (ctx?_modCtx (fun x => { x with phase := .admitted, keys := [] }) found fun _ => rfl)
  case copy =>
    intro s id c n h free
    have start := startCopy_channel (s.dev.startedCtx c) ((freeCopyChannel_startsCmd _ c id).trans free)
    have taken := takeChannel_chan n (s.dev.startedCtx c) (s.dev.startsCmd c id)
    have found := ctx?_startsCmd h.1
    obtain rfl := id_of_ctx? h.1
    exact ⟨_, congrArg Chan.st taken, congrArg Chan.ctx taken, congrArg (Option.map (·.chan)) (ctx?_takeChannel n found),
      runs_of_cmdNext rfl h rfl start⟩
  case flush => intro s id c h; exact runs_of_cmdNext rfl h rfl rfl
  case fence => intro s id c h; exact runs_of_cmdNext rfl h rfl rfl
  case abort =>
    rintro s id c e l h rfl rfl
    refine ⟨fun nothing => runs_of_cmdNext rfl h rfl (startAbort_nothing nothing),
      fun st completed => runs_of_cmdNext rfl h rfl (startAbort_completed completed), fun st t target => ⟨?_, ?_, ?_⟩⟩
    · exact fun past => runs_of_cmdNext rfl h rfl (startAbort_runsToItsEnd target past)
    · exact fun started host => runs_of_cmdNext rfl h rfl (startAbort_started target started host)
    · exact fun notStarted notEnded => runs_of_cmdNext rfl h rfl (startAbort_notStarted target notStarted notEnded)
  case queryVolume =>
    intro s id c v h code volume
    have start := startQueryVolume_volume (c := s.dev.startedCtx c) ((startsCmd_vol? _ c id _).trans volume)
    have selected : (eWord c.raw 0 % 256 == 0) = true := by simp [code]
    have master := congrArg FnState.busMaster (startsCmd_fnS s.dev c id c.fn)
    exact ⟨fun on => runs_of_cmdNext rfl h selected (start.trans (answerQuery_busMaster _ _ (master.trans on))),
      fun off => runs_of_cmdNext rfl h selected (start.trans (answerQuery_noBusMaster _ _ (master.trans off)))⟩
  case queryDark =>
    intro s id c h code on
    have selected : (eWord c.raw 0 % 256 == 1) = true := by simp [code]
    have master := congrArg FnState.busMaster (startsCmd_fnS s.dev c id c.fn)
    refine runs_of_cmdNext rfl h selected ((answerQuery_busMaster _ _ (master.trans on)).trans ?_)
    simp only [mapGet_startsCmd, darkMap_startsCmd]
    rfl
  case refused =>
    intro s id c r h admitted free goesOn runs refused
    have ends (op : Nat) (k : Ctx → Dev → Dev) (opcode : eOpcode c.raw = op) :
        withCmd id op (fun _ => true) k s.dev = finish id r.1 r.2.1 r.2.2 s.dev :=
      withCmd_refused k h admitted free goesOn runs refused opcode rfl
    exact ⟨fun o => runs_of_onDev rfl (ends _ _ o), fun o => runs_of_onDev rfl (ends _ _ o), fun o => runs_of_onDev rfl (ends _ _ o),
      fun o => runs_of_onDev rfl (ends _ _ o), fun o => runs_of_onDev rfl (ends _ _ o)⟩
  case deleting => exact fun s c h => recheck_deleting h

end Sys2Proof.Machine
end

section
/-!
SUPPORT. Idle steps (log entry 1): what the front-ends do by themselves (R317, R320), what each part of a microsecond changes and
leaves, device time and its seconds (R449, R473), and O49.
-/

namespace Sys2Proof.Machine

/-! ### What is sent -/

/-- Outputs that front-ends do not send. -/
def notFrontEnd : Out → Bool
  | .feUp .. | .feWrite .. => false
  | _ => true

/-- R473: this many pulses of SB_PPS. -/
def ppsPulses (k : Nat) : List Out := (List.replicate k [Out.pin "SB_PPS" true, Out.pin "SB_PPS" false]).flatten

/-- From `d` to `e` SB_PPS pulses `k` times, and only front-ends send besides. -/
def Dev.Pulses (d e : Dev) (k : Nat) : Prop := ∃ l, e.out = d.out ++ l ∧ l.filter notFrontEnd = ppsPulses k

theorem Dev.Pulses.of_out_eq {d e : Dev} (h : e.out = d.out) : d.Pulses e 0 := ⟨[], by rw [h, List.append_nil], rfl⟩

theorem Dev.Pulses.trans {d m e : Dev} {j k : Nat} (f : d.Pulses m j) (g : m.Pulses e k) : d.Pulses e (j + k) := by
  obtain ⟨a, sentA, pulsesA⟩ := f
  obtain ⟨b, sentB, pulsesB⟩ := g
  refine ⟨a ++ b, by rw [sentB, sentA, List.append_assoc], ?_⟩
  rw [List.filter_append, pulsesA, pulsesB, ppsPulses, ppsPulses, ppsPulses, ← List.flatten_append, List.replicate_append_replicate]

/-! ### What a front-end keeps without a command -/

/-- Commands alone move heads, turn spindles, set clocks, open write gates and change owners; no sample is taken while the heads are
not loaded (R317). -/
structure FrontEnd.Idles (x y : FrontEnd) : Prop where
  loaded : y.loaded = x.loaded
  head : y.head = x.head
  rpm : y.rpm = x.rpm
  eMax : y.eMax = x.eMax
  owner : y.ownerLink = x.ownerLink
  clock : y.clockKhz = x.clockKhz
  gate : x.gate = false → y.gate = false
  samples : x.loaded = false → y.samples = x.samples

theorem FrontEnd.Idles.refl (x : FrontEnd) : x.Idles x := ⟨rfl, rfl, rfl, rfl, rfl, rfl, id, fun _ => rfl⟩

theorem FrontEnd.Idles.trans {x y z : FrontEnd} (f : x.Idles y) (g : y.Idles z) : x.Idles z :=
  ⟨g.loaded.trans f.loaded, g.head.trans f.head, g.rpm.trans f.rpm, g.eMax.trans f.eMax, g.owner.trans f.owner,
    g.clock.trans f.clock, fun off => g.gate (f.gate off),
    fun parked => (g.samples (f.loaded.trans parked)).trans (f.samples parked)⟩

/-- The device `d` with the front-ends, the outputs and the draws of `e`. -/
def Dev.withFrontEnds (d e : Dev) : Dev := { d with ls := { d.ls with fe := e.ls.fe }, out := e.out, fresh := e.fresh }

/-- From `d` to `e` front-ends alone have worked, and none has carried out a command. -/
structure FrontEndsWork (d e : Dev) : Prop where
  frame : e = d.withFrontEnds e
  sent : d.Pulses e 0
  fe : ∀ c, (d.fe c).Idles (e.fe c)

namespace FrontEndsWork

theorem refl (d : Dev) : FrontEndsWork d d := ⟨rfl, .of_out_eq rfl, fun _ => .refl _⟩

theorem trans {d m e : Dev} (f : FrontEndsWork d m) (g : FrontEndsWork m e) : FrontEndsWork d e where
  frame := g.frame.trans (congrArg (·.withFrontEnds e) f.frame)
  sent := f.sent.trans g.sent
  fe c := (f.fe c).trans (g.fe c)

theorem draw (d : Dev) : FrontEndsWork d d.draw := ⟨rfl, .of_out_eq rfl, fun _ => .refl _⟩

theorem emit (d : Dev) {o : Out} (h : notFrontEnd o = false) : FrontEndsWork d (emit o d) where
  frame := rfl
  sent := ⟨[o], rfl, List.filter_cons_of_neg (by simp [h])⟩
  fe _ := .refl _

theorem setFe {d : Dev} {n : Nat} {x : FrontEnd} (h : (d.fe n).Idles x) : FrontEndsWork d (d.setFe n x) where
  frame := rfl
  sent := .of_out_eq rfl
  fe c := by
    by_cases same : c = n
    · rw [same, fe_setFe]; exact h
    · rw [fe_setFe_other d x same]; exact .refl _

theorem foldl {β : Type} {g : Dev → β → Dev} (h : ∀ d b, FrontEndsWork d (g d b)) (l : List β) (d : Dev) :
    FrontEndsWork d (l.foldl g d) :=
  foldl_invariant (FrontEndsWork d) g (fun m b f => f.trans (h m b)) l (refl d)

end FrontEndsWork

/-! ### The work of a front-end: frames, HEALTH, the end of a write, samples -/

section
variable (n : Nat) (d : Dev)

theorem feFrameOn_works (epoch : Nat) (blocks : List UpBlock) (link : Nat) :
    FrontEndsWork d (feFrameOn n epoch blocks d link) := by
  refine .trans ?counted (.emit _ rfl)
  exact .setFe ⟨rfl, rfl, rfl, rfl, rfl, rfl, id, fun _ => rfl⟩

theorem feFrame_works (blocks : List UpBlock) : FrontEndsWork d (feFrame n blocks d) := by
  have drawn : FrontEndsWork d (if (d.fe n).eMax.isNone then d.draw else d) := by
    split
    · exact .draw d
    · exact .refl d
  exact (drawn.trans (.foldl (fun m link => feFrameOn_works n m _ blocks link) [0, 1] _)).trans
    (.setFe ⟨rfl, rfl, rfl, rfl, rfl, rfl, id, fun _ => rfl⟩)

theorem feUp_works (b : UpBlock) : FrontEndsWork d (feUp n b d) := feFrame_works n d [b]

theorem feAck_works (tag result : Nat) : FrontEndsWork d (feAck n tag result d) := feUp_works n d _

theorem feHealth_works : FrontEndsWork d (feHealth n d) :=
  ((((FrontEndsWork.draw d).trans (.draw _)).trans (.draw _)).trans (.draw _)).trans (feUp_works n _ _)

theorem feShow_works {d e : Dev} (h : FrontEndsWork d e) : FrontEndsWork d (feShow n d e) := by
  unfold feShow
  split
  · exact h
  · exact h.trans (feHealth_works n e)

theorem onChan_works {k : Dev → Dev} (h : FrontEndsWork d (k d)) : FrontEndsWork d (onChan n k d) := by
  unfold onChan
  split
  · exact feShow_works n h
  · exact .refl d

theorem feDrive_works (whole : Bool) : FrontEndsWork d (feDrive whole n d) := by
  unfold feDrive
  extract_lets x driven
  split
  · exact .refl d
  · exact .emit d rfl

theorem feGateOff_works (result : Nat) : FrontEndsWork d (feGateOff n result d) := by
  have closed : FrontEndsWork d (d.setFe n { d.fe n with gate := false, writeTag := none, data := [] }) :=
    .setFe ⟨rfl, rfl, rfl, rfl, rfl, rfl, fun _ => rfl, fun _ => rfl⟩
  unfold feGateOff
  dsimp only
  split
  · exact closed.trans (feAck_works n _ _ result)
  · exact closed

/-- For any front-end: the kernel then need not run the drive that the latch follows. -/
theorem FrontEnd.idles_faulted (x : FrontEnd) : x.Idles { x with faulted := true } :=
  ⟨rfl, rfl, rfl, rfl, rfl, rfl, id, fun _ => rfl⟩

theorem feWriteFault_works (cause : Nat) : FrontEndsWork d (feWriteFault n cause d) := by
  unfold feWriteFault
  split
  · have latched := (feDrive_works n d false).trans (.setFe (n := n) (FrontEnd.idles_faulted _))
    exact ((latched.trans (.draw _)).trans (feUp_works n _ _)).trans (feGateOff_works n _ _)
  · exact .refl d

theorem writeEnds_underrun (writing : (d.fe n).gate = true) : writeEnds n .underrun d = feWriteFault n 1 d := if_pos writing

theorem feSamples_works (count : Nat) (blocks : List UpBlock) : FrontEndsWork d (feSamples n count blocks d) :=
  .foldl (fun m _ => feFrame_works n m _) _ d

/-- The part of a front-end's microsecond that takes samples and sends them (R317). -/
def feTake (us : Nat) : Dev :=
  let x := d.fe n
  if x.loaded then
    let new := samplesIn x.clockKhz us
    let start := (x.samples + 2 ^ 44 - x.unsent) % 2 ^ 44
    feSamples n start (sampleBlocks n x start ((x.unsent + new) / 10))
      (d.setFe n { x with samples := (x.samples + new) % 2 ^ 44, unsent := (x.unsent + new) % 10 })
  else d

/-- The part in which a head switch has settled (R319). -/
def feSettle : Dev := d.setFe n { d.fe n with switched := false }

/-- R320: bits of an open write are due that have not come. -/
def FrontEnd.late (x : FrontEnd) : Bool := x.gate && x.due.any fun due => decide (x.data.length ≤ due)

theorem feTick_eq (us : Nat) :
    feTick us d n =
      if ((feTake n d us).fe n).late then onChan n (writeEnds n .underrun) (feSettle n (feTake n d us))
      else feSettle n (feTake n d us) := rfl

theorem feTake_works (us : Nat) : FrontEndsWork d (feTake n d us) := by
  unfold feTake
  extract_lets x new start
  split
  next loaded =>
    refine .trans ?counted (feSamples_works n _ _ _)
    exact .setFe ⟨rfl, rfl, rfl, rfl, rfl, rfl, id, fun parked => absurd (loaded.symm.trans parked) Bool.noConfusion⟩
  next => exact .refl d

theorem feSettle_works : FrontEndsWork d (feSettle n d) := .setFe ⟨rfl, rfl, rfl, rfl, rfl, rfl, id, fun _ => rfl⟩

theorem feTick_works (us : Nat) : FrontEndsWork d (feTick us d n) := by
  have settled := (feTake_works n d us).trans (feSettle_works n _)
  rw [feTick_eq]
  split
  next late =>
    have writing : ((feSettle n (feTake n d us)).fe n).gate = true := by
      rw [feSettle, fe_setFe]
      exact (Bool.and_eq_true_iff.mp late).1
    refine settled.trans (onChan_works n _ ?underrun)
    rw [writeEnds_underrun n _ writing]
    exact feWriteFault_works n _ 1
  next => exact settled

theorem tickFe_works : FrontEndsWork d (tickFe d) := .foldl (fun m c => feTick_works c m _) _ d

end

/-! ### What an idle device keeps -/

/-- The device `d` with what idling changes taken from `e`. -/
def Dev.withIdling (d e : Dev) : Dev :=
  { d with tm := e.tm, tenants := e.tenants, ls := { d.ls with fe := e.ls.fe }, vals := e.vals, fns := e.fns, out := e.out
           fresh := e.fresh }

/-- From `d` to `e` the device idles, and SB_PPS pulses `k` times. -/
structure DeviceIdles (d e : Dev) (k : Nat) : Prop where
  frame : e = d.withIdling e
  vals : ∀ f i, valKey f i ≠ valKey Fam.lifeHours 0 → valKey f i ≠ valKey Fam.fwActivationState 0 → e.val f i = d.val f i
  pulses : d.Pulses e k
  fe : ∀ c, (d.fe c).Idles (e.fe c)
  ten : ∀ t, (e.ten t).blocksWritten = (d.ten t).blocksWritten ∧ (e.ten t).quota = (d.ten t).quota
  eclipse : d.inMode .eclipse = true → e.tenants = d.tenants

namespace DeviceIdles

variable {d m e : Dev} {j k : Nat}

theorem pw_eq (f : DeviceIdles d e k) : e.pw = d.pw := by rw [f.frame]; rfl

theorem trans (f : DeviceIdles d m j) (g : DeviceIdles m e k) : DeviceIdles d e (j + k) where
  frame := g.frame.trans (congrArg (·.withIdling e) f.frame)
  vals fam i hours activation := (g.vals fam i hours activation).trans (f.vals fam i hours activation)
  pulses := f.pulses.trans g.pulses
  fe c := (f.fe c).trans (g.fe c)
  ten t := ⟨(g.ten t).1.trans (f.ten t).1, (g.ten t).2.trans (f.ten t).2⟩
  eclipse dark := by
    have darkThen : m.inMode .eclipse = true := by rwa [Dev.inMode, f.pw_eq]
    exact (g.eclipse darkThen).trans (f.eclipse dark)

theorem of_frontEndsWork (f : FrontEndsWork d e) : DeviceIdles d e 0 where
  frame := by rw [f.frame]; rfl
  vals fam i _ _ := by rw [f.frame]; rfl
  pulses := f.sent
  fe := f.fe
  ten t := by rw [f.frame]; exact ⟨rfl, rfl⟩
  eclipse _ := by rw [f.frame]; rfl

/-- A part of an idle step that touches time, objects, functions and draws alone. -/
theorem of_quiet (frame : e = { d with tm := e.tm, vals := e.vals, fns := e.fns, fresh := e.fresh })
    (vals : ∀ f i, valKey f i ≠ valKey Fam.lifeHours 0 → valKey f i ≠ valKey Fam.fwActivationState 0 →
      e.val f i = d.val f i) :
    DeviceIdles d e 0 where
  frame := by rw [frame]; rfl
  vals := vals
  pulses := .of_out_eq (by rw [frame])
  fe c := by rw [frame]; exact .refl _
  ten t := by rw [frame]; exact ⟨rfl, rfl⟩
  eclipse _ := by rw [frame]

theorem refl (d : Dev) : DeviceIdles d d 0 := of_quiet rfl fun _ _ _ _ => rfl

end DeviceIdles

/-! ### The parts of a microsecond -/

/-- From `d` to `e` busy time alone is counted (R151). -/
structure CountsBusy (d e : Dev) : Prop where
  frame : e = { d with tenants := e.tenants }
  ten : ∀ t, (e.ten t).blocksWritten = (d.ten t).blocksWritten ∧ (e.ten t).quota = (d.ten t).quota

theorem CountsBusy.refl (d : Dev) : CountsBusy d d := ⟨rfl, fun _ => ⟨rfl, rfl⟩⟩

theorem CountsBusy.count {d m : Dev} (h : CountsBusy d m) (u busy : Nat) :
    CountsBusy d (m.setTen u { m.ten u with busyUs := busy }) where
  frame := by rw [h.frame]; rfl
  ten t := by
    by_cases same : t = u
    · rw [same, ten_setTen]; exact h.ten u
    · rw [ten_setTen_other m _ same]; exact h.ten t

theorem tickBusy_counts (d : Dev) : CountsBusy d (tickBusy d) := by
  unfold tickBusy
  split
  · exact .refl d
  · exact foldl_invariant (CountsBusy d) _ (fun m t h => h.count t _) _ (.refl d)

theorem tickBusy_eclipse {d : Dev} (dark : d.inMode .eclipse = true) : tickBusy d = d := if_pos dark

theorem tickBusy_idles (d : Dev) : DeviceIdles d (tickBusy d) 0 := by
  obtain ⟨frame, ten⟩ := tickBusy_counts d
  refine { frame := ?_, vals := fun f i _ _ => ?_, pulses := .of_out_eq ?_, fe := fun c => ?_, ten, eclipse := fun dark => ?_ }
  · rw [frame]; rfl
  · rw [frame]; rfl
  · rw [frame]
  · rw [frame]; exact .refl _
  · rw [tickBusy_eclipse dark]

theorem tickFlr_idles (d : Dev) : DeviceIdles d (tickFlr d) 0 := .of_quiet rfl fun _ _ _ _ => rfl

theorem tickActivation_idles (d : Dev) : DeviceIdles d (tickActivation d) 0 := by
  unfold tickActivation
  split
  · exact .of_quiet rfl fun f i _ activation => val_setVal_other d 3 activation
  · exact .refl d

theorem tickHours_idles (d : Dev) : DeviceIdles d (tickHours d) 0 := by
  unfold tickHours
  split
  · refine .of_quiet ?frame fun f i hours _ => val_addVal_other d 1 hours
    rcases addVal_cases d Fam.lifeHours 0 1 with ⟨-, e⟩ | ⟨-, e⟩ <;> rw [Dev.bump, e] <;> rfl
  · exact .refl d

/-- R473: the pulses of SB_PPS that this microsecond brings. -/
def secondMarks (tm : TimeState) : Nat := if tm.device / 1000000000 = (tickTime tm).device / 1000000000 then 0 else 1

theorem tickPps_idles (d : Dev) : DeviceIdles d (tickPps d) (secondMarks d.tm) := by
  unfold tickPps secondMarks
  split
  · exact .refl d
  · exact { frame := rfl, vals := fun _ _ _ _ => rfl, pulses := ⟨[.pin "SB_PPS" true, .pin "SB_PPS" false], by simp, rfl⟩
            fe := fun _ => .refl _, ten := fun _ => ⟨rfl, rfl⟩, eclipse := fun _ => rfl }

/-! ### What the parts of a microsecond leave alone -/

theorem FrontEndsWork.tm_eq {d e : Dev} (h : FrontEndsWork d e) : e.tm = d.tm := by rw [h.frame]; rfl
theorem FrontEndsWork.fns_eq {d e : Dev} (h : FrontEndsWork d e) : e.fns = d.fns := by rw [h.frame]; rfl
theorem FrontEndsWork.vals_eq {d e : Dev} (h : FrontEndsWork d e) : e.vals = d.vals := by rw [h.frame]; rfl

theorem CountsBusy.tm_eq {d e : Dev} (h : CountsBusy d e) : e.tm = d.tm := by rw [h.frame]
theorem CountsBusy.fns_eq {d e : Dev} (h : CountsBusy d e) : e.fns = d.fns := by rw [h.frame]
theorem CountsBusy.vals_eq {d e : Dev} (h : CountsBusy d e) : e.vals = d.vals := by rw [h.frame]

section
variable (d : Dev)

@[simp] theorem tickBusy_tm : (tickBusy d).tm = d.tm := (tickBusy_counts d).tm_eq
@[simp] theorem tickBusy_fns : (tickBusy d).fns = d.fns := (tickBusy_counts d).fns_eq
@[simp] theorem tickBusy_vals : (tickBusy d).vals = d.vals := (tickBusy_counts d).vals_eq
@[simp] theorem tickFe_tm : (tickFe d).tm = d.tm := (tickFe_works d).tm_eq
@[simp] theorem tickFe_fns : (tickFe d).fns = d.fns := (tickFe_works d).fns_eq
@[simp] theorem tickFe_vals : (tickFe d).vals = d.vals := (tickFe_works d).vals_eq
@[simp] theorem tickFlr_tm : (tickFlr d).tm = d.tm := rfl
@[simp] theorem tickFlr_vals : (tickFlr d).vals = d.vals := rfl
@[simp] theorem tickActivation_tm : (tickActivation d).tm = d.tm := by unfold tickActivation; split <;> rfl
@[simp] theorem tickActivation_fns : (tickActivation d).fns = d.fns := by unfold tickActivation; split <;> rfl
@[simp] theorem tickHours_tm : (tickHours d).tm = d.tm := by unfold tickHours; split <;> simp
@[simp] theorem tickHours_fns : (tickHours d).fns = d.fns := by unfold tickHours; split <;> simp
@[simp] theorem tickPps_tm : (tickPps d).tm = d.tm := by unfold tickPps; split <;> rfl
@[simp] theorem tickPps_fns : (tickPps d).fns = d.fns := by unfold tickPps; split <;> rfl
@[simp] theorem tickPps_vals : (tickPps d).vals = d.vals := by unfold tickPps; split <;> rfl

end

/-! ### Function resets and activation -/

theorem tget_of_not_mem_tkeys {α : Type} {t : Tbl α} {k : Nat} (d : α) (h : k ∉ tkeys t) : tget t k d = d := by
  induction t with
  | nil => rfl
  | cons e r ih =>
    obtain ⟨a, v⟩ := e
    obtain ⟨other, rest⟩ : k ≠ a ∧ k ∉ tkeys r := by simpa [tkeys] using h
    rw [tget, if_neg other.symm, ih rest]

/-- Entries are changed one key after the other; `g` may meet a key twice. -/
theorem tget_foldl_tset {α : Type} [DecidableEq α] {g : α → α} (idem : ∀ x, g (g x) = g x) (d : α) (l : List Nat)
    (t : Tbl α) (k : Nat) :
    tget (l.foldl (fun t i => tset t i (g (tget t i d)) d) t) k d = if k ∈ l then g (tget t k d) else tget t k d := by
  induction l generalizing t with
  | nil => rfl
  | cons i r ih =>
    rw [List.foldl_cons, ih, tget_tset]
    by_cases here : k = i <;> by_cases later : k ∈ r <;> simp [here, later, idem]

/-- R64: without its function-level reset in progress. -/
def FnState.endFlr (x : FnState) : FnState := { x with inFlr := false }

theorem tickFlr_fnS (d : Dev) (f : Fn) : (tickFlr d).fnS f = (d.fnS f).endFlr := by
  have ended : (tickFlr d).fnS f = if packFn f ∈ tkeys d.fns then (d.fnS f).endFlr else d.fnS f :=
    tget_foldl_tset (g := FnState.endFlr) (fun _ => rfl) FnState.absent (tkeys d.fns) d.fns (packFn f)
  rw [ended]
  split
  next => rfl
  next unknown =>
    have absent : d.fnS f = FnState.absent := tget_of_not_mem_tkeys _ unknown
    rw [absent]; rfl

/-- Table 4.10, step 5: the state of an activation a microsecond later. -/
def activationAfter (v : Nat) : Nat := if v = 2 then 3 else v

theorem activationAfter_activationAfter (v : Nat) : activationAfter (activationAfter v) = activationAfter v := by
  by_cases h : v = 2 <;> simp [activationAfter, h]

theorem tickActivation_val (d : Dev) :
    (tickActivation d).val Fam.fwActivationState = activationAfter (d.val Fam.fwActivationState) := by
  unfold tickActivation activationAfter
  split
  · exact val_setVal d _ _ _
  · rfl

theorem tickHours_activation (d : Dev) : (tickHours d).val Fam.fwActivationState = d.val Fam.fwActivationState := by
  unfold tickHours
  split
  · exact val_addVal_other d 1 (by decide)
  · rfl

/-! ### Device time -/

@[simp] theorem tickTime_now (tm : TimeState) : (tickTime tm).now = tm.now + 1000 := rfl

theorem slewStep_of_slew_eq_zero {tm : TimeState} (h : tm.slew = 0) : slewStep tm = 0 := by simp [slewStep, h]

theorem tickTime_slew {tm : TimeState} (h : tm.slew = 0) : (tickTime tm).slew = 0 := by
  simp [tickTime, slewStep_of_slew_eq_zero h, h]

theorem tickTime_device {tm : TimeState} (h : tm.slew = 0) (fits : tm.device + 1000 < 2 ^ 64) :
    (tickTime tm).device = tm.device + 1000 := by
  have advanced : (tickTime tm).device = ((tm.device : Int) + 1000 + slewStep tm).toNat % 2 ^ 64 := rfl
  rw [advanced, slewStep_of_slew_eq_zero h]
  omega

/-- R473: the pulses of SB_PPS that `n` microseconds bring. -/
def secondsIn : Nat → TimeState → Nat
  | 0, _ => 0
  | n + 1, tm => secondMarks tm + secondsIn n (tickTime tm)

theorem iterate_tickTime_now (n : Nat) (tm : TimeState) : (tickTime^[n] tm).now = tm.now + 1000 * n := by
  induction n generalizing tm with
  | zero => rfl
  | succ n ih => rw [Function.iterate_succ_apply, ih, tickTime_now]; omega

theorem iterate_tickTime_device (n : Nat) {tm : TimeState} (h : tm.slew = 0) (fits : tm.device + 1000 * n < 2 ^ 64) :
    (tickTime^[n] tm).device = tm.device + 1000 * n := by
  induction n generalizing tm with
  | zero => rfl
  | succ n ih =>
    have next := tickTime_device h (Nat.lt_of_le_of_lt (by omega) fits)
    rw [Function.iterate_succ_apply, ih (tickTime_slew h) (by omega), next]
    omega

theorem secondsIn_eq (n : Nat) {tm : TimeState} (h : tm.slew = 0) (fits : tm.device + 1000 * n < 2 ^ 64) :
    secondsIn n tm = (tm.device + 1000 * n) / 1000000000 - tm.device / 1000000000 := by
  induction n generalizing tm with
  | zero => simp [secondsIn]
  | succ n ih =>
    have next := tickTime_device h (Nat.lt_of_le_of_lt (by omega) fits)
    rw [secondsIn, ih (tickTime_slew h) (by omega), secondMarks, next]
    split <;> omega

/-! ### One microsecond -/

section
variable {d : Dev} (running : d.periscope = true)
include running

theorem tick_running :
    tick d = { tickPps (tickHours (tickActivation (tickFlr (tickFe (tickBusy d))))) with tm := tickTime d.tm } := by
  simp [tick, running]

theorem tick_tm : (tick d).tm = tickTime d.tm := by rw [tick_running running]

theorem tick_fnS (f : Fn) : (tick d).fnS f = (d.fnS f).endFlr := by
  have fns : (tick d).fns = (tickFlr (tickFe (tickBusy d))).fns := by simp [tick_running running]
  calc (tick d).fnS f = (tickFlr (tickFe (tickBusy d))).fnS f := by rw [Dev.fnS, fns]; rfl
    _ = ((tickFe (tickBusy d)).fnS f).endFlr := tickFlr_fnS _ f
    _ = (d.fnS f).endFlr := by simp [Dev.fnS]

theorem tick_activation : (tick d).val Fam.fwActivationState = activationAfter (d.val Fam.fwActivationState) := by
  have vals : (tick d).vals = (tickHours (tickActivation (tickFlr (tickFe (tickBusy d))))).vals := by simp [tick_running running]
  calc (tick d).val Fam.fwActivationState
      = (tickHours (tickActivation (tickFlr (tickFe (tickBusy d))))).val Fam.fwActivationState := by rw [Dev.val, vals]; rfl
    _ = activationAfter ((tickFlr (tickFe (tickBusy d))).val Fam.fwActivationState) := by
      rw [tickHours_activation, tickActivation_val]
    _ = activationAfter (d.val Fam.fwActivationState) := by simp [Dev.val]

theorem tick_idles : DeviceIdles d (tick d) (secondMarks d.tm) := by
  have work := (tickBusy_idles d).trans (.of_frontEndsWork (tickFe_works _))
  have states := ((work.trans (tickFlr_idles _)).trans (tickActivation_idles _)).trans (tickHours_idles _)
  have timed := (states.trans (tickPps_idles _)).trans
    (.of_quiet (e := tick d) (by rw [tick_running running]) fun f i _ _ => by rw [tick_running running]; rfl)
  simpa using timed

theorem tick_periscope : (tick d).periscope = true := by rwa [Dev.periscope, (tick_idles running).pw_eq]

end

theorem tick_stopped {d : Dev} (stopped : d.periscope = false) : tick d = d := by simp [tick, stopped]

/-! ### Runs on an empty queue -/

theorem runSteps_idle (n : Nat) (d : Dev) :
    runSteps n { pending := [], dev := d } = .next { pending := [], dev := idleFor n d } := by
  induction n generalizing d with
  | zero => rfl
  | succ n ih => rw [runSteps, step_nil rfl, idleFor]; exact ih _

theorem idleFor_stopped (n : Nat) {d : Dev} (stopped : d.periscope = false) : idleFor n d = d := by
  induction n with
  | zero => rfl
  | succ n ih => rw [idleFor, tick_stopped stopped, ih]

section
variable {d : Dev} (running : d.periscope = true)
include running

theorem idleFor_tm (n : Nat) : (idleFor n d).tm = tickTime^[n] d.tm := by
  induction n generalizing d with
  | zero => rfl
  | succ n ih => rw [idleFor, ih (tick_periscope running), tick_tm running, Function.iterate_succ_apply]

theorem idleFor_idles (n : Nat) : DeviceIdles d (idleFor n d) (secondsIn n d.tm) := by
  induction n generalizing d with
  | zero => exact .refl d
  | succ n ih =>
    have later := ih (tick_periscope running)
    rw [tick_tm running] at later
    exact (tick_idles running).trans later

/-- What one microsecond settles stays so. -/
theorem idleFor_settles {γ : Type} {p : Dev → γ} {g : γ → γ} (idem : ∀ x, g (g x) = g x)
    (settles : ∀ {d : Dev}, d.periscope = true → p (tick d) = g (p d)) {n : Nat} (pos : 0 < n) : p (idleFor n d) = g (p d) := by
  induction n, pos using Nat.le_induction generalizing d with
  | base => exact settles running
  | succ n _ ih => rw [idleFor, ih (tick_periscope running), settles running, idem]

theorem idleFor_fnS {n : Nat} (pos : 0 < n) (f : Fn) : (idleFor n d).fnS f = (d.fnS f).endFlr :=
  idleFor_settles running (p := fun d => d.fnS f) (g := FnState.endFlr) (fun _ => rfl) (fun h => tick_fnS h f) pos

theorem idleFor_activation (n : Nat) :
    (idleFor n d).val Fam.fwActivationState
      = if 0 < n ∧ d.val Fam.fwActivationState = 2 then 3 else d.val Fam.fwActivationState := by
  rcases Nat.eq_zero_or_pos n with rfl | pos
  · simp [idleFor]
  · have settled := idleFor_settles running (p := fun d => d.val Fam.fwActivationState) activationAfter_activationAfter
      (fun h => tick_activation h) pos
    simpa [activationAfter, pos] using settled

end

/-- Settles O49: `n` microseconds follow one microsecond by induction, for time, functions, activation and all the rest. -/
theorem idleStepsLetTimePass : Obligations.IdleStepsLetTimePass := by
  refine ⟨fun n d running => ?runs, fun n d stopped => by rw [runSteps_idle, idleFor_stopped n stopped]⟩
  have idles := idleFor_idles running n
  have time := idleFor_tm running n
  obtain ⟨sent, out, pulses⟩ := idles.pulses
  refine ⟨idleFor n d, runSteps_idle n d, rfl, ?now, idles.frame, idles.vals, idleFor_activation running n,
    fun f pos => idleFor_fnS running pos f, idles.eclipse,
    ⟨secondsIn n d.tm, sent, out, pulses, fun steady fits => secondsIn_eq n steady fits⟩, ?frontEnds, idles.ten, ?device⟩
  case now => rw [time, iterate_tickTime_now]
  case frontEnds =>
    intro c
    obtain ⟨loaded, head, rpm, eMax, owner, clock, gate, samples⟩ := idles.fe c
    exact ⟨loaded, head, rpm, eMax, owner, clock, gate, samples⟩
  case device => exact fun steady fits => by rw [time, iterate_tickTime_device n steady fits]

end Sys2Proof.Machine
end

section
/-!
SUPPORT. The geometry of a beam (R164 to R168, R177): facets turn with the beam number, slots lie in facets, the layout of the data
area, and O55.
-/

namespace Sys2Proof.Machine

/-! ### Facets and slots (R166) -/

/-- Turning by `b` and back by `b` is a whole turn. -/
theorem add_mod_add_sub_mod {w j : Nat} (b : Nat) (h : j < w) : ((b + j) % w + (w - b % w)) % w = j := by
  have turn : b % w < w := Nat.mod_lt b (by omega)
  calc ((b + j) % w + (w - b % w)) % w
      _ = (b % w + j + (w - b % w)) % w := by rw [Nat.mod_add_mod, Nat.add_assoc, Nat.add_assoc, Nat.mod_add_mod]
      _ = (j + w) % w := by rw [show b % w + j + (w - b % w) = j + w by omega]
      _ = j := by rw [Nat.add_mod_right, Nat.mod_eq_of_lt h]

section
variable {g : Geom} {j : Nat} (b : Nat) (h : j < g.width)
include h

theorem Geom.slotOf_lt : g.slotOf b j < g.width := Nat.mod_lt _ (by omega)

theorem Geom.facetOn_slotOf : g.facetOn b (g.slotOf b j) = j := add_mod_add_sub_mod b h

theorem Geom.slotOf_facetOn : g.slotOf b (g.facetOn b j) = j := by
  have back : (b + (j + (g.width - b % g.width))) % g.width = ((b + j) % g.width + (g.width - b % g.width)) % g.width := by
    rw [Nat.mod_add_mod, Nat.add_assoc]
  rw [Geom.slotOf, Geom.facetOn, Nat.add_mod_mod, back, add_mod_add_sub_mod b h]

end

/-! ### Places of the data area (R168) -/

theorem Geom.place_facet_lt {g : Geom} {shift s : Nat} (h : s < g.slots shift) : (Geom.place shift s).1 < g.dataFacets :=
  Nat.div_lt_of_lt_mul (by rwa [Nat.mul_comm])

/-- A slot ends within its facet. -/
theorem Geom.place_offset_le {shift : Nat} (s : Nat) (h : 12 ≤ shift) : (Geom.place shift s).2 + 4096 ≤ 2 ^ shift := by
  have facet : 2 ^ shift = 2 ^ (shift - 12) * 4096 := by rw [← Nat.pow_sub_mul_pow 2 h]
  have inFacet : s % 2 ^ (shift - 12) < 2 ^ (shift - 12) := Nat.mod_lt s (Nat.two_pow_pos _)
  dsimp only [Geom.place]
  omega

theorem Geom.place_offset_aligned (shift s : Nat) : (Geom.place shift s).2 % 4096 = 0 := Nat.mul_mod_left _ _

theorem Geom.place_injective (shift : Nat) : Function.Injective (Geom.place shift) := by
  intro u s same
  obtain ⟨facet, offset⟩ := Prod.mk.inj same
  rw [← Nat.div_add_mod u (2 ^ (shift - 12)), facet, Nat.eq_of_mul_eq_mul_right (by decide) offset, Nat.div_add_mod]

/-! ### The layout of the data area (R164, R165, R177) -/

theorem beamBlocks_fit {d : Nat} (h : 3 ≤ d) :
    1 + beamBlocks d + summarySlots (beamBlocks d) ≤ d ∧ d ≤ 2 + beamBlocks d + summarySlots (beamBlocks d) := by
  unfold beamBlocks summarySlots
  omega

/-- A summary slot holds the entries of 256 blocks. -/
theorem div_256_lt_summarySlots {n c : Nat} (h : n < c) : n / 256 < summarySlots c := by
  unfold summarySlots
  omega

section
variable {g : Geom} {shift : Nat} (enough : 3 ≤ g.slots shift)
include enough

theorem Geom.blocks_lt_summarySlot (n : Nat) : g.blocks shift < summarySlot g shift n := by
  obtain ⟨fits, _⟩ := beamBlocks_fit enough
  unfold summarySlot Geom.blocks
  omega

theorem Geom.summarySlot_lt {n : Nat} (h : n < g.blocks shift) : summarySlot g shift n < g.slots shift := by
  obtain ⟨fits, _⟩ := beamBlocks_fit enough
  have entry := div_256_lt_summarySlots h
  unfold summarySlot Geom.blocks at *
  omega

end

/-- Settles O55: the rotation and its inverse, the place of a slot as quotient and remainder, and R164's counts. -/
theorem facetsTurnWithTheBeam : Obligations.FacetsTurnWithTheBeam := by
  refine ⟨?rotation, ?places, ?capacity⟩
  case rotation => exact fun g b j h => ⟨Geom.slotOf_lt b h, Geom.facetOn_slotOf b h, Geom.slotOf_facetOn b h⟩
  case places =>
    exact fun g shift s large h => ⟨Geom.place_facet_lt h, Geom.place_offset_le s large, Geom.place_offset_aligned shift s,
      fun u same => Geom.place_injective shift same⟩
  case capacity =>
    intro g shift enough
    obtain ⟨fits, spare⟩ := beamBlocks_fit enough
    exact ⟨fits, spare, fun n h => ⟨h, Geom.blocks_lt_summarySlot enough n, Geom.summarySlot_lt enough h⟩⟩

end Sys2Proof.Machine
end

section
/-!
SUPPORT. The epoch barrier (R278), the steps of the sweeps (R274, R281, R285), the rebuild delay (R273) and scrub (R185): what each
command does in each case, and O23.
-/

namespace Sys2Proof.Machine

/-! ### The epoch barrier -/

/-- R278 step 3, before the segments are sealed: no segment is active, and the journal lists none. -/
def Arr.withoutActive (x : Arr) : Arr := { x with active := none, openList := [], horizon := 0 }

theorem sealBarrier_eq {a : Nat} {x : Arr} {d : Dev} (h : d.arr? a = some x) :
    sealBarrier a d = d.setArr a x.withoutActive.sealSegments := by
  simp only [sealBarrier, h]
  rfl

/-- What the barrier was taken for begins; with it the result word of the command that waits. -/
def beginPlan (a : Nat) (x : Arr) (p : Barrier) (d : Dev) : Dev × Nat :=
  match p with
  | .facet slot spare => beginFacet a slot spare d
  | .relocation => beginMeridian a (narrower x.geom (x.failed d)) .relocation d
  | .reshape g => beginMeridian a g .reshape d

/-- What follows the change of epoch: the waiting command is answered, the journal written, and what waited placed again. -/
def endBarrier (a : Nat) (ctx : Option Nat) (r : Dev × Nat) : Dev :=
  let e := sendSweep a (writeJournal a (ctx.elim r.1 fun id => okWith id r.2 r.1))
  settle (replaceAll a ((e.arrays.map (·.1)).foldl deriveArray e))

section
variable {d : Dev} {a : Nat} {x : Arr} {k : Barrier} {ctx : Option Nat} (h : d.arr? a = some x) (taken : x.barrier = some (k, ctx))
include h taken

theorem barrierComplete_beamsOpen (opened : x.beams ≠ []) : barrierComplete a d = d := by
  simp [barrierComplete, h, taken, opened]

variable (closed : x.beams = []) (executing : d.executing = true) (online : x.offline = 0)
include closed executing online

theorem barrierComplete_notPassed (waits : x.allPassed = false) : barrierComplete a d = startCheckpoint d := by
  simp [barrierComplete, h, taken, closed, executing, online, waits]

variable (passed : x.allPassed = true)
include passed

theorem barrierComplete_fails (plan : barrierPlan d a x k = none) : barrierComplete a d = barrierFails a k ctx d := by
  simp [barrierComplete, h, taken, closed, executing, online, passed, plan]

theorem barrierComplete_begins {p : Barrier} (plan : barrierPlan d a x k = some p) :
    barrierComplete a d = endBarrier a ctx (beginPlan a x p (d.setArr a x.withoutActive.sealSegments)) := by
  simp only [barrierComplete, h, taken, closed, executing, online, passed, plan, sealBarrier_eq h, List.isEmpty_nil, Bool.not_true,
    bne_self_eq_false, Bool.or_self, Bool.false_eq_true, if_false]
  cases p <;> cases ctx <;> rfl

end

theorem barrierPlan_facet {d : Dev} {spare : Nat} (a : Nat) (x : Arr) (slot : Nat) (h : (d.mem spare).st = .spare) :
    barrierPlan d a x (.facet slot spare) = some (.facet slot spare) :=
  if_pos h

theorem barrierPlan_relocation_unfit {d : Dev} {a : Nat} {x : Arr} (h : relocationFits d a x (x.failed d) = false) :
    barrierPlan d a x .relocation = none :=
  if_neg (ne_true_of_eq_false h)

/-! ### FACET_REBUILD_STEP -/

/-- The rebuild of a slot's facets in a segment, as it begins. -/
def Rebuild.start (g slot m : Nat) : Rebuild :=
  { seg := g, slot := slot, target := m, done := [], checked := false, fixes := [], writing := false }

section
variable {d : Dev} {a : Nat} {x : Arr} {slot m : Nat} {up : Bool} (h : d.arr? a = some x) (sweep : x.sweep = some (.facet slot m up))
  (runs : sweepsRun d x = true) (resumed : x.paused = false) (released : x.onHold = false) (target : (d.mem m).st = .target)
include h sweep runs resumed released target

theorem facetStep_goesOn (seg : Nat) (begun : x.rebuild.isSome = true) : facetStep a seg d = settle (advanceWork d) := by
  obtain ⟨r, begun⟩ := Option.isSome_iff_exists.mp begun
  simp [facetStep, h, sweep, runs, resumed, released, target, begun]

theorem facetStep_ends (seg : Nat) (idle : x.rebuild = none) (whole : x.lacking slot = []) :
    facetStep a seg d = settle (endFacetSweep a m d) := by
  simp [facetStep, h, sweep, runs, resumed, released, target, idle, whole]

/-- Only the lowest segment that lacks the facet begins. -/
theorem facetStep_lacking (seg : Nat) {g : Nat} {rest : List Nat} (idle : x.rebuild = none) (lacks : x.lacking slot = g :: rest) :
    facetStep a seg d =
      if g = seg then settle (advanceWork (d.setArr a { x with rebuild := some (.start g slot m) })) else d := by
  simp [facetStep, h, sweep, runs, resumed, released, target, idle, lacks, setRebuild, Rebuild.start]

end

/-! ### MERIDIAN_SWEEP_STEP -/

theorem meridianStep_elsewhere {d : Dev} {a seg : Nat} (other : seg ≠ d.val Fam.arrayMeridian a) : meridianStep a seg d = d := by
  unfold meridianStep
  split
  next => rfl
  next => simp [other.symm]

section
variable {d : Dev} {a g : Nat} {x : Arr} (h : d.arr? a = some x) (sweep : x.sweep = some .relocation ∨ x.sweep = some .reshape)
  (runs : sweepsRun d x = true) (resumed : x.paused = false) (released : x.onHold = false) (free : x.barrier = none)
  (here : g = d.val Fam.arrayMeridian a)
include h sweep runs resumed released free here

theorem meridianStep_here :
    meridianStep a g d =
      if (x.segment g).st = .free ∨ (x.segment g).epoch = x.geom.epoch then settle (passMeridian a x d)
      else if (x.segment g).st = .opened then d
      else settle (cleanSegment a g true (d.setArr a
        (({ x with cleaning := if x.cleaning.contains g then x.cleaning else x.cleaning ++ [g] }).setSegment g
          { x.segment g with st := .cleaning }))) := by
  subst here
  rcases sweep with relocation | reshape
  · simp [meridianStep, h, relocation, runs, resumed, released, free]
  · simp [meridianStep, h, reshape, runs, resumed, released, free]

theorem meridianStep_passes (current : (x.segment g).st = .free ∨ (x.segment g).epoch = x.geom.epoch) :
    meridianStep a g d = settle (passMeridian a x d) :=
  (meridianStep_here h sweep runs resumed released free here).trans (if_pos current)

variable (old : (x.segment g).epoch ≠ x.geom.epoch)
include old

theorem meridianStep_waits (opened : (x.segment g).st = .opened) : meridianStep a g d = d := by
  rw [meridianStep_here h sweep runs resumed released free here, if_neg (by simp [old, opened]), if_pos opened]

theorem meridianStep_cleans (isSealed : (x.segment g).st = .sealed) (new : x.cleaning.contains g = false) :
    meridianStep a g d = settle (cleanSegment a g true (d.setArr a
      (({ x with cleaning := x.cleaning ++ [g] }).setSegment g { x.segment g with st := .cleaning }))) := by
  rw [meridianStep_here h sweep runs resumed released free here, if_neg (by simp [old, isSealed]), if_neg (by simp [isSealed]),
    if_neg (ne_true_of_eq_false new)]

end

/-! ### HOLD_RETRY_TIMER -/

/-- R275: the target of a facet sweep is SLOW. -/
def slowTarget (d : Dev) (x : Arr) : Bool :=
  match x.sweep with
  | some (.facet _ m _) => (d.mem m).st == .slow
  | _ => false

theorem slowTarget_eq_false {d : Dev} {x : Arr} (fast : ∀ slot m up, x.sweep = some (.facet slot m up) → (d.mem m).st ≠ .slow) :
    slowTarget d x = false := by
  unfold slowTarget
  split
  next sweep => exact beq_false_of_ne (fast _ _ _ sweep)
  next => rfl

/-- An array whose held work is to be tried again; its sweep may hold all the same. -/
def Arr.retried (x : Arr) (holds : Bool) : Arr :=
  { x with onHold := holds, cleanerHold := false
           rebuild := x.rebuild.map fun r => if r.writing then r else { r with checked := false } }

theorem holdRetry_eq {d : Dev} {a : Nat} {x y : Arr} (h : d.arr? a = some x) (e : y = x.retried (x.onHold && slowTarget d x)) :
    holdRetry a d =
      if (x.cleanerHold || x.onHold) && sweepsRun d y then settle (advanceWork (cleanAll a (d.setArr a y))) else d.setArr a y := by
  subst e
  simp only [holdRetry, h]
  rfl

/-! ### REBUILD_DELAY_EXPIRE -/

theorem rebuildDelay_starts {d : Dev} {a slot : Nat} {x : Arr} (h : d.arr? a = some x) (due : x.rebuildDue.contains slot = true)
    (failed : (x.failed d).contains slot = true) (serving : d.serving = true) :
    rebuildDelay a slot d = autoRebuild a (d.setArr a { x with rebuildDue := x.rebuildDue.filter (· != slot) }) := by
  simp only [rebuildDelay, dropDelay, h, due, failed, serving, Bool.and_self, if_true]

/-! ### SCRUB_BEAM -/

section
variable {d : Dev} {a : Nat} {x : Arr} (h : d.arr? a = some x)
include h

theorem scrubBeam_reads {seg off : Nat} (runs : sweepsRun d x = true) (interval : d.val Fam.arrayScrubIntervalH a ≠ 0)
    (place : off < 64) (committed : (x.segment seg).beams.contains off = true) (idle : ∀ b ∈ x.reads, b.use ≠ .scrub) :
    scrubBeam a x.inst (x.segment seg).epoch seg off d
      = settle (advanceScrub a (advanceScrub a (beginRead a .scrub (64 * seg + off) d))) := by
  have free : x.reads.all (·.use != .scrub) = true := by simpa using idle
  simp only [scrubBeam, h]
  exact if_pos (by simp only [runs, bne_iff_ne.mpr interval, beq_self_eq_true, place, decide_true, committed, free, Bool.and_self])

theorem scrubBeam_busy (i j seg off : Nat) (busy : ∃ b ∈ x.reads, b.use = .scrub) : scrubBeam a i j seg off d = d := by
  have taken : x.reads.all (·.use != .scrub) = false := by simpa using busy
  simp [scrubBeam, h, taken]

theorem scrubBeam_otherName {i j seg : Nat} (off : Nat) (other : i ≠ x.inst ∨ j ≠ (x.segment seg).epoch) :
    scrubBeam a i j seg off d = d := by
  simp only [scrubBeam, h]
  refine if_neg ?_
  rcases other with inst | epoch
  · simp [inst.symm]
  · simp [epoch.symm]

end

/-- Settles O23: each command by its equation in the clause's case. -/
theorem barriersAndSweepsAdvance : Obligations.BarriersAndSweepsAdvance := by
  refine ⟨?barrier, ?plan, ?beamsOpen, ?facet, ?meridian, ?hold, ?delay, ?scrub⟩
  case barrier =>
    intro s a x k ctx h taken closed executing online
    refine ⟨fun waits => runs_of_onDev rfl (barrierComplete_notPassed h taken closed executing online waits),
      fun passed plan => runs_of_onDev rfl (barrierComplete_fails h taken closed executing online passed plan), fun p passed plan => ?_⟩
    refine ⟨_, x.withoutActive, beginPlan a x p (s.dev.setArr a x.withoutActive.sealSegments), rfl, rfl, rfl, rfl, rfl, rfl, rfl,
      ?_, ?_, ?_, ?_⟩
    · rintro slot spare rfl; rfl
    · rintro rfl; rfl
    · rintro g rfl; rfl
    · rintro e rfl
      exact runs_of_onDev rfl (barrierComplete_begins h taken closed executing online passed plan)
  case plan => exact fun d a x slot spare g => ⟨barrierPlan_facet a x slot, barrierPlan_relocation_unfit, rfl⟩
  case beamsOpen =>
    intro s a x k ctx h taken opened
    exact runs_of_onDev rfl (barrierComplete_beamsOpen h taken opened)
  case facet =>
    intro s a seg x slot m up h sweep runs resumed released target
    refine ⟨fun begun => runs_of_onDev rfl (facetStep_goesOn h sweep runs resumed released target seg begun),
      fun idle whole => runs_of_onDev rfl (facetStep_ends h sweep runs resumed released target seg idle whole),
      fun g rest idle lacks => ⟨fun other => ?_, .start g slot m, rfl, rfl, rfl, rfl, rfl, rfl, rfl, ?_⟩⟩
    · exact runs_of_onDev rfl ((facetStep_lacking h sweep runs resumed released target seg idle lacks).trans (if_neg other.symm))
    · exact runs_of_onDev rfl ((facetStep_lacking h sweep runs resumed released target g idle lacks).trans (if_pos rfl))
  case meridian =>
    intro s a g x h sweep runs resumed released free here
    exact ⟨fun current => runs_of_onDev rfl (meridianStep_passes h sweep runs resumed released free here current),
      fun opened old => runs_of_onDev rfl (meridianStep_waits h sweep runs resumed released free here old opened),
      fun other elsewhere => runs_of_onDev rfl (meridianStep_elsewhere (here ▸ elsewhere)),
      fun isSealed old new => runs_of_onDev rfl (meridianStep_cleans h sweep runs resumed released free here old isSealed new)⟩
  case hold =>
    intro s a x y h fast e
    have retry := holdRetry_eq h (y := y) (by rw [slowTarget_eq_false fast, Bool.and_false]; exact e)
    exact ⟨fun held runs => runs_of_onDev rfl (retry.trans (if_pos (Bool.and_eq_true_iff.mpr ⟨held, runs⟩))),
      fun stays => runs_of_onDev rfl (retry.trans (if_neg (ne_true_of_eq_false (Bool.and_eq_false_iff.mpr stays))))⟩
  case delay =>
    intro s a slot x h due failed serving
    exact runs_of_onDev rfl (rebuildDelay_starts h due failed serving)
  case scrub =>
    rintro s a seg off x e h runs interval place rfl committed
    exact ⟨fun idle => runs_of_onDev rfl (scrubBeam_reads h runs interval place committed idle),
      fun busy => runs_of_onDev rfl (scrubBeam_busy h _ _ _ _ busy),
      fun i j other => runs_of_onDev rfl (scrubBeam_otherName h off other)⟩

end Sys2Proof.Machine
end

section
/-!
SUPPORT. The steps of the write path (R197 to R225) and read-around (R270 to R272): what each of them does in each case, and O20.
-/

namespace Sys2Proof.Machine

/-! ### Host data and placement (R197, R198, Table 8.8) -/

section
variable {d : Dev} {id k : Nat} {c : Ctx} {p : Piece} (found : d.ctx? id = some c)
include found

section
variable (unit : c.units[k]? = some p)
include unit

section
variable (started : c.phase = .started) (write : eOpcode c.raw = opWrite) (reading : p.st = .reading) (runs : d.hostRuns = true)
include started write reading runs

theorem hostDataRead_fails : hostDataRead id k .fail d = settle (modPiece id k (.failed 0x0E 2) d) := by
  simp [hostDataRead, found, unit, started, write, reading, runs]

theorem hostDataRead_readies (b : List Byte) :
    hostDataRead id k (.bytes b) d =
      modPiece id k (.ready ((encryptUnit c p b).map .inl) 0) (c.tenant.elim d fun t => meterEnc t p.len d) := by
  simp only [hostDataRead, found, unit, started, write, reading, runs, and_self, if_true]
  cases c.tenant <;> rfl

end

theorem hostDataRead_again {seq : Nat} {v : Vol} (h : HostData) (placed : p.st = .placed seq) (again : p.again = true)
    (volume : d.vol? (eVolume c.raw) = some v) (runs : d.hostRuns = true) :
    hostDataRead id k h d = settle (readAgain v.array seq id k c p h d) := by
  simp [hostDataRead, found, unit, placed, again, volume, runs]

end

theorem unitPlace_started (k : Nat) (started : c.phase = .started) (goesOn : c.stopping = false) (runs : d.hostRuns = true) :
    unitPlace id k d =
      settle (forceOrdered (placePiece id k ((d.vol? (eVolume c.raw)).elim d fun v => replaceAll v.array d))) := by
  simp only [unitPlace, found, started, goesOn, runs, and_self, if_true]
  cases d.vol? (eVolume c.raw) <;> rfl

end

theorem exec_unitPlace_unit {s : State} {id : Nat} {c : Ctx} (k : Nat) (found : s.dev.ctx? id = some c)
    (other : eOpcode c.raw ≠ 0x84) : exec (.unitPlace id k) s = .next { s with dev := unitPlace id k s.dev } := by
  change execUnitPlace id k s = _
  simp only [execUnitPlace, onDev_eq, found, other, if_false]

/-- R229: the delta of a shrink that waits. -/
theorem exec_unitPlace_shrink {s : State} {id : Nat} {c : Ctx} (k : Nat) (found : s.dev.ctx? id = some c)
    (shrink : eOpcode c.raw = 0x84) (started : c.phase = .started) (runs : s.dev.hostRuns = true) :
    exec (.unitPlace id k) s = .next { s with dev := settle (placeShrink c s.dev) } := by
  change execUnitPlace id k s = _
  simp only [execUnitPlace, onDev_eq, found, shrink, started, runs, and_self, if_true]

/-! ### Commit (R204) and journal batches (R217) -/

theorem beamCommit_eq {d : Dev} {a n : Nat} {x : Arr} {b : Beam} (h : d.arr? a = some x)
    (beam : x.beams.find? (·.num == n) = some b) :
    beamCommit a n d = if commitReady d x b then replaceAll a (commitBeam a b d) else d := by
  simp only [beamCommit, h, beam]

theorem journalBatch_dirty {d : Dev} {a : Nat} {x : Arr} (h : d.arr? a = some x) (dirty : x.jdirty ≠ [])
    (executing : d.executing = true) : journalBatch a d = writeJournal a d := by
  simp [journalBatch, h, dirty, executing]

/-! ### Checkpoints (R211) -/

theorem sendCmd_ms (c : MCmd) (d : Dev) : (sendCmd c d).ms = d.ms := by
  unfold sendCmd
  split <;> rfl

theorem issueCmd_ms (c : MCmd) (d : Dev) : (issueCmd c d).ms = d.ms := by
  unfold issueCmd
  dsimp only
  split
  · split
    · rfl
    · exact sendCmd_ms _ _
  · rfl

theorem issueWrite_ms (m off : Nat) (bytes : List Byte) (why : Purpose) (d : Dev) : (issueWrite m off bytes why d).ms = d.ms :=
  foldl_keeps (·.ms) _ (fun e _ => issueCmd_ms _ e) _ d

theorem writePage_ms (v p i : Nat) (bytes : List Byte) (d : Dev) : (writePage v p i bytes d).ms = d.ms := by
  unfold writePage
  dsimp only
  split
  · exact issueWrite_ms _ _ _ _ d
  · rfl

theorem not_mirror_of_memberIo {d : Dev} (io : d.memberIo = true) : d.inMode .mirror = false := by
  simp only [Dev.memberIo, Bool.and_eq_true, Bool.not_eq_true'] at io
  exact io.2

theorem working_of_executing {d : Dev} (executing : d.executing = true) : d.working = true := by
  simp only [Dev.executing, Bool.and_eq_true] at executing
  exact executing.1.1

/-- A checkpoint that starts takes every changed page. -/
theorem startCheckpoint_ms {d : Dev} (idle : d.ms.checkpoint = false) (working : d.working = true) (io : d.memberIo = true) :
    (startCheckpoint d).ms.checkpoint = true ∧ (startCheckpoint d).ms.dirtyPages = [] := by
  simp only [startCheckpoint, idle, working, io, Bool.not_true, Bool.or_self, Bool.false_eq_true, if_false]
  rw [foldl_keeps (·.ms) _ (fun e p => writePage_ms _ _ _ _ e)]
  exact ⟨rfl, rfl⟩

theorem tfind_map_val {α β : Type} (f : Nat → α → β) (t : Tbl α) (k : Nat) :
    tfind (t.map fun e => (e.1, f e.1 e.2)) k = (tfind t k).map (f k) := by
  induction t with
  | nil => rfl
  | cons e r ih =>
    simp only [List.map_cons, tfind, ih]
    split
    · next same => rw [same]; rfl
    · rfl

/-- Whether a page of the array is in none of its copies. -/
def pageLeft (d : Dev) (a : Nat) : Bool := (d.ms.unwritten.map fun p => ownerArray d p.1).contains a

/-- An array as its checkpoint ends: with a page in no copy its horizon stays. -/
def Arr.keepsHorizon (x : Arr) (left : Bool) : Arr := if left then { x with ckpt := none } else x

/-- The device once its checkpoint has ended, before the horizons move. -/
def checkpointed (d : Dev) : Dev :=
  { d with
    ms := { d.ms with
      checkpoint := false, mapGen := d.ms.mapGen + 1, unwritten := []
      dirtyPages := d.ms.dirtyPages ++ d.ms.unwritten.filter fun p => decide (p.1 < 16384) && !d.ms.dirtyPages.contains p }
    arrays := d.arrays.map fun e => (e.1, e.2.keepsHorizon (pageLeft d e.1)) }

theorem checkpointed_arr? (d : Dev) (a : Nat) :
    (checkpointed d).arr? a = (d.arr? a).map (·.keepsHorizon (pageLeft d a)) :=
  tfind_map_val (fun b (x : Arr) => x.keepsHorizon (pageLeft d b)) d.arrays a

theorem mem_checkpointed_dirtyPages {d : Dev} {p : Nat × Nat} (left : p ∈ d.ms.unwritten) (map : p.1 < 16384) :
    p ∈ (checkpointed d).ms.dirtyPages := by
  simp only [checkpointed, List.mem_append, List.mem_filter, left, map]
  by_cases dirty : p ∈ d.ms.dirtyPages <;> simp [dirty]

theorem checkpointComplete_ends {d : Dev} (executing : d.executing = true) (begun : d.ms.checkpoint = true)
    (done : pagesBusy d = false) :
    checkpointComplete d = (d.arrays.map (·.1)).foldl moveHorizon (checkpointed d) := by
  have numbers : (checkpointed d).arrays.map (·.1) = d.arrays.map (·.1) := by
    simp only [checkpointed, List.map_map, Function.comp_def]
  rw [← numbers]
  simp only [checkpointComplete, executing, begun, done, Bool.not_false, Bool.and_self, if_true]
  rfl

/-- An array whose checkpoint set its horizon, once the horizon has moved there. -/
def Arr.horizonMoved (x : Arr) (mark : List Nat × Nat × Nat × List Nat) (d : Dev) (a : Nat) : Arr :=
  let y := x.passHorizon mark
  { y with
    outage := y.outage.filter fun i => !memberServes d (y.geom.members.getD i 0x800)
    jdirty := if journalBusy d a then y.jdirty ++ [journalItself] else y.jdirty }

theorem moveHorizon_marked {d : Dev} {a : Nat} {x : Arr} {mark : List Nat × Nat × Nat × List Nat} (h : d.arr? a = some x)
    (marked : x.ckpt = some mark) : moveHorizon d a = writeJournal a (d.setArr a (x.horizonMoved mark d a)) := by
  simp only [moveHorizon, h, marked]
  rfl

theorem mem_horizonMoved_outage {d : Dev} {a i : Nat} {x : Arr} {mark : List Nat × Nat × Nat × List Nat} :
    i ∈ (x.horizonMoved mark d a).outage ↔
      i ∈ (x.passHorizon mark).outage ∧ memberServes d ((x.passHorizon mark).geom.members.getD i 0x800) = false := by
  simp [Arr.horizonMoved]

/-! ### The cleaner (R224, R225) -/

/-- The segments that the cleaner may choose, as live count and number. -/
def Arr.cleanable (x : Arr) : List (Nat × Nat) :=
  (x.seg.filter fun e => e.2.st == .sealed && x.beforeHorizon e.1).map fun e => (e.2.live, e.1)

theorem mem_cleanable {x : Arr} {live g : Nat} :
    (live, g) ∈ x.cleanable ↔ ∃ e ∈ x.seg, e.1 = g ∧ e.2.st = .sealed ∧ x.beforeHorizon e.1 = true ∧ e.2.live = live := by
  simp only [Arr.cleanable, List.mem_map, List.mem_filter, Bool.and_eq_true, beq_iff_eq, Prod.mk.injEq]
  exact exists_congr fun e => by tauto

theorem cleanerChoice_eq (x : Arr) : cleanerChoice x = (x.cleanable.argmin (·.1)).map (·.2) := by
  refine congrArg (fun step => (x.cleanable.foldl step none).map Prod.snd) (funext fun best => funext fun e => ?_)
  cases best <;> rfl

theorem cleanerChoice_fewest {x : Arr} {g : Nat} (choice : cleanerChoice x = some g) {e : Nat × Segment} (mem : e ∈ x.seg)
    (isSealed : e.2.st = .sealed) (before : x.beforeHorizon e.1 = true) :
    ∃ v ∈ x.seg, v.1 = g ∧ v.2.st = .sealed ∧ v.2.live ≤ e.2.live := by
  rw [cleanerChoice_eq, Option.map_eq_some_iff] at choice
  obtain ⟨⟨live, number⟩, least, rfl⟩ := choice
  obtain ⟨v, inTable, name, state, _, rfl⟩ := mem_cleanable.mp (List.argmin_mem least)
  have other : (e.2.live, e.1) ∈ x.cleanable := mem_cleanable.mpr ⟨e, mem, rfl, isSealed, before, rfl⟩
  exact ⟨v, inTable, name, state, List.le_of_mem_argmin (f := (·.1)) other least⟩

section
variable {d : Dev} {a g : Nat} {x : Arr} (h : d.arr? a = some x)
include h

section
variable (choice : cleanerChoice x = some g)
include choice

theorem cleanerSelect_cleans (runs : sweepsRun d x = true) (released : x.cleanerHold = false)
    (few : x.freeSegments * 100 < d.val Fam.cleanerStartFreePct * x.segs) :
    cleanerSelect a g d = settle (cleanAll a (d.setArr a { x with
      seg := tset x.seg g { x.segment g with st := .cleaning } Segment.free, cleaning := x.cleaning ++ [g] })) := by
  simp [cleanerSelect, h, choice, runs, released, few]

theorem cleanerSelect_other {seg : Nat} (other : sweepsRun d x = false ∨ seg ≠ g) : cleanerSelect a seg d = d := by
  rcases other with stopped | other
  · simp [cleanerSelect, h, stopped]
  · simp [cleanerSelect, h, choice, other.symm]

end

/-- The members of a segment's geometry deallocate its facets (Table 10.3). -/
def deallocateFacets (x : Arr) (g : Nat) (d : Dev) : Dev :=
  (x.geomOf g).members.foldl (fun e m => if memberServes e m && !isPlatter m then
    memberCtl m "Deallocate" ((e.mem m).a0 + g * 64 * 2 ^ x.shift) e else e) d

theorem segmentFree_frees (releasable : segmentReleasable d a x g = true) (serving : d.serving = true)
    (executing : d.executing = true) :
    segmentFree a g d = settle (replaceAll a (sendSegment a g ((deallocateFacets x g d).setArr a
      { x with seg := tdel x.seg g, cleaning := x.cleaning.filter (· != g) }))) := by
  simp only [segmentFree, h, releasable, serving, executing, Bool.and_self, if_true]
  rfl

end

theorem segmentFree_notServing {d : Dev} (a g : Nat) (away : d.serving = false) : segmentFree a g d = d := by
  unfold segmentFree
  split <;> simp [away]

/-! ### Read-around (R270 to R272) -/

/-- The reads of a job that have not come back and are not yet routed around. -/
def Job.late (d : Dev) (x : Arr) (j : Job) : List (Nat × Bool) := (j.reading d x).filter (!j.extra.contains ·)

section
variable {d : Dev} {id : Nat} {j : Job} {x : Arr} (job : d.job? id = some j) (h : d.arr? j.loc.array = some x)
  (classZero : jobClassZero d j = true) (solid : isPlatter (x.geom.members.headD 0) = false) (executing : d.executing = true)
  (late : j.late d x ≠ [])
  (survives : ∀ b, (survivors (j.geom x) (j.erased d x b ++ ((j.late d x).filter (·.2 == b)).map (·.1))).isSome = true)
include job h classZero solid executing late survives

theorem readAround_eq :
    readAround id d =
      if d.val Fam.arrayReadaroundMax j.loc.array ≤ readArounds d j.loc.array then d.bump Fam.arrayReadaroundSkipped j.loc.array
      else settle (advanceWork (advanceJob id ((d.bump Fam.arrayReadarounds j.loc.array).modJob id fun j' =>
        { j' with around := true, extra := j'.extra ++ j.late d x }))) := by
  have some_late : (j.late d x).isEmpty = false := by simpa using late
  unfold Job.late at some_late survives
  simp only [readAround, job, h, classZero, some_late, survives, solid, executing, Bool.not_false, Bool.and_self, if_true]
  rfl

end

/-- Settles O20: each command by its equation in the clause's case. -/
theorem beamsMapAndCleanerSteps : Obligations.BeamsMapAndCleanerSteps := by
  refine ⟨?hostData, ?hostDataAgain, ?place, ?closeTimer, ?commits, ?commitWaits, ?checkpointStarts, ?checkpointEnds, ?horizon,
    ?journal, ?cleans, ?cleansNothing, ?fewest, ?frees, ?freesNothing, ?around⟩
  case hostData =>
    intro s id k c p found unit started write reading runs
    refine ⟨runs_of_onDev rfl (hostDataRead_fails found unit started write reading runs), fun b => ?_⟩
    refine runs_of_onDev rfl ((hostDataRead_readies found unit started write reading runs b).trans ?_)
    rw [encryptUnit, List.map_map]
    cases c.tenant <;> rfl
  case hostDataAgain =>
    intro s id k c p seq v h found unit placed again volume runs
    exact runs_of_onDev rfl (hostDataRead_again found unit h placed again volume runs)
  case place =>
    intro s id k c found started runs
    refine ⟨fun other goesOn e before => ?_, fun shrink => ?_⟩
    · rw [exec_unitPlace_unit k found other, unitPlace_started found k started goesOn runs, before]
      cases s.dev.vol? (eVolume c.raw) <;> rfl
    · exact exec_unitPlace_shrink k found shrink started runs
  case closeTimer => intro s a n executing; exact runs_of_onDev rfl (if_pos executing)
  case commits => intro s a n x b h beam ready; exact runs_of_onDev rfl ((beamCommit_eq h beam).trans (if_pos ready))
  case commitWaits =>
    intro s a n x b h beam waits
    exact runs_of_onDev rfl ((beamCommit_eq h beam).trans (if_neg (ne_true_of_eq_false waits)))
  case checkpointStarts =>
    intro s executing io idle
    refine ⟨_, runs_of_onDev rfl (if_pos ?_), startCheckpoint_ms idle (working_of_executing executing) io⟩
    rw [executing, not_mirror_of_memberIo io]; rfl
  case checkpointEnds =>
    intro s executing begun done
    exact ⟨checkpointed s.dev, runs_of_onDev rfl (checkpointComplete_ends executing begun done), rfl, rfl, rfl,
      fun p left map => mem_checkpointed_dirtyPages left map, checkpointed_arr? s.dev⟩
  case horizon =>
    intro a x m d h marked
    exact ⟨x.horizonMoved m d a, moveHorizon_marked h marked, rfl, rfl, rfl, fun i => mem_horizonMoved_outage.mp⟩
  case journal => intro s a x h dirty executing; exact runs_of_onDev rfl (journalBatch_dirty h dirty executing)
  case cleans =>
    intro s a x g h runs released few choice
    exact runs_of_onDev rfl (cleanerSelect_cleans h choice runs released few)
  case cleansNothing => intro s a x g seg h choice other; exact runs_of_onDev rfl (cleanerSelect_other h choice other)
  case fewest => intro x g choice e mem isSealed before; exact cleanerChoice_fewest choice mem isSealed before
  case frees =>
    intro s a g x h releasable serving executing
    exact ⟨deallocateFacets x g s.dev, rfl, runs_of_onDev rfl (segmentFree_frees h releasable serving executing)⟩
  case freesNothing => intro s a g away; exact runs_of_onDev rfl (segmentFree_notServing a g away)
  case around =>
    rintro s id j x l job h classZero solid executing rfl late survives
    have step := readAround_eq job h classZero solid executing late survives
    exact ⟨fun full => runs_of_onDev rfl (step.trans (if_pos full)),
      fun room => runs_of_onDev rfl (step.trans (if_neg (Nat.not_le.mpr room)))⟩

end Sys2Proof.Machine
end

section
/-!
SUPPORT. VOLUME_RESIZE (R229) where two commands in flight share a number, and O21.
-/

namespace Sys2Proof.Machine

/-- What a shrink places is told by the number of its command, its entry and its units. -/
theorem placeShrink_congr {c c' : Ctx} (d : Dev) (id : c'.id = c.id) (raw : c'.raw = c.raw) (units : c'.units = c.units) :
    placeShrink c' d = placeShrink c d := by
  simp only [placeShrink, id, raw, units]

/-- The start of an admin command that shares its number with no other changes nothing of what a volume's commands do. -/
theorem volumeBusy_starts {d : Dev} {c : Ctx} (v : Nat) (admin : isAdminOp (eOpcode c.raw) = true)
    (alone : ∀ x ∈ d.cm.ctxs, x.id = c.id → x = c) : volumeBusy (d.starts c) v = volumeBusy d v := by
  simp only [volumeBusy, Dev.starts, Dev.modCtx, List.any_map]
  rw [Bool.eq_iff_iff, List.any_eq_true, List.any_eq_true]
  refine exists_congr fun x => and_congr_right fun mem => ?_
  by_cases same : x.id = c.id
  · obtain rfl := alone x mem same
    simp [admin]
  · simp [same]

namespace TwoOfOneNumber

/-- VOLUME_RESIZE of volume 0 to 999 blocks: 0x3E7 in W2, all else of the entry 0. -/
def shrink : Ctx :=
  { Ctx.fresh 0 ⟨0, 0⟩ 0 0 (BitVec.ofNat 512 (0x84 + 999 * 2 ^ 320)) .single none with phase := .admitted }

/-- A READ of volume 0 that has ended, under the number of `shrink`. -/
def ended : Ctx := { Ctx.fresh 0 ⟨0, 1⟩ 0 0 (BitVec.ofNat 512 opRead) .single none with phase := .ended }

/-- A 4+1 array with nothing written. -/
def array : Arr :=
  { geom := { mirror := false, k := 4, m := 1, members := [0, 1, 2, 3, 4], epoch := 1 }, prev := none, shift := 17, writeThrough := false
    inst := 1, segs := 100, nextSeq := 1, active := none, beams := [], seg := [], holders := [], rehoming := false
    journalGen := 0, openList := [], horizon := 0, deltas := [], jdirty := [], ckpt := none, log := [], copies := [], repairs := []
    keptUnits := [], keptWaits := 0, sweep := none, paused := false, onHold := false, barrier := none, rebuildDue := [], outage := []
    offline := 0, cleaning := [], embargo := [], cleanerHold := false, cadence := 0, cadenceTo := none, cadenceAt := 0
    rebuild := none, reads := [], swept := [], darkened := [], recovery := none, returning := false, records := [], meridianSeq := 0 }

/-- A volume of 1,000 blocks on it. -/
def volume : Vol :=
  { st := .ready, capacity := 1000, tenant := 1, array := 0, readOnly := false, writeBack := false, key := none, stored := none
    kcv := none, map := [], region := [], allocated := 0, dark := 0, deleter := none }

/-- SOLO with that array and volume and both commands in flight. Numbers are not used twice while the device runs, so no run leads
here; a statement about every state speaks of it all the same. -/
def device : Dev :=
  { Dev.reset.setVal Fam.mapWarmLimit 0 1000 with
    pw := { Power.inReset with porHigh := true, coreRstHigh := true, mode := some .solo }
    arrays := [(0, array)], vols := [(0, volume)], cm := { Commands.empty with ctxs := [shrink, ended], nextCtx := 1 } }

/-- The capacity of the volume. -/
def capacity (d : Dev) : Option Nat := (d.vol? 0).map (·.capacity)

/-- The unit of the shrink: block 999 alone. -/
def lastBlock (again : Bool) : Piece := { lba := 999, len := 1, st := .ready [] 0, again := again }

/-- The device with the range delta of the shrink placed, as the clause has it. -/
def placed (p : Piece) : Dev :=
  settle (placeShrink { shrink with units := [p] } ((device.starts shrink).modCtx shrink.id fun y => { y with units := [p] }))

/-- No command that has not ended names the volume, until the start marks both commands as started. -/
theorem busy_once_started : volumeBusy device 0 = false ∧ volumeBusy (device.starts shrink) 0 = true := by decide +kernel

theorem capacity_volumeResize : capacity (devAfter .volumeResize device) = some 1000 := by decide +kernel

theorem capacity_placed (again : Bool) : capacity (placed (lastBlock again)) = some 999 := by
  cases again <;> decide +kernel

end TwoOfOneNumber

/-- Refutes O21 at the clause of a shrink: its test for commands of hosts looks at the device before the start, and the model's test at
the device after it. The start marks every command of the number as started, so one that has ended under the same number counts as busy,
and the model refuses what the clause has placed. Where no two commands in flight share a number the tests agree (`volumeBusy_starts`). -/
theorem not_volumesAndKeysAreManaged : ¬ Obligations.VolumesAndKeysAreManaged := by
  intro h
  obtain ⟨-, -, resize, -⟩ := h
  obtain ⟨-, -, shrinks⟩ := resize ⟨[], TwoOfOneNumber.device⟩ TwoOfOneNumber.shrink 0 TwoOfOneNumber.volume 999 (by decide +kernel)
    (by decide +kernel) (by decide +kernel) rfl (by decide +kernel) (by decide +kernel) rfl
  obtain ⟨⟨_, _, _, again⟩, c', rfl, rfl, rfl, id, raw, units, run⟩ := shrinks (by decide) TwoOfOneNumber.busy_once_started.1
  have places : devAfter .volumeResize TwoOfOneNumber.device = TwoOfOneNumber.placed (TwoOfOneNumber.lastBlock again) := by
    simp only [devAfter, run]
    exact congrArg settle (placeShrink_congr _ id raw units)
  have capacities := TwoOfOneNumber.capacity_volumeResize
  rw [places, TwoOfOneNumber.capacity_placed] at capacities
  exact absurd capacities (by decide)

end Sys2Proof.Machine
end

section
/-!
SUPPORT. Solid members and their ports: how commands end (Table 10.5), timeouts and their escalation (R261, R303), probes (R262),
admission (R294 to R297), paths, warnings and logs (R305, R306), and O25.
-/

namespace Sys2Proof.Machine

/-! ### What the end of a member command leaves alone -/

theorem inMode_of_pw {d e : Dev} (h : e.pw = d.pw) (m : Mode) : e.inMode m = d.inMode m := by rw [Dev.inMode, Dev.inMode, h]

theorem bump_mem (d : Dev) (f i m : Nat) : (d.bump f i).mem m = d.mem m := by rw [Dev.mem, Dev.mem, bump_mb]

theorem sendCmd_pw (c : MCmd) (d : Dev) : (sendCmd c d).pw = d.pw := by
  unfold sendCmd
  split <;> rfl

theorem pump_pw (m : Nat) (d : Dev) : (pump m d).pw = d.pw := by
  unfold pump
  dsimp only
  split
  · exact sendCmd_pw _ _
  · rfl

theorem takeCmd_pw (c : MCmd) (d : Dev) : (takeCmd c d).pw = d.pw := pump_pw c.member (dropCmd c d)

theorem noteError_solid {m : Nat} (solid : isPlatter m = false) (d : Dev) :
    noteError m d = memberCtl m "Get Log Page" 0x01 (d.bump Fam.memberErrors m) :=
  if_neg (ne_true_of_eq_false solid)

theorem noteError_pw (m : Nat) (d : Dev) : (noteError m d).pw = d.pw := by
  unfold noteError
  dsimp only
  split <;> exact bump_pw _ _ _

/-! ### MEMBER_COMMAND_COMPLETE (Table 10.5) and NOT_READY_RETRY -/

/-- R31: whether a result goes nowhere is not changed by what its error leaves behind. -/
theorem wanted_noted {c : MCmd} {d : Dev} (wanted : (d.inMode .eclipse && c.forHost) = false) :
    ((takeCmd c (noteError c.member d)).inMode .eclipse && c.forHost) = false := by
  rw [inMode_of_pw ((takeCmd_pw c _).trans (noteError_pw c.member d)), wanted]

section
variable {d : Dev} {tag : Nat} {c : MCmd} (found : d.mb.cmds.find? (·.tag == tag) = some c)
include found

theorem commandComplete_notReady (data : List Byte) : commandComplete tag .notReady data d = noteError c.member d := by
  simp [commandComplete, found]

theorem notReadyRetry_sends (alive : c.dead = false) (issued : c.waiting = false) (executing : d.executing = true)
    (io : d.memberIo = true) : notReadyRetry tag d = sendCmd c d := by
  simp [notReadyRetry, found, alive, issued, executing, io]

variable (alive : c.dead = false) (wanted : (d.inMode .eclipse && c.forHost) = false)
include alive wanted

theorem commandComplete_success (data : List Byte) :
    commandComplete tag .success data d = settle (cmdDone c data (takeCmd c d)) := by
  simp [commandComplete, found, alive, inMode_of_pw (takeCmd_pw c d), wanted]

theorem commandComplete_aborted (data : List Byte) :
    commandComplete tag .abortRequested data d = settle (cmdWithout c false (takeCmd c (noteError c.member d))) := by
  simp [commandComplete, found, alive, wanted_noted wanted]

theorem commandComplete_unreadable (read : c.write = false) (data : List Byte) :
    commandComplete tag .unrecoveredRead data d = settle (cmdWithout c true (takeCmd c (noteError c.member d))) := by
  simp [commandComplete, found, alive, wanted_noted wanted, read]

theorem commandComplete_conflict (noTie : c.why ≠ .tie) (data : List Byte) :
    commandComplete tag .reservationConflict data d =
      settle (reservationConflict (memberCtl c.member "Get Log Page" 0x80 (takeCmd c (noteError c.member d)))) := by
  simp [commandComplete, found, alive, wanted_noted wanted, noTie]

theorem commandComplete_writeFails (write : c.write = true) (data : List Byte) :
    commandComplete tag .other data d =
      settle (memberFails c.member 1 (cmdWithout c false (takeCmd c (noteError c.member d)))) := by
  simp [commandComplete, found, alive, wanted_noted wanted, write]

end

/-! ### MEMBER_TIMEOUT (R261) -/

/-- R303 is for solid members. -/
theorem escalate_platter {c : MCmd} (platter : isPlatter c.member = true) (d : Dev) : escalate c d = d := by
  simp [escalate, platter]

theorem recentTimeouts_length_le (d : Dev) (m : Nat) : (recentTimeouts d m).length ≤ (d.mem m).timeoutAt.length :=
  List.length_filter_le _ _

/-- One more timeout of the member is counted, the first that is remembered. -/
def noteFirstTimeout (m : Nat) (d : Dev) : Dev :=
  (d.bump Fam.memberTimeouts m).setMem m { d.mem m with timeoutAt := [d.tm.now] }

theorem noteFirstTimeout_mem (m : Nat) (d : Dev) : (noteFirstTimeout m d).mem m = { d.mem m with timeoutAt := [d.tm.now] } :=
  mem_setMem _ _ _

theorem noteFirstTimeout_failTimeouts (m : Nat) (d : Dev) :
    (noteFirstTimeout m d).val Fam.memberFailTimeouts = d.val Fam.memberFailTimeouts :=
  val_addVal_other d 1 (by rw [Ne, valKey_inj (by decide) (by decide)]; exact fun e => absurd e.1 (by decide))

/-- What the timeout counts where none is remembered. -/
theorem noteTimeout_eq_first {m : Nat} {d : Dev} (first : (d.mem m).timeoutAt = []) :
    ((d.bump Fam.memberTimeouts m).setMem m { (d.bump Fam.memberTimeouts m).mem m with
      timeoutAt := recentTimeouts (d.bump Fam.memberTimeouts m) m ++ [(d.bump Fam.memberTimeouts m).tm.now] })
      = noteFirstTimeout m d := by
  simp only [recentTimeouts, bump_mem, first, bump_tm, List.filter_nil, List.nil_append, noteFirstTimeout]

theorem memberTimeout_firstOfPlatter {tag : Nat} {c : MCmd} {d : Dev}
    (found : d.mb.cmds.find? (fun c => c.tag == tag && !c.expired && !c.waiting) = some c) (platter : isPlatter c.member = true)
    (online : (d.mem c.member).st = .online) (several : 1 < d.val Fam.memberFailTimeouts)
    (first : (d.mem c.member).timeoutAt = []) :
    memberTimeout tag d = settle (cmdExpired c (memberMove c.member .slow 0 (noteFirstTimeout c.member d))) := by
  have few : ¬ (noteFirstTimeout c.member d).val Fam.memberFailTimeouts
      ≤ (recentTimeouts (noteFirstTimeout c.member d) c.member).length := by
    have atMostOne := recentTimeouts_length_le (noteFirstTimeout c.member d) c.member
    rw [noteFirstTimeout_mem, List.length_singleton] at atMostOne
    rw [noteFirstTimeout_failTimeouts]
    omega
  have stillOnline : ((noteFirstTimeout c.member d).mem c.member).st = .online := by rw [noteFirstTimeout_mem, online]
  simp only [memberTimeout, found, noteTimeout_eq_first first, few, stillOnline, escalate_platter platter, false_and, true_or,
    if_true, if_false]

/-! ### The escalation of a timeout (R303) -/

theorem controllerReset_mem (m : Nat) (d : Dev) :
    (controllerReset m d).mem m = { d.mem m with esc := .disabling, queues := false } :=
  (bump_mem _ _ _ m).trans (mem_setMem _ _ _)

theorem controllerReset_out (m : Nat) (d : Dev) : (controllerReset m d).out = d.out ++ [.memberCtl m "clear CC.EN" 0] :=
  congrArg (· ++ [_]) (bump_out _ _ _)

theorem abortWait_resets {m t : Nat} {r : List Nat} {d : Dev} (aborting : (d.mem m).esc = .aborting (t :: r)) :
    abortWait m d = controllerReset m d := by
  simp only [abortWait, aborting]

/-- R303 step 3: the link of a member behind a switch gets a hot reset, that of another a pulse of MP_PERST_N. -/
theorem readyLimit_relinks {m : Nat} {d : Dev} (resetting : (d.mem m).esc = .disabling ∨ (d.mem m).esc = .enabling) :
    readyLimit m d = memberCtl m (if (d.mem m).levels = 0 then "MP_PERST_N pulse" else "hot reset") (d.mem m).port
      (memberCtl m "function level reset" 0 (d.setMem m { d.mem m with esc := .relinking })) := by
  simp only [readyLimit, resetting, if_true]
  split <;> rfl

/-! ### PROBE_ISSUE (R262) -/

theorem probeIssue_reads {m : Nat} {d : Dev} (slow : (d.mem m).st = .slow) (queues : (d.mem m).queues = true)
    (fenced : (d.mem m).unfenced = false) (executing : d.executing = true)
    (free : ∀ c ∈ d.mb.cmds, c.member = m → c.dead = true ∨ c.why ≠ .probe ∧ c.why ≠ .fence ∧ c.why ≠ .label) :
    probeIssue m d = issue m false 0 4096 [] .probe d := by
  have notBusy : (d.mb.cmds.any fun c => c.member == m && !c.dead && (c.why == .probe || c.why == .fence || c.why == .label))
      = false := by
    rw [List.any_eq_false]
    intro c mem busy
    simp only [Bool.and_eq_true, Bool.or_eq_true, beq_iff_eq, Bool.not_eq_true'] at busy
    obtain ⟨⟨here, alive⟩, use⟩ := busy
    rcases free c mem here with dead | ⟨noProbe, noFence, noLabel⟩
    · rw [dead] at alive; exact absurd alive (by decide)
    · rcases use with (probe | fence) | label
      · exact noProbe probe
      · exact noFence fence
      · exact noLabel label
  simp [probeIssue, slow, notBusy, queues, fenced, executing]

/-! ### HOTPLUG_ARRIVAL (R292 to R294) -/

theorem halfUp_mb (port half : Nat) (d : Dev) :
    (halfUp port half d).mb = { d.mb with down := d.mb.down.filter (· != (port, half)) } := by
  unfold halfUp
  dsimp only
  split
  · rfl
  · rw [hubFall_keeps]

theorem halfUp_mem (port half m : Nat) (d : Dev) : (halfUp port half d).mem m = d.mem m := by
  rw [Dev.mem, Dev.mem, halfUp_mb]

/-- Controllers are enabled again where one waits for that; here none does. -/
theorem foldl_enable_eq {d : Dev} (settled : ∀ m, (d.mem m).esc ≠ .disabling) (l : List Nat) :
    l.foldl (fun e m => if (e.mem m).esc = .disabling then
      memberCtl m "set CC.EN" 0 (e.setMem m { e.mem m with esc := .enabling }) else e) d = d := by
  induction l with
  | nil => rfl
  | cons m l ih => rw [List.foldl_cons, if_neg (settled m), ih]

theorem halfExists_undivided {d : Dev} {port half : Nat} (undivided : d.mb.bifurcated.contains port = false) (other : half ≠ 0) :
    halfExists d port half = false := by
  simp only [halfExists, undivided, Bool.and_false, Bool.or_false, beq_false_of_ne other]

theorem hotplug_noHalf {d : Dev} {port half : Nat} (h : halfExists d port half = false) (levels : Nat × Nat) (speed width : Nat) :
    hotplug port half levels speed width d = d :=
  if_neg fun conditions => ne_true_of_eq_false h conditions.1

theorem hotplug_trains {d : Dev} {port half levels speed width : Nat} (bus : Nat) (h : halfExists d port half = true)
    (unstopped : d.unstopped = true) (run : portsRun d = true) (shallow : levels ≤ 3) (lo : 1 ≤ speed) (hi : speed ≤ 5)
    (lanes : width = 1 ∨ width = 2 ∨ (width = 4 ∧ d.mb.bifurcated.contains port = false))
    (settled : ∀ m, (d.mem m).esc ≠ .disabling) :
    hotplug port half (levels, bus) speed width d =
      halfUp port half (setMportLink port half (speed % 16 + width % 16 * 16 + 256) d) := by
  have stillSettled m : ((halfUp port half (setMportLink port half (speed % 16 + width % 16 * 16 + 256) d)).mem m).esc
      ≠ .disabling := by rw [halfUp_mem]; exact settled m
  unfold hotplug
  rw [if_pos ⟨h, lo, hi, lanes, unstopped, run⟩]
  dsimp only
  rw [foldl_enable_eq stillSettled, if_neg (Nat.not_lt.mpr shallow)]

/-! ### CONTROLLER_READY (R294 to R297) -/

theorem controllerReady_unknown {c : Controller} {d : Dev} (unknown : d.mb.dir.find? (·.2 == identOf c) = none) :
    controllerReady c d = admitMember c d := by
  simp only [controllerReady, unknown]

theorem controllerReady_reset {c : Controller} {d : Dev} {m : Nat} {i : BitVec 128}
    (known : d.mb.dir.find? (·.2 == identOf c) = some (m, i)) (present : (d.mem m).st ≠ .absent)
    (enabling : (d.mem m).esc = .enabling) (inTime : c.rdyInTime = true) :
    controllerReady c d = resetDone m (halfUp (d.mem m).port (d.mem m).half d) := by
  simp only [controllerReady, known]
  exact if_pos ⟨present, .inl enabling, inTime⟩

theorem identOf_nguid {c : Controller} (h : c.nguid ≠ 0) : identOf c = c.nguid := if_neg h

theorem identOf_eui64 {c : Controller} (h : c.nguid = 0) : identOf c = c.eui64.setWidth 128 := if_pos h

/-- R310: a foreign reservation passes only where pairing is disabled. -/
theorem unpaired_of_foreign {c : Controller} {d : Dev} {vault : Bool} (meets : rejectCode d c vault = none)
    (foreign : c.foreignResv = true) : d.flag Fam.pairEnable = false := by
  by_contra paired
  rw [Bool.not_eq_false] at paired
  revert meets
  simp only [rejectCode, foreign, paired, Bool.true_or, Bool.and_self, if_true]
  repeat' split
  all_goals exact fun meets => absurd meets (by simp)

theorem nameMember_pairEnable (m : Nat) (c : Controller) (d : Dev) :
    (nameMember m c d).flag Fam.pairEnable = d.flag Fam.pairEnable := by
  refine congrArg (· != 0) ?_
  exact val_setVal_family (g := Fam.pairEnable) (f := Fam.memberReject) _ 0 (by decide) (by decide) (by decide)

section
variable {c : Controller} {d : Dev} (nvme : c.nvme = true) (half : halfExists d c.port c.half = true)
include nvme half

theorem admitMember_tooDeep (deep : 3 < c.levels) : admitMember c d = raise (0x0C1 + 2 * c.port) (c.bus % 256) false d := by
  simp [admitMember, nvme, half, deep]

variable (shallow : c.levels ≤ 3) (unknown : d.mb.dir.find? (·.2 == identOf c) = none)
include shallow unknown

theorem admitMember_rejected {m r : Nat} (place : directoryIndex d (identOf c) = some m) (fails : rejectCode d c false = some r) :
    admitMember c d = ({ d with mb := { d.mb with dir := tput d.mb.dir m (identOf c) } }).setVal Fam.memberReject m r := by
  simp [admitMember, nvme, half, shallow, unknown, place, fails]

theorem admitMember_full (full : directoryIndex d (identOf c) = none) (meets : rejectCode d c false = none) :
    admitMember c d =
      raise 0x235 (c.port % 32 + c.half % 2 * 32 + c.bus % 256 * 256) false (d.bump Fam.mportDirFullRejects) := by
  simp [admitMember, nvme, half, shallow, unknown, full, meets]

theorem admitMember_joins {m : Nat} (place : directoryIndex d (identOf c) = some m) (meets : rejectCode d c false = none) :
    admitMember c d = settle (joinMember m c.label (setUp m c
      (if c.foreignResv then clearForeign m (nameMember m c d) else nameMember m c d))) := by
  have permitted : (c.foreignResv && !(nameMember m c d).flag Fam.pairEnable) = c.foreignResv := by
    cases foreign : c.foreignResv
    · rfl
    · rw [nameMember_pairEnable, unpaired_of_foreign meets foreign]; rfl
  simp [admitMember, nvme, half, shallow, unknown, place, meets, permitted]

end

/-! ### Warnings and links that stay down (R305, R306) -/

theorem linkDownTimeout_gone {m : Nat} {d : Dev} (solid : isPlatter m = false) (present : (d.mem m).st ≠ .absent)
    (down : (d.mem m).queues = false) : linkDownTimeout m d = memberGone m 2 d := by
  simp [linkDownTimeout, solid, present, down]

section
variable {s : State} {m : Nat} (run : portsRun s.dev = true) (solid : isPlatter m = false)
include run solid

theorem exec_memberCriticalWarning_solid (a : MemberAlarm) :
    exec (.memberCriticalWarning m a) s = .next { s with dev := memberAlarm m a s.dev } :=
  runs_of_onDev rfl (if_pos (by rw [run, solid]; rfl))

variable (present : (s.dev.mem m).st ≠ .absent)
include present

theorem exec_memberCriticalWarning_warning (b : Byte) :
    exec (.memberCriticalWarning m (.warning b)) s = .next { s with dev := criticalWarning m b s.dev } := by
  rw [exec_memberCriticalWarning_solid run solid, memberAlarm, if_neg present]

theorem exec_memberCriticalWarning_fatal :
    exec (.memberCriticalWarning m .fatal) s = .next { s with dev := settle (memberFails m 1 s.dev) } := by
  rw [exec_memberCriticalWarning_solid run solid, memberAlarm, if_neg present]

end

theorem criticalWarning_noted {b : Byte} (m : Nat) (d : Dev) (warns : b.toNat % 8 ≠ 0) (works : b.toNat / 8 % 8 = 0) :
    criticalWarning m b d = raise 0x234 (m + b.toNat * 2 ^ 24) false (memberCtl m "Asynchronous Event Request" 0 d) := by
  simp only [criticalWarning, warns, works, if_true, if_false]

theorem criticalWarning_fails {b : Byte} (m : Nat) (d : Dev) (noWarning : b.toNat % 8 = 0) (broken : b.toNat / 8 % 8 ≠ 0) :
    criticalWarning m b d = settle (memberFails m 1 (memberCtl m "Asynchronous Event Request" 0 d)) := by
  simp only [criticalWarning, noWarning, broken, if_true, if_false]

/-- Settles O25: each command by its equation in the clause's case. -/
theorem memberCommandsEndAndEscalate : Obligations.MemberCommandsEndAndEscalate := by
  refine ⟨?completes, ?errorLog, ?retry, ?timeout, ?firstTimeout, ?abortWait, ?rdyFall, ?readyLimit, ?noReturn, ?probe, ?absent,
    ?arrival, ?noHalf, ?newController, ?resetEnds, ?ident, ?tooDeep, ?admission, ?linkDown, ?pathError, ?alarm, ?smart⟩
  case completes =>
    intro s tag c data up found alive wanted
    exact ⟨runs_of_onDev rfl ((if_pos up).trans (commandComplete_success found alive wanted data)),
      runs_of_onDev rfl ((if_pos up).trans (commandComplete_notReady found data)),
      runs_of_onDev rfl ((if_pos up).trans (commandComplete_aborted found alive wanted data)),
      fun read => runs_of_onDev rfl ((if_pos up).trans (commandComplete_unreadable found alive wanted read data)),
      fun noTie => runs_of_onDev rfl ((if_pos up).trans (commandComplete_conflict found alive wanted noTie data)),
      fun write => runs_of_onDev rfl ((if_pos up).trans (commandComplete_writeFails found alive wanted write data))⟩
  case errorLog => intro m d solid; exact noteError_solid solid d
  case retry =>
    intro s tag c found alive issued executing io
    exact runs_of_onDev rfl (notReadyRetry_sends found alive issued executing io)
  case timeout => intro s tag up light; exact runs_of_onDev rfl (if_pos (by rw [up, light]; rfl))
  case firstTimeout =>
    intro tag c d found platter online several first
    exact ⟨_, rfl, memberTimeout_firstOfPlatter found platter online several first⟩
  case abortWait =>
    intro s m t r working aborting
    exact ⟨_, runs_of_onDev rfl ((if_pos working).trans (abortWait_resets aborting)), controllerReset_mem m s.dev,
      controllerReset_out m s.dev⟩
  case rdyFall => intro s m working disabling; exact runs_of_onDev rfl ((if_pos working).trans (if_pos disabling))
  case readyLimit =>
    intro s m working resetting
    exact ⟨_, runs_of_onDev rfl ((if_pos working).trans (readyLimit_relinks resetting)), mem_setMem _ _ _,
      List.append_assoc s.dev.out [_] [_]⟩
  case noReturn => intro s m working relinking; exact runs_of_onDev rfl ((if_pos working).trans (if_pos relinking))
  case probe =>
    intro s m slow queues fenced executing free
    exact runs_of_onDev rfl (probeIssue_reads slow queues fenced executing free)
  case absent => intro s m working absent holds; exact runs_of_onDev rfl ((if_pos working).trans (if_pos ⟨absent, holds⟩))
  case arrival =>
    intro s port half levels bus speed width h unstopped run shallow lo hi lanes settled
    exact runs_of_onDev rfl (hotplug_trains bus h unstopped run shallow lo hi lanes settled)
  case noHalf =>
    intro s port half levels bus speed width undivided other
    exact runs_of_onDev rfl (hotplug_noHalf (halfExists_undivided undivided other) (levels, bus) speed width)
  case newController =>
    intro s c run unstopped unknown
    exact runs_of_onDev rfl ((if_pos (by rw [run, unstopped]; rfl)).trans (controllerReady_unknown unknown))
  case resetEnds =>
    intro s c m i run unstopped known present enabling inTime
    exact runs_of_onDev rfl ((if_pos (by rw [run, unstopped]; rfl)).trans (controllerReady_reset known present enabling inTime))
  case ident => exact fun c => ⟨identOf_nguid, identOf_eui64⟩
  case tooDeep => intro c d nvme half deep; exact admitMember_tooDeep nvme half deep
  case admission =>
    intro c m r d nvme half shallow unknown
    refine ⟨admitMember_rejected nvme half shallow unknown, fun place meets own => ?_, fun place meets foreign => ?_,
      admitMember_full nvme half shallow unknown⟩
    · exact (admitMember_joins nvme half shallow unknown place meets).trans (by rw [own]; rfl)
    · exact (admitMember_joins nvme half shallow unknown place meets).trans (by rw [foreign]; rfl)
  case linkDown =>
    intro s m run solid present down
    exact runs_of_onDev rfl ((if_pos run).trans (linkDownTimeout_gone solid present down))
  case pathError => intro s port half e l run h; exact runs_of_onDev rfl (if_pos (by rw [run, h]; rfl))
  case alarm =>
    intro s m b run solid present
    have reacts := exec_memberCriticalWarning_warning run solid present b
    exact ⟨fun warns works => by rw [reacts, criticalWarning_noted m s.dev warns works],
      fun noWarning broken => by rw [reacts, criticalWarning_fails m s.dev noWarning broken],
      exec_memberCriticalWarning_fatal run solid present⟩
  case smart =>
    intro s m t up light solid present
    exact runs_of_onDev rfl (if_pos (by simp [up, light, solid, present]))

end Sys2Proof.Machine
end


section
/-!
SUPPORT. The codeword of a sector (R326, R327): the lengths of its parts, the staircase of parity blocks and why it makes the syndrome
zero, and O53.
-/

namespace Sys2Proof.Machine

/-! ### Blocks of one length -/

section
variable {α : Type} {k : Nat}

/-- Blocks of one length, strung together and cut again. -/
theorem cut_flatten {l : List (List α)} (blocks : ∀ c ∈ l, c.length = k) :
    ((List.range l.length).map fun i => (l.flatten.drop (k * i)).take k) = l := by
  induction l with
  | nil => rfl
  | cons c r ih =>
    have first : c.length = k := blocks c (by simp)
    have shift (i : Nat) : k * (i + 1) = c.length + k * i := by rw [first, Nat.mul_succ, Nat.add_comm]
    have rest := ih fun e mem => blocks e (by simp [mem])
    rw [List.length_cons, List.range_succ_eq_map, List.map_cons, List.map_map, List.flatten_cons]
    congr 1
    · simp [← first]
    · simpa [Function.comp_def, shift, ← List.drop_drop] using rest

theorem length_flatten_of_blocks {l : List (List α)} (blocks : ∀ c ∈ l, c.length = k) : l.flatten.length = k * l.length := by
  rw [List.length_flatten, List.map_congr_left blocks, List.map_const', List.sum_replicate, Nat.mul_comm, smul_eq_mul]

end

/-! ### Exclusive or of bit strings -/

theorem length_xorBits {a b : List Bool} {n : Nat} (ha : a.length = n) (hb : b.length = n) : (xorBits a b).length = n := by
  simp [xorBits, ha, hb]

theorem xorBits_self {a : List Bool} {n : Nat} (h : a.length = n) : xorBits a a = List.replicate n false := by
  subst h
  induction a with
  | nil => rfl
  | cons x r ih => rw [List.length_cons, List.replicate_succ, ← ih, xorBits, List.zipWith_cons_cons, Bool.xor_self]; rfl

theorem xorBits_xorBits_cancel {a b : List Bool} (h : a.length = b.length) : xorBits a (xorBits a b) = b := by
  induction a generalizing b with
  | nil => rw [List.length_eq_zero_iff.mp h.symm]; rfl
  | cons x r ih =>
    obtain _ | ⟨y, q⟩ := b
    · cases h
    · have rest : xorBits r (xorBits r q) = q := ih (Nat.succ.inj h)
      simpa [xorBits] using rest

/-! ### Blocks of 256 bits -/

theorem length_zeroBlock : zeroBlock.length = 256 := List.length_replicate

theorem length_rotated (s : Nat) (b : Circ) : (rotated s b).length = b.length := by
  simp only [rotated, List.length_append, List.length_drop, List.length_take]
  omega

theorem length_of_mem_circBlocks {n : Nat} {b : List Bool} (long : 256 * n ≤ b.length) : ∀ c ∈ circBlocks n b, c.length = 256 := by
  intro c mem
  obtain ⟨i, hi, rfl⟩ := List.mem_map.mp mem
  have inRange := List.mem_range.mp hi
  simp only [List.length_take, List.length_drop]
  omega

theorem length_infoSyndrome {u : List Circ} (blocks : ∀ c ∈ u, c.length = 256) (r : Nat) : (infoSyndrome u r).length = 256 := by
  unfold infoSyndrome
  refine List.foldlRecOn (motive := fun acc : Circ => acc.length = 256) _ _ length_zeroBlock fun acc hacc e mem => ?column
  have block : e.2.length = 256 := blocks e.2 (List.of_mem_zip mem).2
  refine List.foldlRecOn (motive := fun acc : Circ => acc.length = 256) _ _ hacc fun acc hacc t _ => ?circulant
  split
  · exact length_xorBits hacc ((length_rotated _ _).trans block)
  · exact hacc

/-! ### The staircase (R327) -/

/-- The parity block above block row `q`: none for the first row, else the one that the row before gave. -/
def staircase (u : List Circ) : Nat → Circ
  | 0 => zeroBlock
  | q + 1 => xorBits (infoSyndrome u q) (staircase u q)

theorem parityBlocks_eq (u : List Circ) : parityBlocks u = (List.range 16).map fun q => staircase u (q + 1) := by
  have rows (n : Nat) : (List.range n).foldl (fun (acc : List Circ × Circ) q =>
      let p := xorBits (infoSyndrome u q) acc.2
      (acc.1 ++ [p], p)) ([], zeroBlock) = ((List.range n).map fun q => staircase u (q + 1), staircase u n) := by
    induction n with
    | zero => rfl
    | succ n ih => rw [List.range_succ, List.foldl_append, ih, List.map_append]; rfl
  rw [parityBlocks, rows]

section
variable {u : List Circ} (blocks : ∀ c ∈ u, c.length = 256)
include blocks

theorem length_staircase (q : Nat) : (staircase u q).length = 256 := by
  induction q with
  | zero => exact length_zeroBlock
  | succ q ih => exact length_xorBits (length_infoSyndrome blocks q) ih

theorem length_of_mem_parityBlocks : ∀ c ∈ parityBlocks u, c.length = 256 := by
  intro c mem
  rw [parityBlocks_eq] at mem
  obtain ⟨q, -, rfl⟩ := List.mem_map.mp mem
  exact length_staircase blocks (q + 1)

/-- The information part of a row and its parity block leave the parity block of the row before, which the row holds too. -/
theorem syndromeZero_parityBlocks : syndromeZero u (parityBlocks u) = true := by
  have parity {q : Nat} (h : q < 16) : (parityBlocks u).getD q zeroBlock = staircase u (q + 1) := by
    simp [parityBlocks_eq, List.getD_eq_getElem?_getD, h]
  have row (r : Nat) : xorBits (infoSyndrome u r) (staircase u (r + 1)) = staircase u r :=
    xorBits_xorBits_cancel ((length_infoSyndrome blocks r).trans (length_staircase blocks r).symm)
  simp only [syndromeZero, List.all_eq_true, List.mem_range, beq_iff_eq]
  intro r hr
  rw [parity hr, row]
  obtain _ | q := r
  · rfl
  · rw [if_neg (Nat.succ_ne_zero q), Nat.add_sub_cancel, parity (by omega)]
    exact xorBits_self (length_staircase blocks (q + 1))

end

/-! ### The parts of a codeword (R326) -/

theorem length_msb (n v : Nat) : (msb n v).length = n := by simp [msb]

theorem length_infoBits {user : List Byte} (h : user.length = 4096) (crc : Word) (t : SectorTag) :
    (infoBits user crc t).length = 33024 := by
  have bytes : (user.flatMap fun b => msb 8 b.toNat).length = 32768 := by
    simp only [List.length_flatMap, length_msb, List.map_const', List.sum_replicate, smul_eq_mul, h]
  simp only [infoBits, List.length_append, length_msb, bytes]

section
variable {user : List Byte} (h : user.length = 4096) (t : SectorTag)
include h

/-- The 129 information blocks of the sector. -/
theorem infoBlocks_length :
    ∀ c ∈ circBlocks 129 (infoBits user (sectorCrc user t) t), c.length = 256 :=
  length_of_mem_circBlocks (by rw [length_infoBits h])

theorem take_codeword : (codeword user t).take 33024 = infoBits user (sectorCrc user t) t :=
  List.take_left' (length_infoBits h _ t)

theorem drop_codeword :
    (codeword user t).drop 33024 = (parityBlocks (circBlocks 129 (infoBits user (sectorCrc user t) t))).flatten :=
  List.drop_left' (length_infoBits h _ t)

theorem length_parity : ((codeword user t).drop 33024).length = 4096 := by
  rw [drop_codeword h, length_flatten_of_blocks (length_of_mem_parityBlocks (infoBlocks_length h t)), parityBlocks_eq]
  simp

theorem length_codeword : (codeword user t).length = 37120 := by
  rw [← List.take_append_drop 33024 (codeword user t), List.length_append, take_codeword h, length_infoBits h, length_parity h]

/-- What a read of the codeword gives back where no bit of it has changed. -/
def attemptOf (user : List Byte) (t : SectorTag) : Attempt :=
  { user := user, crc := sectorCrc user t, tag := t, parity := (codeword user t).drop 33024 }

theorem attemptPasses_attemptOf : attemptPasses (attemptOf user t) t = true := by
  have blocks := infoBlocks_length h t
  have parity : circBlocks 16 ((codeword user t).drop 33024)
      = parityBlocks (circBlocks 129 (infoBits user (sectorCrc user t) t)) := by
    have cut := cut_flatten (length_of_mem_parityBlocks blocks)
    rwa [← drop_codeword h, show (parityBlocks _).length = 16 by simp [parityBlocks_eq]] at cut
  simp [attemptPasses, attemptOf, h, length_parity h t, parity, syndromeZero_parityBlocks blocks]

end

theorem attemptPasses_otherTag {a : Attempt} {t : SectorTag} (other : a.tag ≠ t) : attemptPasses a t = false := by
  simp [attemptPasses, other]

/-! ### The end of a read -/

theorem decodeEnd_missed {iters rounds frags : Nat} {r : SectorRead} {wide : Bool} (t : SectorTag)
    (h : r.marks.length < frags
      ∨ ∃ b ∈ r.marks, acceptMark (if wide then 64 else 16) (markPlaces (if wide then 64 else 16) b) = none) :
    decodeEnd iters rounds r t wide frags = .missed := by
  refine if_pos (h.imp_right fun ⟨b, mem, refused⟩ => List.any_eq_true.mpr ⟨b, mem, by rw [refused]; rfl⟩)

/-- With its marks found, a read whose first iteration passes ends at step 1. -/
theorem decodeEnd_first {iters rounds frags : Nat} {r : SectorRead} {wide : Bool} {t : SectorTag} {a : Attempt}
    {l : List Attempt} (first : r.first = a :: l) (passes : attemptPasses a t = true) (pos : 0 < iters) (enough : frags ≤ r.marks.length)
    (found : ∀ b ∈ r.marks, (acceptMark (if wide then 64 else 16) (markPlaces (if wide then 64 else 16) b)).isSome = true) :
    decodeEnd iters rounds r t wide frags = .first a.user := by
  obtain ⟨i, rfl⟩ := Nat.exists_eq_add_one.mpr pos
  have decodes : decoded (i + 1) t r.first = some a := by
    rw [first, decoded, List.take_succ_cons, List.find?_cons_of_pos (p := (attemptPasses · t)) passes]
  have noneMissed : ¬ r.marks.any (fun b =>
      (acceptMark (if wide then 64 else 16) (markPlaces (if wide then 64 else 16) b)).isNone) = true := by
    simpa [← Option.isSome_iff_ne_none] using found
  have marked := not_or.mpr ⟨Nat.not_lt.mpr enough, noneMissed⟩
  exact (if_neg marked).trans (by rw [decodes])

/-- Settles O53: the parity blocks of the staircase make the syndrome zero (`syndromeZero_parityBlocks`). -/
theorem writtenSectorsReadBack : Obligations.WrittenSectorsReadBack := by
  refine ⟨fun user t h => ⟨length_codeword h t, take_codeword h t, attemptOf user t, rfl, rfl, rfl, rfl,
    attemptPasses_attemptOf h t, ?firstStep⟩, fun a t other => attemptPasses_otherTag other⟩
  intro r i m w k l first pos enough found
  exact decodeEnd_first first (attemptPasses_attemptOf h t) pos enough found

end Sys2Proof.Machine
end


section
/-!
SUPPORT. The choice of a sync mark (R330, R331): the order of the candidates, the best of a list, the positions compared, and O54.
-/

namespace Sys2Proof.Machine

/-! ### The order of the candidates -/

/-- `a` is at least as good as `b`: in differing bits, then in distance, then in place. -/
abbrev MarkAtLeast (a b : Int × Nat) : Prop :=
  a.2 < b.2 ∨ (a.2 = b.2 ∧ (a.1.natAbs < b.1.natAbs ∨ (a.1.natAbs = b.1.natAbs ∧ a.1 ≤ b.1)))

theorem markBetter_eq_true_iff (a b : Int × Nat) :
    markBetter a b = true ↔ a.2 < b.2 ∨ (a.2 = b.2 ∧ (a.1.natAbs < b.1.natAbs ∨ (a.1.natAbs = b.1.natAbs ∧ a.1 < b.1))) := by
  simp [markBetter]

theorem markBetter_atLeast {a b : Int × Nat} (h : markBetter a b = true) : MarkAtLeast a b := by
  rw [markBetter_eq_true_iff] at h
  omega

theorem not_markBetter_atLeast {a b : Int × Nat} (h : ¬ markBetter a b = true) : MarkAtLeast b a := by
  rw [markBetter_eq_true_iff] at h
  omega

theorem MarkAtLeast.refl (a : Int × Nat) : MarkAtLeast a a := .inr ⟨rfl, .inr ⟨rfl, le_rfl⟩⟩

theorem MarkAtLeast.trans {a b c : Int × Nat} (h : MarkAtLeast a b) (k : MarkAtLeast b c) : MarkAtLeast a c := by
  unfold MarkAtLeast at *
  omega

/-! ### The best of a list -/

/-- R330: the candidates among the positions compared. -/
def markCandidates (w : Nat) (l : List (Int × Nat)) : List (Int × Nat) :=
  l.filter fun c => decide (c.2 ≤ 2) && decide (c.1.natAbs ≤ w)

theorem mem_markCandidates {w : Nat} {l : List (Int × Nat)} {c : Int × Nat} :
    c ∈ markCandidates w l ↔ c ∈ l ∧ c.2 ≤ 2 ∧ c.1.natAbs ≤ w := by
  simp [markCandidates]

/-- The better of a candidate and the best one so far. -/
def keepBetter (best : Option (Int × Nat)) (c : Int × Nat) : Option (Int × Nat) :=
  match best with
  | none => some c
  | some b => if markBetter c b then some c else some b

theorem acceptMark_eq (w : Nat) (l : List (Int × Nat)) : acceptMark w l = (markCandidates w l).foldl keepBetter none := rfl

theorem keepBetter_some (b c : Int × Nat) :
    ∃ d, keepBetter (some b) c = some d ∧ (d = b ∨ d = c) ∧ MarkAtLeast d b ∧ MarkAtLeast d c := by
  by_cases h : markBetter c b = true
  · exact ⟨c, if_pos h, .inr rfl, markBetter_atLeast h, .refl c⟩
  · exact ⟨b, if_neg h, .inl rfl, .refl b, not_markBetter_atLeast h⟩

theorem foldl_keepBetter_some (l : List (Int × Nat)) (b : Int × Nat) :
    ∃ c, l.foldl keepBetter (some b) = some c ∧ c ∈ b :: l ∧ ∀ e ∈ b :: l, MarkAtLeast c e := by
  induction l generalizing b with
  | nil => exact ⟨b, rfl, by simp, fun e mem => by rw [List.mem_singleton.mp mem]; exact .refl b⟩
  | cons x r ih =>
    obtain ⟨d, kept, one, overB, overX⟩ := keepBetter_some b x
    obtain ⟨c, result, mem, best⟩ := ih d
    have overD := best d (by simp)
    refine ⟨c, by rw [List.foldl_cons, kept, result], ?mem, fun e he => ?best⟩
    case mem => rcases List.mem_cons.mp mem with rfl | later <;> grind
    case best =>
      rcases List.mem_cons.mp he with rfl | he
      · exact overD.trans overB
      · rcases List.mem_cons.mp he with rfl | later
        · exact overD.trans overX
        · exact best e (List.mem_cons_of_mem _ later)

/-- There is an accepted position exactly if there is a candidate, and it is the best of them. -/
theorem acceptMark_cases (w : Nat) (l : List (Int × Nat)) :
    (markCandidates w l = [] ∧ acceptMark w l = none)
      ∨ ∃ c, acceptMark w l = some c ∧ c ∈ markCandidates w l ∧ ∀ e ∈ markCandidates w l, MarkAtLeast c e := by
  rw [acceptMark_eq]
  cases markCandidates w l with
  | nil => exact .inl ⟨rfl, rfl⟩
  | cons b r => exact .inr (foldl_keepBetter_some r b)

theorem acceptMark_some {w : Nat} {l : List (Int × Nat)} {c : Int × Nat} (h : acceptMark w l = some c) :
    c ∈ markCandidates w l ∧ ∀ e ∈ markCandidates w l, MarkAtLeast c e := by
  rcases acceptMark_cases w l with ⟨-, refused⟩ | ⟨d, accepted, best⟩
  · rw [refused] at h; cases h
  · rw [accepted] at h; cases h; exact best

theorem acceptMark_eq_none_iff (w : Nat) (l : List (Int × Nat)) : acceptMark w l = none ↔ markCandidates w l = [] := by
  rcases acceptMark_cases w l with ⟨empty, refused⟩ | ⟨d, accepted, mem, -⟩
  · simp [empty, refused]
  · simp [accepted, List.ne_nil_of_mem mem]

/-! ### The positions compared (R330) -/

theorem natAbs_of_mem_markPlaces {w : Nat} {bits : List Bool} {c : Int × Nat} (h : c ∈ markPlaces w bits) : c.1.natAbs ≤ w := by
  obtain ⟨i, hi, rfl⟩ := List.mem_map.mp h
  have inRange := List.mem_range.mp hi
  dsimp only
  omega

theorem length_syncMark : syncMark.length = 24 := length_msb 24 _

theorem exact_mem_markPlaces {pre : List Bool} {w : Nat} (post : List Bool) (long : pre.length = 64) (window : w ≤ 64) :
    (0, 0) ∈ markPlaces w (pre ++ syncMark ++ post) := by
  refine List.mem_map.mpr ⟨w, List.mem_range.mpr (by omega), ?_⟩
  have seen : ((pre ++ syncMark ++ post).drop (64 - w + w)).take 24 = syncMark := by
    rw [Nat.sub_add_cancel window, List.append_assoc, List.drop_left' long, List.take_left' length_syncMark]
  dsimp only
  rw [seen, xorBits_self length_syncMark, length_syncMark, Int.sub_self, List.count_replicate]
  rfl

/-- Settles O54: the fold over the candidates keeps the best one so far (`foldl_keepBetter_some`). -/
theorem syncMarkIsTheBestCandidate : Obligations.SyncMarkIsTheBestCandidate := by
  refine ⟨?best, ?none, fun i m r t w k missed => decodeEnd_missed t missed,
    fun pre post w long window => exact_mem_markPlaces post long window, fun w bits c => natAbs_of_mem_markPlaces⟩
  case best =>
    intro w l c accepted
    obtain ⟨candidate, best⟩ := acceptMark_some accepted
    obtain ⟨mem, few, near⟩ := mem_markCandidates.mp candidate
    exact ⟨mem, few, near, fun e he few near => best e (mem_markCandidates.mpr ⟨he, few, near⟩)⟩
  case none =>
    intro w l
    rw [acceptMark_eq_none_iff, List.eq_nil_iff_forall_not_mem]
    exact forall_congr' fun e => by rw [mem_markCandidates, not_and]

end Sys2Proof.Machine
end


section
/-!
SUPPORT. Bytes of the Lens tables (R334, R360, R361): what a field gives that was written little-endian, signed values, the fields of
headers, zone entries and reallocation entries, and O60.
-/

namespace Sys2Proof.Machine

/-! ### Little-endian numbers (R8) -/

@[simp] theorem length_le (n v : Nat) : (le n v).length = n := by simp [le]

theorem le_succ (n v : Nat) : le (n + 1) v = BitVec.ofNat 8 v :: le n (v / 256) := by
  have shift (i : Nat) : v / 2 ^ (8 * (i + 1)) = v / 256 / 2 ^ (8 * i) := by
    rw [Nat.div_div_eq_div_mul, show (256 : Nat) = 2 ^ 8 from rfl, ← pow_add, Nat.mul_succ, Nat.add_comm]
  rw [le, List.range_succ_eq_map, List.map_cons, List.map_map]
  simp only [Function.comp_def, shift, Nat.mul_zero, pow_zero, Nat.div_one]
  rfl

theorem unle_le (n v : Nat) : unle (le n v) = v % 256 ^ n := by
  induction n generalizing v with
  | zero => simp [le, unle, Nat.mod_one]
  | succ n ih =>
    rw [le_succ, unle, ih, BitVec.toNat_ofNat, pow_succ' 256 n, Nat.mod_mul]

/-! ### Signed values -/

/-- The byte of a signed number. -/
def le8 (v : Int) : List Byte := [byteOf v]

@[simp] theorem length_le8 (v : Int) : (le8 v).length = 1 := rfl

theorem toInt_byteOf {v : Int} (h : -128 ≤ v ∧ v < 128) : (byteOf v).toInt = v := by
  rw [byteOf, BitVec.toInt_ofInt, Int.bmod_eq_of_le] <;> omega

/-- The two bytes of a signed number, least significant first. -/
def le16 (v : Int) : List Byte := le 2 (BitVec.ofInt 16 v).toNat

@[simp] theorem length_le16 (v : Int) : (le16 v).length = 2 := length_le _ _

theorem toInt_unle_le16 {v : Int} (h : -32768 ≤ v ∧ v < 32768) : (BitVec.ofNat 16 (unle (le16 v))).toInt = v := by
  have fits : (BitVec.ofInt 16 v).toNat < 256 ^ 2 := (BitVec.ofInt 16 v).isLt
  rw [le16, unle_le, Nat.mod_eq_of_lt fits, BitVec.ofNat_toNat, BitVec.setWidth_eq, BitVec.toInt_ofInt,
    Int.bmod_eq_of_le] <;> omega

/-! ### Fields -/

@[simp] theorem fieldAt_append_left {a : List Byte} {off n : Nat} (r : List Byte) (h : off + n ≤ a.length) :
    fieldAt (a ++ r) off n = fieldAt a off n := by
  rw [fieldAt, List.drop_append_of_le_length (by omega), List.take_append_of_le_length (by simp; omega), fieldAt]

@[simp] theorem fieldAt_append_right {a : List Byte} {off : Nat} (r : List Byte) (n : Nat) (h : a.length ≤ off) :
    fieldAt (a ++ r) off n = fieldAt r (off - a.length) n := by
  rw [fieldAt, List.drop_append, List.drop_of_length_le h, List.nil_append, fieldAt]

@[simp] theorem fieldAt_le (n v : Nat) : fieldAt (le n v) 0 n = v % 256 ^ n := by
  rw [fieldAt, List.drop_zero, List.take_of_length_le (by simp), unle_le]

@[simp] theorem fieldAt_cons_zero (b : Byte) (r : List Byte) : fieldAt (b :: r) 0 1 = b.toNat := by simp [fieldAt, unle]

@[simp] theorem fieldAt_cons_succ (b : Byte) (r : List Byte) (off n : Nat) : fieldAt (b :: r) (off + 1) n = fieldAt r off n := rfl

theorem int8_eq_fieldAt (b : List Byte) (i : Nat) : int8 b i = (BitVec.ofNat 8 (fieldAt b i 1)).toInt := by
  rw [int8]
  congr 1
  induction b generalizing i with
  | nil => simp [fieldAt, unle]
  | cons x r ih =>
    cases i with
    | zero => simp
    | succ i => rw [fieldAt_cons_succ, ← ih, List.getD_cons_succ]

/-- A field within the middle of three parts. -/
theorem fieldAt_middle {a m : List Byte} {start i n : Nat} (r : List Byte) (first : a.length = start) (within : i + n ≤ m.length) :
    fieldAt (a ++ m ++ r) (start + i) n = fieldAt m i n := by
  rw [fieldAt_append_left r (by simp; omega), fieldAt_append_right m n (by omega), first, Nat.add_sub_cancel_left]

theorem length_flatMap_const {α : Type} {k : Nat} {f : α → List Byte} (len : ∀ x, (f x).length = k) (l : List α) :
    (l.flatMap f).length = k * l.length := by
  rw [List.flatMap_def, length_flatten_of_blocks (k := k) (by simp [len]), List.length_map]

/-- The fields of a list written one after the other. -/
theorem map_fieldAt_flatMap {α : Type} {k : Nat} {f : α → List Byte} (len : ∀ x, (f x).length = k) (l : List α) :
    ((List.range l.length).map fun i => fieldAt (l.flatMap f) (k * i) k) = l.map fun x => unle (f x) := by
  have cut := congrArg (List.map unle) (cut_flatten (k := k) (l := l.map f) (by simp [len]))
  simpa [List.flatMap_def, fieldAt, Function.comp_def] using cut

/-- A list written within other bytes is read back value by value. -/
theorem map_fieldAt_middle {α : Type} {k start : Nat} {f : α → List Byte} {g : Nat → α} {a : List Byte} {l : List α} (r : List Byte)
    (len : ∀ x, (f x).length = k) (first : a.length = start) (back : ∀ x ∈ l, g (unle (f x)) = x) :
    ((List.range l.length).map fun i => g (fieldAt (a ++ l.flatMap f ++ r) (start + k * i) k)) = l := by
  have middle : ∀ i ∈ List.range l.length,
      g (fieldAt (a ++ l.flatMap f ++ r) (start + k * i) k) = g (fieldAt (l.flatMap f) (k * i) k) := by
    intro i hi
    have inList : k * (i + 1) ≤ k * l.length := Nat.mul_le_mul_left k (List.mem_range.mp hi)
    rw [fieldAt_middle r first (by rwa [length_flatMap_const len, ← Nat.mul_succ])]
  have read := congrArg (List.map g) (map_fieldAt_flatMap len l)
  rw [List.map_map, List.map_map] at read
  rw [List.map_congr_left middle]
  exact read.trans ((List.map_congr_left back).trans (List.map_id l))

theorem map_range_getD {α : Type} (l : List α) (d : α) : ((List.range l.length).map fun i => l.getD i d) = l :=
  List.ext_getElem (by simp) fun i _ h => by simp [h]

theorem fitBytes_eq_append {n : Nat} {b : List Byte} (h : b.length ≤ n) : fitBytes n b = b ++ List.replicate (n - b.length) 0 := by
  rw [fitBytes, List.take_of_length_le h]

@[simp] theorem length_fitBytes (n : Nat) (b : List Byte) : (fitBytes n b).length = n := by
  simp [fitBytes]; omega

/-! ### Zone-table headers (R334) -/

/-- The fields of a header, in order. -/
def headerFields (surface serial : Nat) (h : ZoneHeader) : List Byte :=
  le 4 0x4E455A4C ++ le 2 1 ++ le 1 h.zones ++ le 1 surface ++ le 4 h.formatId ++ le 8 serial ++ le 8 h.generation

section
variable (surface serial : Nat) (h : ZoneHeader)

theorem length_headerFields : (headerFields surface serial h).length = 28 := by simp [headerFields]

theorem length_headerBody : (headerBody surface serial h).length = 4092 := length_fitBytes _ _

theorem length_headerBytes : (headerBytes surface serial h).length = 4096 := by
  rw [headerBytes, List.length_append, length_headerBody, length_le]

theorem headerBytes_crc : le 4 (crc32c ((headerBytes surface serial h).take 4092)).toNat = (headerBytes surface serial h).drop 4092 := by
  have body := length_headerBody surface serial h
  rw [headerBytes, List.take_left' body, List.drop_left' body]

theorem fieldAt_headerBytes {off n : Nat} (within : off + n ≤ 28) :
    fieldAt (headerBytes surface serial h) off n = fieldAt (headerFields surface serial h) off n := by
  have len := length_headerFields surface serial h
  have body : headerBody surface serial h = headerFields surface serial h ++ List.replicate (4092 - 28) 0 := by
    rw [← len]
    exact fitBytes_eq_append (n := 4092) (b := headerFields surface serial h) (by omega)
  rw [headerBytes, body, List.append_assoc, fieldAt_append_left _ (by omega)]

/-- Table 11.11's header: where each field stands. -/
theorem headerBytes_fields :
    fieldAt (headerBytes surface serial h) 0 4 = 0x4E455A4C ∧ fieldAt (headerBytes surface serial h) 4 2 = 1
      ∧ fieldAt (headerBytes surface serial h) 6 1 = h.zones % 256 ∧ fieldAt (headerBytes surface serial h) 7 1 = surface % 256
      ∧ fieldAt (headerBytes surface serial h) 8 4 = h.formatId % 2 ^ 32
      ∧ fieldAt (headerBytes surface serial h) 20 8 = h.generation % 2 ^ 64 := by
  refine ⟨?_, ?_, ?_, ?_, ?_, ?_⟩ <;> simp [fieldAt_headerBytes, headerFields]

end

theorem headerParse_headerBytes {surface : Nat} {h : ZoneHeader} (serial k : Nat) (onSurface : surface < 256) (some_ : 1 ≤ h.zones)
    (few : h.zones ≤ 64) (format : h.formatId < 2 ^ 32) (gen : h.generation < 2 ^ 64) :
    headerParse k (headerBytes surface serial h) = if surface = k then some h else none := by
  obtain ⟨magic, version, zones, onIt, formatId, generation⟩ := headerBytes_fields surface serial h
  rw [Nat.mod_eq_of_lt (by omega)] at zones onIt formatId generation
  simp only [headerParse, length_headerBytes, headerBytes_crc, magic, version, zones, onIt, formatId, generation, some_, few, true_and]

/-! ### Zone entries (R334, Table 11.11) -/

/-- Bytes 0 to 15 of a zone entry. -/
def zoneHead (z : ZoneEntry) : List Byte :=
  le 4 z.first ++ le 4 z.last ++ le 2 z.sectors ++ le 2 z.rate ++ le8 z.gain ++ le 1 z.boost ++ [byteOf z.offset, byteOf z.asym]

theorem length_zoneHead (z : ZoneEntry) : (zoneHead z).length = 16 := by simp [zoneHead]

theorem zoneHead_fields (z : ZoneEntry) :
    fieldAt (zoneHead z) 0 4 = z.first % 2 ^ 32 ∧ fieldAt (zoneHead z) 4 4 = z.last % 2 ^ 32
      ∧ fieldAt (zoneHead z) 8 2 = z.sectors % 2 ^ 16 ∧ fieldAt (zoneHead z) 10 2 = z.rate % 2 ^ 16
      ∧ fieldAt (zoneHead z) 0x0C 1 = (byteOf z.gain).toNat ∧ fieldAt (zoneHead z) 0x0D 1 = z.boost % 256
      ∧ fieldAt (zoneHead z) 0x0E 1 = (byteOf z.offset).toNat ∧ fieldAt (zoneHead z) 0x0F 1 = (byteOf z.asym).toNat := by
  refine ⟨?_, ?_, ?_, ?_, ?_, ?_, ?_, ?_⟩ <;> simp [zoneHead, le8]

/-- The values of an entry before its CRC: `zoneHead`, taps, targets and precompensations. -/
def zoneValues (z : ZoneEntry) : List Byte :=
  zoneHead z ++ z.fir.flatMap le16 ++ z.target.flatMap le8 ++ z.precomp.flatMap (le 1)

/-- The values of an entry lie in the ranges of Table 11.11. -/
structure ZoneInRange (z : ZoneEntry) : Prop where
  first : z.first < 2 ^ 32
  last : z.last < 2 ^ 32
  sectors : z.sectors < 2 ^ 16
  rate : z.rate < 2 ^ 16
  boost : z.boost < 256
  gain : -128 ≤ z.gain ∧ z.gain < 128
  offset : -128 ≤ z.offset ∧ z.offset < 128
  asym : -128 ≤ z.asym ∧ z.asym < 128
  fir : z.fir.length = 10
  tap : ∀ t ∈ z.fir, -32768 ≤ t ∧ t < 32768
  target : z.target.length = 3
  level : ∀ t ∈ z.target, -128 ≤ t ∧ t < 128
  precomp : z.precomp.length = 3
  shift : ∀ t ∈ z.precomp, t < 256

section
variable {z : ZoneEntry} (ok : ZoneInRange z)
include ok

theorem length_zoneValues : (zoneValues z).length = 42 := by
  simp [zoneValues, length_zoneHead, ok.fir, ok.target, ok.precomp]

/-- The bytes of an entry before its CRC. -/
theorem zoneBytes_eq : zoneBytes z = fitBytes 0x3C (zoneValues z) ++ le 4 (crc32c (fitBytes 0x3C (zoneValues z))).toNat := by
  have taps : ((List.range 10).flatMap fun i => le16 (z.fir.getD i 0)) = z.fir.flatMap le16 := by
    rw [← List.flatMap_map (fun i => z.fir.getD i 0), ← ok.fir, map_range_getD]
  have targets : ((List.range 3).map fun i => byteOf (z.target.getD i 0)) = z.target.flatMap le8 := by
    calc ((List.range 3).map fun i => byteOf (z.target.getD i 0))
        _ = ((List.range 3).map fun i => z.target.getD i 0).flatMap le8 := by rw [List.flatMap_map, List.map_eq_flatMap]; rfl
        _ = z.target.flatMap le8 := by rw [← ok.target, map_range_getD]
  have shifts : ((List.range 3).flatMap fun i => le 1 (z.precomp.getD i 0)) = z.precomp.flatMap (le 1) := by
    rw [← List.flatMap_map (fun i => z.precomp.getD i 0), ← ok.precomp, map_range_getD]
  rw [zoneValues, ← taps, ← targets, ← shifts]
  rfl

theorem length_zoneBytes : (zoneBytes z).length = 64 := by simp [zoneBytes_eq ok]

theorem zoneBytes_crc : le 4 (crc32c ((zoneBytes z).take 0x3C)).toNat = (zoneBytes z).drop 0x3C := by
  have body := length_fitBytes 0x3C (zoneValues z)
  rw [zoneBytes_eq ok, List.take_left' body, List.drop_left' body]

theorem zoneBytes_startsWith : ∃ r, zoneBytes z = zoneValues z ++ r := by
  have short : (zoneValues z).length ≤ 0x3C := by rw [length_zoneValues ok]; decide
  exact ⟨_, by rw [zoneBytes_eq ok, fitBytes_eq_append short, List.append_assoc]⟩

theorem fieldAt_zoneBytes {off n : Nat} (within : off + n ≤ 16) : fieldAt (zoneBytes z) off n = fieldAt (zoneHead z) off n := by
  obtain ⟨r, e⟩ := zoneBytes_startsWith ok
  have head : off + n ≤ (zoneHead z).length := by rwa [length_zoneHead]
  simp only [e, zoneValues, List.append_assoc, fieldAt_append_left _ head]

theorem zoneBytes_fir : ((List.range 10).map fun i => int16 (zoneBytes z) (0x10 + 2 * i)) = z.fir := by
  obtain ⟨r, e⟩ := zoneBytes_startsWith ok
  rw [e, zoneValues, List.append_assoc, List.append_assoc, ← ok.fir]
  exact map_fieldAt_middle (g := fun v => (BitVec.ofNat 16 v).toInt) _ length_le16 (length_zoneHead z)
    fun t mem => toInt_unle_le16 (ok.tap t mem)

theorem zoneBytes_target : ((List.range 3).map fun i => int8 (zoneBytes z) (0x24 + i)) = z.target := by
  obtain ⟨r, e⟩ := zoneBytes_startsWith ok
  have before : (zoneHead z ++ z.fir.flatMap le16).length = 0x24 := by simp [length_zoneHead, ok.fir]
  have read := map_fieldAt_middle (g := fun v => (BitVec.ofNat 8 v).toInt) (z.precomp.flatMap (le 1) ++ r) length_le8 before
    fun t mem => by simpa [le8, unle] using toInt_byteOf (ok.level t mem)
  simpa only [e, zoneValues, int8_eq_fieldAt, ok.target, Nat.one_mul, List.append_assoc] using read

theorem zoneBytes_precomp : ((List.range 3).map fun i => fieldAt (zoneBytes z) (0x27 + i) 1) = z.precomp := by
  obtain ⟨r, e⟩ := zoneBytes_startsWith ok
  have before : (zoneHead z ++ z.fir.flatMap le16 ++ z.target.flatMap le8).length = 0x27 := by
    simp [length_zoneHead, ok.fir, ok.target]
  have read := map_fieldAt_middle (g := id) r (length_le 1) before
    fun t mem => (unle_le 1 t).trans (Nat.mod_eq_of_lt (ok.shift t mem))
  simpa only [e, zoneValues, id, ok.precomp, Nat.one_mul, List.append_assoc] using read

theorem zoneParse_zoneBytes : zoneParse (zoneBytes z) = some z := by
  obtain ⟨first, last, sectors, rate, gain, boost, offset, asym⟩ := zoneHead_fields z
  rw [Nat.mod_eq_of_lt ok.first] at first
  rw [Nat.mod_eq_of_lt ok.last] at last
  rw [Nat.mod_eq_of_lt ok.sectors] at sectors
  rw [Nat.mod_eq_of_lt ok.rate] at rate
  rw [Nat.mod_eq_of_lt ok.boost] at boost
  rw [zoneParse, if_pos ⟨length_zoneBytes ok, zoneBytes_crc ok⟩, zoneBytes_fir ok, zoneBytes_target ok, zoneBytes_precomp ok]
  simp [int8_eq_fieldAt, fieldAt_zoneBytes ok, first, last, sectors, rate, gain, boost, offset, asym, toInt_byteOf ok.gain,
    toInt_byteOf ok.offset, toInt_byteOf ok.asym]

end

/-! ### Reallocation entries (R360, Table 12.5) -/

/-- The fields of an entry fit their places. -/
structure ReallocInRange (e : ReallocEntry) : Prop where
  pba : e.pba < 2 ^ 48
  head : e.head < 256
  cylinder : e.cylinder < 2 ^ 32
  sector : e.sector < 2 ^ 16

/-- The flags of an entry: valid, content lost, retired. -/
def ReallocEntry.flags (e : ReallocEntry) : Nat := 1 + 2 * b2n e.lost + 4 * b2n (e.pba == retiredPba)

/-- Bytes 0 to 13 of an entry. -/
def ReallocEntry.body (e : ReallocEntry) : List Byte :=
  le 6 e.pba ++ le 1 e.head ++ le 1 e.flags ++ le 4 e.cylinder ++ le 2 e.sector

section
variable (e : ReallocEntry)

theorem ReallocEntry.bytes_eq : e.bytes = e.body ++ le 2 ((crc32c e.body).toNat % 65536) := rfl

theorem ReallocEntry.length_body : e.body.length = 14 := by simp [body]

theorem ReallocEntry.length_bytes : e.bytes.length = 16 := by rw [bytes_eq, List.length_append, length_body, length_le]

theorem ReallocEntry.flags_bits : e.flags < 256 ∧ bit e.flags 0 = true ∧ bit e.flags 1 = e.lost := by
  unfold ReallocEntry.flags
  cases e.lost <;> cases e.pba == retiredPba <;> decide

theorem ReallocEntry.bytes_fields :
    fieldAt e.bytes 0 6 = e.pba % 2 ^ 48 ∧ fieldAt e.bytes 6 1 = e.head % 256 ∧ fieldAt e.bytes 7 1 = e.flags % 256
      ∧ fieldAt e.bytes 8 4 = e.cylinder % 2 ^ 32 ∧ fieldAt e.bytes 12 2 = e.sector % 2 ^ 16 := by
  refine ⟨?_, ?_, ?_, ?_, ?_⟩ <;> simp [bytes_eq, body]

theorem reallocParse_bytes {e : ReallocEntry} (ok : ReallocInRange e) : reallocParse e.bytes = some e := by
  obtain ⟨pba, head, flags, cylinder, sector⟩ := e.bytes_fields
  obtain ⟨small, valid, lost⟩ := e.flags_bits
  rw [Nat.mod_eq_of_lt ok.pba] at pba
  rw [Nat.mod_eq_of_lt ok.head] at head
  rw [Nat.mod_eq_of_lt small] at flags
  rw [Nat.mod_eq_of_lt ok.cylinder] at cylinder
  rw [Nat.mod_eq_of_lt ok.sector] at sector
  have check : le 2 ((crc32c (e.bytes.take 14)).toNat % 65536) = e.bytes.drop 14 := by
    rw [e.bytes_eq, List.take_left' e.length_body, List.drop_left' e.length_body]
  rw [reallocParse, if_pos ⟨e.length_bytes, check, by rwa [flags]⟩, pba, head, flags, cylinder, sector, lost]

end

/-- R361: a copy gives back the entries written to it. -/
theorem TableCopy.entries_of_bytes {c : TableCopy} {l : List ReallocEntry} (ok : ∀ e ∈ l, ReallocInRange e)
    (bytes : c.bytes = l.flatMap ReallocEntry.bytes) : TableCopy.entries c = l := by
  have count : c.bytes.length / 16 = (l.map ReallocEntry.bytes).length := by
    rw [bytes, length_flatMap_const ReallocEntry.length_bytes, Nat.mul_div_cancel_left _ (by decide), List.length_map]
  have cut := congrArg (List.filterMap reallocParse) (cut_flatten (k := 16) (l := l.map ReallocEntry.bytes)
    (by simp [ReallocEntry.length_bytes]))
  rw [List.filterMap_map, List.filterMap_map, ← List.flatMap_def, ← bytes, ← count] at cut
  calc TableCopy.entries c
      _ = l.filterMap (reallocParse ∘ ReallocEntry.bytes) := cut
      _ = l.filterMap some := List.filterMap_congr fun e mem => reallocParse_bytes (ok e mem)
      _ = l := List.filterMap_some

/-- Settles O60: each table's fields one by one, and the copy cut again into its entries (`cut_flatten`). -/
theorem lensTablesReadBack : Obligations.LensTablesReadBack := by
  refine ⟨?header, ?zone, ?entry, ?copy⟩
  case header =>
    intro surface serial h onSurface some_ few format gen
    have parse (k : Nat) := headerParse_headerBytes serial k onSurface some_ few format gen
    exact ⟨length_headerBytes surface serial h, (parse surface).trans (if_pos rfl), fun k other => (parse k).trans (if_neg other.symm)⟩
  case zone =>
    intro z first last sectors rate boost gain offset asym fir tap target level precomp shift
    have ok : ZoneInRange z :=
      ⟨first, last, sectors, rate, boost, gain, offset, asym, fir, tap, target, level, precomp, shift⟩
    exact ⟨length_zoneBytes ok, zoneParse_zoneBytes ok⟩
  case entry =>
    intro e pba head cylinder sector
    exact ⟨e.length_bytes, reallocParse_bytes ⟨pba, head, cylinder, sector⟩⟩
  case copy =>
    intro g l inRange c generation bytes
    refine ⟨TableCopy.entries_of_bytes (fun e mem => ?range) bytes, by rw [TableCopy.valid, generation, beq_iff_eq]⟩
    obtain ⟨pba, head, cylinder, sector⟩ := inRange e mem
    exact ⟨pba, head, cylinder, sector⟩

end Sys2Proof.Machine
end


section
/-!
SUPPORT. What a front-end always satisfies (R316 to R322, Tables 11.5 and 11.6): every part of the work of a front-end keeps every
front-end legal, and O51.
-/

namespace Sys2Proof.Machine

/-- Every front-end of the device is legal. -/
structure FrontEndsLegal (d : Dev) : Prop where
  fe : ∀ n, (d.fe n).Legal

section
variable {d e : Dev} (h : FrontEndsLegal d) (n : Nat)
include h

theorem FrontEndsLegal.setFe {x : FrontEnd} (legal : x.Legal) : FrontEndsLegal (d.setFe n x) := by
  refine ⟨fun c => ?_⟩
  by_cases same : c = n
  · rw [same, fe_setFe]; exact legal
  · rw [fe_setFe_other d x same]; exact h.fe c

theorem FrontEndsLegal.of_ls_eq (same : e.ls = d.ls) : FrontEndsLegal e :=
  ⟨fun c => by rw [Dev.fe, same]; exact h.fe c⟩

/-- For any device: the kernel then need not run the drive that the latch follows. -/
theorem FrontEndsLegal.latched : FrontEndsLegal (d.setFe n { d.fe n with faulted := true }) := by
  refine h.setFe n ?_
  exact { h.fe n with }

theorem FrontEndsLegal.draw : FrontEndsLegal d.draw := h.of_ls_eq rfl

theorem FrontEndsLegal.emit (o : Out) : FrontEndsLegal (emit o d) := h.of_ls_eq rfl

end

theorem FrontEndsLegal.foldl {β : Type} {g : Dev → β → Dev} (keeps : ∀ d b, FrontEndsLegal d → FrontEndsLegal (g d b)) (l : List β)
    {d : Dev} (h : FrontEndsLegal d) : FrontEndsLegal (l.foldl g d) :=
  foldl_invariant FrontEndsLegal g keeps l h

/-! ### Fields outside the law, and the changes that keep it -/

namespace FrontEnd.Legal

variable {x : FrontEnd} (h : x.Legal)
include h

theorem closed : FrontEnd.Legal { x with gate := false, writeTag := none, data := [] } := { h with write := rfl }

theorem opened {tag start : Nat} (range : start < 2 ^ 44) :
    FrontEnd.Legal { x with gate := true, writeTag := some tag, startCount := start, data := [], faulted := false } :=
  { h with write := rfl, words := ⟨h.words.1, range⟩ }

theorem settled : FrontEnd.Legal { x with clockTag := none, settling := false } := { h with settle := rfl }

theorem clocked {khz tag : Nat} (range : 600000 ≤ khz ∧ khz ≤ 3600000) :
    FrontEnd.Legal { x with clockKhz := khz, settling := true, clockTag := some tag } :=
  { h with settle := rfl, clock := .inr range }

theorem owned {link epoch : Nat} (isLink : link < 2) (isEpoch : epoch < 65536) :
    FrontEnd.Legal { x with eMax := some epoch, ownerLink := some link, lossHold := false } :=
  { h with
    owner := rfl
    link := fun l e => by cases e; exact isLink
    epoch := fun l e => by cases e; exact isEpoch }

theorem advanced {epoch : Nat} (hasOwner : x.ownerLink.isSome = true) (isEpoch : epoch < 65536) :
    FrontEnd.Legal { x with eMax := some epoch, lossHold := false } :=
  { h with owner := hasOwner, epoch := fun _ e => by cases e; exact isEpoch }

theorem stopped : FrontEnd.Legal { x with rpm := 0 } := { h with words := ⟨Nat.zero_lt_succ _, h.words.2⟩ }

theorem ownerless : FrontEnd.Legal { x with eMax := none, ownerLink := none, seqA := none, seqB := none } :=
  { h with owner := rfl, link := nofun, epoch := nofun }

end FrontEnd.Legal

/-! ### Frames -/

section
variable {d : Dev} (h : FrontEndsLegal d) (n : Nat)
include h

theorem feFrameOn_legal (epoch : Nat) (blocks : List UpBlock) (link : Nat) : FrontEndsLegal (feFrameOn n epoch blocks d link) := by
  refine FrontEndsLegal.emit (h.setFe n ?_) _
  exact { h.fe n with }

theorem feFrame_legal (blocks : List UpBlock) : FrontEndsLegal (feFrame n blocks d) := by
  unfold feFrame
  extract_lets epoch drawn sent
  have hdrawn : FrontEndsLegal drawn := by
    unfold drawn
    split
    · exact h.draw
    · exact h
  have hsent : FrontEndsLegal sent := .foldl (fun _ link k => feFrameOn_legal k n epoch blocks link) _ hdrawn
  refine hsent.setFe n ?_
  exact { hsent.fe n with }

theorem feUp_legal (b : UpBlock) : FrontEndsLegal (feUp n b d) := feFrame_legal h n [b]

theorem feAck_legal (tag result : Nat) : FrontEndsLegal (feAck n tag result d) := feUp_legal h n _

theorem feHealth_legal : FrontEndsLegal (feHealth n d) := feUp_legal h.draw.draw.draw.draw n _

theorem feShow_legal (before : Dev) : FrontEndsLegal (feShow n before d) := by
  unfold feShow
  split
  · exact h
  · exact feHealth_legal h n

theorem onChan_legal {k : Dev → Dev} (keeps : FrontEndsLegal (k d)) : FrontEndsLegal (onChan n k d) := by
  unfold onChan
  split
  · exact feShow_legal keeps n d
  · exact h

/-! ### The write gate -/

theorem feDrive_legal (whole : Bool) : FrontEndsLegal (feDrive whole n d) := by
  unfold feDrive
  extract_lets x driven
  split
  · exact h
  · exact h.emit _

theorem feGateOff_legal (result : Nat) : FrontEndsLegal (feGateOff n result d) := by
  unfold feGateOff
  extract_lets x off
  have hoff : FrontEndsLegal off := h.setFe n (h.fe n).closed
  split
  · exact feAck_legal hoff n _ result
  · exact hoff

theorem feWriteFault_legal (cause : Nat) : FrontEndsLegal (feWriteFault n cause d) := by
  unfold feWriteFault
  split
  · exact feGateOff_legal (feUp_legal ((feDrive_legal h n false).latched n).draw n _) n _
  · exact h

theorem writeEnds_legal (c : WriteEnd) : FrontEndsLegal (writeEnds n c d) := by
  unfold writeEnds
  extract_lets src noted
  have hnoted : FrontEndsLegal noted := by
    unfold noted
    split
    · refine h.setFe n ?_
      exact { h.fe n with }
    · exact h
  split
  · split
    · exact feGateOff_legal (feDrive_legal hnoted n _) n 0
    · exact feWriteFault_legal hnoted n _
  · exact hnoted

/-! ### Commands -/

theorem feMoveDone_legal : FrontEndsLegal (feMoveDone n d) := by
  unfold feMoveDone
  extract_lets x
  split
  · refine feAck_legal (h.setFe n ?_) n _ 0
    exact { h.fe n with }
  · exact h

theorem feClockDone_legal : FrontEndsLegal (feClockDone n d) := by
  unfold feClockDone
  extract_lets x
  split
  · exact feAck_legal (h.setFe n (h.fe n).settled) n _ 0
  · exact h

theorem feReadReg_legal (tag reg : Nat) : FrontEndsLegal (feReadReg n tag reg d) := feAck_legal (feUp_legal h n _) n tag 0

theorem feWriteReg_legal (tag reg : Nat) (v : Word) : FrontEndsLegal (feWriteReg n tag reg v d) := by
  unfold feWriteReg
  extract_lets r x
  split
  · exact feAck_legal h.draw n tag _
  · refine feAck_legal (h.setFe n ?_) n tag 0
    exact { h.fe n with }

theorem feSetClock_legal (tag khz : Nat) : FrontEndsLegal (feSetClock n tag khz d) := by
  unfold feSetClock
  split
  · exact feAck_legal h n tag 4
  · split
    · exact feAck_legal h n tag 2
    next range =>
      have settled := feClockDone_legal h n
      exact settled.setFe n ((settled.fe n).clocked (by omega))

theorem feSetRead_legal (tag : Nat) (gain boost offset : Byte) : FrontEndsLegal (feSetRead n tag gain boost offset d) := by
  obtain ⟨-, -, -, kept⟩ := (h.fe n).bytes
  refine feAck_legal (h.setFe n ?_) n tag 0
  exact { h.fe n with bytes := ⟨gain.isLt, boost.isLt, offset.isLt, kept⟩ }

theorem feSetPrecomp_legal (tag : Nat) (a b c : Byte) : FrontEndsLegal (feSetPrecomp n tag a b c d) := by
  unfold feSetPrecomp
  split
  · exact feAck_legal h n tag 2
  next range =>
    have range : a.toNat ≤ 31 ∧ b.toNat ≤ 31 ∧ c.toNat ≤ 31 := by omega
    refine feAck_legal (h.setFe n ?_) n tag 0
    exact { h.fe n with shifts := range }

omit h in
/-- R319: a module has at most 32 heads. -/
theorem feRegister_heads_le (x : FrontEnd) : (feRegister n x 3).toNat ≤ 32 := by
  have heads : feRegister n x 3 = BitVec.ofNat 32 ((Config.makerRegister n 3).toNat % 32 + 1) := rfl
  rw [heads, BitVec.toNat_ofNat]
  omega

theorem feSelectHead_legal (tag head : Nat) : FrontEndsLegal (feSelectHead n tag head d) := by
  unfold feSelectHead
  extract_lets x
  split
  · exact feAck_legal h n tag 4
  · split
    · exact feAck_legal h n tag 2
    next has =>
      have few : head < 32 := Nat.lt_of_lt_of_le (Nat.not_le.mp has) (feRegister_heads_le n x)
      refine feAck_legal (h.setFe n ?_) n tag 0
      exact { h.fe n with head := few }

theorem feStartWrite_legal (tag count : Nat) : FrontEndsLegal (feStartWrite n tag count d) := by
  unfold feStartWrite
  extract_lets x r
  split
  · exact feAck_legal h n tag _
  · exact h.setFe n ((h.fe n).opened (Nat.mod_lt _ (Nat.two_pow_pos 44)))

theorem feSpindle_legal (tag rpm accel : Nat) : FrontEndsLegal (feSpindle n tag rpm accel d) := by
  obtain ⟨gain, boost, offset, shock, -⟩ := (h.fe n).bytes
  refine feAck_legal (h.setFe n ?_) n tag 0
  exact { h.fe n with
    bytes := ⟨gain, boost, offset, shock, Nat.mod_lt _ (by decide)⟩
    words := ⟨Nat.mod_lt _ (by decide), (h.fe n).words.2⟩ }

theorem feLoad_legal (tag : Nat) : FrontEndsLegal (feLoad n tag d) := by
  have done := feMoveDone_legal h n
  refine done.setFe n ?_
  exact { done.fe n with }

theorem feParkFault_legal : FrontEndsLegal (feParkFault n d) := by
  unfold feParkFault
  split
  · exact feWriteFault_legal h.draw n _
  · exact h

theorem fePark_legal (tag : Nat) : FrontEndsLegal (fePark n tag d) := by
  have done := feMoveDone_legal (feParkFault_legal h n) n
  refine done.setFe n ?_
  exact { done.fe n with }

theorem feSetShock_legal (tag : Nat) (t : Byte) : FrontEndsLegal (feSetShock n tag t d) := by
  obtain ⟨gain, boost, offset, -, accel⟩ := (h.fe n).bytes
  refine feAck_legal (h.setFe n ?_) n tag 0
  exact { h.fe n with bytes := ⟨gain, boost, offset, t.isLt, accel⟩ }

theorem feEndWrite_legal (tag : Nat) : FrontEndsLegal (feEndWrite n tag d) := feAck_legal (writeEnds_legal h n _) n tag 0

theorem feCommandDone_legal : FrontEndsLegal (feCommandDone n d) := by
  unfold feCommandDone
  split
  · exact feClockDone_legal h n
  · exact feMoveDone_legal h n

/-- A command of a frame, also one that Table 11.5 does not list. -/
theorem feCommand_legal (op tag : Nat) (v : BitVec 44) : FrontEndsLegal (feCommand n op tag v d) := by
  unfold feCommand
  extract_lets byte low
  split
  · exact feAck_legal h n tag 0
  · exact feReadReg_legal h n tag _
  · exact feWriteReg_legal h n tag _ _
  · exact feSetClock_legal h n tag _
  · exact feSetRead_legal h n tag _ _ _
  · exact feSetPrecomp_legal h n tag _ _ _
  · exact feSelectHead_legal h n tag _
  · exact feStartWrite_legal h n tag _
  · exact feEndWrite_legal h n tag
  · exact feSpindle_legal h n tag _ _
  · exact feLoad_legal h n tag
  · exact fePark_legal h n tag
  · exact feSetShock_legal h n tag _
  · exact feAck_legal h n tag 1

/-! ### Downstream frames and ownership -/

theorem downBlock_legal (b : DownBlock) : FrontEndsLegal (downBlock n d b) := by
  unfold downBlock
  split
  · exact writeEnds_legal h n _
  · extract_lets x
    split
    · refine h.setFe n ?_
      exact { h.fe n with }
    · exact h
  · refine h.setFe n ?_
    exact { h.fe n with }
  · exact feCommand_legal h n _ _ _
  · exact h

theorem feOwnership_legal {link epoch : Nat} (isLink : link < 2) (isEpoch : epoch < 65536) :
    FrontEndsLegal (feOwnership n link epoch d) := by
  unfold feOwnership
  extract_lets x ended src
  split
  · exact h.setFe n ((h.fe n).owned isLink isEpoch)
  · split
    · split
      next owner => exact h.setFe n ((h.fe n).advanced (by rw [show (d.fe n).ownerLink = _ from owner]; rfl) isEpoch)
      next =>
        have hended : FrontEndsLegal ended := writeEnds_legal h n .ownerChange
        exact hended.setFe n ((hended.fe n).owned isLink isEpoch)
    · split
      · refine h.setFe n ?_
        exact { h.fe n with }
      · exact h

theorem downFrame_legal {link epoch : Nat} (seq : Nat) (isLink : link < 2) (isEpoch : epoch < 65536) (blocks : List DownBlock) :
    FrontEndsLegal (downFrame n link seq epoch blocks d) := by
  unfold downFrame
  extract_lets x gap counted noted ended owned y
  have hnoted : FrontEndsLegal noted := by
    refine h.setFe n ?_
    unfold counted
    split <;> exact { h.fe n with }
  have hended : FrontEndsLegal ended := by
    unfold ended
    split
    · exact writeEnds_legal hnoted n _
    · exact hnoted
  have howned : FrontEndsLegal owned := feOwnership_legal hended n isLink isEpoch
  split
  · exact .foldl (fun _ b k => downBlock_legal k n b) blocks howned
  · exact howned

theorem feOwnerLoss_legal : FrontEndsLegal (feOwnerLoss n d) := by
  unfold feOwnerLoss
  split
  · extract_lets ended
    have hended : FrontEndsLegal ended := writeEnds_legal h n .linkLoss
    refine hended.setFe n ?_
    exact { hended.fe n with }
  · exact h

theorem feRetract_legal : FrontEndsLegal (feRetract n d) := by
  unfold feRetract
  extract_lets x retracted
  have hretracted : FrontEndsLegal retracted := by
    refine h.setFe n ?_
    exact { h.fe n with }
  split
  · split
    · exact feAck_legal hretracted.draw n _ _
    · exact feAck_legal hretracted n _ 0
    · exact hretracted
  · exact h

theorem feForget_legal : FrontEndsLegal (feForget n d) := h.setFe n (h.fe n).ownerless

theorem feSpinDown_legal : FrontEndsLegal (feSpinDown n d) := by
  unfold feSpinDown
  extract_lets x
  split
  · exact h.setFe n (h.fe n).stopped
  · exact h

/-! ### A microsecond -/

theorem feTake_legal (us : Nat) : FrontEndsLegal (feTake n d us) := by
  unfold feTake
  extract_lets x new start
  split
  · refine .foldl (fun _ i k => feFrame_legal k n _) _ (h.setFe n ?_)
    exact { h.fe n with }
  · exact h

theorem feTick_legal (us : Nat) : FrontEndsLegal (feTick us d n) := by
  have taken := feTake_legal h n us
  have settled : FrontEndsLegal (feSettle n (feTake n d us)) := by
    refine taken.setFe n ?_
    exact { taken.fe n with }
  rw [feTick_eq]
  split
  · exact onChan_legal settled n (writeEnds_legal settled n _)
  · exact settled

end

theorem tickFe_legal {d : Dev} (h : FrontEndsLegal d) : FrontEndsLegal (tickFe d) := .foldl (fun _ n k => feTick_legal k n _) _ h

theorem tickBusy_ls (d : Dev) : (tickBusy d).ls = d.ls := by rw [(tickBusy_counts d).frame]

/-- After the front-ends, nothing of a microsecond touches them. -/
theorem tick_ls {d : Dev} (running : d.periscope = true) : (tick d).ls = (tickFe (tickBusy d)).ls := by
  have pps (m : Dev) : (tickPps m).ls = m.ls := by unfold tickPps; split <;> rfl
  have hours (m : Dev) : (tickHours m).ls = m.ls := by unfold tickHours; split <;> simp
  have activation (m : Dev) : (tickActivation m).ls = m.ls := by unfold tickActivation; split <;> rfl
  have flr (m : Dev) : (tickFlr m).ls = m.ls := rfl
  calc (tick d).ls
      _ = (tickPps (tickHours (tickActivation (tickFlr (tickFe (tickBusy d)))))).ls := by rw [tick_running running]
      _ = (tickFe (tickBusy d)).ls := by rw [pps, hours, activation, flr]

theorem tick_legal {d : Dev} (h : FrontEndsLegal d) : FrontEndsLegal (tick d) := by
  cases running : d.periscope
  case false => rwa [tick_stopped running]
  case true => exact (tickFe_legal (h.of_ls_eq (tickBusy_ls d))).of_ls_eq (tick_ls running)

/-! ### Rows of the front-end family -/

/-- A front-end row acts on one of the 24 channels, and keeps the front-ends legal there. -/
theorem exec_frontEndRow {c : Instr} (row : frontEndRow c = true) :
    ∃ n k, (∀ s, exec c s = onDev s (onChan n k)) ∧ ∀ d, FrontEndsLegal d → FrontEndsLegal (k d) := by
  cases c with
  | feDownstreamFrame n link seq epoch crc blocks =>
    refine ⟨n, _, fun _ => rfl, fun d h => ?_⟩
    split
    next accepted =>
      have isLink : link < 2 := of_decide_eq_true (Bool.and_eq_true_iff.mp accepted).2
      exact downFrame_legal h n _ isLink (Nat.mod_lt _ (by decide)) blocks
    next => exact h
  | feOwnerLossDetect n => exact ⟨n, _, fun _ => rfl, fun d h => feOwnerLoss_legal h n⟩
  | feHeadRetract n => exact ⟨n, _, fun _ => rfl, fun d h => feRetract_legal h n⟩
  | feEpochForget n => exact ⟨n, _, fun _ => rfl, fun d h => feForget_legal h n⟩
  | feSpindleStop n => exact ⟨n, _, fun _ => rfl, fun d h => feSpinDown_legal h n⟩
  | feWriteEnd n c => exact ⟨n, _, fun _ => rfl, fun d h => writeEnds_legal h n c⟩
  | feCommandDone n => exact ⟨n, _, fun _ => rfl, fun d h => feCommandDone_legal h n⟩
  | nop n tag => exact ⟨n, _, fun _ => rfl, fun d h => feAck_legal h n tag 0⟩
  | readReg n tag reg => exact ⟨n, _, fun _ => rfl, fun d h => feReadReg_legal h n tag reg⟩
  | writeReg n tag reg v => exact ⟨n, _, fun _ => rfl, fun d h => feWriteReg_legal h n tag reg v⟩
  | setClock n tag khz => exact ⟨n, _, fun _ => rfl, fun d h => feSetClock_legal h n tag khz⟩
  | setRead n tag g b o => exact ⟨n, _, fun _ => rfl, fun d h => feSetRead_legal h n tag g b o⟩
  | setPrecomp n tag a b c => exact ⟨n, _, fun _ => rfl, fun d h => feSetPrecomp_legal h n tag a b c⟩
  | selectHead n tag head => exact ⟨n, _, fun _ => rfl, fun d h => feSelectHead_legal h n tag head⟩
  | startWrite n tag count => exact ⟨n, _, fun _ => rfl, fun d h => feStartWrite_legal h n tag count⟩
  | endWrite n tag => exact ⟨n, _, fun _ => rfl, fun d h => feEndWrite_legal h n tag⟩
  | spindle n tag rpm accel => exact ⟨n, _, fun _ => rfl, fun d h => feSpindle_legal h n tag rpm accel⟩
  | load n tag => exact ⟨n, _, fun _ => rfl, fun d h => feLoad_legal h n tag⟩
  | park n tag => exact ⟨n, _, fun _ => rfl, fun d h => fePark_legal h n tag⟩
  | setShock n tag t => exact ⟨n, _, fun _ => rfl, fun d h => feSetShock_legal h n tag t⟩
  | _ => cases row

/-- Settles O51: rows of the family act through `onChan` (`exec_frontEndRow`), and an idle step is a microsecond (`tick_legal`). -/
theorem frontEndsStayLegal : Obligations.FrontEndsStayLegal := by
  refine ⟨fun c r s t queue row h run => ?row, fun s t queue h run => ?idle⟩
  case row =>
    obtain ⟨n, k, acts, keeps⟩ := exec_frontEndRow row
    rw [step_cons queue, acts, onDev_eq] at run
    cases run
    exact (onChan_legal ⟨h⟩ n (keeps _ ⟨h⟩)).fe
  case idle =>
    rw [step_nil queue] at run
    cases run
    exact (tick_legal ⟨h⟩).fe

end Sys2Proof.Machine
end


section
/-!
SUPPORT. Live adaptation, the zone tables, reallocation and its table (R336, R337, R359 to R362): the bounds of an update, what a flush
makes of headers and entries, the cases of REALLOCATE, and O29.
-/

namespace Sys2Proof.Machine

/-! ### Live adaptation (R336) -/

section
variable {s : State} {n zone : Nat} (chan : n < 24) (inTable : zone < 64) (executing : s.dev.executing = true)
include chan inTable executing

theorem exec_adaptUpdate {head : Nat} {fir : List Int} {g o a : Int} {d : Dev} (e : adaptUpdate n zone head fir g o a s.dev = d) :
    exec (.adaptUpdate n zone head fir g o a) s = .next { s with dev := d } :=
  runs_of_onDev rfl ((if_pos (by rw [executing, decide_eq_true chan, decide_eq_true inTable]; rfl)).trans e)

end

theorem adaptUpdate_notDue {n zone head : Nat} {d : Dev} (fir : List Int) (g o a : Int)
    (notDue : (d.lens n).adaptDue.contains (head * 64 + zone) = false) : adaptUpdate n zone head fir g o a d = d := by
  unfold adaptUpdate
  extract_lets l
  split
  · rfl
  · exact if_pos (.inr (.inr notDue))

/-- The live entry has moved and SET_READ has gone out; no update of this zone and head is due. -/
def adapted (n zone head : Nat) (stored live : ZoneEntry) (d : Dev) : Dev :=
  lensCmd n 0x04 (setReadOperand live) (d.setLens n { d.lens n with
    adaptDue := (d.lens n).adaptDue.filter (· != head * 64 + zone)
    zones := tput (d.lens n).zones (head * 64 + zone) (stored, live) })

theorem adaptUpdate_due {n zone head : Nat} {d : Dev} {stored live : ZoneEntry} {fir : List Int} {g o a : Int}
    {r : ZoneEntry × Bool} (enabled : d.val Fam.lensAdaptEnable ≠ 0) (up : (d.lens n).up = true)
    (entry : tfind (d.lens n).zones (head * 64 + zone) = some (stored, live))
    (due : (d.lens n).adaptDue.contains (head * 64 + zone) = true) (update : r = adaptEntry stored live fir g o a) :
    adaptUpdate n zone head fir g o a d =
      if r.2 then raise (0x200 + 2 * n) (zone + 256 * head) false ((adapted n zone head stored r.1 d).bump Fam.lensAdaptClamped n)
      else adapted n zone head stored r.1 d := by
  have active : ¬ (d.val Fam.lensAdaptEnable = 0 ∨ (d.lens n).up = false ∨ (d.lens n).adaptDue.contains (head * 64 + zone) = false) := by
    simp only [enabled, up, due, reduceCtorEq, or_self, not_false_eq_true]
  unfold adaptUpdate
  dsimp only
  rw [entry, update]
  exact if_neg active

/-- One value moves by at most its step, and is held within 16 of the stored one. -/
theorem adaptValue_bounds {step : Nat} {live stored : Int} (new : Int) (near : (live - stored).natAbs ≤ 16) :
    ((adaptValue step live stored new).1 - live).natAbs ≤ step ∧ ((adaptValue step live stored new).1 - stored).natAbs ≤ 16 := by
  dsimp only [adaptValue, within]
  split_ifs <;> omega

theorem adaptEntry_fir (stored live : ZoneEntry) (fir : List Int) (g o a : Int) {i : Nat} (h : i < 10) :
    (adaptEntry stored live fir g o a).1.fir.getD i 0 = (adaptValue 2 (live.fir.getD i 0) (stored.fir.getD i 0) (fir.getD i 0)).1 := by
  simp [adaptEntry, List.getD_eq_getElem?_getD, h]

/-! ### The flush of the zone tables (R337) -/

theorem exec_zoneTableFlush (s : State) (n : Nat) :
    exec (.zoneTableFlush n) s = onDev s fun d =>
      if d.working && decide (n < 24) && flushElapsed d (d.lens n).flushedAt then zoneFlush n d else d := rfl

theorem exec_zoneTableFlush_due {s : State} {n : Nat} (chan : n < 24) (working : s.dev.working = true)
    (elapsed : flushElapsed s.dev (s.dev.lens n).flushedAt = true) :
    exec (.zoneTableFlush n) s = .next { s with dev := zoneFlush n s.dev } :=
  runs_of_onDev (exec_zoneTableFlush s n) (if_pos (by rw [working, elapsed, decide_eq_true chan]; rfl))

theorem exec_zoneTableFlush_early {s : State} {n : Nat} (early : flushElapsed s.dev (s.dev.lens n).flushedAt = false) :
    exec (.zoneTableFlush n) s = .next s :=
  runs_of_onDev (exec_zoneTableFlush s n) (if_neg (by rw [early, Bool.and_false]; exact Bool.false_ne_true))

theorem exec_zoneTableFlush_same {s : State} {n : Nat} (same : zoneFlush n s.dev = s.dev) :
    exec (.zoneTableFlush n) s = .next s := by
  refine runs_of_onDev (exec_zoneTableFlush s n) ?_
  split
  · exact same
  · rfl

theorem flushElapsed_early {d : Dev} {t : Nat} (early : d.tm.now < t + d.val Fam.lensTableFlushMin * 60000000000) :
    flushElapsed d (some t) = false := decide_eq_false (Nat.not_le.mpr early)

/-- A header with the next generation. -/
def ZoneHeader.next (h : ZoneHeader) : ZoneHeader := { h with generation := h.generation + 1 }

/-- A zone's entry whose live copy has become the stored one. -/
def flushedEntry (e : Nat × ZoneEntry × ZoneEntry) : Nat × ZoneEntry × ZoneEntry := (e.1, (e.2.2, e.2.2))

/-- What the flush of one surface makes of the channel. -/
def Lens.flushed (l : Lens) (h : Nat) : Lens :=
  { l with
    headers := tset l.headers h (tget l.headers h ZoneHeader.none).next ZoneHeader.none
    zones := l.zones.map fun e => if e.1 / 64 = h then flushedEntry e else e }

theorem flushSurface_lens (n : Nat) (d : Dev) (h : Nat) : (flushSurface n d h).lens n = (d.lens n).flushed h := lens_setLens _ _ _

theorem flushSurface_tm (n : Nat) (d : Dev) (h : Nat) : (flushSurface n d h).tm = d.tm := rfl

theorem foldl_flushSurface_lens (n : Nat) (surfaces : List Nat) (d : Dev) :
    (surfaces.foldl (flushSurface n) d).lens n = surfaces.foldl Lens.flushed (d.lens n) := by
  induction surfaces generalizing d with
  | nil => rfl
  | cons h r ih => rw [List.foldl_cons, ih, flushSurface_lens, List.foldl_cons]

theorem foldl_flushed_keeps (surfaces : List Nat) (l : Lens) :
    surfaces.foldl Lens.flushed l
      = { l with headers := (surfaces.foldl Lens.flushed l).headers, zones := (surfaces.foldl Lens.flushed l).zones } := by
  induction surfaces generalizing l with
  | nil => rfl
  | cons h r ih => exact ih (l.flushed h)

theorem foldl_flushed_zones (surfaces : List Nat) (l : Lens) :
    (surfaces.foldl Lens.flushed l).zones = l.zones.map fun e => if e.1 / 64 ∈ surfaces then flushedEntry e else e := by
  induction surfaces generalizing l with
  | nil => simp
  | cons h r ih =>
    rw [List.foldl_cons, ih, Lens.flushed, List.map_map]
    refine List.map_congr_left fun e _ => ?_
    by_cases here : e.1 / 64 = h <;> by_cases later : e.1 / 64 ∈ r <;> simp [here, later, flushedEntry]

/-- A surface that is flushed once takes one generation. -/
theorem foldl_flushed_header {surfaces : List Nat} (once : surfaces.Nodup) (l : Lens) (h : Nat) :
    tget (surfaces.foldl Lens.flushed l).headers h ZoneHeader.none
      = if h ∈ surfaces then (tget l.headers h ZoneHeader.none).next else tget l.headers h ZoneHeader.none := by
  induction surfaces generalizing l with
  | nil => rfl
  | cons k r ih =>
    obtain ⟨notAgain, once⟩ := List.nodup_cons.mp once
    rw [List.foldl_cons, ih once, Lens.flushed, tget_tset]
    by_cases here : h = k
    · subst here; simp [notAgain]
    · simp [here]

/-- The surfaces of which a live entry differs from the stored one. -/
def Lens.changed (l : Lens) : List Nat := ((l.zones.filter fun e => e.2.1 != e.2.2).map (·.1 / 64)).eraseDups

theorem nodup_eraseDups {α : Type} [DecidableEq α] : ∀ l : List α, l.eraseDups.Nodup
  | [] => by simp
  | a :: r => by
    rw [List.eraseDups_cons, List.nodup_cons, List.mem_eraseDups]
    exact ⟨by simp, nodup_eraseDups _⟩
termination_by l => l.length
decreasing_by exact Nat.lt_succ_of_le (List.length_filter_le _ r)

theorem mem_changed {l : Lens} {e : Nat × ZoneEntry × ZoneEntry} (mem : e ∈ l.zones) (differs : e.2.1 ≠ e.2.2) :
    e.1 / 64 ∈ l.changed :=
  List.mem_eraseDups.mpr (List.mem_map_of_mem (List.mem_filter.mpr ⟨mem, bne_iff_ne.mpr differs⟩))

theorem zoneFlush_same {n : Nat} {d : Dev} (same : ∀ e ∈ (d.lens n).zones, e.2.1 = e.2.2) : zoneFlush n d = d := by
  have unchanged : (d.lens n).changed = [] := by
    rw [Lens.changed, List.filter_eq_nil_iff.mpr fun e mem => by simp [same e mem]]
    rfl
  exact if_neg (by rw [show (((d.lens n).zones.filter fun e => e.2.1 != e.2.2).map (·.1 / 64)).eraseDups = [] from unchanged]; simp)

section
variable {n : Nat} {d : Dev}

theorem zoneFlush_lens (up : (d.lens n).up = true) (differs : ∃ e ∈ (d.lens n).zones, e.2.1 ≠ e.2.2) :
    (zoneFlush n d).lens n = { (d.lens n).changed.foldl Lens.flushed (d.lens n) with flushedAt := some d.tm.now } := by
  obtain ⟨e, mem, differs⟩ := differs
  have some_ : (d.lens n).changed ≠ [] := List.ne_nil_of_mem (mem_changed mem differs)
  have flushes : zoneFlush n d = ((d.lens n).changed.foldl (flushSurface n) d).setLens n
      { ((d.lens n).changed.foldl (flushSurface n) d).lens n with
        flushedAt := some ((d.lens n).changed.foldl (flushSurface n) d).tm.now } :=
    if_pos (Bool.and_eq_true_iff.mpr ⟨up, by simpa [Lens.changed] using some_⟩)
  rw [flushes, lens_setLens, foldl_flushSurface_lens, foldl_keeps Dev.tm (flushSurface n) (flushSurface_tm n)]

theorem Lens.zones_changed (l : Lens) :
    (l.zones.map fun e => if e.1 / 64 ∈ l.changed then flushedEntry e else e) = l.zones.map fun e => (e.1, (e.2.2, e.2.2)) := by
  refine List.map_congr_left fun e mem => ?_
  split
  next => rfl
  next other =>
    have same : e.2.1 = e.2.2 := not_not.mp fun differs => other (mem_changed mem differs)
    exact Prod.ext rfl (Prod.ext same rfl)

end

/-! ### Spares and REALLOCATE (R359, R362) -/

theorem freeSpare_some {l : Lens} {z : ZoneEntry} {head c h i : Nat} (free : freeSpare l z head = some (c, h, i)) :
    h = head ∧ i < z.sectors ∧ z.first + zoneData z ≤ c ∧ (c, h, i) ∉ l.retired
      ∧ ∀ e ∈ l.realloc, (e.2.1, e.2.2.1, e.2.2.2.1) ≠ (c, h, i) := by
  obtain ⟨k, found, spare⟩ := Option.map_eq_some_iff.mp free
  obtain ⟨rfl, rfl, rfl⟩ : z.first + zoneData z + k / z.sectors = c ∧ head = h ∧ k % z.sectors = i := by simpa using spare
  have inPool : k < zoneSpares z * z.sectors := by
    have := List.mem_range.mp (List.mem_of_find?_eq_some found)
    omega
  have unused := List.find?_some found
  obtain ⟨notGiven, notRetired⟩ := not_or.mp (by simpa only [Bool.not_eq_true', List.contains_eq_mem, decide_eq_false_iff_not,
    List.mem_append] using unused)
  exact ⟨rfl, Nat.mod_lt _ (Nat.pos_of_mul_pos_left (Nat.zero_lt_of_lt inPool)), Nat.le_add_right _ _, notRetired,
    fun e mem same => notGiven (List.mem_map.mpr ⟨e, mem, same⟩)⟩

section
variable {s : State} {n : Nat} (chan : n < 24) (executing : s.dev.executing = true)
include chan executing

theorem exec_reallocate (pba : Nat) (content : Option Block) (clean : Bool) :
    exec (.reallocate n pba content clean) s = .next { s with dev := reallocate n pba content clean s.dev } :=
  runs_of_onDev rfl (if_pos (by rw [executing, decide_eq_true chan]; rfl))

end

theorem reallocate_held {n : Nat} {d : Dev} (pba : Nat) (content : Option Block) (clean : Bool)
    (held : cadenceHeld d (lensMember n) = true) : reallocate n pba content clean d = d := by
  unfold reallocate
  extract_lets l
  split
  · exact if_pos (.inr (.inr held))
  · rfl

/-- R359: the block goes to the spare chosen, or, where nothing is left of it, its entry says so. -/
def reallocTo (n pba : Nat) (bytes : Option Block) (clean : Bool) (sp : Nat × Nat × Nat) (d : Dev) : Dev :=
  match bytes with
  | none => applyRealloc n pba sp true d
  | some b =>
    let e := emit (.lensTrack n (.spare pba sp.1 sp.2.1 sp.2.2) b) d
    if b.length = 4096 ∧ clean = true then applyRealloc n pba sp false e
    else e.setLens n (retireSpare (e.val Fam.lensFeSerial n) (e.lens n) sp)

/-- R359, R362: with the spare chosen, if there is one. -/
def reallocWith (n pba zone : Nat) (bytes : Option Block) (clean : Bool) (choice : Option (Nat × Nat × Nat)) (d : Dev) : Dev :=
  match choice with
  | none => noSpare n pba zone d
  | some sp => reallocTo n pba bytes clean sp d

section
variable {n pba : Nat} {dec : Option Block} {d : Dev} {p : Place} {z : ZoneEntry}
  (found : (d.lens n).reported.find? (·.1 == pba) = some (pba, dec)) (place : placeNow (d.lens n) pba = some p)
  (room : (d.lens n).journal.length < 1024) (up : (d.lens n).up = true) (zone : liveZone (d.lens n) 0 p.zone = some z)
  (free : cadenceHeld d (lensMember n) = false)
include found place room up zone free

/-- A reported block of an idle array goes to the spare chosen, if the table has room for one. -/
theorem reallocate_eq (content : Option Block) (clean : Bool) :
    reallocate n pba content clean d = reallocWith n pba p.zone (dec <|> content) clean
      (if (d.lens n).realloc.length + (d.lens n).retired.length < 262144 then chooseSpare (d.lens n) z p.head else none) d := by
  have runs : ¬ (1024 ≤ (d.lens n).journal.length ∨ (d.lens n).up = false ∨ cadenceHeld d (lensMember n) = true) := by
    simp only [up, free, Nat.not_le.mpr room, reduceCtorEq, Bool.false_eq_true, or_self, not_false_eq_true]
  unfold reallocate
  dsimp only
  rw [found, place]
  dsimp only
  rw [if_neg runs, zone]
  rfl

theorem reallocate_full (full : 262144 ≤ (d.lens n).realloc.length + (d.lens n).retired.length) (content : Option Block) (clean : Bool) :
    reallocate n pba content clean d = noSpare n pba p.zone d := by
  rw [reallocate_eq found place room up zone free, if_neg (Nat.not_lt.mpr full), reallocWith]

variable (fits : (d.lens n).realloc.length + (d.lens n).retired.length < 262144)
include fits

theorem reallocate_noSpare (none_ : chooseSpare (d.lens n) z p.head = none) (content : Option Block) (clean : Bool) :
    reallocate n pba content clean d = noSpare n pba p.zone d := by
  rw [reallocate_eq found place room up zone free, if_pos fits, none_, reallocWith]

variable {sp : Nat × Nat × Nat} (spare : chooseSpare (d.lens n) z p.head = some sp) {content : Option Block}
include spare

theorem reallocate_lost (clean : Bool) (lost : (dec <|> content) = none) :
    reallocate n pba content clean d = applyRealloc n pba sp true d := by
  rw [reallocate_eq found place room up zone free, if_pos fits, spare, lost, reallocWith, reallocTo]

variable {b : Block} (bytes : (dec <|> content) = some b)
include bytes

theorem reallocate_applied (long : b.length = 4096) :
    reallocate n pba content true d
      = applyRealloc n pba sp false (emit (.lensTrack n (.spare pba sp.1 sp.2.1 sp.2.2) b) d) := by
  rw [reallocate_eq found place room up zone free, if_pos fits, spare, bytes]
  exact if_pos ⟨long, rfl⟩

theorem reallocate_retires :
    reallocate n pba content false d = (emit (.lensTrack n (.spare pba sp.1 sp.2.1 sp.2.2) b) d).setLens n
      (retireSpare (d.val Fam.lensFeSerial n) (d.lens n) sp) := by
  rw [reallocate_eq found place room up zone free, if_pos fits, spare, bytes]
  exact if_neg fun ⟨_, clean⟩ => Bool.false_ne_true clean

end

/-! ### The reallocation table (R361) -/

theorem exec_reallocTableWrite (s : State) (n : Nat) :
    exec (.reallocTableWrite n) s = onDev s fun d => if d.working && decide (n < 24) && tableDue d n then reallocTableWrite n d else d :=
  rfl

theorem exec_reallocTableWrite_early {s : State} {n : Nat} (early : tableDue s.dev n = false) :
    exec (.reallocTableWrite n) s = .next s :=
  runs_of_onDev (exec_reallocTableWrite s n) (if_neg (by rw [early, Bool.and_false]; exact Bool.false_ne_true))

theorem exec_reallocTableWrite_due {s : State} {n : Nat} (chan : n < 24) (working : s.dev.working = true)
    (due : tableDue s.dev n = true) :
    exec (.reallocTableWrite n) s = .next { s with dev := reallocTableWrite n s.dev } :=
  runs_of_onDev (exec_reallocTableWrite s n) (if_pos (by rw [working, due, decide_eq_true chan]; rfl))

/-- The channel after the older copy has taken the table at time `now`. -/
def Lens.tableWritten (l : Lens) (serial now : Nat) : Lens :=
  let gen := max l.copyA l.copyB + 1
  let l := { l with journal := l.journal.filter (·.1 != serial), tableAt := some now }
  if l.copyB < l.copyA then { l with copyB := gen } else { l with copyA := gen }

/-- What goes to the disc: the whole table, as the copy that was the older one. -/
def tableWrite (n : Nat) (l : Lens) : Out :=
  let second := decide (l.copyB < l.copyA)
  let gen := max l.copyA l.copyB + 1
  let bytes := (reallocTable l).flatMap ReallocEntry.bytes
  .lensTrack n (.reallocCopy second (if l.surfaces ≤ 1 then 0 else b2n second) gen (copyCrc gen bytes)) bytes

theorem reallocTableWrite_eq {n : Nat} {d : Dev} (up : (d.lens n).up = true)
    (pending : (d.lens n).journal.any (·.1 == d.val Fam.lensFeSerial n) = true) :
    reallocTableWrite n d = (emit (tableWrite n (d.lens n)) d).setLens n
      ((d.lens n).tableWritten (d.val Fam.lensFeSerial n) d.tm.now) := by
  unfold reallocTableWrite Lens.tableWritten
  dsimp only
  rw [if_pos (Bool.and_eq_true_iff.mpr ⟨up, pending⟩)]
  simp only [decide_eq_true_eq]
  rfl

section
variable (l : Lens) (serial now : Nat)

theorem Lens.tableWritten_cases :
    (l.copyB < l.copyA ∧ l.tableWritten serial now = { l with
        journal := l.journal.filter (·.1 != serial), tableAt := some now, copyB := max l.copyA l.copyB + 1 })
      ∨ (l.copyA ≤ l.copyB ∧ l.tableWritten serial now = { l with
        journal := l.journal.filter (·.1 != serial), tableAt := some now, copyA := max l.copyA l.copyB + 1 }) := by
  by_cases older : l.copyB < l.copyA
  · exact .inl ⟨older, if_pos older⟩
  · exact .inr ⟨Nat.not_lt.mp older, if_neg older⟩

theorem Lens.tableWritten_newest : max (l.tableWritten serial now).copyA (l.tableWritten serial now).copyB = max l.copyA l.copyB + 1 := by
  rcases l.tableWritten_cases serial now with ⟨-, e⟩ | ⟨-, e⟩ <;> rw [e] <;> dsimp only <;> omega

end

/-- Settles O29: each command by its equation in the clause's case; the flush surface by surface (`foldl_flushed_header`). -/
theorem zoneTablesAndReallocation : Obligations.ZoneTablesAndReallocation := by
  refine ⟨?adapt, ?notDue, ?taps, ?gain, ?flush, ?same, ?early, ?reallocate, ?held, fun l z head c h i => freeSpare_some,
    fun s n => exec_reallocTableWrite_early, ?table⟩
  case adapt =>
    rintro s n zone head fir g o a stored live r d chan inTable executing enabled up entry due update rfl
    have updates := adaptUpdate_due enabled up entry due update
    exact ⟨fun free => exec_adaptUpdate chan inTable executing (updates.trans (if_neg (by rw [free]; exact Bool.false_ne_true))),
      fun held => exec_adaptUpdate chan inTable executing (updates.trans (if_pos held))⟩
  case notDue =>
    intro s n zone head fir g o a chan inTable executing notDue
    exact exec_adaptUpdate chan inTable executing (adaptUpdate_notDue fir g o a notDue)
  case taps =>
    intro stored live fir g o a i hi near
    rw [adaptEntry_fir stored live fir g o a hi]
    exact adaptValue_bounds _ near
  case gain => exact fun stored live fir g o a near => adaptValue_bounds g near
  case flush =>
    intro s n chan working up differs elapsed
    have lens := zoneFlush_lens up differs
    rw [foldl_flushed_keeps] at lens
    refine ⟨_, exec_zoneTableFlush_due chan working elapsed, ?_⟩
    rw [lens]
    refine ⟨rfl, ?zones, rfl, rfl, fun e mem differs => ?header⟩
    case zones => exact (foldl_flushed_zones _ _).trans (Lens.zones_changed _)
    case header => exact (foldl_flushed_header (nodup_eraseDups _) _ _).trans (if_pos (mem_changed mem differs))
  case same => exact fun s n _ _ same => exec_zoneTableFlush_same (zoneFlush_same same)
  case early => exact fun s n t _ last early => exec_zoneTableFlush_early (by rw [last]; exact flushElapsed_early early)
  case reallocate =>
    intro s n pba content clean dec p z chan executing found place room up zone free
    rw [exec_reallocate chan executing]
    refine ⟨fun fits => ⟨fun none_ => ?_, fun sp spare => ⟨?_, ?_, ?_⟩⟩, fun full => ?_⟩
    · rw [reallocate_noSpare found place room up zone free fits none_]
    · rintro rfl rfl
      rw [reallocate_lost found place room up zone free fits spare clean rfl]
    · rintro b bytes long rfl
      rw [reallocate_applied found place room up zone free fits spare bytes long]
    · rintro b bytes rfl
      rw [reallocate_retires found place room up zone free fits spare bytes]
    · rw [reallocate_full found place room up zone free full]
  case held =>
    intro s n pba content clean chan executing held
    rw [exec_reallocate chan executing, reallocate_held pba content clean held]
  case table =>
    rintro s n l second gen chan working rfl up due pending rfl rfl
    refine ⟨_, exec_reallocTableWrite_due chan working due, ?_⟩
    rw [reallocTableWrite_eq up pending, lens_setLens]
    have newest := (s.dev.lens n).tableWritten_newest (s.dev.val Fam.lensFeSerial n) s.dev.tm.now
    rcases (s.dev.lens n).tableWritten_cases (s.dev.val Fam.lensFeSerial n) s.dev.tm.now with ⟨older, e⟩ | ⟨older, e⟩
    · refine ⟨by rw [e], rfl, by rw [e], newest, fun other => absurd older (Nat.not_lt.mpr other), fun _ => by rw [e]⟩
    · refine ⟨by rw [e], rfl, by rw [e], newest, fun _ => by rw [e], fun other => absurd other (Nat.not_lt.mpr older)⟩

end Sys2Proof.Machine
end


section
/-!
SUPPORT. The commands of a front-end (R319, R320, Tables 11.3 and 11.5): what each makes of its registers and the result that it is
acknowledged with, how a write ends, and O26.
-/

namespace Sys2Proof.Machine

/-! ### Rows on the 24 channels -/

section
variable {c : Instr} {s : State} {n : Nat} {k : Dev → Dev} {d : Dev}
  (chan : n < 24) (acts : exec c s = onDev s (onChan n k))
include chan acts

/-- A row on a channel shows what it has changed. -/
theorem exec_onChan (e : k s.dev = d) : exec c s = .next { s with dev := feShow n s.dev d } :=
  runs_of_onDev acts ((if_pos chan).trans (congrArg (feShow n s.dev) e))

/-- What changes nothing shows nothing. -/
theorem exec_onChan_same (e : k s.dev = s.dev) : exec c s = .next s :=
  runs_of_onDev acts ((if_pos chan).trans ((congrArg (feShow n s.dev) e).trans (if_pos rfl)))

end

/-! ### Registers, clock and heads -/

section
variable {n tag : Nat} {d : Dev}

theorem feWriteReg_maker {reg : Nat} (v : Word) (h : 0x800 ≤ reg % 4096) :
    feWriteReg n tag reg v d = feAck n tag 0 (d.setFe n { d.fe n with regs := tput (d.fe n).regs (reg % 4096) v.toNat }) :=
  if_neg (Nat.not_lt.mpr h)

theorem feWriteReg_readOnly {reg : Nat} (v : Word) (h : reg % 4096 < 0x800) :
    feWriteReg n tag reg v d = feAck n tag (Config.freeNat d.fresh % 256) d.draw := if_pos h

theorem feSetClock_writing (khz : Nat) (writing : (d.fe n).gate = true) : feSetClock n tag khz d = feAck n tag 4 d := if_pos writing

theorem feMoveDone_still (still : (d.fe n).moving = none) : feMoveDone n d = d := by
  unfold feMoveDone
  dsimp only
  rw [still]

theorem feMoveDone_moving {up : Bool} {t : Nat} (moving : (d.fe n).moving = some (up, t)) :
    feMoveDone n d = feAck n t 0 (d.setFe n { d.fe n with moving := none, loaded := up }) := by
  unfold feMoveDone
  dsimp only
  rw [moving]

theorem feClockDone_settled (settled : (d.fe n).clockTag = none) : feClockDone n d = d := by
  unfold feClockDone
  dsimp only
  rw [settled]

theorem feClockDone_settling {t : Nat} (settling : (d.fe n).clockTag = some t) :
    feClockDone n d = feAck n t 0 (d.setFe n { d.fe n with clockTag := none, settling := false }) := by
  unfold feClockDone
  dsimp only
  rw [settling]

section
variable {khz : Nat} (closed : ¬ (d.fe n).gate = true)
include closed

theorem feSetClock_outOfRange (out : khz < 600000 ∨ 3600000 < khz) : feSetClock n tag khz d = feAck n tag 2 d :=
  (if_neg closed).trans (if_pos out)

theorem feSetClock_accepted (settled : (d.fe n).clockTag = none) (lo : 600000 ≤ khz) (hi : khz ≤ 3600000) :
    feSetClock n tag khz d = d.setFe n { d.fe n with clockKhz := khz, settling := true, clockTag := some tag } := by
  have inRange : ¬ (khz < 600000 ∨ 3600000 < khz) := by omega
  rw [feSetClock, if_neg closed, if_neg inRange, feClockDone_settled settled]

end

theorem feSetPrecomp_outOfRange {a b c : Byte} (out : 31 < a.toNat ∨ 31 < b.toNat ∨ 31 < c.toNat) :
    feSetPrecomp n tag a b c d = feAck n tag 2 d := if_pos out

theorem feSetPrecomp_accepted {a b c : Byte} (ha : a.toNat ≤ 31) (hb : b.toNat ≤ 31) (hc : c.toNat ≤ 31) :
    feSetPrecomp n tag a b c d = feAck n tag 0 (d.setFe n { d.fe n with precomp := (a.toNat, b.toNat, c.toNat) }) :=
  if_neg (by omega)

theorem feSelectHead_writing (head : Nat) (writing : (d.fe n).gate = true) : feSelectHead n tag head d = feAck n tag 4 d :=
  if_pos writing

section
variable {head : Nat} (closed : ¬ (d.fe n).gate = true)
include closed

theorem feSelectHead_absent (absent : (feRegister n (d.fe n) 3).toNat ≤ head) : feSelectHead n tag head d = feAck n tag 2 d :=
  (if_neg closed).trans (if_pos absent)

theorem feSelectHead_accepted (present : head < (feRegister n (d.fe n) 3).toNat) :
    feSelectHead n tag head d = feAck n tag 0 (d.setFe n { d.fe n with head := head, switched := true }) :=
  (if_neg closed).trans (if_neg (Nat.not_le.mpr present))

end

theorem feLoad_still (still : (d.fe n).moving = none) :
    feLoad n tag d = d.setFe n { d.fe n with moving := some (true, tag) } := by rw [feLoad, feMoveDone_still still]

theorem fePark_still (still : (d.fe n).moving = none) (closed : ¬ (d.fe n).gate = true) :
    fePark n tag d = d.setFe n { d.fe n with moving := some (false, tag) } := by
  rw [fePark, feParkFault, if_neg closed, feMoveDone_still still]

theorem feCommandDone_clock {t : Nat} (settling : (d.fe n).settling = true) (clock : (d.fe n).clockTag = some t) :
    feCommandDone n d = feAck n t 0 (d.setFe n { d.fe n with clockTag := none, settling := false }) :=
  (if_pos settling).trans (feClockDone_settling clock)

theorem feCommandDone_move {up : Bool} {t : Nat} (settled : (d.fe n).settling = false) (moving : (d.fe n).moving = some (up, t)) :
    feCommandDone n d = feAck n t 0 (d.setFe n { d.fe n with moving := none, loaded := up }) :=
  (if_neg (by rw [settled]; exact Bool.false_ne_true)).trans (feMoveDone_moving moving)

end

/-! ### START_WRITE (Table 11.3) -/

section
variable {x : FrontEnd} {count : Nat}

theorem startWriteResult_busy (h : x.gate = true ∨ x.loaded = false ∨ x.moving.isSome = true ∨ x.clockKhz = 0) :
    startWriteResult x count = 4 := if_pos (by simpa [or_assoc] using h)

variable (closed : x.gate = false) (loaded : x.loaded = true) (still : x.moving = none) (clocked : 0 < x.clockKhz)
include closed loaded still clocked

theorem startWriteResult_eq : startWriteResult x count = if x.clockKhz < feAhead x count then 3 else 0 :=
  if_neg (by simp [closed, loaded, still, Nat.pos_iff_ne_zero.mp clocked])

theorem startWriteResult_ahead (ahead : x.clockKhz < feAhead x count) : startWriteResult x count = 3 :=
  (startWriteResult_eq closed loaded still clocked).trans (if_pos ahead)

theorem startWriteResult_near (near : feAhead x count ≤ x.clockKhz) : startWriteResult x count = 0 :=
  (startWriteResult_eq closed loaded still clocked).trans (if_neg (Nat.not_lt.mpr near))

end

section
variable {n : Nat} (tag : Nat) {count : Nat} {d : Dev}

theorem feStartWrite_refused {r : Nat} (result : startWriteResult (d.fe n) count = r) (refused : r ≠ 0) :
    feStartWrite n tag count d = feAck n tag r d := by
  subst result
  exact if_pos refused

theorem feStartWrite_opens (result : startWriteResult (d.fe n) count = 0) :
    feStartWrite n tag count d = d.setFe n { d.fe n with
      gate := true, writeTag := some tag, startCount := count % 2 ^ 44, data := [], faulted := false } :=
  if_neg (not_not.mpr result)

end

/-! ### The end of a write (R320) -/

@[simp] theorem feDrive_fe (whole : Bool) (n : Nat) (d : Dev) (c : Nat) : (feDrive whole n d).fe c = d.fe c := by
  unfold feDrive
  extract_lets x driven
  split <;> rfl

/-- A frame counts itself and clears the shock flag, no more. -/
theorem feFrame_fe (n : Nat) (blocks : List UpBlock) (d : Dev) :
    ∃ q, (feFrame n blocks d).fe n = { d.fe n with upSeq := q, shockSeen := false } := by
  have frameOn (epoch : Nat) (m : Dev) (link : Nat) : ∃ q, (feFrameOn n epoch blocks m link).fe n = { m.fe n with upSeq := q } :=
    ⟨_, fe_setFe m n _⟩
  have drawn : (if (d.fe n).eMax.isNone then d.draw else d).fe n = d.fe n := by split <;> rfl
  obtain ⟨q, first⟩ := frameOn ((d.fe n).eMax.getD (Config.freeNat d.fresh % 65536)) (if (d.fe n).eMax.isNone then d.draw else d) 0
  obtain ⟨r, second⟩ := frameOn ((d.fe n).eMax.getD (Config.freeNat d.fresh % 65536)) _ 1
  refine ⟨r, (fe_setFe _ n _).trans ?_⟩
  rw [List.foldl_cons, List.foldl_cons, List.foldl_nil, second, first, drawn]

theorem feUp_writeTag (n : Nat) (b : UpBlock) (d : Dev) : ((feUp n b d).fe n).writeTag = (d.fe n).writeTag := by
  obtain ⟨q, e⟩ := feFrame_fe n [b] d
  rw [feUp, e]

section
variable {n t : Nat} {d : Dev}

theorem feGateOff_tag (result : Nat) (tag : (d.fe n).writeTag = some t) :
    feGateOff n result d = feAck n t result (d.setFe n { d.fe n with gate := false, writeTag := none, data := [] }) := by
  unfold feGateOff
  dsimp only
  rw [tag]

theorem writeEnds_closed {c : WriteEnd} (closed : ¬ (d.fe n).gate = true) (noShock : c ≠ .shock) : writeEnds n c d = d := by
  unfold writeEnds
  dsimp only
  rw [if_neg noShock, if_neg closed]

variable (writing : (d.fe n).gate = true) (tag : (d.fe n).writeTag = some t)
include writing tag

/-- A write that ends in order drives its bits and is acknowledged. -/
theorem writeEnds_inOrder {c : WriteEnd} (inOrder : feWriteCause c = none) :
    writeEnds n c d = feAck n t 0 ((feDrive (c == .count0) n d).setFe n { d.fe n with gate := false, writeTag := none, data := [] }) := by
  have noShock : c ≠ .shock := by rintro rfl; cases inOrder
  unfold writeEnds
  dsimp only
  rw [if_neg noShock, if_pos writing, inOrder]
  dsimp only
  rw [feGateOff_tag 0 (by rwa [feDrive_fe]), feDrive_fe]

end

/-- A fault of a write is latched and reported. -/
def reportFault (n cause : Nat) (d : Dev) : Dev := feUp n (.writeFault cause) ((d.setFe n { d.fe n with faulted := true }).draw)

theorem reportFault_writeTag (n cause : Nat) (d : Dev) : ((reportFault n cause d).fe n).writeTag = (d.fe n).writeTag := by
  rw [reportFault, feUp_writeTag]
  show ((d.setFe n _).fe n).writeTag = _
  rw [fe_setFe]

theorem reportFault_feDrive (n cause : Nat) (d : Dev) :
    reportFault n cause (feDrive false n d)
      = feUp n (.writeFault cause) (((feDrive false n d).setFe n { d.fe n with faulted := true }).draw) := by
  rw [reportFault, feDrive_fe]

section
variable {n t : Nat} {d : Dev} (writing : (d.fe n).gate = true) (tag : (d.fe n).writeTag = some t)
include writing tag

/-- The bits that were due are driven, the fault is reported, and the gate closes with a free result. -/
theorem feWriteFault_closes (cause : Nat) :
    ∃ r, feWriteFault n cause d = feAck n t r ((reportFault n cause (feDrive false n d)).setFe n
      { (reportFault n cause (feDrive false n d)).fe n with gate := false, writeTag := none, data := [] }) := by
  obtain ⟨r, closes⟩ : ∃ r, feWriteFault n cause d = feGateOff n r (reportFault n cause (feDrive false n d)) := ⟨_, if_pos writing⟩
  have kept : ((reportFault n cause (feDrive false n d)).fe n).writeTag = some t := by rwa [reportFault_writeTag, feDrive_fe]
  exact ⟨r, closes.trans (feGateOff_tag r kept)⟩

theorem writeEnds_fault {c : WriteEnd} {k : Nat} (cause : feWriteCause c = some k) :
    ∃ r m, m = (if c = .shock then d.setFe n { d.fe n with shockSeen := true } else d)
      ∧ writeEnds n c d = feAck n t r ((reportFault n k (feDrive false n m)).setFe n
        { (reportFault n k (feDrive false n m)).fe n with gate := false, writeTag := none, data := [] }) := by
  obtain ⟨m, noted⟩ : ∃ m, m = if c = .shock then d.setFe n { d.fe n with shockSeen := true } else d := ⟨_, rfl⟩
  obtain ⟨open_, kept⟩ : (m.fe n).gate = true ∧ (m.fe n).writeTag = some t := by
    rw [noted]
    split
    · rw [fe_setFe]; exact ⟨writing, tag⟩
    · exact ⟨writing, tag⟩
  obtain ⟨r, closes⟩ := feWriteFault_closes open_ kept k
  refine ⟨r, m, noted, ?_⟩
  unfold writeEnds
  dsimp only
  rw [← noted, if_pos open_, cause]
  exact closes

end

/-- Settles O26: each command by its equation in the clause's case, shown on its channel (`exec_onChan`). -/
theorem frontEndCommandsAreAcknowledged : Obligations.FrontEndCommandsAreAcknowledged := by
  have closed_of {d : Dev} {n : Nat} (h : (d.fe n).gate = false) : ¬ (d.fe n).gate = true := by rw [h]; exact Bool.false_ne_true
  refine ⟨?registers, ?clockWriting, ?clock, ?setRead, ?precomp, ?head, ?startWrite, ?endWrite, ?spindle, ?shock, ?move, ?writeEnd,
    ?shows, ⟨rfl, rfl, rfl, rfl, rfl, rfl⟩, ?done⟩
  case registers =>
    intro s n tag reg v chan
    exact ⟨exec_onChan chan rfl rfl, exec_onChan chan rfl rfl, fun maker => exec_onChan chan rfl (feWriteReg_maker v maker),
      fun readOnly => ⟨_, exec_onChan chan rfl (feWriteReg_readOnly v readOnly)⟩⟩
  case clockWriting => intro s n tag khz chan writing; exact exec_onChan chan rfl (feSetClock_writing khz writing)
  case clock =>
    intro s n tag khz chan gate settled
    exact ⟨fun out => exec_onChan chan rfl (feSetClock_outOfRange (closed_of gate) out),
      fun lo hi => exec_onChan chan rfl (feSetClock_accepted (closed_of gate) settled lo hi)⟩
  case setRead => intro s n tag g b o chan; exact exec_onChan chan rfl rfl
  case precomp =>
    intro s n tag a b c chan
    exact ⟨fun out => exec_onChan chan rfl (feSetPrecomp_outOfRange out),
      fun ha hb hc => exec_onChan chan rfl (feSetPrecomp_accepted ha hb hc)⟩
  case head =>
    intro s n tag h chan
    exact ⟨fun writing => exec_onChan chan rfl (feSelectHead_writing h writing),
      fun gate absent => exec_onChan chan rfl (feSelectHead_absent (closed_of gate) absent),
      fun gate present => exec_onChan chan rfl (feSelectHead_accepted (closed_of gate) present)⟩
  case startWrite =>
    rintro s n tag count x chan rfl
    exact ⟨fun busy => exec_onChan chan rfl (feStartWrite_refused tag (startWriteResult_busy busy) (by decide)),
      fun gate loaded still clocked ahead =>
        exec_onChan chan rfl (feStartWrite_refused tag (startWriteResult_ahead gate loaded still clocked ahead) (by decide)),
      fun gate loaded still clocked near =>
        exec_onChan chan rfl (feStartWrite_opens tag (startWriteResult_near gate loaded still clocked near))⟩
  case endWrite =>
    intro s n tag t chan
    exact ⟨fun gate => exec_onChan chan rfl (congrArg (feAck n tag 0) (writeEnds_closed (closed_of gate) (by decide))),
      fun writing hasTag => exec_onChan chan rfl (congrArg (feAck n tag 0) (writeEnds_inOrder writing hasTag rfl))⟩
  case spindle => intro s n tag rpm acc chan; exact exec_onChan chan rfl rfl
  case shock => intro s n tag v chan; exact exec_onChan chan rfl rfl
  case move =>
    intro s n tag chan still
    exact ⟨exec_onChan chan rfl (feLoad_still still), fun gate => exec_onChan chan rfl (fePark_still still (closed_of gate))⟩
  case writeEnd =>
    intro s n c t chan
    refine ⟨fun gate noShock => exec_onChan_same chan rfl (writeEnds_closed (closed_of gate) noShock), fun writing hasTag inOrder => ?_,
      fun k writing hasTag cause => ?_⟩
    · exact exec_onChan chan rfl (writeEnds_inOrder writing hasTag (by rcases inOrder with rfl | rfl <;> rfl))
    · obtain ⟨r, m, noted, ends⟩ := writeEnds_fault writing hasTag cause
      exact ⟨r, m, _, noted, reportFault_feDrive n k m, exec_onChan chan rfl ends⟩
  case shows => exact fun n d e => ⟨fun same => if_pos same, fun differs => if_neg differs⟩
  case done =>
    intro s n t chan
    exact ⟨fun settling clock => exec_onChan chan rfl (feCommandDone_clock settling clock),
      fun up settled moving => exec_onChan chan rfl (feCommandDone_move settled moving)⟩

end Sys2Proof.Machine
end


section
/-!
SUPPORT. Downstream frames and the owner of a front-end (R316, R321, R322, Table 11.6): the order of epochs, what an accepted frame
does to ownership, the loss of the owner link, and O27.
-/

namespace Sys2Proof.Machine

/-! ### The order of epochs (R321) -/

theorem epochNewer_iff {a b : Nat} (ha : a < 65536) (hb : b < 65536) :
    epochNewer a b = true ↔ a ≠ b ∧ (a + 65536 - b) % 65536 < 32768 := by
  simp only [epochNewer, Nat.mod_eq_of_lt hb, Bool.and_eq_true, decide_eq_true_eq]
  omega

theorem epochNewer_self (a : Nat) : epochNewer a a = false := by
  simp only [epochNewer, Bool.and_eq_false_iff, decide_eq_false_iff_not]
  omega

/-! ### Downstream frames (R316) -/

theorem exec_feDownstreamFrame (s : State) (n link seq epoch : Nat) (crc : BitVec 24) (blocks : List DownBlock) :
    exec (.feDownstreamFrame n link seq epoch crc blocks) s = onDev s (onChan n fun d =>
      if crc == downCrc seq epoch blocks && decide (link < 2) then downFrame n link (seq % 256) (epoch % 65536) blocks d else d) := rfl

theorem exec_feDownstreamFrame_discarded {s : State} {n link seq epoch : Nat} {crc : BitVec 24} {blocks : List DownBlock}
    (chan : n < 24) (bad : crc ≠ downCrc seq epoch blocks) : exec (.feDownstreamFrame n link seq epoch crc blocks) s = .next s := by
  have refused : ¬ (crc == downCrc seq epoch blocks && decide (link < 2)) = true := fun accepted =>
    bad (eq_of_beq (Bool.and_eq_true_iff.mp accepted).1)
  exact exec_onChan_same chan (exec_feDownstreamFrame s n link seq epoch crc blocks) (if_neg refused)

theorem exec_feDownstreamFrame_accepted {s : State} {n link seq epoch : Nat} {blocks : List DownBlock} {d : Dev} (chan : n < 24)
    (isLink : link < 2) (isEpoch : epoch < 65536) (e : downFrame n link (seq % 256) epoch blocks s.dev = d) :
    exec (.feDownstreamFrame n link seq epoch (downCrc seq epoch blocks) blocks) s = .next { s with dev := feShow n s.dev d } := by
  have accepted : (downCrc seq epoch blocks == downCrc seq epoch blocks && decide (link < 2)) = true := by
    rw [beq_self_eq_true, decide_eq_true isLink]; rfl
  refine exec_onChan chan (exec_feDownstreamFrame s n link seq epoch _ blocks) ((if_pos accepted).trans ?_)
  rw [Nat.mod_eq_of_lt isEpoch, e]

/-- The front-end with the sequence of a frame noted. -/
def FrontEnd.noted (x : FrontEnd) (link seq : Nat) : FrontEnd :=
  if link = 0 then { x with seqA := some seq } else { x with seqB := some seq }

section
variable (x : FrontEnd) (link seq : Nat)

theorem FrontEnd.noted_eMax : (x.noted link seq).eMax = x.eMax := by unfold noted; split <;> rfl

theorem FrontEnd.noted_ownerLink : (x.noted link seq).ownerLink = x.ownerLink := by unfold noted; split <;> rfl

theorem FrontEnd.noted_shown : (x.noted link seq).shown = x.shown := by unfold noted; split <;> rfl

end

/-- A frame in order: its sequence, then ownership, then its blocks where they are obeyed. -/
theorem downFrame_inOrder {n link seq : Nat} (epoch : Nat) (blocks : List DownBlock) {d : Dev}
    (inOrder : feInOrder (d.fe n) link seq = true) :
    downFrame n link seq epoch blocks d =
      (let e := feOwnership n link epoch (d.setFe n ((d.fe n).noted link seq))
       if (e.fe n).ownerLink = some link ∧ (e.fe n).eMax = some epoch then blocks.foldl (downBlock n) e else e) := by
  have noGap : ¬ (!feInOrder (d.fe n) link seq && (d.fe n).ownerLink == some link) = true := by
    rw [inOrder]; exact Bool.false_ne_true
  unfold downFrame
  dsimp only
  rw [if_neg noGap]
  rfl

/-! ### Ownership (R321) -/

section
variable {n link epoch : Nat} {d : Dev}

theorem feOwnership_first (none_ : (d.fe n).eMax = none) :
    feOwnership n link epoch d = d.setFe n { d.fe n with eMax := some epoch, ownerLink := some link, lossHold := false } := by
  unfold feOwnership
  dsimp only
  rw [none_]

variable {e : Nat} (known : (d.fe n).eMax = some e)
include known

theorem feOwnership_owner (newer : epochNewer epoch e = true) (owner : (d.fe n).ownerLink = some link) :
    feOwnership n link epoch d = d.setFe n { d.fe n with eMax := some epoch, lossHold := false } := by
  unfold feOwnership
  dsimp only
  rw [known]
  dsimp only
  rw [if_pos newer, if_pos owner]

theorem feOwnership_moves (newer : epochNewer epoch e = true) (other : (d.fe n).ownerLink ≠ some link) :
    feOwnership n link epoch d = (writeEnds n .ownerChange d).setFe n
      { (writeEnds n .ownerChange d).fe n with eMax := some epoch, ownerLink := some link, lossHold := false } := by
  unfold feOwnership
  dsimp only
  rw [known]
  dsimp only
  rw [if_pos newer, if_neg other]

theorem feOwnership_same (notNewer : epochNewer epoch e = false) (owner : (d.fe n).ownerLink = some link) (same : epoch = e) :
    feOwnership n link epoch d = d.setFe n { d.fe n with lossHold := false } := by
  unfold feOwnership
  dsimp only
  rw [known]
  dsimp only
  rw [notNewer, if_neg Bool.false_ne_true, if_pos ⟨owner, same⟩]

theorem feOwnership_older (notNewer : epochNewer epoch e = false) (other : (d.fe n).ownerLink ≠ some link ∨ epoch ≠ e) :
    feOwnership n link epoch d = d := by
  unfold feOwnership
  dsimp only
  rw [known]
  dsimp only
  rw [notNewer, if_neg Bool.false_ne_true, if_neg (not_and_or.mpr other)]

end

/-! ### A frame and the ownership that it finds -/

section
variable {n link seq epoch : Nat} {d : Dev} (blocks : List DownBlock) (inOrder : feInOrder (d.fe n) link seq = true)
include inOrder

/-- The blocks of a frame that leaves its link the owner and its epoch the newest are obeyed. -/
theorem downFrame_obeyed {m : Dev} {x : FrontEnd} (owns : feOwnership n link epoch (d.setFe n ((d.fe n).noted link seq)) = m.setFe n x)
    (owner : x.ownerLink = some link) (newest : x.eMax = some epoch) :
    downFrame n link seq epoch blocks d = blocks.foldl (downBlock n) (m.setFe n x) := by
  rw [downFrame_inOrder epoch blocks inOrder, owns]
  exact if_pos (by rw [fe_setFe]; exact ⟨owner, newest⟩)

theorem downFrame_first (none_ : (d.fe n).eMax = none) :
    downFrame n link seq epoch blocks d = blocks.foldl (downBlock n) (d.setFe n
      { (d.fe n).noted link seq with eMax := some epoch, ownerLink := some link, lossHold := false }) := by
  have owns := feOwnership_first (n := n) (link := link) (epoch := epoch) (d := d.setFe n ((d.fe n).noted link seq))
    (by rw [fe_setFe, FrontEnd.noted_eMax, none_])
  rw [fe_setFe, setFe_setFe] at owns
  exact downFrame_obeyed blocks inOrder owns rfl rfl

variable {e : Nat} (known : (d.fe n).eMax = some e)
include known

theorem downFrame_owner (newer : epochNewer epoch e = true) (owner : (d.fe n).ownerLink = some link) :
    downFrame n link seq epoch blocks d = blocks.foldl (downBlock n) (d.setFe n
      { (d.fe n).noted link seq with eMax := some epoch, lossHold := false }) := by
  have ownerThen : ((d.fe n).noted link seq).ownerLink = some link := by rw [FrontEnd.noted_ownerLink, owner]
  have owns := feOwnership_owner (d := d.setFe n ((d.fe n).noted link seq)) (by rw [fe_setFe, FrontEnd.noted_eMax, known]) newer
    (by rw [fe_setFe, ownerThen])
  rw [fe_setFe, setFe_setFe] at owns
  exact downFrame_obeyed blocks inOrder owns ownerThen rfl

theorem downFrame_moves (newer : epochNewer epoch e = true) (other : (d.fe n).ownerLink ≠ some link) :
    downFrame n link seq epoch blocks d = blocks.foldl (downBlock n)
      ((writeEnds n .ownerChange (d.setFe n ((d.fe n).noted link seq))).setFe n
        { (writeEnds n .ownerChange (d.setFe n ((d.fe n).noted link seq))).fe n with
          eMax := some epoch, ownerLink := some link, lossHold := false }) := by
  have owns := feOwnership_moves (d := d.setFe n ((d.fe n).noted link seq)) (by rw [fe_setFe, FrontEnd.noted_eMax, known]) newer
    (by rwa [fe_setFe, FrontEnd.noted_ownerLink])
  exact downFrame_obeyed blocks inOrder owns rfl rfl

theorem downFrame_newest (owner : (d.fe n).ownerLink = some link) (same : epoch = e) :
    downFrame n link seq epoch blocks d = blocks.foldl (downBlock n) (d.setFe n
      { (d.fe n).noted link seq with lossHold := false }) := by
  subst same
  have ownerThen : ((d.fe n).noted link seq).ownerLink = some link := by rw [FrontEnd.noted_ownerLink, owner]
  have knownThen : ((d.fe n).noted link seq).eMax = some epoch := by rw [FrontEnd.noted_eMax, known]
  have owns := feOwnership_same (d := d.setFe n ((d.fe n).noted link seq)) (by rw [fe_setFe, knownThen]) (epochNewer_self epoch)
    (by rw [fe_setFe, ownerThen]) rfl
  rw [fe_setFe, setFe_setFe] at owns
  exact downFrame_obeyed blocks inOrder owns ownerThen knownThen

theorem downFrame_older (notNewer : epochNewer epoch e = false) (other : (d.fe n).ownerLink ≠ some link ∨ epoch ≠ e) :
    downFrame n link seq epoch blocks d = d.setFe n ((d.fe n).noted link seq) := by
  have ownerThen : ((d.setFe n ((d.fe n).noted link seq)).fe n).ownerLink = (d.fe n).ownerLink := by
    rw [fe_setFe, FrontEnd.noted_ownerLink]
  have knownThen : ((d.setFe n ((d.fe n).noted link seq)).fe n).eMax = some e := by rw [fe_setFe, FrontEnd.noted_eMax, known]
  rw [downFrame_inOrder epoch blocks inOrder, feOwnership_older knownThen notNewer (by rwa [ownerThen])]
  refine if_neg fun ⟨owner, newest⟩ => ?_
  rw [ownerThen] at owner
  rw [knownThen] at newest
  exact other.elim (fun h => h owner) fun h => h (Option.some.inj newest).symm

end

/-! ### The loss of the owner link (Table 11.6) -/

section
variable {n : Nat} {d : Dev}

theorem feOwnerLoss_none (none_ : (d.fe n).ownerLink = none) : feOwnerLoss n d = d := by
  rw [feOwnerLoss, none_]; rfl

theorem feOwnerLoss_some (owner : (d.fe n).ownerLink.isSome = true) :
    feOwnerLoss n d = (writeEnds n .linkLoss d).setFe n { (writeEnds n .linkLoss d).fe n with lossHold := true } := if_pos owner

theorem feRetract_noHold (noHold : (d.fe n).lossHold = false) : feRetract n d = d :=
  if_neg (by rw [noHold]; exact Bool.false_ne_true)

theorem feSpinDown_noHold (noHold : (d.fe n).lossHold = false) : feSpinDown n d = d :=
  if_neg (by rw [noHold]; exact Bool.false_ne_true)

section
variable (hold : (d.fe n).lossHold = true)
include hold

theorem feSpinDown_hold : feSpinDown n d = d.setFe n { d.fe n with rpm := 0 } := if_pos hold

theorem feRetract_still (still : (d.fe n).moving = none) :
    feRetract n d = d.setFe n { d.fe n with loaded := false, moving := none } := by
  unfold feRetract
  dsimp only
  rw [if_pos hold, still]

theorem feRetract_parking {t : Nat} (parking : (d.fe n).moving = some (false, t)) :
    feRetract n d = feAck n t 0 (d.setFe n { d.fe n with loaded := false, moving := none }) := by
  unfold feRetract
  dsimp only
  rw [if_pos hold, parking]

theorem feRetract_loading {t : Nat} (loading : (d.fe n).moving = some (true, t)) :
    ∃ r, feRetract n d = feAck n t r (d.setFe n { d.fe n with loaded := false, moving := none }).draw := by
  refine ⟨Config.freeNat (d.setFe n { d.fe n with loaded := false, moving := none }).fresh % 256, ?_⟩
  unfold feRetract
  dsimp only
  rw [if_pos hold, loading]

end

end

/-- Settles O27: frames by the ownership that they find (`downFrame_obeyed`, `downFrame_older`), the rest by their equations. -/
theorem frontEndFollowsItsOwner : Obligations.FrontEndFollowsItsOwner := by
  refine ⟨fun s n link seq epoch crc blocks chan _ bad => exec_feDownstreamFrame_discarded chan bad, ?frames,
    fun a b ha hb => epochNewer_iff ha hb, ?ownerLoss, ?hold⟩
  case frames =>
    rintro s n link seq epoch blocks x y chan isLink isEpoch rfl inOrder rfl
    refine ⟨fun none_ => ?_, fun known owner => ?_, fun e known notNewer other => ?_, FrontEnd.noted_shown _ link _,
      fun e known newer owner => ?_, ?moves⟩
    · exact exec_feDownstreamFrame_accepted chan isLink isEpoch (downFrame_first blocks inOrder none_)
    · exact exec_feDownstreamFrame_accepted chan isLink isEpoch (downFrame_newest blocks inOrder known owner rfl)
    · exact exec_feDownstreamFrame_accepted chan isLink isEpoch (downFrame_older blocks inOrder known notNewer other)
    · exact exec_feDownstreamFrame_accepted chan isLink isEpoch (downFrame_owner blocks inOrder known newer owner)
    case moves =>
      rintro e d known newer other rfl
      exact exec_feDownstreamFrame_accepted chan isLink isEpoch (downFrame_moves blocks inOrder known newer other)
  case ownerLoss =>
    intro s n chan
    exact ⟨fun none_ => exec_onChan_same chan rfl (feOwnerLoss_none none_),
      fun owner => ⟨_, rfl, exec_onChan chan rfl (feOwnerLoss_some owner)⟩⟩
  case hold =>
    rintro s n x chan rfl
    refine ⟨fun noHold => ⟨exec_onChan_same chan rfl (feRetract_noHold noHold), exec_onChan_same chan rfl (feSpinDown_noHold noHold)⟩,
      fun hold still => exec_onChan chan rfl (feRetract_still hold still),
      fun t hold parking => exec_onChan chan rfl (feRetract_parking hold parking), fun t hold loading => ?loading,
      fun hold => exec_onChan chan rfl (feSpinDown_hold hold), exec_onChan chan rfl rfl⟩
    case loading =>
      obtain ⟨r, retracts⟩ := feRetract_loading hold loading
      exact ⟨r, exec_onChan chan rfl retracts⟩

end Sys2Proof.Machine
end


section
/-!
SUPPORT. The device's side of a Lens link (R316, R317, R321, R323, R324): upstream frames, link up and link loss.
-/

namespace Sys2Proof.Machine

/-- What no step of a fold changes. -/
theorem foldl_proj {α β γ : Type} (p : α → γ) {g : α → β → α} (keeps : ∀ a b, p (g a b) = p a) (l : List β) (a : α) :
    p (l.foldl g a) = p a :=
  List.foldlRecOn (motive := fun x => p x = p a) l g rfl fun x hx b _ => (keeps x b).trans hx

/-! ### Upstream frames (R316, R317, R321) -/

section
variable {s : State} {n : Nat} (chan : n < 24) (up : s.dev.coreUp = true)
include chan up

theorem exec_lensUpstreamFrame_bad {seq epoch flags : Nat} {crc : BitVec 24} {blocks : List UpBlock}
    (bad : crc ≠ upCrc seq epoch flags blocks) :
    exec (.lensUpstreamFrame n seq epoch flags crc blocks) s = .next { s with dev := discardFrame n s.dev } :=
  runs_of_onDev rfl ((if_pos (by rw [up, decide_eq_true chan]; rfl)).trans (if_neg fun same => bad (eq_of_beq same)))

theorem exec_lensUpstreamFrame_good {seq epoch flags : Nat} {blocks : List UpBlock} {d : Dev}
    (e : upstreamFrame n seq epoch flags blocks s.dev = d) :
    exec (.lensUpstreamFrame n seq epoch flags (upCrc seq epoch flags blocks) blocks) s = .next { s with dev := d } :=
  runs_of_onDev rfl ((if_pos (by rw [up, decide_eq_true chan]; rfl)).trans ((if_pos (beq_self_eq_true _)).trans e))

end

/-- The device when the blocks of a good frame have acted. -/
def blocksActed (n seq flags : Nat) (blocks : List UpBlock) (d : Dev) : Dev :=
  blocks.foldl (upBlock n) (d.setLens n { (d.lens n).gapped seq with
    lastSeq := some seq, accepted := min 16 (((d.lens n).gapped seq).accepted + 1), blockLock := true
    owner := bit flags 0, parked := bit flags 3, gate := bit flags 2 })

section
variable {n seq epoch flags : Nat} {blocks : List UpBlock} {d : Dev}

theorem upstreamFrame_eq :
    upstreamFrame n seq epoch flags blocks d =
      (let e := blocksActed n seq flags blocks d
       if epochNewer epoch (e.val Fam.lensOwnerEpoch) && !bit flags 0 && e.inMode .lead then enterFenced none e else e) := rfl

theorem upstreamFrame_fences (newer : epochNewer epoch ((blocksActed n seq flags blocks d).val Fam.lensOwnerEpoch) = true)
    (notOwner : bit flags 0 = false) (lead : (blocksActed n seq flags blocks d).inMode .lead = true) :
    upstreamFrame n seq epoch flags blocks d = enterFenced none (blocksActed n seq flags blocks d) :=
  upstreamFrame_eq.trans (if_pos (by rw [newer, notOwner, lead]; rfl))

theorem upstreamFrame_stays (stays : epochNewer epoch ((blocksActed n seq flags blocks d).val Fam.lensOwnerEpoch) = false
      ∨ bit flags 0 = true ∨ (blocksActed n seq flags blocks d).inMode .lead = false) :
    upstreamFrame n seq epoch flags blocks d = blocksActed n seq flags blocks d :=
  upstreamFrame_eq.trans (if_neg (by rcases stays with h | h | h <;> simp [h]))

end

section
variable {l : Lens} {q seq : Nat} (last : l.lastSeq = some q)
include last

theorem Lens.gapped_next (next : seq = (q + 1) % 256) : l.gapped seq = l := by
  rw [Lens.gapped, last]
  exact if_pos next

theorem Lens.gapped_missing {p : Nat} (missing : seq ≠ (q + 1) % 256) (noGap : l.gapAt = none) (expected : l.nextSample = some p) :
    (l.gapped seq).gapAt = some p := by
  rw [Lens.gapped, last]
  dsimp only
  rw [if_neg missing]
  dsimp only
  rw [noGap, expected]
  rfl

end

theorem lensAck_taken {n tag op : Nat} {d : Dev} (sent : (d.lens n).waiting.find? (·.1 == tag) = some (tag, op))
    (notWrite : op ≠ 0x07) (notLoad : op ≠ 0x0A) :
    lensAck n tag 0 d = d.setLens n { d.lens n with waiting := (d.lens n).waiting.erase (tag, op) } := by
  unfold lensAck
  dsimp only
  rw [sent]
  dsimp only
  rw [if_neg notWrite, if_neg fun load => notLoad load.1]

/-! ### Tables at link up (R334, R361) -/

/-- The channel with this list of blocks reported for reallocation. -/
def Lens.reporting (l : Lens) (r : List (Nat × Option Block)) : Lens := { l with reported := r }

/-- The table of one surface is loaded. -/
def loadSurface (l : Lens) (e : Nat × Option (ZoneHeader × List ZoneEntry)) : Lens :=
  match e.2 with
  | none => l
  | some (h, zs) => { l with
      headers := tset l.headers e.1 h ZoneHeader.none
      zones := ((List.range zs.length).zip zs).foldl (fun t z => tput t (e.1 * 64 + z.1) (z.2, z.2)) l.zones }

theorem loadTables_eq (tables : List (Option (ZoneHeader × List ZoneEntry))) (l : Lens) :
    loadTables tables l = ((List.range tables.length).zip tables).foldl loadSurface { l with headers := [], zones := [] } := rfl

section
variable (l : Lens) (r : List (Nat × Option Block))

theorem loadSurface_reporting (e : Nat × Option (ZoneHeader × List ZoneEntry)) :
    loadSurface (l.reporting r) e = (loadSurface l e).reporting r := by
  unfold loadSurface
  split <;> rfl

theorem applyEntry_reporting (e : ReallocEntry) : applyEntry (l.reporting r) e = (applyEntry l e).reporting r := by
  unfold applyEntry
  split <;> rfl

theorem loadTables_reporting (tables : List (Option (ZoneHeader × List ZoneEntry))) :
    loadTables tables (l.reporting r) = (loadTables tables l).reporting r := by
  rw [loadTables_eq, loadTables_eq]
  exact List.foldl_hom (init := { l with headers := [], zones := [] }) (Lens.reporting · r) fun x e => loadSurface_reporting x r e

theorem foldl_applyEntry_reporting (entries : List ReallocEntry) :
    entries.foldl applyEntry (l.reporting r) = (entries.foldl applyEntry l).reporting r :=
  List.foldl_hom (Lens.reporting · r) fun x e => applyEntry_reporting x r e

end

/-- The generation of copy `i`, 0 for one that is not valid. -/
def copyGen (copies : List TableCopy) (i : Nat) : Nat := ((copies[i]?.filter TableCopy.valid).map (·.generation)).getD 0

/-- The entries of the newest valid copy. -/
def newestEntries (copies : List TableCopy) : List ReallocEntry :=
  (((if copyGen copies 0 < copyGen copies 1 then copies[1]? else copies[0]?).filter TableCopy.valid).map TableCopy.entries).getD []

/-- The table as the newest valid copy has it. -/
def Lens.copyLoaded (l : Lens) (copies : List TableCopy) : Lens :=
  (newestEntries copies).foldl applyEntry
    { l with realloc := [], retired := [], copyA := copyGen copies 0, copyB := copyGen copies 1 }

/-- The entries of the journal for a module that are newer than the copies. -/
def Lens.newerEntries (l : Lens) (serial : Nat) (copies : List TableCopy) : List ReallocEntry :=
  (l.journal.filter fun j => j.1 == serial && decide (max (copyGen copies 0) (copyGen copies 1) < j.2.1)).map (·.2.2)

theorem loadRealloc_eq (serial : Nat) (copies : List TableCopy) (l : Lens) :
    loadRealloc serial copies l = ((l.copyLoaded copies).newerEntries serial copies).foldl applyEntry (l.copyLoaded copies) := rfl

section
variable (l : Lens) (r : List (Nat × Option Block)) (serial : Nat) (copies : List TableCopy)

theorem Lens.copyLoaded_reporting : (l.reporting r).copyLoaded copies = (l.copyLoaded copies).reporting r :=
  foldl_applyEntry_reporting { l with realloc := [], retired := [], copyA := copyGen copies 0, copyB := copyGen copies 1 } r _

theorem loadRealloc_reporting : loadRealloc serial copies (l.reporting r) = (loadRealloc serial copies l).reporting r := by
  rw [loadRealloc_eq, Lens.copyLoaded_reporting, foldl_applyEntry_reporting]
  rfl

theorem applyEntry_parked (e : ReallocEntry) : (applyEntry l e).parked = l.parked := by
  unfold applyEntry
  split <;> rfl

theorem loadSurface_parked (e : Nat × Option (ZoneHeader × List ZoneEntry)) : (loadSurface l e).parked = l.parked := by
  unfold loadSurface
  split <;> rfl

theorem loadTables_parked (tables : List (Option (ZoneHeader × List ZoneEntry))) : (loadTables tables l).parked = l.parked := by
  rw [loadTables_eq, foldl_proj Lens.parked loadSurface_parked]

theorem loadRealloc_parked : (loadRealloc serial copies l).parked = l.parked := by
  rw [loadRealloc_eq, foldl_proj Lens.parked applyEntry_parked, Lens.copyLoaded, foldl_proj Lens.parked applyEntry_parked]

end

/-! ### Link up (R323) -/

section
variable (n op : Nat) (v : BitVec 44) (d : Dev)

theorem lensCmd_pw : (lensCmd n op v d).pw = d.pw := by rw [lensCmd_keeps]
theorem lensCmd_pc : (lensCmd n op v d).pc = d.pc := by rw [lensCmd_keeps]
theorem lensCmd_mb : (lensCmd n op v d).mb = d.mb := by rw [lensCmd_keeps]
theorem lensCmd_arrays : (lensCmd n op v d).arrays = d.arrays := by rw [lensCmd_keeps]
theorem lensCmd_vals : (lensCmd n op v d).vals = d.vals := by rw [lensCmd_keeps]

end

/-- One of the registers is asked for. -/
def askRegister (n : Nat) (d : Dev) (r : Nat) : Dev := lensCmd n 0x01 (BitVec.ofNat 44 r) d

/-- Registers 0x000 to 0x005 are asked for. -/
def askRegisters (n : Nat) (d : Dev) : Dev := (List.range 6).foldl (askRegister n) d

theorem askRegisters_pw (n : Nat) (d : Dev) : (askRegisters n d).pw = d.pw := 
  foldl_keeps Dev.pw (askRegister n) (fun m _ => lensCmd_pw n 0x01 _ m) _ d

theorem askRegisters_pc (n : Nat) (d : Dev) : (askRegisters n d).pc = d.pc := 
  foldl_keeps Dev.pc (askRegister n) (fun m _ => lensCmd_pc n 0x01 _ m) _ d

theorem askRegisters_parked (n : Nat) (d : Dev) : ((askRegisters n d).lens n).parked = (d.lens n).parked :=
  foldl_keeps (fun d => (d.lens n).parked) (askRegister n) (fun m r => by rw [askRegister, lensCmd_lens]) _ d

theorem working_congr {d e : Dev} (pw : e.pw = d.pw) (pc : e.pc = d.pc) : e.working = d.working := by
  simp only [Dev.working, Dev.coreUp, Dev.unstopped, Dev.destaging, Dev.inMode, pw, pc]

/-- The channel with the tables loaded as read. -/
def Lens.loaded (l : Lens) (serial surfaces : Nat) (tables : List (List (List Byte × List Byte))) (copies : List TableCopy) : Lens :=
  loadRealloc serial copies (loadTables (surfaceTables surfaces tables) l)

/-- The member as its tables and label show it, its link up. -/
def platterNamed (n : Nat) (serial : Quad) (surfaces : Nat) (tables : List (List (List Byte × List Byte))) (copies : List TableCopy)
    (label : Option Label) (d : Dev) : Dev :=
  let l := if d.val Fam.lensFeSerial n = serial.toNat then d.lens n else { d.lens n with reported := [] }
  let e := d.setLens n { l.loaded serial.toNat surfaces tables copies with up := true, versionRefused := false, surfaces := surfaces }
  (e.setVal Fam.lensFeSerial n serial.toNat).setMem (lensMember n) (platterMember n label serial e)

/-- The member spins up at its cadence. -/
def platterSpun (n : Nat) (d : Dev) : Dev := sendSpindle n (cadenceOf d (lensMember n)) d

theorem linkUp_eq (n : Nat) (serial : Quad) (surfaces : Nat) (tables : List (List (List Byte × List Byte))) (copies : List TableCopy)
    (label : Option Label) (d : Dev) :
    linkUp n serial surfaces tables copies label d =
      (let e := platterSpun n (platterNamed n serial surfaces tables copies label d)
       let served := (surfaceTables surfaces tables).all Option.isSome
       if e.working then platterJoin n label served e else e.setLens n { e.lens n with joinDue := some (label, served) }) := rfl

/-- A command with this opcode has gone out on the channel. -/
def Lens.sent (l : Lens) (op : Nat) : Lens :=
  { l with nextTag := (l.nextTag + 1) % 256, waiting := l.waiting ++ [(l.nextTag, op)], txSeq := (l.txSeq + 1) % 256 }

section
variable (n rpm : Nat) (d : Dev)

theorem sendSpindle_lens : (sendSpindle n rpm d).lens n = { (d.lens n).sent 0x09 with spinning := true, atSpeed := false } := by
  refine (lens_setLens _ n _).trans ?_
  rw [lensCmd_lens]
  rfl

theorem sendSpindle_pw : (sendSpindle n rpm d).pw = d.pw := by
  simp only [sendSpindle, setVal_pw, setLens_pw, lensCmd_pw]

theorem sendSpindle_pc : (sendSpindle n rpm d).pc = d.pc := by
  simp only [sendSpindle, setVal_pc, setLens_pc, lensCmd_pc]

theorem sendSpindle_mb : (sendSpindle n rpm d).mb = d.mb := by
  simp only [sendSpindle, setVal_mb, setLens_mb, lensCmd_mb]

theorem sendSpindle_arrays : (sendSpindle n rpm d).arrays = d.arrays := by
  simp only [sendSpindle, setVal_arrays, setLens_arrays, lensCmd_arrays]


theorem sendSpindle_rpm : (sendSpindle n rpm d).val Fam.lensCadenceRpm n = rpm := by rw [sendSpindle, val_setVal]

theorem sendSpindle_serial : (sendSpindle n rpm d).val Fam.lensFeSerial n = d.val Fam.lensFeSerial n := by
  rw [sendSpindle, val_setVal_family _ _ (by decide) (by decide) (by decide), Dev.val, setLens_vals, lensCmd_vals]
  rfl

end

theorem cadenceOf_congr {d e : Dev} (arrays : e.arrays = d.arrays) (m : Nat) : cadenceOf e m = cadenceOf d m := by
  simp only [cadenceOf, slotHeld, Dev.arr?, arrays]

section
variable (n : Nat) (serial : Quad) (surfaces : Nat) (tables : List (List (List Byte × List Byte))) (copies : List TableCopy)
  (label : Option Label) (d : Dev)

theorem platterNamed_lens :
    ∃ r, (platterNamed n serial surfaces tables copies label d).lens n
      = { ((d.lens n).loaded serial.toNat surfaces tables copies).reporting r with
          up := true, versionRefused := false, surfaces := surfaces } := by
  obtain ⟨r, known⟩ : ∃ r, (if d.val Fam.lensFeSerial n = serial.toNat then d.lens n else { d.lens n with reported := [] })
      = (d.lens n).reporting r := by
    split
    · exact ⟨(d.lens n).reported, rfl⟩
    · exact ⟨[], rfl⟩
  refine ⟨r, (lens_setLens d n _).trans ?_⟩
  rw [known, Lens.loaded, loadTables_reporting, loadRealloc_reporting]
  rfl

theorem platterNamed_mem :
    ((platterNamed n serial surfaces tables copies label d).mem (lensMember n)).label = label
      ∧ ((platterNamed n serial surfaces tables copies label d).mem (lensMember n)).queues = true := by
  rw [platterNamed]
  dsimp only
  rw [mem_setMem]
  exact ⟨rfl, rfl⟩

theorem platterNamed_serial : (platterNamed n serial surfaces tables copies label d).val Fam.lensFeSerial n = serial.toNat :=
  val_setVal _ Fam.lensFeSerial n _

theorem platterNamed_working : (platterNamed n serial surfaces tables copies label d).working = d.working := by
  refine working_congr ?_ ?_ <;> rw [platterNamed] <;> rfl

theorem platterSpun_working : (platterSpun n d).working = d.working := working_congr (sendSpindle_pw n _ d) (sendSpindle_pc n _ d)

end

/-- What a link that comes up shows of its member, whether it joins at once or later. -/
structure PlatterUp (n surfaces : Nat) (serial : Quad) (label : Option Label) (k : Lens) (d : Dev) : Prop where
  lens : ∃ r, d.lens n = { ({ k.reporting r with up := true, versionRefused := false, surfaces := surfaces } : Lens).sent 0x09 with
    spinning := true, atSpeed := false }
  serial : d.val Fam.lensFeSerial n = serial.toNat
  cadence : d.val Fam.lensCadenceRpm n = cadenceOf d (lensMember n)
  label : (d.mem (lensMember n)).label = label
  queues : (d.mem (lensMember n)).queues = true

theorem platterSpun_up (n : Nat) (serial : Quad) (surfaces : Nat) (tables : List (List (List Byte × List Byte)))
    (copies : List TableCopy) (label : Option Label) (d : Dev) :
    PlatterUp n surfaces serial label ((d.lens n).loaded serial.toNat surfaces tables copies)
      (platterSpun n (platterNamed n serial surfaces tables copies label d)) := by
  obtain ⟨r, named⟩ := platterNamed_lens n serial surfaces tables copies label d
  obtain ⟨labelled, queues⟩ := platterNamed_mem n serial surfaces tables copies label d
  have known := platterNamed_serial n serial surfaces tables copies label d
  generalize platterNamed n serial surfaces tables copies label d = e at named labelled queues known ⊢
  have member : (platterSpun n e).mem (lensMember n) = e.mem (lensMember n) := by
    rw [Dev.mem, platterSpun, sendSpindle_mb]
    rfl
  refine ⟨⟨r, ?lens⟩, ?serial, ?cadence, by rw [member, labelled], by rw [member, queues]⟩
  case lens => rw [platterSpun, sendSpindle_lens, named]
  case serial => rw [platterSpun, sendSpindle_serial, known]
  case cadence => rw [platterSpun, sendSpindle_rpm, cadenceOf_congr (sendSpindle_arrays n _ e)]

theorem PlatterUp.lens_fields {n surfaces : Nat} {serial : Quad} {label : Option Label} {k : Lens} {d : Dev}
    (h : PlatterUp n surfaces serial label k d) :
    (d.lens n).up = true ∧ (d.lens n).surfaces = surfaces ∧ (d.lens n).headers = k.headers ∧ (d.lens n).zones = k.zones
      ∧ (d.lens n).realloc = k.realloc ∧ (d.lens n).retired = k.retired ∧ (d.lens n).journal = k.journal
      ∧ (d.lens n).parked = k.parked ∧ (d.lens n).spinning = true ∧ (d.lens n).atSpeed = false := by
  obtain ⟨r, lens⟩ := h.lens
  rw [lens]
  exact ⟨rfl, rfl, rfl, rfl, rfl, rfl, rfl, rfl, rfl, rfl⟩

section
variable {s : State} {n : Nat} (chan : n < 24) (up : s.dev.coreUp = true) (down : (s.dev.lens n).up = false)
  (lock : (s.dev.lens n).blockLock = true) (enough : 16 ≤ (s.dev.lens n).accepted) (low high : Word) (surfaces : Nat)
  (tables : List (List (List Byte × List Byte))) (copies : List TableCopy) (label : Option Label)
include chan up down lock enough

theorem exec_lensLinkUp_served {version : Nat} (one : version = 1) {d : Dev}
    (e : linkUp n (moduleSerial low high) surfaces tables copies label (askRegisters n s.dev) = d) :
    exec (.lensLinkUp n version low high surfaces tables copies label) s = .next { s with dev := d } :=
  runs_of_onDev rfl ((if_pos (by rw [up, decide_eq_true chan, down, lock, decide_eq_true enough]; rfl)).trans ((if_pos one).trans e))

theorem exec_lensLinkUp_refused {version : Nat} (other : version ≠ 1) :
    exec (.lensLinkUp n version low high surfaces tables copies label) s = .next { s with
      dev := (askRegisters n s.dev).setLens n { (askRegisters n s.dev).lens n with versionRefused := true } } :=
  runs_of_onDev rfl ((if_pos (by rw [up, decide_eq_true chan, down, lock, decide_eq_true enough]; rfl)).trans (if_neg other))

end

section
variable (n : Nat) (serial : Quad) (surfaces : Nat) (tables : List (List (List Byte × List Byte))) (copies : List TableCopy)
  (label : Option Label) (d : Dev)

theorem platterUp_working :
    (platterSpun n (platterNamed n serial surfaces tables copies label (askRegisters n d))).working = d.working := by
  rw [platterSpun_working, platterNamed_working, working_congr (askRegisters_pw n d) (askRegisters_pc n d)]

theorem linkUp_waits (idle : d.working = false) :
    linkUp n serial surfaces tables copies label (askRegisters n d) =
      (platterSpun n (platterNamed n serial surfaces tables copies label (askRegisters n d))).setLens n
        { (platterSpun n (platterNamed n serial surfaces tables copies label (askRegisters n d))).lens n with
          joinDue := some (label, (surfaceTables surfaces tables).all Option.isSome) } :=
  (linkUp_eq ..).trans (if_neg (by rw [platterUp_working, idle]; exact Bool.false_ne_true))

theorem linkUp_joins (working : d.working = true) :
    linkUp n serial surfaces tables copies label (askRegisters n d) =
      platterJoin n label ((surfaceTables surfaces tables).all Option.isSome)
        (platterSpun n (platterNamed n serial surfaces tables copies label (askRegisters n d))) :=
  (linkUp_eq ..).trans (if_pos (by rw [platterUp_working, working]))

end

/-! ### Link loss (R324) -/

/-- What is left of the channel, and of what its sectors hold for interference recovery. -/
def linkDropped (n : Nat) (d : Dev) : Dev :=
  { d.setLens n (d.lens n).lost with ls := { (d.setLens n (d.lens n).lost).ls with irHeld := d.ls.irHeld.filter fun e => e.1.1 != n } }

theorem linkDropped_lens (n : Nat) (d : Dev) : (linkDropped n d).lens n = (d.lens n).lost := lens_setLens d n _

theorem linkDropped_irHeld (n : Nat) (d : Dev) : ∀ e ∈ (linkDropped n d).ls.irHeld, e.1.1 ≠ n := by
  intro e mem
  simpa using (List.mem_filter.mp mem).2

theorem linkLoss_eq (n : Nat) (d : Dev) :
    linkLoss n d = if (d.lens n).up then memberGone (lensMember n) 2 ((linkDropped n d).bump Fam.lensLinkLosses n)
      else linkDropped n d := rfl

theorem exec_lensLinkLoss {s : State} {n : Nat} {d : Dev} (chan : n < 24) (up : s.dev.coreUp = true) (e : linkLoss n s.dev = d) :
    exec (.lensLinkLoss n) s = .next { s with dev := d } :=
  runs_of_onDev rfl ((if_pos (by rw [up, decide_eq_true chan]; rfl)).trans e)

end Sys2Proof.Machine
end

section
/-!
SUPPORT. Sector reads and their recovery (R326, R330 to R333, R338 to R340, R351): the ends of a decode, rereads, the recovery jobs,
and O28.
-/

namespace Sys2Proof.Machine

/-! ### Sector decode (R333) -/

theorem val_setLens (n : Nat) (l : Lens) (d : Dev) (f i : Nat) : (d.setLens n l).val f i = d.val f i := rfl

section
variable {s : State} {n : Nat} (chan : n < 24) (executing : s.dev.executing = true)
include chan executing

theorem exec_sectorDecode {r : SectorRead} {d : Dev} (e : sectorDecode n r s.dev = d) :
    exec (.sectorDecode n r) s = .next { s with dev := d } :=
  runs_of_onDev rfl ((if_pos (by rw [executing, decide_eq_true chan]; rfl)).trans e)

theorem exec_sectorReread {p : Nat} {d : Dev} (e : sectorReread n p s.dev = d) :
    exec (.sectorReread n p) s = .next { s with dev := d } :=
  runs_of_onDev rfl ((if_pos (by rw [executing, decide_eq_true chan]; rfl)).trans e)

end

/-- What the first read of a sector leads to, by how it ended. -/
def firstRead (n : Nat) (r : SectorRead) (o : DecodeEnd) (d : Dev) : Dev :=
  match o with
  | .first u => endSector n r.tag.pba 0 u (noteAdapt n r.tag r.shock d)
  | .realigned u => endSector n r.tag.pba 1 u (d.bump Fam.lensRealigned n)
  | .recovery u => endSector n r.tag.pba 1 u d
  | .missed =>
    if r.shock then dueAgain n r.tag.pba true 0 1 (d.bump Fam.lensSyncMissed n)
    else nextReread n r.tag.pba true 0 (d.bump Fam.lensSyncMissed n)
  | .failed => if r.shock then dueAgain n r.tag.pba false 0 1 d else nextReread n r.tag.pba true 0 d

/-- No reread of the block is outstanding. -/
def rereadTaken (n pba : Nat) (d : Dev) : Dev :=
  d.setLens n { d.lens n with rereads := (d.lens n).rereads.filter (·.1 != pba) }

/-- Steps 1 to 3 for a sector that has not been read again. -/
def firstDecode (n : Nat) (r : SectorRead) (d : Dev) : DecodeEnd :=
  decodeEnd (d.val Fam.lensLdpcIter) (d.val Fam.lensRecoveryRounds) r r.tag false
    (((placeNow (d.lens n) r.tag.pba).map (fragments (d.lens n))).getD 0)

section
variable {n : Nat} {r : SectorRead} {d : Dev} (up : (d.lens n).up = true) (loaded : (d.lens n).parked = false)
  (intended : intendedTag d n r.tag.pba = some r.tag) (wanted : readsOf d n r.tag.pba ≠ [])
  (fresh : (d.lens n).rereads.find? (·.1 == r.tag.pba) = none) (noWait : (d.lens n).irWait.any (·.1 == r.tag.pba) = false)
  (kept : contentLost (d.lens n) r.tag.pba = false)
include up loaded intended wanted fresh noWait kept

/-- A sector that a read wants and that has not been read again. -/
theorem sectorDecode_eq :
    sectorDecode n r d = if samplesLost (d.lens n) r.span || offTrack d r.pes then dueAgain n r.tag.pba false 0 1 (rereadTaken n r.tag.pba d)
      else firstRead n r (firstDecode n r d) (rereadTaken n r.tag.pba d) := by
  have due : ¬ (!(d.lens n).up || (d.lens n).parked || intendedTag d n r.tag.pba != some r.tag || (readsOf d n r.tag.pba).isEmpty
      || (0 : Nat) != 0 || (d.lens n).irWait.any (·.1 == r.tag.pba) || contentLost (d.lens n) r.tag.pba) = true := by
    simp [up, loaded, intended, wanted, noWait, kept]
  unfold sectorDecode firstDecode
  dsimp only
  rw [fresh]
  refine (if_neg due).trans (if_congr Iff.rfl rfl ?_)
  simp only [val_setLens, Option.getD_none]
  generalize decodeEnd _ _ r r.tag false _ = o
  cases o <;> rfl

theorem sectorDecode_again (h : samplesLost (d.lens n) r.span = true ∨ offTrack d r.pes = true) :
    sectorDecode n r d = dueAgain n r.tag.pba false 0 1 (rereadTaken n r.tag.pba d) :=
  (sectorDecode_eq up loaded intended wanted fresh noWait kept).trans (if_pos (Bool.or_eq_true_iff.mpr h))

theorem sectorDecode_reads (whole : samplesLost (d.lens n) r.span = false) (onTrack : offTrack d r.pes = false) :
    sectorDecode n r d = firstRead n r (firstDecode n r d) (rereadTaken n r.tag.pba d) :=
  (sectorDecode_eq up loaded intended wanted fresh noWait kept).trans
    (if_neg (by rw [whole, onTrack]; exact Bool.false_ne_true))

end

/-! ### Attempts that pass (R326) -/

theorem attemptPasses_fields {a : Attempt} {t : SectorTag} (h : attemptPasses a t = true) :
    a.tag = t ∧ a.crc = sectorCrc a.user t := by
  obtain ⟨⟨⟨-, crc⟩, tag⟩, -⟩ : ((_ ∧ a.crc = sectorCrc a.user a.tag) ∧ a.tag = t) ∧ _ := by
    simpa only [attemptPasses, Bool.and_eq_true, beq_iff_eq] using h
  exact ⟨tag, by rw [crc, tag]⟩

/-- These user data come from an attempt that passes for the tag. -/
def PassedFor (t : SectorTag) (user : Block) : Prop :=
  ∃ a : Attempt, attemptPasses a t = true ∧ a.tag = t ∧ a.crc = sectorCrc a.user t ∧ user = a.user

theorem passedFor_of_decoded {k : Nat} {t : SectorTag} {l : List Attempt} {a : Attempt} (h : decoded k t l = some a) :
    PassedFor t a.user := by
  have passes : attemptPasses a t = true := List.find?_some (p := (attemptPasses · t)) h
  obtain ⟨tag, crc⟩ := attemptPasses_fields passes
  exact ⟨a, passes, tag, crc, rfl⟩

/-- How a decode ended, for a tag: with data that passed for it, or without data. -/
def DecodeEnd.Sound (t : SectorTag) : DecodeEnd → Prop
  | .first u | .realigned u | .recovery u => PassedFor t u
  | .missed | .failed => True

theorem decodeEnd_sound (iters rounds : Nat) (r : SectorRead) (t : SectorTag) (wide : Bool) (frags : Nat) :
    (decodeEnd iters rounds r t wide frags).Sound t := by
  unfold decodeEnd
  extract_lets w
  split
  · exact trivial
  · split
    next first => exact passedFor_of_decoded first
    next =>
      split
      · exact trivial
      · split
        next found =>
          obtain ⟨k, -, alternate⟩ := List.exists_of_findSome?_eq_some found
          obtain ⟨e, -, decodes⟩ := Option.bind_eq_some_iff.mp alternate
          exact passedFor_of_decoded decodes
        next =>
          split
          next recovery => exact passedFor_of_decoded recovery
          next => exact trivial

/-! ### Rereads (R324, R333) -/

section
variable {n p count kind : Nat} {wide : Bool} {d : Dev} (held : (d.lens n).rereads.find? (·.1 == p) = some (p, wide, count, kind))
include held

theorem sectorReread_uncounted (h : kind = 1) : sectorReread n p d = dueAgain n p wide count 0 d := by
  unfold sectorReread
  dsimp only
  rw [held]
  exact if_pos h

theorem sectorReread_counted (h : kind = 2) : sectorReread n p d = dueAgain n p true (count + 1) 0 d := by
  unfold sectorReread
  dsimp only
  rw [held]
  subst h
  rfl

end

/-! ### Recovery jobs (R338 to R340) -/

theorem exec_irJobStart {s : State} {a : Nat} {rel : List (Nat × Option IrFacet)} {d : Dev} (up : s.dev.coreUp = true)
    (e : irJob a rel s.dev = d) : exec (.irJobStart a rel) s = .next { s with dev := d } :=
  runs_of_onDev rfl ((if_pos up).trans e)

section
variable {a beam off : Nat} {rel : List (Nat × Option IrFacet)} {x : Arr} {d : Dev} (first : irFirst d a = some (x, beam, off))
include first

theorem irJob_abandoned (stops : relationHolds d x beam = false ∨ d.executing = false) :
    irJob a rel d = irAbandon (relationSectors d x beam off) d := by
  unfold irJob
  rw [first]
  exact if_pos (by rcases stops with h | h <;> simp [h])

variable (holds : relationHolds d x beam = true) (executing : d.executing = true)
include holds executing

theorem irJob_waits (unread : relationRead d (relationSectors d x beam off) rel = false) : irJob a rel d = d := by
  unfold irJob
  rw [first]
  exact (if_neg (by simp [holds, executing])).trans (if_pos (by simp [unread]))

theorem irJob_runs (fits : poolFits rel = true) (facets : rel.map (·.1) = List.range (relationSectors d x beam off).length)
    (read : relationRead d (relationSectors d x beam off) rel = true) :
    irJob a rel d =
      (let r := irRun a beam (d.val Fam.lensIrRounds) 0 (irParts d (relationSectors d x beam off) rel) (d.bump Fam.lensIrJobs)
       irRelease (relationSectors d x beam off) (r.1.foldl irEnd r.2)) := by
  unfold irJob
  rw [first]
  exact (if_neg (by simp [holds, executing])).trans (if_neg (by simp [fits, facets, read]))

end

theorem irDecode_round {d : Dev} {p : IrPart} {a : Attempt} {q : List Int} {r : List (Attempt × List Int)} {t : SectorTag}
    (left : p.left = some ((a, q) :: r)) (intended : intendedTag d p.sector.1 p.sector.2 = some t) :
    irDecode d p = if attemptPasses a t then { p with llrs := hardLlrs a.user, left := none, saved := some a.user }
      else { p with llrs := q.map clip31, left := some r } := by
  rw [irDecode, left, intended]

theorem irEnd_failed {d : Dev} {p : IrPart} (waits : irWaits d p.sector.1 p.sector.2 = true) (unsaved : p.saved = none) :
    ∃ e, irEnd d p = endSector p.sector.1 p.sector.2 2 [] e := by
  unfold irEnd
  dsimp only
  rw [if_pos waits, unsaved]
  exact ⟨_, rfl⟩

/-- Settles O28: each command by its equation in the clause's case. -/
theorem lensLinksAndSectorReads : Obligations.LensLinksAndSectorReads := by
  refine ⟨?frames, ?gaps, ?ack, ?linkUp, ?linkLoss, ?decode, fun i m r t w k => decodeEnd_sound i m r t w k, ?reread, ?job,
    fun d p a q r t left intended => irDecode_round left intended, fun d p waits unsaved => irEnd_failed waits unsaved⟩
  case frames =>
    intro s n seq epoch flags crc blocks chan up
    refine ⟨fun bad => exec_lensUpstreamFrame_bad chan up bad, ?good⟩
    rintro e l rfl rfl
    exact ⟨fun newer notOwner lead => exec_lensUpstreamFrame_good chan up (upstreamFrame_fences newer notOwner lead),
      fun stays => exec_lensUpstreamFrame_good chan up (upstreamFrame_stays stays)⟩
  case gaps =>
    intro l q p seq last
    exact ⟨fun next => Lens.gapped_next last next, fun missing noGap expected => Lens.gapped_missing last missing noGap expected⟩
  case ack => intro n d tag op sent notWrite notLoad; exact lensAck_taken sent notWrite notLoad
  case linkUp =>
    intro s n version low high serial surfaces tables copies label k q chan up down lock enough hserial hq hk
    obtain rfl : q = askRegisters n s.dev := hq
    subst hserial hk
    refine ⟨exec_lensLinkUp_refused chan up down lock enough low high surfaces tables copies label, fun one => ?served⟩
    have shown := platterSpun_up n (moduleSerial low high) surfaces tables copies label (askRegisters n s.dev)
    have serve {e : Dev} := exec_lensLinkUp_served chan up down lock enough low high surfaces tables copies label one (d := e)
    have waits := linkUp_waits n (moduleSerial low high) surfaces tables copies label s.dev
    have joins := linkUp_joins n (moduleSerial low high) surfaces tables copies label s.dev
    generalize platterSpun n (platterNamed n (moduleSerial low high) surfaces tables copies label (askRegisters n s.dev)) = d
      at shown waits joins
    obtain ⟨isUp, faces, headers, zones, realloc, retired, journal, parked, spinning, atSpeed⟩ := shown.lens_fields
    have parkedThen := (parked.trans (loadRealloc_parked _ _ _)).trans ((loadTables_parked _ _).trans (askRegisters_parked n s.dev))
    refine ⟨d, isUp, faces, headers, zones, realloc, retired, journal, parkedThen, spinning, atSpeed, shown.serial, shown.cadence,
      shown.label, shown.queues, fun idle => serve (waits idle), fun working served => serve ((joins working).trans (if_pos served)),
      fun working unserved => serve ((joins working).trans (if_neg (by rw [unserved]; exact Bool.false_ne_true)))⟩
  case linkLoss =>
    intro s n chan up
    refine ⟨linkDropped n s.dev, linkDropped_lens n s.dev, rfl, rfl, rfl, linkDropped_irHeld n s.dev, fun isDown => ?_, fun isUp => ?_⟩
    · exact exec_lensLinkLoss chan up ((linkLoss_eq n s.dev).trans (if_neg (by rw [isDown]; exact Bool.false_ne_true)))
    · exact exec_lensLinkLoss chan up ((linkLoss_eq n s.dev).trans (if_pos isUp))
  case decode =>
    rintro s n r l p d chan executing rfl rfl up loaded intended wanted fresh noWait kept rfl
    refine ⟨fun again => exec_sectorDecode chan executing (sectorDecode_again up loaded intended wanted fresh noWait kept again),
      fun whole onTrack => ?_⟩
    have reads := exec_sectorDecode chan executing (sectorDecode_reads up loaded intended wanted fresh noWait kept whole onTrack)
    unfold firstDecode at reads
    generalize decodeEnd _ _ r r.tag false _ = o at reads ⊢
    cases o <;> exact reads
  case reread =>
    intro s n p wide count kind chan executing held
    exact ⟨fun h => exec_sectorReread chan executing (sectorReread_uncounted held h),
      fun h => exec_sectorReread chan executing (sectorReread_counted held h)⟩
  case job =>
    rintro s a rel x beam off l up first rfl
    refine ⟨?runs, fun holds executing unread => exec_irJobStart up (irJob_waits first holds executing unread),
      fun stops => exec_irJobStart up (irJob_abandoned first stops)⟩
    rintro holds executing fits facets read r rfl
    exact exec_irJobStart up (irJob_runs first holds executing fits facets read)

end Sys2Proof.Machine
end

section
/-!
SUPPORT. Forming, dissolving and swapping the pair (R368, R369, R373, R387): PAIR_START, PAIR_DISSOLVE and PAIR_SWAP by the mode that
they find, the drain of a swap, HANDOVER and PARTNER_LEAVE, and O31.
-/

namespace Sys2Proof.Machine

/-- A row of an admin command that is next to start runs to what its effect `k` gives. -/
theorem runs_of_adminNext {i : Instr} {s : State} {op : Nat} {c : Ctx} {sel : BitVec 512 → Bool} {k : Ctx → Dev → Dev} {d : Dev}
    (row : exec i s = onDev s (withAdmin op sel k)) (h : s.dev.adminNext op c) (selected : sel c.raw = true)
    (e : k c (s.dev.starts c) = d) : exec i s = .next { s with dev := d } :=
  runs_of_onDev row ((withAdmin_starts k h selected).trans e)

/-- A device is in one mode. -/
theorem inMode_other {d : Dev} {m n : Mode} (h : d.inMode m = true) (other : m ≠ n) : d.inMode n = false := by
  rw [Dev.inMode, (inMode_iff d m).mp h]
  simpa using other

/-! ### PAIR_START (R368, Table 13.1) -/

section
variable {lead solo : Bool} {c : Ctx} {d : Dev} (clean : stray c.raw 0 1 = false)
include clean

theorem adminPairStart_disabled (disabled : d.val Fam.pairEnable = 0) : adminPairStart lead solo c d = conflict c.id 0x30 d :=
  (if_neg (ne_true_of_eq_false clean)).trans (if_pos disabled)

variable (enabled : d.val Fam.pairEnable ≠ 0)
include enabled

theorem adminPairStart_equalStraps (equal : strapsEqual d = true) :
    adminPairStart lead solo c d = conflict c.id 0x30 (d.setVal Fam.pairRefusal 0 1) := by
  simp only [adminPairStart, clean, enabled, equal, if_true, if_false, Bool.false_eq_true]

variable (straps : strapsEqual d = false)
include straps

theorem adminPairStart_transiting (moving : d.transiting = true) : adminPairStart lead solo c d = conflict c.id 0x03 d := by
  simp only [adminPairStart, clean, enabled, straps, moving, if_true, if_false, Bool.false_eq_true]

variable (still : d.transiting = false)
include still

theorem adminPairStart_focus (mode : d.inMode .focus = true) :
    adminPairStart lead solo c d =
      if d.pw.recovering ≠ [] then conflict c.id 0x01 (d.setVal Fam.pairRefusal 0 2)
      else if d.pr.linkUp then
        if lead || solo then beginResync lead c.id d else startTie .focus (some c.id) d
      else if eWord c.raw 0 % 2 = 1 then startTie .focus (some c.id) d
      else conflict c.id 0x32 d := by
  cases link : d.pr.linkUp <;>
    simp only [adminPairStart, clean, enabled, straps, still, (inMode_iff _ _).mp mode, link, if_true, if_false, Bool.false_eq_true,
      Bool.not_true, Bool.not_false]

theorem adminPairStart_solo (mode : d.inMode .solo = true) :
    adminPairStart lead solo c d =
      if d.pr.partnerReady then startTie .solo (some c.id) d else conflict c.id 0x31 d := by
  simp only [adminPairStart, clean, enabled, straps, still, (inMode_iff _ _).mp mode, if_false, Bool.false_eq_true]

theorem adminPairStart_member (mode : d.inMode .lead = true ∨ d.inMode .mirror = true) :
    adminPairStart lead solo c d = okWith c.id 0 d := by
  rcases mode with mode | mode <;>
    simp only [adminPairStart, clean, enabled, straps, still, (inMode_iff _ _).mp mode, if_false, Bool.false_eq_true]

end

/-! ### The start of a tie (R373) -/

theorem sendCmd_keeps (c : MCmd) (d : Dev) : sendCmd c d = { d with out := (sendCmd c d).out } := by
  unfold sendCmd
  split <;> rfl

/-- A member command that goes out changes what the device tracks of members, and what it has sent. -/
theorem issueCmd_keeps (c : MCmd) (d : Dev) : issueCmd c d = { d with mb := (issueCmd c d).mb, out := (issueCmd c d).out } := by
  unfold issueCmd
  dsimp only
  split
  · split
    · rfl
    · rw [sendCmd_keeps]
  · rfl

/-- The device that contends, before its first command goes to the arbiter. -/
def tieBegun (source : Mode) (ctx : Option Nat) (d : Dev) : Dev :=
  ({ d with pr := { d.pr with
      claim := nextEpoch d, guarding := false, fenced := false, fenceKey := preemptKey d (source == Mode.focus) } }.setVal
    Fam.pairState 0 5).setTrans (some (.tie source ctx))

theorem startTie_keeps (source : Mode) (ctx : Option Nat) (d : Dev) :
    startTie source ctx d =
      { tieBegun source ctx d with mb := (startTie source ctx d).mb, out := (startTie source ctx d).out } := by
  unfold startTie
  dsimp only
  split
  · rfl
  · exact issueCmd_keeps _ _

theorem ownEpoch_lt_nextEpoch (d : Dev) : ownEpoch d < nextEpoch d := Nat.lt_succ_of_le (le_max_left _ _)

theorem startTie_contends (source : Mode) (ctx : Option Nat) (d : Dev) :
    (startTie source ctx d).pw.trans = some (.tie source ctx) ∧ (startTie source ctx d).pr.claim = nextEpoch d
      ∧ ownEpoch (startTie source ctx d) = ownEpoch d ∧ (startTie source ctx d).val Fam.pairState = 5
      ∧ (startTie source ctx d).pr.guarding = false := by
  rw [startTie_keeps]
  exact ⟨rfl, rfl, val_setVal_family (f := Fam.pairState) (g := Fam.pairLeaseEpoch) d 5 (by decide) (by decide) (by decide),
    val_setVal d Fam.pairState 0 5, rfl⟩

/-! ### PAIR_DISSOLVE (R369) -/

/-- The partner is told that this device leaves, where the link is up. -/
def leaveSent (d : Dev) : Dev := if d.pr.linkUp then pairMsg "LEAVE" 0 0 d else d

section
variable {c : Ctx} {d : Dev}

theorem adminDissolve_disabled (disabled : d.val Fam.pairEnable = 0) : adminDissolve c d = conflict c.id 0x30 d := if_pos disabled

variable (enabled : d.val Fam.pairEnable ≠ 0) (straps : strapsEqual d = false)
include enabled straps

theorem adminDissolve_transiting (moving : d.pw.trans.isSome = true ∨ d.pr.guarding = true) :
    adminDissolve c d = conflict c.id 0x03 d :=
  (if_neg enabled).trans ((if_neg (ne_true_of_eq_false straps)).trans (if_pos (Bool.or_eq_true_iff.mpr moving)))

variable (still : d.pw.trans = none) (unguarded : d.pr.guarding = false)
include still unguarded

theorem adminDissolve_lead (mode : d.inMode .lead = true) :
    adminDissolve c d = okWith c.id 0 (settle (setPairState 0 (enterSolo 3 (forgetPartner (leaveSent d))))) := by
  simp only [adminDissolve, enabled, straps, still, unguarded, (inMode_iff d _).mp mode, leaveSent, Option.isSome_none,
    Bool.or_self, if_false, Bool.false_eq_true]

theorem adminDissolve_mirror (mode : d.inMode .mirror = true) : adminDissolve c d = okWith c.id 0 (leavePair (leaveSent d)) := by
  simp only [adminDissolve, enabled, straps, still, unguarded, (inMode_iff d _).mp mode, leaveSent, Option.isSome_none,
    Bool.or_self, if_false, Bool.false_eq_true]

theorem adminDissolve_solo (mode : d.inMode .solo = true) : adminDissolve c d = okWith c.id 0 d := by
  simp only [adminDissolve, enabled, straps, still, unguarded, (inMode_iff d _).mp mode, Option.isSome_none,
    Bool.or_self, if_false, Bool.false_eq_true]

theorem adminDissolve_joining (mode : d.inMode .focus = true) (joins : d.val Fam.pairState = 1 ∨ d.val Fam.pairState = 2) :
    adminDissolve c d = okWith c.id 0 (leavePair (endResync (fun id => conflict id 0x31) (leaveSent d))) := by
  simp only [adminDissolve, enabled, straps, still, unguarded, (inMode_iff d _).mp mode, joins, leaveSent, Option.isSome_none,
    Bool.or_self, if_true, if_false, Bool.false_eq_true]

theorem adminDissolve_alone (mode : d.inMode .focus = true) (alone : d.val Fam.pairState = 0) :
    adminDissolve c d = okWith c.id 0 d := by
  simp only [adminDissolve, enabled, straps, still, unguarded, (inMode_iff d _).mp mode, alone, Option.isSome_none,
    Bool.or_self, if_false, Bool.false_eq_true, zero_ne_one, OfNat.zero_ne_ofNat, or_self]

end

/-! ### PAIR_SWAP (R387, Table 13.6) -/

section
variable {c : Ctx} {d : Dev}

theorem adminSwap_outside (outside : d.val Fam.pairEnable = 0 ∨ (d.inMode .lead = false ∧ d.inMode .mirror = false)) :
    adminSwap c d = conflict c.id 0x30 d := by
  refine if_pos (outside.imp_right fun ⟨notLead, notMirror⟩ => ?_)
  rw [notLead, notMirror]
  decide

variable (enabled : d.val Fam.pairEnable ≠ 0) (straps : strapsEqual d = false)
include enabled straps

theorem adminSwap_transiting (moving : d.transiting = true) (member : d.inMode .lead = true ∨ d.inMode .mirror = true) :
    adminSwap c d = conflict c.id 0x03 d := by
  simp only [adminSwap, enabled, member, straps, moving, not_true, or_self, if_true, if_false, Bool.false_eq_true]

variable (still : d.transiting = false)
include still

theorem adminSwap_lead (mode : d.inMode .lead = true) :
    adminSwap c d =
      if d.val Fam.pairState = 3 then
        if d.pr.lease then beginSwap (some c.id) d else conflict c.id 0x32 d
      else conflict c.id 0x31 d := by
  cases lease : d.pr.lease <;>
    simp only [adminSwap, enabled, mode, straps, still, lease, ite_not, true_or, not_true, or_self, if_true, if_false,
      Bool.false_eq_true, Bool.not_true, Bool.not_false]

theorem adminSwap_mirror (mode : d.inMode .mirror = true) :
    adminSwap c d =
      if d.pr.caughtUp then
        if d.pr.lease then pairMsg "SWAP" 0 0 (d.setTrans (some (.swapAsked c.id))) else conflict c.id 0x32 d
      else conflict c.id 0x31 d := by
  cases caughtUp : d.pr.caughtUp <;> cases lease : d.pr.lease <;>
    simp only [adminSwap, enabled, mode, inMode_other mode (by decide : Mode.mirror ≠ .lead), straps, still, caughtUp, lease, or_true,
      not_true, or_self, if_true, if_false, Bool.false_eq_true, Bool.not_true, Bool.not_false]

end

theorem pairSwap_own {c : Ctx} {d : Dev} (h : d.adminNext 0x94 c) : pairSwap d = adminSwap c (d.starts c) := by
  have starts := withAdmin_starts (sel := fun _ => true) adminSwap h rfl
  obtain ⟨head, -, opcode, -⟩ := h
  have own : ((d.adminHead.map fun c => eOpcode c.raw == 0x94).getD false) = true := by rw [head]; exact beq_iff_eq.mpr opcode
  exact (if_pos own).trans starts

theorem exec_pairSwap_own {s : State} {c : Ctx} {d : Dev} (h : s.dev.adminNext 0x94 c) (e : adminSwap c (s.dev.starts c) = d) :
    exec .pairSwap s = .next { s with dev := d } := runs_of_onDev rfl ((pairSwap_own h).trans e)

/-- The MIRROR's PAIR_SWAP reaches a paired LEAD (log entry 37). -/
theorem pairSwap_passed {d : Dev} (noCommand : d.adminHead = none) (paired : pairedLead d = true) (lease : d.pr.lease = true)
    (link : d.pr.linkUp = true) : pairSwap d = if d.transiting then d else beginSwap none d := by
  cases moving : d.transiting <;>
    simp only [pairSwap, noCommand, paired, lease, link, moving, Option.map_none, Option.getD_none, Bool.not_true, Bool.not_false,
      Bool.and_true, Bool.and_false, if_true, if_false, Bool.false_eq_true]

section
variable {d : Dev}

theorem swapDrainComplete_drained (trans : d.pw.trans = some (.swap none)) (drained : swapDrained d none = true)
    (executing : d.executing = true) :
    swapDrainComplete d =
      (let s := (d.setTrans none).lensUp.foldl (fun e n => lensShutter n e) (pairMsg "HANDOVER" (ownEpoch d + 1) 0 (d.setTrans none))
       sendOwnerEpoch (changeMode .mirror 4 0xFFFF 0xFF { s with
         pr := { s.pr with partnerReady := false, caughtUp := true, streamSeen := 0, held := [] } })) := by
  unfold swapDrainComplete
  rw [trans]
  exact if_pos (by rw [drained, executing]; rfl)

theorem swapDrainComplete_waits {ctx : Option Nat} (trans : d.pw.trans = some (.swap ctx)) (waits : swapDrained d ctx = false) :
    swapDrainComplete d = d := by
  unfold swapDrainComplete
  rw [trans]
  exact if_neg (by rw [waits]; exact Bool.false_ne_true)

theorem swapTimeout_own {id : Nat} (trans : d.pw.trans = some (.swap (some id))) :
    swapTimeout d = conflict id 0x03 (d.setTrans none) := by
  unfold swapTimeout
  rw [trans]

theorem swapTimeout_passed (trans : d.pw.trans = some (.swap none)) :
    swapTimeout d = pairMsg "SWAP_ABANDONED" 0 0 (d.setTrans none) := by
  unfold swapTimeout
  rw [trans]

theorem swapTimeout_asked {id : Nat} (trans : d.pw.trans = some (.swapAsked id)) :
    swapTimeout d = conflict id 0x03 (d.setTrans none) := by
  unfold swapTimeout
  rw [trans]

theorem contending_of_quiet {id : Nat} (quiet : d.pw.trans = none ∨ d.pw.trans = some (.swapAsked id)) : d.contending = false := by
  rcases quiet with h | h <;> simp only [Dev.contending, h]

theorem handover_contends {id : Nat} (e : Nat) (mirror : d.inMode .mirror = true)
    (quiet : d.pw.trans = none ∨ d.pw.trans = some (.swapAsked id)) :
    handover e d = startTie .mirror (if d.pw.trans = none then none else some id) { d with
      pr := { d.pr with partnerReady := true, partnerEpoch := max d.pr.partnerEpoch (e - 1) } } := by
  refine (if_pos (by rw [mirror, contending_of_quiet quiet]; rfl)).trans ?_
  rcases quiet with h | h <;> rw [h] <;> rfl

/-! ### PARTNER_LEAVE -/

theorem exec_partnerLeave {s : State} (working : s.dev.working = true) (e : partnerLeaves s.dev = d) :
    exec .partnerLeave s = .next { s with dev := d } := runs_of_onDev rfl ((if_pos working).trans e)

theorem partnerLeaves_mirror (mode : d.inMode .mirror = true) (quiet : d.contending = false) : partnerLeaves d = leavePair d := by
  unfold partnerLeaves
  rw [(inMode_iff d _).mp mode]
  exact if_neg (ne_true_of_eq_false quiet)

theorem partnerLeaves_lead (mode : d.inMode .lead = true) (quiet : d.contending = false) : partnerLeaves d = aloneLead d := by
  unfold partnerLeaves
  rw [(inMode_iff d _).mp mode]
  exact if_neg (ne_true_of_eq_false quiet)

theorem partnerLeaves_solo (mode : d.inMode .solo = true) :
    partnerLeaves d = { d with pr := { d.pr with partnerReady := false, unacked := [] } } := by
  unfold partnerLeaves
  rw [(inMode_iff d _).mp mode]

theorem endResync_idle (k : Nat → Dev → Dev) (idle : d.pr.resync = none) : endResync k d = d := by
  unfold endResync
  rw [idle]

theorem partnerLeaves_ready (mode : d.inMode .focus = true) (ready : d.val Fam.pairState = 2) (idle : d.pr.resync = none) :
    partnerLeaves d = leavePair d := by
  unfold partnerLeaves
  rw [(inMode_iff d _).mp mode]
  exact (if_pos (.inr ready)).trans (congrArg leavePair (endResync_idle _ idle))

end

/-- Settles O31: each command by its equation in the clause's case; what a start leaves of the device it leaves of each condition. -/
theorem pairFormsDissolvesAndSwaps : Obligations.PairFormsDissolvesAndSwaps := by
  refine ⟨?start, fun source ctx d => ?tie, ?dissolve, ?dissolveDisabled, ?dissolveTransiting, ?swap, ?passed, ?drained,
    fun s ctx trans waits => runs_of_onDev rfl (swapDrainComplete_waits trans waits), ?timeout,
    fun s e id mirror quiet => runs_of_onDev rfl (handover_contends e mirror quiet), ?leaves⟩
  case start =>
    rintro s c lead solo d next clean rfl
    have run {e : Dev} := runs_of_adminNext (i := .pairStart lead solo) (d := e) rfl next rfl
    refine ⟨fun disabled => run (adminPairStart_disabled clean disabled), fun enabled =>
      ⟨fun equal => run (adminPairStart_equalStraps clean enabled equal),
       fun straps moving => run (adminPairStart_transiting clean enabled straps moving),
       fun straps still => ⟨fun mode => ?focus, fun mode => ?solo,
        fun mode => run (adminPairStart_member clean enabled straps still mode)⟩⟩⟩
    case focus =>
      have focus := adminPairStart_focus (lead := lead) (solo := solo) (d := s.dev.starts c) clean enabled straps still mode
      refine ⟨fun recovers => run (focus.trans (if_pos recovers)), fun recovered => ?_⟩
      have recoveredFocus := focus.trans (if_neg (not_not.mpr recovered))
      have whileUp (up : s.dev.pr.linkUp = true) := recoveredFocus.trans (if_pos up)
      have whileDown (down : s.dev.pr.linkUp = false) := recoveredFocus.trans (if_neg (ne_true_of_eq_false down))
      exact ⟨fun down even => run ((whileDown down).trans (if_neg (by rw [even]; decide))),
        fun down force => run ((whileDown down).trans (if_pos force)),
        fun up serves => run ((whileUp up).trans (if_pos (Bool.or_eq_true_iff.mpr serves))),
        fun up noLead noSolo => run ((whileUp up).trans (if_neg (by rw [noLead, noSolo]; decide)))⟩
    case solo =>
      have solo := adminPairStart_solo (lead := lead) (solo := solo) (d := s.dev.starts c) clean enabled straps still mode
      exact ⟨fun ready => run (solo.trans (if_pos ready)),
        fun unready => run (solo.trans (if_neg (ne_true_of_eq_false unready)))⟩
  case tie =>
    obtain ⟨trans, claim, epoch, state, guarding⟩ := startTie_contends source ctx d
    exact ⟨trans, claim, epoch, state, guarding, ownEpoch_lt_nextEpoch d⟩
  case dissolve =>
    rintro s c d e next enabled straps still unguarded rfl rfl
    have run {d : Dev} := runs_of_adminNext (i := .pairDissolve) (d := d) rfl next rfl
    exact ⟨fun mode => run (adminDissolve_lead enabled straps still unguarded mode),
      fun mode => run (adminDissolve_mirror enabled straps still unguarded mode),
      fun mode joins => run (adminDissolve_joining enabled straps still unguarded mode joins),
      fun mode alone => run (adminDissolve_alone enabled straps still unguarded mode alone),
      fun mode => run (adminDissolve_solo enabled straps still unguarded mode)⟩
  case dissolveDisabled =>
    intro s c next disabled
    exact runs_of_adminNext (i := .pairDissolve) rfl next rfl (adminDissolve_disabled disabled)
  case dissolveTransiting =>
    intro s c next enabled straps moving
    exact runs_of_adminNext (i := .pairDissolve) rfl next rfl (adminDissolve_transiting enabled straps moving)
  case swap =>
    rintro s c d next rfl
    refine ⟨fun outside => exec_pairSwap_own next (adminSwap_outside outside),
      fun enabled straps moving member => exec_pairSwap_own next (adminSwap_transiting enabled straps moving member),
      fun enabled straps still mode => ?lead, fun enabled straps still mode => ?mirror⟩
    case lead =>
      have lead := adminSwap_lead (c := c) (d := s.dev.starts c) enabled straps still mode
      exact ⟨fun unpaired => exec_pairSwap_own next (lead.trans (if_neg unpaired)),
        fun paired lost => exec_pairSwap_own next ((lead.trans (if_pos paired)).trans (if_neg (ne_true_of_eq_false lost))),
        fun paired lease => exec_pairSwap_own next ((lead.trans (if_pos paired)).trans (if_pos lease))⟩
    case mirror =>
      have mirror := adminSwap_mirror (c := c) (d := s.dev.starts c) enabled straps still mode
      exact ⟨fun behind => exec_pairSwap_own next (mirror.trans (if_neg (ne_true_of_eq_false behind))),
        fun caughtUp lease => exec_pairSwap_own next ((mirror.trans (if_pos caughtUp)).trans (if_pos lease))⟩
  case passed =>
    intro s noCommand paired lease link
    have passed := pairSwap_passed noCommand paired lease link
    exact ⟨fun still => runs_of_onDev rfl (passed.trans (if_neg (ne_true_of_eq_false still))),
      fun moving => runs_of_onDev rfl (passed.trans (if_pos moving))⟩
  case drained =>
    intro s trans drained executing
    exact ⟨_, rfl, runs_of_onDev rfl (swapDrainComplete_drained trans drained executing)⟩
  case timeout =>
    intro s id executing
    have run {d : Dev} (e : swapTimeout s.dev = d) : exec .swapDrainTimeout s = .next { s with dev := d } :=
      runs_of_onDev rfl ((if_pos executing).trans e)
    exact ⟨fun trans => run (swapTimeout_own trans), fun trans => run (swapTimeout_passed trans),
      fun trans => run (swapTimeout_asked trans)⟩
  case leaves =>
    intro s working
    exact ⟨fun mode quiet => exec_partnerLeave working (partnerLeaves_mirror mode quiet),
      fun mode quiet => exec_partnerLeave working (partnerLeaves_lead mode quiet),
      fun mode => exec_partnerLeave working (partnerLeaves_solo mode),
      fun mode ready idle => exec_partnerLeave working (partnerLeaves_ready mode ready idle)⟩

end Sys2Proof.Machine
end

section
/-!
SUPPORT. The mirror link, the lease and takeover (R365, R367, R371 to R377): what each of their functions is in each case, and O32.
-/

namespace Sys2Proof.Machine

/-! ### The mirror link (R365, R367) -/

section
variable {d : Dev}

theorem showLink_full (up : d.pr.linkUp = true) (full : d.pr.width = 16) :
    showLink d = hubFall 0x242 (d.setVal Fam.pairLink 0 (33 + 64 * b2n d.pr.partnerStrap)) := by
  unfold showLink
  dsimp only
  rw [up, full]
  rfl

theorem showLink_narrow (up : d.pr.linkUp = true) (narrow : d.pr.width < 16) :
    showLink d =
      raise 0x242 d.pr.width false (d.setVal Fam.pairLink 0 (1 + 2 * d.pr.width + 64 * b2n d.pr.partnerStrap)) := by
  unfold showLink
  dsimp only
  rw [up, Nat.mod_eq_of_lt (by omega : d.pr.width < 32)]
  exact if_pos (by rw [decide_eq_true narrow]; rfl)

theorem showLink_down (down : d.pr.linkUp = false) (none_ : d.pr.width = 0) :
    showLink d = hubFall 0x242 (d.setVal Fam.pairLink 0 (64 * b2n d.pr.partnerStrap)) := by
  unfold showLink
  dsimp only
  rw [down, none_, show b2n false + 2 * (0 % 32) = 0 from rfl, Nat.zero_add]
  rfl

end

theorem strapsEqual_hubFall (n : Nat) (d : Dev) : strapsEqual (hubFall n d) = strapsEqual d := by
  rw [hubFall_keeps]
  rfl

/-- What the partner shows of itself over a link of 16 lanes. -/
def partnerShown (serial : Quad) (strap : Bool) (d : Dev) : Dev :=
  (({ d with pr := { d.pr with linkUp := true, width := 16, partnerStrap := strap } }).setVal Fam.pairPartnerSerial 0
    serial.toNat).setVal Fam.pairLink 0 (33 + 64 * b2n strap)

theorem strapsEqual_partnerShown (serial : Quad) (strap : Bool) (d : Dev) :
    strapsEqual (partnerShown serial strap d) = (strap == d.pw.pairId) := Bool.true_and _

theorem linkComesUp_full (serial : Quad) (strap : Bool) (d : Dev) :
    linkComesUp serial strap 16 d =
      if strap == d.pw.pairId then (hubFall 0x242 (partnerShown serial strap d)).setVal Fam.pairRefusal 0 1
      else hubFall 0x242 (partnerShown serial strap d) := by
  unfold linkComesUp
  dsimp only
  rw [showLink_full rfl rfl, strapsEqual_hubFall]
  exact if_congr (Bool.coe_iff_coe.mpr (strapsEqual_partnerShown serial strap d)) rfl rfl

/-! ### Renewals (R371) -/

section
variable {d : Dev}

theorem renewSend_sends (lead : d.inMode .lead = true) (link : d.pr.linkUp = true) (quiet : d.contending = false)
    (running : d.softResetting = false) :
    renewSend d = pairMsg "RENEW" (ownEpoch d) (d.pr.renewSeq + 1) { d with pr := { d.pr with renewSeq := d.pr.renewSeq + 1 } } :=
  if_pos (show (d.inMode .lead && d.pr.linkUp && !d.contending && !d.softResetting) = true by rw [lead, link, quiet, running]; rfl)

/-- The device has seen this RENEW, and its lease count restarts. -/
def renewNoted (seq : Nat) (d : Dev) : Dev := { d with pr := { d.pr with renewSeen := seq, lease := true, guarding := false } }

theorem renewReceive_mirror (e seq : Nat) (mirror : d.inMode .mirror = true) (quiet : d.contending = false) :
    renewReceive e seq d = pairMsg "RENEW_ACK" e seq (setPairState 3 (renewNoted seq (takeEpoch e d))) :=
  if_pos (by rw [mirror, quiet]; rfl)

theorem renewReceive_ready (e seq : Nat) (focus : d.inMode .focus = true) (ready : d.val Fam.pairState = 2) :
    renewReceive e seq d =
      pairMsg "RENEW_ACK" e seq (sendOwnerEpoch (takeEpoch e
        (changeMode .mirror 3 0xFFFF 0xFF (setPairState 3 (renewNoted seq d))))) :=
  (if_neg (by rw [inMode_other focus (by decide : Mode.focus ≠ .mirror)]; exact Bool.false_ne_true)).trans
    (if_pos (by rw [focus, ready]; rfl))

theorem renewAck_newer {seq : Nat} (lead : d.inMode .lead = true) (quiet : d.contending = false) (newer : d.pr.renewAcked < seq)
    (sent : seq ≤ d.pr.renewSeq) : renewAck seq d = { d with pr := { d.pr with renewAcked := seq, lease := true } } :=
  if_pos (by rw [lead, quiet, decide_eq_true newer, decide_eq_true sent]; rfl)

theorem renewAck_other {seq : Nat} (other : seq ≤ d.pr.renewAcked ∨ d.pr.renewSeq < seq) : renewAck seq d = d := by
  refine if_neg fun counts => ?_
  simp only [Bool.and_eq_true, decide_eq_true_eq] at counts
  omega

end

/-! ### The epoch that a RENEW carries (Table 13.6, step 6) -/

theorem reregisterAll_vals (key : Nat) (d : Dev) : (reregisterAll key d).vals = d.vals :=
  foldl_keeps Dev.vals (fun s m => registerKey m (some key) s) (fun _ _ => rfl) _ d

theorem ownEpoch_sendOwnerEpoch (d : Dev) : ownEpoch (sendOwnerEpoch d) = ownEpoch d := by
  have other (v : Nat) : ownEpoch (d.setVal Fam.lensOwnerEpoch 0 v) = ownEpoch d :=
    val_setVal_family d v (by decide) (by decide) (by decide)
  unfold sendOwnerEpoch
  split
  · exact other _
  · split
    · exact other _
    · rfl

theorem takeEpoch_known {e : Nat} {d : Dev} (known : e ≤ ownEpoch d) : takeEpoch e d = d := if_neg (Nat.not_lt.mpr known)

theorem ownEpoch_takeEpoch {e : Nat} {d : Dev} (new : ownEpoch d < e) : ownEpoch (takeEpoch e d) = e := by
  rw [takeEpoch, if_pos new, ownEpoch_sendOwnerEpoch, ownEpoch, Dev.val, reregisterAll_vals]
  exact val_setVal _ Fam.pairLeaseEpoch 0 e

/-! ### The lease ends (R372, Tables 13.2 and 13.3) -/

section
variable {d : Dev}

theorem contending_of_noTrans (idle : d.pw.trans = none) : d.contending = false := by simp only [Dev.contending, idle]

theorem leadContends_paired (paired : pairedLead d = true) (idle : d.pw.trans = none) :
    leadContends d = startTie .lead none (d.lensUp.foldl (fun e n => lensShutter n e) { d with pr := { d.pr with lease := false } }) := by
  refine (if_pos (by rw [paired, contending_of_noTrans idle]; rfl)).trans ?_
  rw [idle]
  rfl

theorem exec_streamAckTimeout (s : State) :
    exec .streamAckTimeout s = onDev s (fun d => if d.pr.unacked.isEmpty then d else leadContends d) := rfl

theorem mirrorExpires_guards (mirror : d.inMode .mirror = true) (quiet : d.contending = false) (idle : d.fw.activating = none)
    (unguarded : d.pr.guarding = false) :
    mirrorExpires d = setPairState 5 { d with pr := { d.pr with lease := false, guarding := true } } := by
  refine (if_pos (by rw [mirror, quiet, unguarded]; rfl)).trans ?_
  rw [idle]
  rfl

theorem mirrorExpires_guarding (guarding : d.pr.guarding = true) : mirrorExpires d = d :=
  if_neg (by rw [guarding, Bool.not_true, Bool.and_false]; exact Bool.false_ne_true)

theorem guardElapsed_contends (mirror : d.inMode .mirror = true) (guarding : d.pr.guarding = true) (idle : d.pw.trans = none) :
    guardElapsed d = startTie .mirror none { d with pr := { d.pr with partnerReady := false } } := by
  refine (if_pos (by rw [mirror, guarding]; rfl)).trans ?_
  rw [idle]

theorem guardElapsed_unguarded (unguarded : d.pr.guarding = false) : guardElapsed d = d :=
  if_neg (by rw [unguarded, Bool.and_false]; exact Bool.false_ne_true)

/-! ### Time limits of the tie and of fences (R374, R376) -/

theorem fenceTimeout_tie {source : Mode} {ctx : Option Nat} (tie : d.pw.trans = some (.tie source ctx)) :
    fenceTimeout none d = tieLost source ctx d := by
  unfold fenceTimeout
  dsimp only
  rw [tie]

theorem fenceTimeout_late {m : Nat} (late : (d.mem m).unfenced = true) (lead : d.inMode .lead = true)
    (serves : memberServes d m = true) : fenceTimeout (some m) d = memberMove m .slow 0 d :=
  if_pos (by rw [late, lead, serves]; rfl)

theorem fenceTimeout_fenced {m : Nat} (fenced : (d.mem m).unfenced = false) (solid : isPlatter m = false) :
    fenceTimeout (some m) d = d :=
  if_neg (by rw [fenced, chanOf_, if_neg (ne_true_of_eq_false solid)]; exact Bool.false_ne_true)

end

/-! ### Takeover (R375 to R377) -/

/-- Step 9 begins: the device is the LEAD. -/
def becomesLead (d : Dev) : Dev :=
  changeMode .lead 4 0xFFFF 0xFF ({ d with
    pr := { d.pr with guarding := false, caughtUp := false }, mt := { d.mt with takeover := true } }.setTrans none)

theorem becomesLead_pw (d : Dev) : (becomesLead d).pw = { d.pw with trans := none, mode := some .lead } := changeMode_pw _ _ _ _ _

/-- The arrays are taken, and nothing is held for the partner any more. -/
def arraysTaken (a : Dev) : Dev :=
  let b := (tkeys (setPairState 4 a).arrays).foldl takeArray (setPairState 4 a)
  { b with pr := { b.pr with held := [] } }

/-- What was held is placed, every array's state derived, and service begun. -/
def serviceTaken (a : Dev) : Dev :=
  let arrays := tkeys (setPairState 4 a).arrays
  beginService (arrays.foldl deriveArray (arrays.foldl (fun e n => replaceAll n (issueJournal n e)) (arraysTaken a)))

/-- The takeover is counted, and its gap recorded. -/
def takeoverNoted (gap : Nat) (d : Dev) : Dev := (d.bump Fam.pairTakeovers).setVal Fam.pairLastGapUs 0 (min gap 0xFFFFFFFF)

theorem takeoverComplete_failure {d : Dev} (gap : Nat) (trans : d.pw.trans = some (.takeover none)) (lost : d.pr.partnerReady = false) :
    takeoverComplete gap d =
      (let e := takeoverNoted gap (serviceTaken (becomesLead d))
       settle (raise 0x244 gap true (pairRecord 0 (ownEpoch e) gap e))) := by
  simp only [takeoverComplete, trans, lost, takeoverNoted, serviceTaken, arraysTaken, becomesLead, tkeys, b2n, if_false,
    Bool.false_eq_true]

theorem embargoEnd_eq (d : Dev) :
    embargoEnd d =
      (let e : Dev := { d with arrays := d.arrays.map fun e => (e.1, { e.2 with embargo := [] }) }
       if d.executing then settle ((tkeys e.arrays).foldl (fun e a => replaceAll a e) e) else e) := rfl

/-- Settles O32: each command by its equation in the clause's case. -/
theorem leaseLinkAndTakeover : Obligations.LeaseLinkAndTakeover := by
  refine ⟨?linkUp, ?retrain, ?linkDown,
    fun s lead link quiet running => runs_of_onDev rfl (renewSend_sends lead link quiet running), ?renewed, ?ready, ?acked, ?missed,
    ?leadExpires, ?nothingSent,
    fun s mirror quiet idle => ⟨fun unguarded => runs_of_onDev rfl (mirrorExpires_guards mirror quiet idle unguarded),
      fun guarding => runs_of_onDev rfl (mirrorExpires_guarding guarding)⟩,
    fun s mirror => ⟨fun guarding idle => runs_of_onDev rfl (guardElapsed_contends mirror guarding idle),
      fun unguarded => runs_of_onDev rfl (guardElapsed_unguarded unguarded)⟩,
    fun s source ctx tie => runs_of_onDev rfl (fenceTimeout_tie tie),
    fun s m lead serves => ⟨fun late => runs_of_onDev rfl (fenceTimeout_late late lead serves),
      fun fenced solid => runs_of_onDev rfl (fenceTimeout_fenced fenced solid)⟩,
    ?takeover, ?embargo⟩
  case linkUp =>
    intro s serial strap up
    have run {d : Dev} (e : linkComesUp serial strap 16 s.dev = d) := runs_of_onDev (c := .mirrorLinkUp serial strap 16) rfl
      ((if_pos up).trans e)
    refine ⟨partnerShown serial strap s.dev, rfl, fun differ => run ?_, fun same => run ?_⟩
    · exact (linkComesUp_full serial strap s.dev).trans (if_neg (by rw [differ]; simp))
    · exact (linkComesUp_full serial strap s.dev).trans (if_pos (beq_iff_eq.mpr same))
  case retrain =>
    intro s w up link narrow
    exact runs_of_onDev rfl ((if_pos (by rw [up, link]; rfl)).trans
      (showLink_narrow (d := { s.dev with pr := { s.dev.pr with width := w } }) link narrow))
  case linkDown => intro s up; exact runs_of_onDev rfl ((if_pos up).trans (showLink_down rfl rfl))
  case renewed =>
    intro s e q mirror quiet
    have renews := renewReceive_mirror e q mirror quiet
    refine ⟨fun known => runs_of_onDev rfl (renews.trans ?_),
      fun new => ⟨takeEpoch e s.dev, rfl, ownEpoch_takeEpoch new, runs_of_onDev rfl renews⟩⟩
    rw [takeEpoch_known known]
    rfl
  case ready =>
    intro s e q focus ready
    exact ⟨_, rfl, congrArg Power.mode (changeMode_pw _ _ _ _ _), runs_of_onDev rfl (renewReceive_ready e q focus ready)⟩
  case acked =>
    intro s q lead quiet
    exact ⟨fun newer sent => runs_of_onDev rfl (renewAck_newer lead quiet newer sent),
      fun other => runs_of_onDev rfl (renewAck_other other)⟩
  case missed =>
    intro s
    exact ⟨fun mirror => runs_of_onDev rfl (if_pos mirror), fun other => runs_of_onDev rfl (if_neg (ne_true_of_eq_false other))⟩
  case leadExpires =>
    rintro s d paired idle rfl
    have contends := leadContends_paired paired idle
    refine ⟨runs_of_onDev rfl contends, fun unacked => runs_of_onDev (exec_streamAckTimeout s) ((if_neg ?_).trans contends)⟩
    exact fun none_ => unacked (List.isEmpty_iff.mp none_)
  case nothingSent => intro s none_; exact runs_of_onDev (exec_streamAckTimeout s) (if_pos (List.isEmpty_iff.mpr none_))
  case takeover =>
    intro s gap trans working lost
    refine ⟨becomesLead s.dev, _, _, _, rfl, congrArg Power.mode (becomesLead_pw s.dev), congrArg Power.trans (becomesLead_pw s.dev),
      rfl, rfl, rfl, ?_⟩
    rintro e rfl
    exact runs_of_onDev rfl ((if_pos working).trans (takeoverComplete_failure gap trans lost))
  case embargo =>
    rintro s d rfl
    exact ⟨fun stopped => runs_of_onDev rfl ((embargoEnd_eq s.dev).trans (if_neg (ne_true_of_eq_false stopped))),
      fun executing => runs_of_onDev rfl ((embargoEnd_eq s.dev).trans (if_pos executing))⟩

end Sys2Proof.Machine
end

section
/-!
SUPPORT. The stream, resynchronisation and Prism's known-answer test (R189, R190, R381 to R385): what each of their functions is in each
case, and O33.
-/

namespace Sys2Proof.Machine

/-! ### Packets on the device that takes the stream (R381, R383, R384) -/

/-- What the next packet in order brings about, noted as seen: it is compared, then applied or reported. -/
def packetCompared (q : Nat) (i : StreamItem) (d : Dev) : Dev :=
  match itemMismatch i d with
  | some (a, b) => startKat (raise 0x240 a false (pairMsg "MISMATCH" a b (pairMsg "STREAM_ACK" q 1 d)))
  | none => pairMsg "STREAM_ACK" q 0 (takeItem i d)

section
variable {q : Nat} {i : StreamItem} {d : Dev}

theorem packetCompared_agrees (agrees : itemMismatch i d = none) :
    packetCompared q i d = pairMsg "STREAM_ACK" q 0 (takeItem i d) := by
  rw [packetCompared, agrees]

theorem packetCompared_differs {a b : Nat} (differs : itemMismatch i d = some (a, b)) :
    packetCompared q i d = startKat (raise 0x240 a false (pairMsg "MISMATCH" a b (pairMsg "STREAM_ACK" q 1 d))) := by
  rw [packetCompared, differs]

theorem streamPacket_notTaken (away : takesStream d = false) : streamPacket q i d = d := if_pos (by rw [away]; rfl)

theorem streamPacket_taken (takes : takesStream d = true) :
    streamPacket q i d =
      if q ≤ d.pr.streamSeen then pairMsg "STREAM_ACK" q 0 d
      else if q ≠ d.pr.streamSeen + 1 then d
      else packetCompared q i { d with pr := { d.pr with streamSeen := q } } :=
  if_neg (by rw [takes]; exact Bool.false_ne_true)

variable (takes : takesStream d = true)
include takes

theorem streamPacket_seen (seen : q ≤ d.pr.streamSeen) : streamPacket q i d = pairMsg "STREAM_ACK" q 0 d :=
  (streamPacket_taken takes).trans (if_pos seen)

theorem streamPacket_ahead (ahead : d.pr.streamSeen + 1 < q) : streamPacket q i d = d :=
  (streamPacket_taken takes).trans ((if_neg (by omega)).trans (if_pos (by omega)))

theorem streamPacket_next (next : q = d.pr.streamSeen + 1) :
    streamPacket q i d = packetCompared q i { d with pr := { d.pr with streamSeen := q } } :=
  (streamPacket_taken takes).trans ((if_neg (by omega)).trans (if_neg (not_not.mpr next)))

end

/-- A packet that comes when none is kept is applied or kept by itself. -/
theorem takeItem_noneKept {d : Dev} (i : StreamItem) (noneKept : d.pr.deferred = []) :
    takeItem i d = if itemEarly d i then { d with pr := { d.pr with deferred := [i] } } else applyItemOf i d := by
  have cleared : { d with pr := { d.pr with deferred := [] } } = d := by rw [← noneKept]
  rw [takeItem, cleared, noneKept]
  exact if_congr Iff.rfl (by rw [noneKept]; rfl) rfl

theorem applyItemOf_key {d : Dev} {v : Nat} {x : Vol} (k : Option (BitVec 512)) (h : d.vol? v = some x) :
    ((applyItemOf (.key v k) d).vol? v).map (·.key) = some k := by
  simp [applyItemOf, h]

/-! ### Acknowledgements (R382, R383) -/

theorem acknowledged_eq_nil {q : Nat} {d : Dev} (nothing : ∀ e ∈ d.pr.unacked, q < e.1) :
    (d.pr.unacked.filter fun e => decide (e.1 ≤ q)) = [] :=
  List.filter_eq_nil_iff.mpr fun e mem upTo => Nat.not_le.mpr (nothing e mem) (of_decide_eq_true upTo)

section
variable {q : Nat} {d : Dev} (serving : d.serving = true) (quiet : d.contending = false)
include serving quiet

theorem streamAck_noMismatch :
    streamAck q none d = settle ((d.pr.unacked.filter fun e => decide (e.1 ≤ q)).foldl (fun e i => itemAcked e i.2)
      { d with pr := { d.pr with unacked := d.pr.unacked.filter fun e => !decide (e.1 ≤ q) } }) :=
  if_pos (by rw [serving, quiet]; rfl)

variable (nothing : ∀ e ∈ d.pr.unacked, q < e.1)
include nothing

theorem streamAck_nothing :
    streamAck q none d = settle { d with pr := { d.pr with unacked := d.pr.unacked.filter fun e => !decide (e.1 ≤ q) } } := by
  rw [streamAck_noMismatch serving quiet, acknowledged_eq_nil nothing, List.foldl_nil]

theorem streamAck_mismatch {a b : Nat} {x : Dev}
    (marked : x = modBeam a b (fun y => { y with mismatch := true })
      { d with pr := { d.pr with unacked := d.pr.unacked.filter fun e => !decide (e.1 ≤ q) } }) :
    streamAck q (some (a, b)) d =
      settle (startKat (raise 0x240 a true { x with pr := { x.pr with verdict := some (a, b) } })) := by
  subst marked
  refine (if_pos (by rw [serving, quiet]; rfl)).trans ?_
  rw [acknowledged_eq_nil nothing]
  rfl

end

/-! ### Resynchronisation (R384, R385) -/

section
variable {d : Dev}

/-- The resynchronisation under way is over: the directory is the partner's. -/
def resynced (fromLead : Bool) (d : Dev) : Dev :=
  (replaceDirectory { d with pr := { d.pr with resync := none, caughtUp := true, lease := fromLead } }).setVal Fam.pairResyncPct 0 100

theorem resyncComplete_focus {fromLead : Bool} {id : Nat} (focus : d.inMode .focus = true) (resync : d.pr.resync = some (fromLead, id)) :
    resyncComplete d =
      if fromLead then
        okWith id 0 (sendOwnerEpoch (changeMode .mirror 3 0xFFFF 0xFF (setPairState 3 (resynced fromLead d))))
      else okWith id 1 (setPairState 2 (resynced fromLead d)) := by
  unfold resyncComplete
  rw [(inMode_iff d _).mp focus]
  dsimp only
  rw [resync]
  rfl

theorem resyncComplete_solo (solo : d.inMode .solo = true) :
    resyncComplete d = { d with pr := { d.pr with partnerReady := true } } := by
  unfold resyncComplete
  rw [(inMode_iff d _).mp solo]

theorem resyncComplete_lead (lead : d.inMode .lead = true) (alone : d.val Fam.pairState = 4) (quiet : d.contending = false) :
    resyncComplete d = setPairState 3 { d with pr := { d.pr with partnerReady := true, lease := true } } := by
  unfold resyncComplete
  rw [(inMode_iff d _).mp lead]
  exact if_pos ⟨alone, quiet⟩

theorem resyncLost_solo (solo : d.inMode .solo = true) :
    resyncLost d = { d with pr := { d.pr with partnerReady := false, unacked := [] } } := by
  unfold resyncLost
  rw [(inMode_iff d _).mp solo]

theorem resyncLost_focus (focus : d.inMode .focus = true) (joins : d.val Fam.pairState = 1 ∨ d.val Fam.pairState = 2) :
    resyncLost d = raise 0x243 0 false (leavePair (endResync (fun id => conflict id 0x31) d)) := by
  unfold resyncLost
  rw [(inMode_iff d _).mp focus]
  exact if_pos joins

theorem endResync_some {fromLead : Bool} {id : Nat} (k : Nat → Dev → Dev) (resync : d.pr.resync = some (fromLead, id)) :
    endResync k d = k id { d with pr := { d.pr with resync := none } } := by
  unfold endResync
  rw [resync]

theorem resyncLost_mirror (mirror : d.inMode .mirror = true) (quiet : d.contending = false) (unguarded : d.pr.guarding = false) :
    resyncLost d = raise 0x243 0 false (leavePair d) := by
  unfold resyncLost
  rw [(inMode_iff d _).mp mirror]
  exact if_neg (by rw [quiet, unguarded]; exact Bool.false_ne_true)

/-! ### The known-answer test (R189, R190) -/

theorem giveVerdict_none (own partner : Bool) (noVerdict : d.pr.verdict = none) : giveVerdict own partner d = d := by
  unfold giveVerdict
  rw [noVerdict]

/-- The result of the test is stored and counted. -/
def katStored (failed : BitVec 16) (d : Dev) : Dev :=
  (({ d with pw := { d.pw with katRunning := false } }).setVal Fam.prismKatResult 0 failed.toNat).bump Fam.prismKatRuns

theorem katComplete_noVerdict {failed : BitVec 16} (partnerFailed : Bool) (running : d.pw.katRunning = true) (up : d.coreUp = true)
    (noVerdict : d.pr.verdict = none) : katComplete failed partnerFailed d = katFaults failed (katStored failed d) := by
  have stillNone : (katStored failed d).pr.verdict = none := by rw [katStored, bump_pr]; exact noVerdict
  exact (if_pos (by rw [running, up]; rfl)).trans (congrArg (katFaults failed) (giveVerdict_none _ partnerFailed stillNone))

theorem katFaults_zero (d : Dev) : katFaults 0 d = d := by
  rw [katFaults, List.filter_eq_nil_iff.mpr fun i _ => by simp, List.foldl_nil]

end

/-- Settles O33: each command by its equation in the clause's case. -/
theorem streamResyncAndKnownAnswerTest : Obligations.StreamResyncAndKnownAnswerTest := by
  refine ⟨?packet, fun s q i away => runs_of_onDev rfl (streamPacket_notTaken away), ?takes, fun d m => rfl,
    fun d a v lba q bs => rfl, fun d v k x h => applyItemOf_key k h, ?ack, ?resynced, ?partnerResynced, ?lost, ?kat, ?katEnds⟩
  case packet =>
    intro s q i takes
    refine ⟨fun seen => runs_of_onDev rfl (streamPacket_seen takes seen),
      fun ahead => runs_of_onDev rfl (streamPacket_ahead takes ahead), ?_⟩
    rintro next d rfl
    have compares := streamPacket_next (i := i) takes next
    exact ⟨fun agrees => runs_of_onDev rfl (compares.trans (packetCompared_agrees agrees)),
      fun a b differs => runs_of_onDev rfl (compares.trans (packetCompared_differs differs))⟩
  case takes =>
    intro d i noneKept
    exact ⟨fun due => (takeItem_noneKept i noneKept).trans (if_neg (ne_true_of_eq_false due)),
      fun early => (takeItem_noneKept i noneKept).trans (if_pos early)⟩
  case ack =>
    rintro s q d serving quiet rfl
    exact ⟨fun nothing => runs_of_onDev rfl (streamAck_nothing serving quiet nothing),
      runs_of_onDev rfl (streamAck_noMismatch serving quiet),
      fun a b nothing => ⟨_, rfl, runs_of_onDev rfl (streamAck_mismatch serving quiet nothing rfl)⟩⟩
  case resynced =>
    rintro s fromLead id d focus resync rfl
    have completes := resyncComplete_focus focus resync
    exact ⟨fun lead => runs_of_onDev rfl (completes.trans (if_pos lead)),
      fun solo => runs_of_onDev rfl (completes.trans (if_neg (ne_true_of_eq_false solo)))⟩
  case partnerResynced =>
    intro s
    exact ⟨fun solo => ⟨runs_of_onDev rfl (resyncComplete_solo solo), runs_of_onDev rfl (resyncLost_solo solo)⟩,
      fun lead alone quiet => runs_of_onDev rfl (resyncComplete_lead lead alone quiet)⟩
  case lost =>
    intro s
    refine ⟨fun focus ready idle => runs_of_onDev rfl ?ready, fun l id focus runs resync => runs_of_onDev rfl ?underWay,
      fun mirror quiet unguarded => runs_of_onDev rfl (resyncLost_mirror mirror quiet unguarded)⟩
    case ready => rw [resyncLost_focus focus (.inr ready), endResync_idle _ idle]
    case underWay => rw [resyncLost_focus focus (.inl runs), endResync_some _ resync]
  case kat => intro s who accepted; exact runs_of_onDev rfl (guardedWrite_accepted _ accepted rfl)
  case katEnds =>
    intro s failed p running up noVerdict
    have ends := katComplete_noVerdict (failed := failed) p running up noVerdict
    refine ⟨katStored failed s.dev, rfl, runs_of_onDev rfl ends, ?_⟩
    rintro rfl
    exact runs_of_onDev rfl (ends.trans (katFaults_zero _))

end Sys2Proof.Machine
end

section
/-!
SUPPORT. Copy descriptors (R394 to R397): where the bytes of a descriptor lie, and O35.
-/

namespace Sys2Proof.Machine

/-! ### Lines and extents -/

/-- A multiple of a stride lies between 0 and a greater multiple of it, whichever sign the stride has. -/
theorem mul_mem_span {i m t : Int} (nonneg : 0 ≤ i) (le : i ≤ m) : min 0 (m * t) ≤ i * t ∧ i * t ≤ max 0 (m * t) := by
  rcases le_total 0 t with up | down
  · exact ⟨(min_le_left _ _).trans (mul_nonneg nonneg up), (mul_le_mul_of_nonneg_right le up).trans (le_max_right _ _)⟩
  · exact ⟨(min_le_right _ _).trans (mul_le_mul_of_nonpos_right le down),
      (mul_nonpos_of_nonneg_of_nonpos nonneg down).trans (le_max_left _ _)⟩

section
variable {a len n p : Nat} {stride : Int}

/-- The address of byte `p` before it is taken as a natural number. -/
def linePlace (a : Nat) (stride : Int) (len p : Nat) : Int := (a : Int) + (p / len : Nat) * stride + (p % len : Nat)

theorem linePlace_mem_extent (h : p < len * n) :
    (extentOf a stride n len).1 ≤ linePlace a stride len p ∧ linePlace a stride len p < (extentOf a stride n len).2 := by
  have inLine : p % len < len := Nat.mod_lt _ (Nat.pos_of_mul_pos_right (Nat.zero_lt_of_lt h))
  have line : p / len < n := Nat.div_lt_of_lt_mul h
  obtain ⟨low, high⟩ := mul_mem_span (i := (p / len : Nat)) (m := (n : Int) - 1) (t := stride) (Int.natCast_nonneg _) (by omega)
  exact ⟨by simp only [extentOf, linePlace]; omega, by simp only [extentOf, linePlace]; omega⟩

variable (above : 0 ≤ (extentOf a stride n len).1) (h : p < len * n)
include above h

theorem lineAddr_eq_linePlace : (lineAddr a stride len p : Int) = linePlace a stride len p :=
  Int.toNat_of_nonneg (above.trans (linePlace_mem_extent h).1)

theorem lineAddr_mem_extent :
    (extentOf a stride n len).1 ≤ (lineAddr a stride len p : Int) ∧ (lineAddr a stride len p : Int) < (extentOf a stride n len).2 := by
  rw [lineAddr_eq_linePlace above h]
  exact linePlace_mem_extent h

/-- Within a line the addresses are consecutive. -/
theorem lineAddr_add {i : Nat} (inLine : p % len + i < len) : lineAddr a stride len (p + i) = lineAddr a stride len p + i := by
  have short : i < len := by omega
  have small : i % len = i := Nat.mod_eq_of_lt short
  have line : (p + i) / len = p / len := by
    rw [Nat.add_div_eq_of_add_mod_lt (by rwa [small]), Nat.div_eq_of_lt short, Nat.add_zero]
  have place : (p + i) % len = p % len + i := by rw [Nat.add_mod_of_add_mod_lt (by rwa [small]), small]
  have moved : linePlace a stride len (p + i) = linePlace a stride len p + i := by
    simp only [linePlace, line, place, Nat.cast_add, add_assoc]
  have start : (linePlace a stride len p).toNat = lineAddr a stride len p := rfl
  calc lineAddr a stride len (p + i) = (linePlace a stride len p + i).toNat := congrArg Int.toNat moved
    _ = lineAddr a stride len p + i := by rw [← lineAddr_eq_linePlace above h]; rfl

end

/-! ### Bursts (R396) -/

section
variable {d : BitVec 512} {p : Nat}

theorem burstAt_bounds (addr : Nat) (line : 0 < dLine d) :
    0 < burstAt d p addr ∧ p % dLine d + burstAt d p addr ≤ dLine d ∧ addr % 4096 + burstAt d p addr ≤ 4096 := by
  have inLine : p % dLine d < dLine d := Nat.mod_lt _ line
  have inPage : addr % 4096 < 4096 := Nat.mod_lt _ (by decide)
  unfold burstAt
  omega

/-! ### Valid descriptors (R395) -/

variable (valid : descInvalid d = false)
include valid

theorem dLine_pos : 0 < dLine d := by
  simp only [descInvalid, Bool.or_eq_false_iff, beq_eq_false_iff_ne] at valid
  omega

theorem srcExtent_nonneg : 0 ≤ (srcExtent d).1 := by
  simp only [descInvalid, extentBad, Bool.or_eq_false_iff, decide_eq_false_iff_not] at valid
  omega

theorem dstExtent_nonneg : 0 ≤ (dstExtent d).1 := by
  simp only [descInvalid, extentBad, Bool.or_eq_false_iff, decide_eq_false_iff_not] at valid
  omega

theorem srcAddr_mem_extent (h : p < dTotal d) : (srcExtent d).1 ≤ (srcAddr d p : Int) ∧ (srcAddr d p : Int) < (srcExtent d).2 :=
  lineAddr_mem_extent (srcExtent_nonneg valid) h

theorem dstAddr_mem_extent (h : p < dTotal d) : (dstExtent d).1 ≤ (dstAddr d p : Int) ∧ (dstAddr d p : Int) < (dstExtent d).2 :=
  lineAddr_mem_extent (dstExtent_nonneg valid) h

theorem srcAddr_ne_dstAddr {q : Nat} (apart : descOverlaps d = false) (hp : p < dTotal d) (hq : q < dTotal d) :
    srcAddr d p ≠ dstAddr d q := by
  obtain ⟨srcLow, srcHigh⟩ := srcAddr_mem_extent valid hp
  obtain ⟨dstLow, dstHigh⟩ := dstAddr_mem_extent valid hq
  simp only [descOverlaps, Bool.and_eq_false_iff, decide_eq_false_iff_not] at apart
  omega

end

/-- Settles O35: an address of a line lies in its side's extent (`lineAddr_mem_extent`), and a burst ends with its line. -/
theorem extentsHoldEveryByteOfADescriptor : Obligations.ExtentsHoldEveryByteOfADescriptor := by
  refine ⟨fun d p valid h => ?extents, fun d p q valid apart hp hq => srcAddr_ne_dstAddr valid apart hp hq,
    fun d p addr valid _ => burstAt_bounds addr (dLine_pos valid), fun d p i valid h inBurst => ?consecutive⟩
  case extents =>
    obtain ⟨srcLow, srcHigh⟩ := srcAddr_mem_extent valid h
    exact ⟨srcLow, srcHigh, dstAddr_mem_extent valid h⟩
  case consecutive =>
    obtain ⟨-, inLine, -⟩ := burstAt_bounds (p := p) (srcAddr d p) (dLine_pos valid)
    exact lineAddr_add (srcExtent_nonneg valid) h (by omega)

end Sys2Proof.Machine
end

section
/-!
SUPPORT. Copy channels (R390 to R400): what each of their functions is in each case, and O34.
-/

namespace Sys2Proof.Machine

/-! ### Requests of a bound function -/

section
variable {i : Instr} {s : State} {r : Req} {k : Dev → Dev} (h : exec i s = onDev s (boundAccess r k)) (a : s.dev.reaches r)
include h a

theorem runs_of_boundAccess {d : Dev} (b : unbound s.dev r.toFn = false) (e : k s.dev = d) : exec i s = .next { s with dev := d } :=
  runs_of_onDev h ((boundAccess_reaches k a b).trans e)

theorem runs_of_boundAccess_idle (idle : unbound s.dev r.toFn = true ∨ k s.dev = s.dev) : exec i s = .next s := by
  cases b : unbound s.dev r.toFn with
  | true => exact runs_of_onDev h (boundAccess_unbound k a b)
  | false => exact runs_of_boundAccess h a b (idle.resolve_left (ne_true_of_eq_false b))

end

/-! ### The next descriptor or burst (R391) -/

section
variable {d : Dev} {c a : Nat}

theorem askNext_fetch (work : (d.chan c).work = .fetch a) :
    askNext c d = if chanRuns d c = true then readRing (chanFn d c) a 64 d else d := by
  simp only [askNext, work]

end

/-! ### COPY_START, COPY_ABORT and the ring registers (R392, R393, R399, R400) -/

/-- A channel whose chain starts at `a` (R393). -/
def Chan.startedAt (x : Chan) (a : Nat) : Chan :=
  { x with st := 2, hops := 0, work := .fetch a, addr := a, staged := false, record := none, next := none, buffer := [] }

/-- What COPY_ABORT does on a function with or without a channel. -/
def copyAbortFn (f : Fn) (d : Dev) : Dev := match chanOf d f with | some c => copyAbort c d | none => d

theorem exec_copyAbort (s : State) (r : Req) : exec (.copyAbort r) s = onDev s (boundAccess r (copyAbortFn r.toFn)) := rfl

section
variable {d : Dev} {f : Fn}

section
variable (noChannel : chanOf d f = none)
include noChannel

theorem copyStart_noChannel (addr : Quad) : copyStart f addr d = d := by simp only [copyStart, noChannel]

theorem copyAbortFn_noChannel : copyAbortFn f d = d := by simp only [copyAbortFn, noChannel]

theorem copyBase_noChannel (base : Quad) : copyBase f base d = d := by simp only [copyBase, noChannel]

theorem copyHead_noChannel (v : Nat) : copyHead f v d = d := by simp only [copyHead, noChannel]

end

variable {c : Nat} (chan : chanOf d f = some c)
include chan

theorem copyStart_channel (addr : Quad) :
    copyStart f addr d =
      if (d.chan c).st = 1 ∧ (d.chan c).depthM1 ≠ 0 ∧ addr.toNat % 64 = 0 ∧ isolatedFn d f = false then
        askNext c (d.setChan c ((d.chan c).startedAt addr.toNat))
      else d.bump Fam.copyChanRefused c := by
  simp only [copyStart, chan]
  rfl

theorem copyStart_accepted {addr : Quad} (idle : (d.chan c).st = 1) (ring : (d.chan c).depthM1 ≠ 0) (aligned : addr.toNat % 64 = 0)
    (open_ : isolatedFn d f = false) :
    copyStart f addr d =
      if chanRuns d c = true then readRing (chanFn d c) addr.toNat 64 (d.setChan c ((d.chan c).startedAt addr.toNat))
      else d.setChan c ((d.chan c).startedAt addr.toNat) := by
  rw [copyStart_channel chan, if_pos ⟨idle, ring, aligned, open_⟩]
  exact askNext_fetch (congrArg Chan.work (chan_setChan d c _))

theorem copyStart_refused {addr : Quad}
    (refused : (d.chan c).st ≠ 1 ∨ (d.chan c).depthM1 = 0 ∨ addr.toNat % 64 ≠ 0 ∨ isolatedFn d f = true) :
    copyStart f addr d = d.bump Fam.copyChanRefused c := by
  rw [copyStart_channel chan]
  refine if_neg fun ⟨idle, ring, aligned, open_⟩ => ?_
  rcases refused with h | h | h | h
  · exact h idle
  · exact ring h
  · exact h aligned
  · exact ne_true_of_eq_false open_ h

theorem copyAbortFn_channel : copyAbortFn f d = copyAbort c d := by simp only [copyAbortFn, chan]

theorem copyBase_accepted {base : Quad} (idle : (d.chan c).st = 1) (aligned : base.toNat % 4096 = 0) :
    copyBase f base d = d.setChan c { d.chan c with base := base, tail := 0, head := 0 } := by
  simp only [copyBase, chan, idle, aligned, and_self, if_true]

theorem copyBase_refused {base : Quad} (refused : (d.chan c).st ≠ 1 ∨ base.toNat % 4096 ≠ 0) : copyBase f base d = d := by
  simp only [copyBase, chan]
  exact if_neg fun ⟨idle, aligned⟩ => refused.elim (· idle) (· aligned)

variable {v : Nat}

theorem copyHead_accepted (ok : headOk ((d.chan c).depthM1 + 1) (d.chan c).head (d.chan c).tail v = true) :
    copyHead f v d =
      if (d.chan c).st = 3 then putRecord c (d.setChan c { d.chan c with head := v })
      else d.setChan c { d.chan c with head := v } := by
  simp only [copyHead, chan, ok, if_true]

theorem copyHead_refused (no : headOk ((d.chan c).depthM1 + 1) (d.chan c).head (d.chan c).tail v = false) :
    copyHead f v d = d.bump Fam.copyChanRefused c := by
  simp only [copyHead, chan, no, Bool.false_eq_true, if_false]

end

section
variable {d : Dev} {c : Nat}

theorem copyAbort_running (running : (d.chan c).st = 2) (works : (d.chan c).work ≠ .waitStage) :
    copyAbort c d = d.setChan c { d.chan c with st := 4 } :=
  (if_pos running).trans (if_neg works)

theorem copyAbort_waiting (running : (d.chan c).st = 2) (waits : (d.chan c).work = .waitStage) :
    copyAbort c d = endDesc c 6 0 false (d.setChan c { d.chan c with st := 4 }) :=
  (if_pos running).trans (if_pos waits)

theorem copyAbort_notRunning (idle : (d.chan c).st ≠ 2) : copyAbort c d = d := if_neg idle

end

/-! ### COPY_DESCRIPTOR_FETCHED (R395, R397 to R399) -/

section
variable {d : Dev} {c : Nat}

theorem inMode_setChan (x : Chan) (m : Mode) : (d.setChan c x).inMode m = d.inMode m := rfl

/-- The channel with the descriptor in hand. -/
def Chan.holding (x : Chan) (raw : BitVec 512) (a : Nat) : Chan := { x with desc := raw, addr := a, staged := false }

theorem descFetched_halted (raw : Option (BitVec 512)) (halted : chanRuns d c = false) : descFetched c raw d = d := by
  cases work : (d.chan c).work <;> simp only [descFetched, work, halted, Bool.not_false, if_true]

section
variable {a : Nat} (work : (d.chan c).work = .fetch a) (runs : chanRuns d c = true)
include work runs

theorem descFetched_failed :
    descFetched c none d = endChain c 3 0 false a 0 0 (d.setChan c { d.chan c with desc := 0, staged := false }) := by
  simp only [descFetched, work, runs, Bool.not_true, Bool.false_eq_true, if_false]

theorem descFetched_read (raw : BitVec 512) :
    descFetched c (some raw) d =
      if (d.chan c).st = 4 then endDesc c 6 0 false (d.setChan c ((d.chan c).holding raw a))
      else if d.inMode .eclipse = true then endDesc c 7 0 false (d.setChan c ((d.chan c).holding raw a))
      else if descInvalid raw = true then endDesc c 1 0 false (d.setChan c ((d.chan c).holding raw a))
      else beginDesc c (d.setChan c ((d.chan c).holding raw a)) := by
  simp only [descFetched, work, runs, Bool.not_true, Bool.false_eq_true, if_false, Chan.holding, inMode_setChan]

end

variable {x : Chan} (chan : d.chan c = x)
include chan

theorem beginDesc_direct (apart : descOverlaps x.desc = false) :
    beginDesc c d = askNext c (d.setChan c { x with work := .move 0 0 }) := by
  simp only [beginDesc, chan, apart, Bool.false_eq_true, if_false]

variable (overlaps : descOverlaps x.desc = true)
include overlaps

theorem beginDesc_tooLarge (large : 64 * 2 ^ 20 < dTotal x.desc) : beginDesc c d = endDesc c 4 0 false d := by
  simp only [beginDesc, chan, overlaps, if_true]
  exact if_pos large

variable (fits : dTotal x.desc ≤ 64 * 2 ^ 20)
include fits

theorem beginDesc_overlapping :
    beginDesc c d =
      match d.staging with
      | none => askNext c ({ d with staging := some c }.setChan c { x with staged := true, work := .move 0 0 })
      | some _ => d.setChan c { x with staged := true, work := .waitStage } := by
  simp only [beginDesc, chan, overlaps, if_true]
  exact if_neg (Nat.not_lt.mpr fits)

theorem beginDesc_staged (free : d.staging = none) :
    beginDesc c d = askNext c ({ d with staging := some c }.setChan c { x with staged := true, work := .move 0 0 }) := by
  rw [beginDesc_overlapping chan overlaps fits, free]

theorem beginDesc_waits (taken : d.staging.isSome = true) :
    beginDesc c d = d.setChan c { x with staged := true, work := .waitStage } := by
  obtain ⟨n, holder⟩ := Option.isSome_iff_exists.mp taken
  rw [beginDesc_overlapping chan overlaps fits, holder]

end

/-! ### COPY_BURST_COMPLETE (R391, R396, R399) -/

theorem burstCharge_pw {c n : Nat} {d e : Dev} (charge : burstCharge c n d = some e) : e.pw = d.pw := by
  unfold burstCharge at charge
  dsimp only at charge
  split at charge
  · cases charge; rfl
  · split at charge
    · cases charge; rfl
    · split at charge
      · cases charge; exact setTen_pw _ _ _
      · cases charge

section
variable {d : Dev} {c rd wr : Nat}

theorem burstComplete_halted (src : HostData) (ok : Bool) (halted : chanRuns d c = false) : burstComplete c src ok d = d := by
  cases work : (d.chan c).work <;> simp only [burstComplete, work, halted, Bool.not_false, if_true]

section
variable (work : (d.chan c).work = .move rd wr) (refused : burstCharge c (burstLen (d.chan c) rd wr) d = none)
include work refused

theorem burstComplete_refused (src : HostData) (ok : Bool) (goesOn : (d.chan c).st ≠ 4) : burstComplete c src ok d = d := by
  simp only [burstComplete, work, refused, goesOn, if_false, ite_self]

theorem burstComplete_aborted (src : HostData) (ok : Bool) (runs : chanRuns d c = true) (aborting : (d.chan c).st = 4) :
    burstComplete c src ok d = endDesc c 6 wr false d := by
  simp only [burstComplete, work, runs, refused, aborting, Bool.not_true, Bool.false_eq_true, if_false, if_true]

end

section
variable {e : Dev} (work : (d.chan c).work = .move rd wr) (runs : chanRuns d c = true)
  (charge : burstCharge c (burstLen (d.chan c) rd wr) d = some e)
include work runs charge

theorem burstComplete_failed (ok : Bool) (direct : (d.chan c).staged = false) : burstComplete c .fail ok d = endDesc c 5 wr false e := by
  simp only [burstComplete, work, runs, charge, direct, Bool.not_true, Bool.false_and, Bool.not_false, Bool.false_eq_true, if_false,
    if_true]

theorem burstComplete_bytes (b : List Byte) (ok : Bool) :
    burstComplete c (.bytes b) ok d =
      burstDone c rd wr (burstLen (d.chan c) rd wr) (fitBytes (burstLen (d.chan c) rd wr) b) ok e := by
  simp only [burstComplete, work, runs, charge, Bool.not_true, Bool.false_eq_true, if_false]

end

/-- A direct burst of `n` bytes is written at byte `w` of the descriptor (R396). -/
def burstWritten (c w n : Nat) (x : Chan) (b : List Byte) (d : Dev) : Dev :=
  ((sendData (chanFn d c) (dstAddr x.desc w) b d).addVal Fam.copyChanBytes c n).setChan c { x with work := .move (w + n) (w + n) }

variable {w n : Nat} {x : Chan} (b : List Byte) (chan : d.chan c = x) (direct : x.staged = false)
include chan direct

theorem burstDone_writeFailed : burstDone c rd w n b false d = endDesc c 5 w true d := by
  simp only [burstDone, chan, direct, Bool.false_and, Bool.false_eq_true, Bool.not_false, if_false, if_true]

theorem burstDone_direct :
    burstDone c rd w n b true d =
      if dTotal x.desc ≤ w + n then descDone c (burstWritten c w n x b d)
      else if x.st = 4 then endDesc c 6 (w + n) false (burstWritten c w n x b d)
      else if d.inMode .eclipse = true then endDesc c 7 (w + n) false (burstWritten c w n x b d)
      else askNext c (burstWritten c w n x b d) := by
  have mode : (burstWritten c w n x b d).inMode .eclipse = d.inMode .eclipse :=
    congrArg (fun p => p.mode == some .eclipse) (addVal_pw _ Fam.copyChanBytes c n)
  rw [← mode]
  simp only [burstDone, chan, direct, Bool.false_and, Bool.false_eq_true, Bool.not_true, if_false, burstWritten]

end

/-! ### COPY_STAGING_GRANTED (R398) -/

section
variable {d : Dev} {c : Nat}

theorem stagingGranted_free (waits : (d.chan c).work = .waitStage) (free : d.staging = none) (runs : d.inMode .eclipse = false) :
    stagingGranted c d = askNext c ({ d with staging := some c }.setChan c { d.chan c with work := .move 0 0 }) :=
  if_pos ⟨waits, free, runs⟩

theorem stagingGranted_taken (taken : d.staging.isSome = true) : stagingGranted c d = d := by
  refine if_neg fun ⟨_, free, _⟩ => ?_
  rw [free] at taken
  cases taken

end

/-! ### Bus Master Enable (R391) -/

section
variable {d : Dev} {c : Nat}

theorem resumeChain_held (held : (d.chan c).record.isSome = true) : resumeChain c d = putRecord c d := if_pos held

variable (noRecord : (d.chan c).record = none)
include noRecord

theorem resumeChain_noRecord :
    resumeChain c d =
      if (d.chan c).st = 4 then endRunning c 6 d
      else if (d.chan c).st = 2 ∧ d.inMode .eclipse = false then askNext c d
      else d :=
  if_neg (by simp [noRecord])

theorem resumeChain_aborted (aborting : (d.chan c).st = 4) : resumeChain c d = endRunning c 6 d := by
  rw [resumeChain_noRecord noRecord, if_pos aborting]

theorem resumeChain_running (running : (d.chan c).st = 2) (mode : d.inMode .eclipse = false) : resumeChain c d = askNext c d := by
  rw [resumeChain_noRecord noRecord, if_neg (by omega), if_pos ⟨running, mode⟩]

end

section
variable {d : Dev} {f : Fn}

theorem setBusMaster_sets {on : Bool} (h : chanOf d f = none ∨ on = false ∨ (d.fnS f).busMaster = true) :
    setBusMaster f on d = d.setFn f { d.fnS f with busMaster := on } := by
  have stays : chanOf (d.setFn f { d.fnS f with busMaster := on }) f = chanOf d f := rfl
  simp only [setBusMaster, stays]
  rcases h with noChannel | off | was
  · rw [noChannel]
  · subst off; cases chanOf d f <;> rfl
  · rw [was]; cases chanOf d f <;> simp

theorem setBusMaster_resumes {c : Nat} (chan : chanOf d f = some c) (was : (d.fnS f).busMaster = false) :
    setBusMaster f true d = resumeChain c (d.setFn f { d.fnS f with busMaster := true }) := by
  have stays : chanOf (d.setFn f { d.fnS f with busMaster := true }) f = some c := chan
  simp only [setBusMaster, stays, was, Bool.not_false, Bool.and_self, if_true]

theorem exec_busMaster {s : State} {on : Bool} (serves : portServes s.dev f.port = true) (there : s.dev.fnExists f = true)
    (e : setBusMaster f on s.dev = d) : exec (.registerWrite (.busMaster f on)) s = .next { s with dev := d } :=
  runs_of_onDev rfl ((configAccess_reaches _ serves there).trans e)

end

/-- Settles O34: each command by its equation in the clause's case. -/
theorem copyChainsRunAndEnd : Obligations.CopyChainsRunAndEnd := by
  refine ⟨?registers, ?noChannel, ?fetched, ?burst, ?uncharged, ?staging, ?unchargedAborted, ?halted, ?busMaster⟩
  case registers =>
    rintro s r f addr c x a rfl bound chan rfl
    have aborts := copyAbortFn_channel chan
    refine ⟨?start, fun refused => runs_of_boundAccess rfl a bound (copyStart_refused chan refused),
      fun running works => runs_of_boundAccess (exec_copyAbort s r) a bound (aborts.trans (copyAbort_running running works)),
      fun running waits => runs_of_boundAccess (exec_copyAbort s r) a bound (aborts.trans (copyAbort_waiting running waits)),
      fun idle => runs_of_boundAccess (exec_copyAbort s r) a bound (aborts.trans (copyAbort_notRunning idle)),
      fun idle aligned => runs_of_boundAccess rfl a bound (copyBase_accepted chan idle aligned),
      fun refused => runs_of_boundAccess rfl a bound (copyBase_refused chan refused), fun v ok => ⟨?head, ?headHeld⟩,
      fun v no => runs_of_boundAccess rfl a bound (copyHead_refused chan no)⟩
    case start =>
      rintro idle ring aligned open_ g rfl
      exact runs_of_boundAccess rfl a bound (copyStart_accepted chan idle ring aligned open_)
    case head =>
      intro noRecord
      exact runs_of_boundAccess rfl a bound ((copyHead_accepted chan ok).trans (if_neg noRecord))
    case headHeld =>
      intro held
      exact runs_of_boundAccess rfl a bound ((copyHead_accepted chan ok).trans (if_pos held))
  case noChannel =>
    intro s r addr v a idle
    have stays {k : Dev → Dev} (h : chanOf s.dev r.toFn = none → k s.dev = s.dev) :
        unbound s.dev r.toFn = true ∨ k s.dev = s.dev := idle.symm.imp_right h
    exact ⟨runs_of_boundAccess_idle rfl a (stays (copyStart_noChannel · addr)),
      runs_of_boundAccess_idle (exec_copyAbort s r) a (stays copyAbortFn_noChannel),
      runs_of_boundAccess_idle rfl a (stays (copyBase_noChannel · addr)),
      runs_of_boundAccess_idle rfl a (stays (copyHead_noChannel · v.toNat))⟩
  case fetched =>
    rintro s c a x rfl work runs
    refine ⟨runs_of_onDev rfl (descFetched_failed work runs), ?_⟩
    rintro raw e rfl
    have read := descFetched_read work runs raw
    refine ⟨fun aborting => runs_of_onDev rfl (read.trans (if_pos aborting)), fun goesOn eclipse => ?eclipse,
      fun goesOn mode invalid => ?invalid, fun goesOn mode valid => ?begins⟩
    case eclipse => exact runs_of_onDev rfl ((read.trans (if_neg goesOn)).trans (if_pos eclipse))
    case invalid =>
      rw [if_neg goesOn, if_neg (ne_true_of_eq_false mode), if_pos invalid] at read
      exact runs_of_onDev rfl read
    case begins =>
      rw [if_neg goesOn, if_neg (ne_true_of_eq_false mode), if_neg (ne_true_of_eq_false valid)] at read
      have held := chan_setChan s.dev c ((s.dev.chan c).holding raw a)
      refine ⟨fun apart => ?direct, fun overlaps large => runs_of_onDev rfl (read.trans (beginDesc_tooLarge held overlaps large)),
        fun overlaps fits free => ?staged, fun overlaps fits taken => ?waits⟩
      case direct =>
        rw [beginDesc_direct held apart, setChan_setChan] at read
        exact runs_of_onDev rfl read
      case staged =>
        have once := setChan_setChan { s.dev with staging := some c } c ((s.dev.chan c).holding raw a)
        exact runs_of_onDev rfl (read.trans ((beginDesc_staged held overlaps fits free).trans (congrArg (askNext c) (once _))))
      case waits =>
        rw [beginDesc_waits held overlaps fits taken, setChan_setChan] at read
        exact runs_of_onDev rfl read
  case burst =>
    rintro s c x w n e rfl work direct runs rfl charge same
    have bytes (b : List Byte) (ok : Bool) := burstComplete_bytes work runs charge b ok
    refine ⟨runs_of_onDev rfl (burstComplete_failed work runs charge true direct),
      fun b => runs_of_onDev rfl ((bytes b false).trans (burstDone_writeFailed _ same direct)), ?_⟩
    rintro b g rfl
    have written := (bytes b true).trans (burstDone_direct _ same direct)
    refine ⟨fun last => runs_of_onDev rfl (written.trans (if_pos last)), fun more aborting => ?aborted,
      fun more running mode => ?goesOn⟩
    case aborted => exact runs_of_onDev rfl (written.trans ((if_neg (Nat.not_le.mpr more)).trans (if_pos aborting)))
    case goesOn =>
      have stays : e.inMode .eclipse = false := (congrArg (fun p => p.mode == some .eclipse) (burstCharge_pw charge)).trans mode
      rw [if_neg (Nat.not_le.mpr more), if_neg (by omega), if_neg (ne_true_of_eq_false stays)] at written
      exact runs_of_onDev rfl written
  case uncharged =>
    exact fun s c src ok rd wr work refused goesOn => runs_of_onDev rfl (burstComplete_refused work refused src ok goesOn)
  case staging =>
    rintro s c x rfl waits
    exact ⟨fun free mode => runs_of_onDev rfl (stagingGranted_free waits free mode),
      fun taken => runs_of_onDev rfl (stagingGranted_taken taken)⟩
  case unchargedAborted =>
    exact fun s c src ok rd wr work runs refused aborting =>
      runs_of_onDev rfl (burstComplete_aborted work refused src ok runs aborting)
  case halted =>
    exact fun s c src ok raw halted =>
      ⟨runs_of_onDev rfl (burstComplete_halted src ok halted), runs_of_onDev rfl (descFetched_halted raw halted)⟩
  case busMaster =>
    intro s f serves there
    refine ⟨fun on plain => exec_busMaster serves there (setBusMaster_sets plain), ?_⟩
    rintro c g chan was rfl
    have resumes := setBusMaster_resumes chan was
    exact ⟨fun held => exec_busMaster serves there (resumes.trans (resumeChain_held held)),
      fun noRecord aborting => exec_busMaster serves there (resumes.trans (resumeChain_aborted noRecord aborting)),
      fun noRecord running mode => exec_busMaster serves there (resumes.trans (resumeChain_running noRecord running mode))⟩

end Sys2Proof.Machine
end

section
/-!
SUPPORT. Mailboxes (R402 to R406): what an error of a function leaves of them, their stamps, what each of their commands is in each
case, and O36.
-/

namespace Sys2Proof.Machine

/-! ### What changes no mailbox -/

/-- The words and doorbell bits of a mailbox, both directions (Table 14.5). -/
structure Mailbox where
  tx : List (Quad × BitVec 18)
  txDoorbell : Word
  rx : List (Quad × BitVec 18)
  rxDoorbell : Word

def FnState.mailbox (x : FnState) : Mailbox := ⟨x.tx, x.txDoorbell, x.rx, x.rxDoorbell⟩

/-- The mailboxes of all functions. -/
def Dev.mailboxes (d : Dev) (f : Fn) : Mailbox := (d.fnS f).mailbox

theorem mailboxes_of_fns {d e : Dev} (h : e.fns = d.fns) : e.mailboxes = d.mailboxes :=
  funext fun f => congrArg (fun t => (tget t (packFn f) FnState.absent).mailbox) h

theorem mailboxes_setFn {d : Dev} {f : Fn} {x : FnState} (h : x.mailbox = (d.fnS f).mailbox) : (d.setFn f x).mailboxes = d.mailboxes := by
  funext g
  by_cases same : packFn g = packFn f
  · have read (e : Dev) : e.fnS g = e.fnS f := congrArg (fun k => tget e.fns k FnState.absent) same
    calc (d.setFn f x).mailboxes g = x.mailbox := congrArg FnState.mailbox ((read _).trans (fnS_setFn d f x))
      _ = d.mailboxes g := h.trans (congrArg FnState.mailbox (read d).symm)
  · exact congrArg FnState.mailbox (fnS_setFn_other d x same)

/-! #### Messages and the summary page -/

theorem notice_fns (k : Nat) (v : Option Nat) (b : List Byte) (d : Dev) : (notice k v b d).fns = d.fns :=
  foldl_keeps Dev.fns _ (fun _ _ => by exact (apply_ite Dev.fns _ _ _).trans (ite_self _)) _ _

section
variable (f : Fn) (n : Nat) (d : Dev)

theorem raiseVector_mailboxes : (raiseVector f n d).mailboxes = d.mailboxes := by
  unfold raiseVector
  split
  · rfl
  · exact mailboxes_setFn rfl

theorem latchEvent_mailboxes : (latchEvent f n d).mailboxes = d.mailboxes := by
  unfold latchEvent
  dsimp only
  split
  · exact (raiseVector_mailboxes f _ _).trans (mailboxes_setFn rfl)
  · exact mailboxes_setFn rfl

theorem setSummary_mailboxes (on : Bool) : (setSummary n on d f).mailboxes = d.mailboxes := by
  unfold setSummary
  dsimp only
  split
  · exact (latchEvent_mailboxes f n _).trans (mailboxes_setFn rfl)
  · exact mailboxes_setFn rfl

theorem refreshSummary_mailboxes : (refreshSummary d f).mailboxes = d.mailboxes := by
  simp only [refreshSummary, setSummary_mailboxes]

theorem flushPba_mailboxes : (flushPba f d).mailboxes = d.mailboxes := by
  refine foldl_keeps Dev.mailboxes _ (fun e v => ?_) _ d
  dsimp only
  split
  · exact mailboxes_setFn rfl
  · rfl

theorem latchModeBits_mailboxes (old : Nat) : (latchModeBits old n d f).mailboxes = d.mailboxes := by
  refine foldl_keeps Dev.mailboxes _ (fun e i => ?_) _ d
  split
  · exact latchEvent_mailboxes f _ e
  · rfl

theorem stopSq_mailboxes : (stopSq f n d).mailboxes = d.mailboxes := by
  unfold stopSq
  dsimp only
  split
  · exact (setSummary_mailboxes f 2 _ true).trans (mailboxes_setFn rfl)
  · rfl

end

theorem isolatePort_mailboxes (p : Nat) (d : Dev) : (isolatePort p d).mailboxes = d.mailboxes :=
  foldl_keeps Dev.mailboxes _ (fun e f => foldl_keeps Dev.mailboxes _ (fun e q => stopSq_mailboxes f q e) _ e) _ d

/-! #### Entry to ECLIPSE -/

theorem changeMode_mailboxes (m : Mode) (t n v : Nat) (d : Dev) : (changeMode m t n v d).mailboxes = d.mailboxes := by
  have modeBits (o k : Nat) (l : List Fn) (e : Dev) : (l.foldl (latchModeBits o k) e).mailboxes = e.mailboxes :=
    foldl_keeps Dev.mailboxes _ (fun e f => latchModeBits_mailboxes f k e o) l e
  have summaries (on : Bool) (l : List Fn) (e : Dev) : (l.foldl (setSummary 0 on) e).mailboxes = e.mailboxes :=
    foldl_keeps Dev.mailboxes _ (fun e f => setSummary_mailboxes f 0 e on) l e
  have flushes (l : List Fn) (e : Dev) : (l.foldl (fun s f => flushPba f s) e).mailboxes = e.mailboxes :=
    foldl_keeps Dev.mailboxes _ (fun e f => flushPba_mailboxes f e) l e
  have pin (o : Out) (e : Dev) : (emit o e).mailboxes = e.mailboxes := rfl
  unfold changeMode
  split
  · rfl
  · split
    · rfl
    · simp only [apply_ite Dev.mailboxes, modeBits, summaries, flushes, pin, ite_self]
      exact mailboxes_of_fns ((notice_fns _ _ _ _).trans (bump_fns _ _ _))

theorem lensCmd_fns (n op : Nat) (v : BitVec 44) (d : Dev) : (lensCmd n op v d).fns = d.fns := by rw [lensCmd_keeps]

theorem lensShutter_fns (n : Nat) (d : Dev) : (lensShutter n d).fns = d.fns := by
  unfold lensShutter
  dsimp only
  split
  · exact (lensCmd_fns _ _ _ _).trans (setLens_fns _ _ _)
  · rfl

theorem lensPark_fns (n : Nat) (d : Dev) : (lensPark n d).fns = d.fns :=
  (setLens_fns _ _ _).trans (lensCmd_fns n 0x0B 0 d)

theorem abandonActivation_fns (d : Dev) : (abandonActivation d).fns = d.fns := by
  unfold abandonActivation
  split <;> rfl

theorem abandonPairing_fns (d : Dev) : (abandonPairing d).fns = d.fns := by
  unfold abandonPairing
  dsimp only
  split <;> rfl

theorem abandonWork_fns (d : Dev) : (abandonWork d).fns = d.fns :=
  (abandonActivation_fns _).trans (abandonPairing_fns _)

/-- The device once it is in ECLIPSE, before its heads park (R30, R35). -/
def eclipseEntered (n : Nat) (d : Dev) : Dev :=
  (changeMode .eclipse 1 n 4 ((abandonWork d).lensUp.foldl (fun e m => lensShutter m e) (abandonWork d))).setVal
    Fam.deviceEclipseSource 0 n

theorem eclipseEntered_mailboxes (n : Nat) (d : Dev) : (eclipseEntered n d).mailboxes = d.mailboxes := by
  have shutters (l : List Nat) (e : Dev) : (l.foldl (fun e m => lensShutter m e) e).fns = e.fns :=
    foldl_keeps Dev.fns _ (fun e m => lensShutter_fns m e) l e
  exact (changeMode_mailboxes _ _ _ _ _).trans (mailboxes_of_fns ((shutters _ _).trans (abandonWork_fns d)))

theorem enterEclipse_mailboxes (n : Nat) (d : Dev) : (enterEclipse n d).mailboxes = d.mailboxes := by
  have parks (l : List Nat) (e : Dev) : (l.foldl (fun e m => lensPark m e) e).mailboxes = e.mailboxes :=
    foldl_keeps Dev.mailboxes _ (fun e m => mailboxes_of_fns (lensPark_fns m e)) l e
  have entered := eclipseEntered_mailboxes n d
  unfold enterEclipse
  dsimp only
  split
  · split
    · exact (mailboxes_of_fns rfl).trans entered
    · exact (parks _ _).trans entered
  · rfl

/-! #### The hub -/

theorem recordFault_fns (n sev : Nat) (first : Bool) (d : Dev) : (recordFault n sev first d).fns = d.fns := by
  unfold recordFault
  dsimp only
  split
  · exact bump_fns _ _ _
  · rfl

theorem setFirst_fns (n : Nat) (d : Dev) : (setFirst n d).fns = d.fns := by
  unfold setFirst
  dsimp only
  split <;> rfl

theorem hubActions_mailboxes (n sev : Nat) (own : Bool) (d : Dev) : (hubActions n sev own d).mailboxes = d.mailboxes := by
  have shown (l : List Fn) (e : Dev) : (l.foldl refreshSummary e).mailboxes = e.mailboxes :=
    foldl_keeps Dev.mailboxes _ (fun e f => refreshSummary_mailboxes f e) l e
  have noticed (k : Nat) (v : Option Nat) (b : List Byte) (e : Dev) := mailboxes_of_fns (notice_fns k v b e)
  have first (e : Dev) := mailboxes_of_fns (setFirst_fns n e)
  have recorded (b : Bool) (e : Dev) := mailboxes_of_fns (recordFault_fns n sev b e)
  have shut (c : Nat) (e : Dev) := mailboxes_of_fns (lensShutter_fns c e)
  cases scope : srcScope n <;>
    simp only [hubActions, scope, apply_ite Dev.mailboxes, refreshSummary_mailboxes, isolatePort_mailboxes, enterEclipse_mailboxes,
      shown, noticed, first, recorded, shut, ite_self]

theorem hubReal_mailboxes (n detail : Nat) (own : Bool) (d : Dev) : (hubReal n detail own d).mailboxes = d.mailboxes := by
  unfold hubReal
  split
  · exact hubActions_mailboxes _ _ _ _
  · rfl

theorem aerReport_mailboxes (f : Fn) (b : Nat) (adv : Bool) (h : Option (BitVec 128)) (d : Dev) :
    (aerReport f b adv h d).mailboxes = d.mailboxes := by
  cases m : (d.fnS f).aerMask.getLsbD b with
  | true => rw [aerReport_masked adv h m]; exact mailboxes_setFn rfl
  | false =>
    obtain ⟨k, c, report, -⟩ := aerReport_unmasked adv h m
    rw [report]
    exact mailboxes_setFn rfl

theorem aerError_mailboxes (f : Fn) (b : Nat) (adv : Bool) (h : Option (BitVec 128)) (d : Dev) :
    (aerError f b adv h d).mailboxes = d.mailboxes :=
  (hubReal_mailboxes _ _ _ _).trans (aerReport_mailboxes f b adv h d)

/-! ### Stamps (Table 14.6) -/

theorem stampOf_toNat {d : Dev} {f : Fn} {p : Nat} (privilege : p < 4) (epoch : (d.fnS f).flrEpoch < 32) (fn : f.fn < 128)
    (port : f.port < 16) : (stampOf d f p).toNat = (d.fnS f).flrEpoch * 8192 + p * 2048 + f.fn * 16 + f.port := by
  rw [stampOf, BitVec.toNat_ofNat]
  omega

/-! ### The function's side (R404, R405) -/

section
variable {f : Fn} {d : Dev}

theorem postTx_room (w : Quad) (room : (d.fnS f).tx.length < 8) :
    postTx f w d = d.setFn f { d.fnS f with tx := (d.fnS f).tx ++ [(w, stampOf d f (b2n (d.isAdmin f)))] } :=
  if_pos room

theorem postTx_full (w : Quad) (full : 8 ≤ (d.fnS f).tx.length) :
    postTx f w d = aerError f 15 false (some (tlpHeader d)) (d.bump Fam.mboxPortRejected f.port).draw :=
  if_neg (Nat.not_lt.mpr full)

/-- R404: nothing else changes. -/
theorem postTx_full_mailboxes (w : Quad) (full : 8 ≤ (d.fnS f).tx.length) : (postTx f w d).mailboxes = d.mailboxes := by
  rw [postTx_full w full, aerError_mailboxes]
  exact mailboxes_of_fns (bump_fns d _ _)

theorem payOwed_nothing (paid : (d.fnS f).owed = []) : payOwed f d = d := by simp only [payOwed, paid]

/-- What a write of rx_pop does (Table 14.5). -/
def popRx (f : Fn) (v : Word) (d : Dev) : Dev :=
  if v.getLsbD 0 then payOwed f (d.setFn f { d.fnS f with rx := (d.fnS f).rx.drop 1 }) else d

theorem exec_rxPop (s : State) (r : Req) (v : Word) : exec (.rxPop r v) s = onDev s (boundAccess r (popRx r.toFn v)) := rfl

theorem popRx_one {v : Word} (one : v.getLsbD 0 = true) (paid : (d.fnS f).owed = []) :
    popRx f v d = d.setFn f { d.fnS f with rx := (d.fnS f).rx.drop 1 } :=
  (if_pos one).trans (payOwed_nothing ((congrArg FnState.owed (fnS_setFn d f _)).trans paid))

theorem popRx_zero {v : Word} (zero : v.getLsbD 0 = false) : popRx f v d = d := if_neg (ne_true_of_eq_false zero)

/-! ### The firmware's side (R406) -/

section
variable (runs : firmwareRuns d = true)
include runs

theorem takeWord_marker (marker : (d.fnS f).purges ≠ []) :
    takeWord f d = d.setFn f { d.fnS f with purges := (d.fnS f).purges.drop 1 } := by
  simp only [takeWord, runs, List.isEmpty_iff, marker, if_true, if_false]

theorem takeWord_oldest (noMarker : (d.fnS f).purges = []) :
    takeWord f d = d.setFn f { d.fnS f with tx := (d.fnS f).tx.drop 1, req := (d.fnS f).req ++ (d.fnS f).tx.take 1 } := by
  simp only [takeWord, runs, List.isEmpty_iff, noMarker, if_true]

theorem postRx_room (w : Quad) (room : (d.fnS f).rx.length < 8) :
    postRx f w d = d.setFn f { d.fnS f with rx := (d.fnS f).rx ++ [(w, stampOf d f 3)] } :=
  if_pos (by simp only [runs, room, decide_true, Bool.and_self])

end

theorem postRx_full (w : Quad) (full : 8 ≤ (d.fnS f).rx.length) : postRx f w d = d :=
  if_neg (by simp [full])

/-- What FIRMWARE_POST_WORD does. -/
def postWord (f : Fn) (w : Quad) (d : Dev) : Dev := if (d.fnS f).owed.isEmpty then postRx f w d else payOwed f d

theorem exec_firmwarePostWord (s : State) (f : Fn) (w : Quad) : exec (.firmwarePostWord f w) s = onDev s (postWord f w) := rfl

theorem postWord_nothingOwed (w : Quad) (paid : (d.fnS f).owed = []) : postWord f w d = postRx f w d :=
  if_pos (List.isEmpty_iff.mpr paid)

/-- What FIRMWARE_RAISE_DOORBELL does. -/
def raiseRx (f : Fn) (b : Word) (d : Dev) : Dev :=
  if firmwareRuns d then refreshMailbox f (d.setFn f { d.fnS f with rxDoorbell := (d.fnS f).rxDoorbell ||| b }) else d

theorem exec_firmwareRaiseDoorbell (s : State) (f : Fn) (b : Word) : exec (.firmwareRaiseDoorbell f b) s = onDev s (raiseRx f b) := rfl

/-- What FIRMWARE_TAKE_DOORBELL does. -/
def takeTx (f : Fn) (b : Word) (d : Dev) : Dev :=
  if firmwareRuns d then d.setFn f { d.fnS f with txDoorbell := (d.fnS f).txDoorbell &&& ~~~b } else d

theorem exec_firmwareTakeDoorbell (s : State) (f : Fn) (b : Word) : exec (.firmwareTakeDoorbell f b) s = onDev s (takeTx f b) := rfl

/-! A firmware that does not run takes and posts nothing (Table 14.7). -/

section
variable (halted : firmwareRuns d = false)
include halted

theorem takeWord_halted : takeWord f d = d := if_neg (ne_true_of_eq_false halted)

theorem postRx_halted (w : Quad) : postRx f w d = d := if_neg (by simp [halted])

theorem payOwed_halted : payOwed f d = d := by
  cases owed : (d.fnS f).owed with
  | nil => exact payOwed_nothing owed
  | cons w rest => simp only [payOwed, owed, halted, Bool.false_and, Bool.false_eq_true, if_false]

theorem postWord_halted (w : Quad) : postWord f w d = d := by
  rw [postWord, postRx_halted halted, payOwed_halted halted, ite_self]

end

end

/-- Settles O36: each command by its equation in the clause's case, and what a rejected word leaves by `aerError_mailboxes`. -/
theorem mailboxWordsAndDoorbells : Obligations.MailboxWordsAndDoorbells := by
  refine ⟨?txWord, ?doorbells, ?unbound, ?rxPop, ?takeWord, ?postWord, ?firmwareDoorbells, ?halted, ?stamp⟩
  case txWord =>
    rintro s r f w a rfl bound
    refine ⟨fun room => runs_of_boundAccess rfl a bound (postTx_room w room),
      fun full => runs_of_boundAccess rfl a bound (postTx_full w full),
      fun full => ⟨_, runs_of_boundAccess rfl a bound rfl, ?_⟩⟩
    have kept : ((postTx r.toFn w s.dev).fnS r.toFn).mailbox = (s.dev.fnS r.toFn).mailbox :=
      congrFun (postTx_full_mailboxes w full) r.toFn
    exact ⟨congrArg Mailbox.tx kept, congrArg Mailbox.rx kept, congrArg Mailbox.txDoorbell kept⟩
  case doorbells =>
    rintro s r f b a rfl bound
    exact ⟨runs_of_boundAccess rfl a bound rfl, runs_of_boundAccess rfl a bound rfl⟩
  case unbound =>
    intro s r w b a u
    exact ⟨runs_of_boundAccess_idle rfl a (.inl u), runs_of_boundAccess_idle rfl a (.inl u),
      runs_of_boundAccess_idle rfl a (.inl u), runs_of_boundAccess_idle rfl a (.inl u)⟩
  case rxPop =>
    rintro s r f v a rfl bound paid
    exact ⟨fun one => runs_of_boundAccess (exec_rxPop s r v) a bound (popRx_one one paid),
      fun zero => runs_of_boundAccess (exec_rxPop s r v) a bound (popRx_zero zero)⟩
  case takeWord =>
    intro s f runs
    exact ⟨fun noMarker => runs_of_onDev rfl (takeWord_oldest runs noMarker),
      fun marker => runs_of_onDev rfl (takeWord_marker runs marker)⟩
  case postWord =>
    intro s f w runs paid
    have posts := postWord_nothingOwed w paid
    exact ⟨fun room => runs_of_onDev (exec_firmwarePostWord s f w) (posts.trans (postRx_room runs w room)),
      fun full => runs_of_onDev (exec_firmwarePostWord s f w) (posts.trans (postRx_full w full))⟩
  case firmwareDoorbells =>
    intro s f b runs
    exact ⟨runs_of_onDev (exec_firmwareRaiseDoorbell s f b) (if_pos runs),
      runs_of_onDev (exec_firmwareTakeDoorbell s f b) (if_pos runs)⟩
  case halted =>
    intro s f b w halted
    have idle := ne_true_of_eq_false halted
    exact ⟨runs_of_onDev rfl (takeWord_halted halted), runs_of_onDev (exec_firmwareRaiseDoorbell s f b) (if_neg idle),
      runs_of_onDev (exec_firmwareTakeDoorbell s f b) (if_neg idle),
      runs_of_onDev (exec_firmwarePostWord s f w) (postWord_halted halted w)⟩
  case stamp =>
    intro d f p privilege epoch fn port
    rw [stampOf_toNat privilege epoch fn port]
    omega

end Sys2Proof.Machine
end

section
/-!
SUPPORT. The queue over any number of steps (O45, O47), and the device at reset (O48).
-/

namespace Sys2Proof.Machine

/-! ### Steps and the queue -/

/-- Settles O45: every row acts on the device alone (`exec_eq_onDev`). -/
theorem everyCommandAnswersANextState : Obligations.EveryCommandAnswersANextState := by
  intro c s
  exact ⟨devAfter c s.dev, runs_of_onDev (exec_eq_onDev c s) rfl⟩

/-- What a step makes of the device: the command at the front of the queue, or a microsecond of idling. -/
def devStepped (s : State) : Dev :=
  match s.pending with
  | [] => tick s.dev
  | c :: _ => devAfter c s.dev

/-- A step takes at most the front of the queue, and always answers. -/
theorem step_eq (s : State) : step s = .next { pending := s.pending.tail, dev := devStepped s } := by
  obtain ⟨q, d⟩ := s
  cases q with
  | nil => exact step_nil rfl
  | cons c r => rw [step_cons rfl, exec_eq_onDev]; rfl

theorem State.queueWf.tail {s : State} (wf : s.queueWf) (d : Dev) : State.queueWf { pending := s.pending.tail, dev := d } :=
  fun c mem => wf c (List.mem_of_mem_tail mem)

theorem runSteps_succ (n : Nat) (s : State) :
    runSteps (n + 1) s = runSteps n { pending := s.pending.tail, dev := devStepped s } := by
  rw [runSteps, step_eq]

/-- Settles O47: a step takes at most the front command (`step_eq`), so the tail that is left is well-formed as the queue was. -/
theorem queueStaysWellFormed : Obligations.QueueStaysWellFormed := by
  intro n
  induction n with
  | zero => intro s wf; exact ⟨s, rfl, wf, rfl⟩
  | succ n ih =>
    intro s wf
    obtain ⟨t, runs, twf, left⟩ := ih _ (wf.tail (devStepped s))
    refine ⟨t, by rw [runSteps_succ, runs], twf, ?_⟩
    rw [left, ← List.drop_one, List.drop_drop, Nat.add_comm]

/-! ### Reset -/

/-- A front-end that nothing has touched is legal. -/
theorem FrontEnd.legal_idle : FrontEnd.idle.Legal := by
  constructor <;> simp [FrontEnd.idle]

/-- Settles O48. -/
theorem resetLeavesPorAsserted : Obligations.ResetLeavesPorAsserted := by
  refine ⟨rfl, fun c mem => absurd mem List.not_mem_nil, rfl, rfl, rfl, rfl, rfl, rfl, rfl, rfl, rfl, rfl, rfl, ?frontEnds, ?values⟩
  case frontEnds => intro n; exact ⟨FrontEnd.legal_idle, rfl, rfl⟩
  case values => intro f i; rfl

end Sys2Proof.Machine
end

section
/-!
SUPPORT. Signalling (R54, R55, R414, R447): what the summary pages, messages, notices, stopped queues and the commands of the Lens
channels leave alone; what a mode change, an entry to ECLIPSE and the actions of the hub leave of the fault registers; and O6.
-/

namespace Sys2Proof.Machine

/-! ### Signals -/

/-- The device `d` with what signals change taken from `e`. -/
def Dev.withSignals (d e : Dev) : Dev := { d with fns := e.fns, cm := e.cm, ls := e.ls, sb := e.sb, out := e.out }

/-- From `d` to `e` the device has signalled at most: summary pages, messages, notices, stopped queues, commands of the Lens channels. -/
structure Signals (d e : Dev) : Prop where
  frame : e = d.withSignals e

namespace Signals

variable {d m e : Dev}

theorem refl (d : Dev) : Signals d d := ⟨rfl⟩

theorem trans (f : Signals d m) (g : Signals m e) : Signals d e := ⟨g.frame.trans (congrArg (·.withSignals e) f.frame)⟩

theorem foldl {β : Type} {g : Dev → β → Dev} (h : ∀ d b, Signals d (g d b)) (l : List β) (d : Dev) : Signals d (l.foldl g d) :=
  foldl_invariant (Signals d) g (fun m b k => k.trans (h m b)) l (refl d)

theorem ite {c : Prop} [Decidable c] {a b : Dev} (ha : Signals d a) (hb : Signals d b) : Signals d (if c then a else b) := by
  split
  · exact ha
  · exact hb

theorem setFn (d : Dev) (f : Fn) (x : FnState) : Signals d (d.setFn f x) := ⟨rfl⟩
theorem emit (d : Dev) (o : Out) : Signals d (emit o d) := ⟨rfl⟩
theorem setLens (d : Dev) (n : Nat) (x : Lens) : Signals d (d.setLens n x) := ⟨rfl⟩

section
variable (h : Signals d e)
include h

theorem pw_eq : e.pw = d.pw := by rw [h.frame]; rfl
theorem fh_eq : e.fh = d.fh := by rw [h.frame]; rfl
theorem vals_eq : e.vals = d.vals := by rw [h.frame]; rfl

theorem src_eq (n : Nat) : e.src n = d.src n := by rw [Dev.src, h.fh_eq]; rfl
theorem val_eq (f i : Nat) : e.val f i = d.val f i := by rw [Dev.val, h.vals_eq]; rfl

end

end Signals

section
variable (f : Fn) (n : Nat) (d : Dev)

theorem raiseVector_signals : Signals d (raiseVector f n d) := by
  unfold raiseVector
  exact .ite ⟨rfl⟩ (.setFn d f _)

theorem latchEvent_signals : Signals d (latchEvent f n d) := by
  unfold latchEvent
  exact .ite ((Signals.setFn d f _).trans (raiseVector_signals f _ _)) (.setFn d f _)

theorem setSummary_signals (on : Bool) : Signals d (setSummary n on d f) := by
  unfold setSummary
  exact .ite ((Signals.setFn d f _).trans (latchEvent_signals f n _)) (.setFn d f _)

theorem refreshSummary_signals : Signals d (refreshSummary d f) :=
  ((setSummary_signals f 4 d _).trans (setSummary_signals f 3 _ _)).trans
    ((setSummary_signals f 2 _ _).trans (setSummary_signals f 1 _ _))

theorem flushPba_signals : Signals d (flushPba f d) :=
  .foldl (fun e _ => .ite ((Signals.setFn e f _).trans (.emit _ _)) (.refl e)) _ d

theorem latchModeBits_signals (old : Nat) : Signals d (latchModeBits old n d f) :=
  .foldl (fun e _ => .ite (latchEvent_signals f _ e) (.refl e)) _ d

theorem stopSq_signals : Signals d (stopSq f n d) := by
  unfold stopSq
  exact .ite (Signals.trans ⟨rfl⟩ (setSummary_signals f 2 _ true)) (.refl d)

theorem notice_signals (v : Option Nat) (b : List Byte) : Signals d (notice n v b d) :=
  .foldl (fun e _ => .ite ⟨rfl⟩ (.refl e)) _ d

theorem lensCmd_signals (op : Nat) (v : BitVec 44) : Signals d (lensCmd n op v d) := ⟨by rw [lensCmd_keeps]; rfl⟩

theorem lensShutter_signals : Signals d (lensShutter n d) := by
  unfold lensShutter
  exact .ite ((Signals.setLens d n _).trans (lensCmd_signals n _ _ _)) (.refl d)

theorem lensPark_signals : Signals d (lensPark n d) := (lensCmd_signals n d 0x0B 0).trans (.setLens _ n _)

theorem isolatePort_signals : Signals d (isolatePort n d) :=
  .foldl (fun e f => .foldl (fun e q => stopSq_signals f q e) _ e) _ d

end

/-! ### Mode changes -/

/-- A mode change as it is counted and recorded, before it is signalled. -/
def modeNoted (o m : Mode) (trigger source severity : Nat) (d : Dev) : Dev :=
  let e := (d.setMode0 (some m)).bump Fam.deviceModeChanges
  bbox 0x02 0 source severity ([o.code, m.code, trigger].map (BitVec.ofNat 8))
    { e with mt := { e.mt with takeover := e.mt.takeover || m == .lead, eclipsed := e.mt.eclipsed || o == .eclipse } }

/-- Subscribers are told of it, and ECLIPSE_N shows it. -/
def modeTold (o m : Mode) (d : Dev) : Dev :=
  let e := notice 1 none (noticePayload 0xFFFF 0 1 d.tm.device m.code 0) d
  if m = .eclipse ∨ o = .eclipse then emit (.pin "ECLIPSE_N" (m != .eclipse)) e else e

/-- Every summary page shows whether the device is in ECLIPSE. -/
def eclipseShown (b : Bool) (d : Dev) : Dev := d.allFns.foldl (setSummary 0 b) d

/-- The summary pages show it, and pending messages leave after ECLIPSE. -/
def modeShown (o m : Mode) (d : Dev) : Dev :=
  let bits := d.allFns.foldl (latchModeBits o.code m.code) d
  let entered := if m = .eclipse then eclipseShown true bits else bits
  let left := eclipseShown false entered
  if o = .eclipse then left.allFns.foldl (fun e f => flushPba f e) left else entered

theorem modeTold_signals (o m : Mode) (d : Dev) : Signals d (modeTold o m d) := by
  have told := notice_signals 1 d none (noticePayload 0xFFFF 0 1 d.tm.device m.code 0)
  exact .ite (told.trans (.emit _ _)) told

theorem eclipseShown_signals (b : Bool) (d : Dev) : Signals d (eclipseShown b d) :=
  .foldl (fun e f => setSummary_signals f 0 e b) _ d

theorem modeShown_signals (o m : Mode) (d : Dev) : Signals d (modeShown o m d) := by
  have bits : Signals d (d.allFns.foldl (latchModeBits o.code m.code) d) :=
    .foldl (fun e f => latchModeBits_signals f m.code e o.code) _ d
  have entered := Signals.ite (c := m = .eclipse) (bits.trans (eclipseShown_signals true _)) bits
  exact .ite ((entered.trans (eclipseShown_signals false _)).trans (.foldl (fun e f => flushPba_signals f e) _ _)) entered

section
variable {d : Dev} {o m : Mode} (mode : d.pw.mode = some o)
include mode

theorem changeMode_other (other : o ≠ m) (trigger source severity : Nat) :
    changeMode m trigger source severity d =
      (let e := modeTold o m (modeNoted o m trigger source severity d)
       if m = .dark then e else modeShown o m e) := by
  unfold changeMode
  split
  next none_ => cases none_.symm.trans mode
  next k some_ =>
    cases some_.symm.trans mode
    exact if_neg other

theorem changeMode_same (same : o = m) (trigger source severity : Nat) :
    changeMode m trigger source severity d = d.setMode0 (some m) := by
  have self : d = d.setMode0 (some m) := by rw [Dev.setMode0, ← same, ← mode]
  unfold changeMode
  split
  next none_ => cases none_.symm.trans mode
  next k some_ =>
    cases some_.symm.trans mode
    exact (if_pos same).trans self

theorem changeMode_signals (other : o ≠ m) (trigger source severity : Nat) :
    Signals (modeNoted o m trigger source severity d) (changeMode m trigger source severity d) := by
  rw [changeMode_other mode other]
  have told := modeTold_signals o m (modeNoted o m trigger source severity d)
  exact .ite told (told.trans (modeShown_signals o m _))

end

/-- A mode change leaves every register of the hub, but for the record that it adds to those that wait. -/
structure HubKept (d e : Dev) : Prop where
  fh : e.fh = { d.fh with queue := e.fh.queue }

namespace HubKept

variable {d m e : Dev}

theorem trans (f : HubKept d m) (g : HubKept m e) : HubKept d e := ⟨by rw [g.fh, f.fh]⟩

theorem of_fh_eq (h : e.fh = d.fh) : HubKept d e := ⟨by rw [h]⟩

theorem foldl {β : Type} {g : Dev → β → Dev} (h : ∀ d b, HubKept d (g d b)) (l : List β) (d : Dev) : HubKept d (l.foldl g d) :=
  foldl_invariant (HubKept d) g (fun m b k => k.trans (h m b)) l (of_fh_eq rfl)

section
variable (h : HubKept d e)
include h

theorem src_eq (n : Nat) : e.src n = d.src n := by rw [Dev.src, h.fh]; rfl
theorem first_eq : e.fh.first = d.fh.first := by rw [h.fh]
theorem ring_eq : e.fh.ring = d.fh.ring := by rw [h.fh]
theorem head_eq : e.fh.head = d.fh.head := by rw [h.fh]

end

end HubKept

theorem Signals.hubKept {d e : Dev} (h : Signals d e) : HubKept d e := .of_fh_eq h.fh_eq

theorem modeNoted_hubKept (o m : Mode) (trigger source severity : Nat) (d : Dev) :
    HubKept d (modeNoted o m trigger source severity d) := ⟨by simp [modeNoted, bbox]⟩

/-- Every mode change is none, or one that is noted and signalled. -/
theorem changeMode_cases (m : Mode) (trigger source severity : Nat) (d : Dev) :
    (d.pw.mode = none ∨ d.pw.mode = some m) ∧ changeMode m trigger source severity d = d.setMode0 (some m)
      ∨ ∃ o, Signals (modeNoted o m trigger source severity d) (changeMode m trigger source severity d) := by
  cases mode : d.pw.mode with
  | none => exact .inl ⟨.inl rfl, by simp only [changeMode, mode]⟩
  | some o =>
    by_cases same : o = m
    · exact .inl ⟨.inr (by rw [same]), changeMode_same mode same trigger source severity⟩
    · exact .inr ⟨o, changeMode_signals mode same trigger source severity⟩

theorem changeMode_hubKept (m : Mode) (trigger source severity : Nat) (d : Dev) :
    HubKept d (changeMode m trigger source severity d) := by
  rcases changeMode_cases m trigger source severity d with ⟨-, same⟩ | ⟨o, signals⟩
  · rw [same]; exact .of_fh_eq rfl
  · exact (modeNoted_hubKept o m trigger source severity d).trans signals.hubKept

/-! ### Entry to ECLIPSE -/

theorem abandonActivation_hubKept (d : Dev) : HubKept d (abandonActivation d) := by
  unfold abandonActivation
  split
  · exact .of_fh_eq rfl
  · exact ⟨rfl⟩

theorem abandonPairing_fh (d : Dev) : (abandonPairing d).fh = d.fh := by
  unfold abandonPairing
  dsimp only
  split <;> rfl

theorem abandonWork_hubKept (d : Dev) : HubKept d (abandonWork d) := by
  refine HubKept.trans ?_ (abandonActivation_hubKept _)
  exact .of_fh_eq (abandonPairing_fh _)

theorem eclipseEntered_hubKept (n : Nat) (d : Dev) : HubKept d (eclipseEntered n d) := by
  have shutters (l : List Nat) (e : Dev) : Signals e (l.foldl (fun e m => lensShutter m e) e) :=
    .foldl (fun e m => lensShutter_signals m e) l e
  exact ((abandonWork_hubKept d).trans (shutters _ _).hubKept).trans ((changeMode_hubKept .eclipse 1 n 4 _).trans (.of_fh_eq rfl))

/-- The heads park as the device enters ECLIPSE: at once, or after a delay on a paired LEAD (R380). -/
theorem enterEclipse_enters (n : Nat) {d : Dev}
    (serves : (d.inMode .focus || d.inMode .solo || d.inMode .lead || d.inMode .mirror || (d.inMode .dark && d.pw.coreStarting)) = true) :
    enterEclipse n d =
      if (d.inMode .lead && d.val Fam.pairState == 3) = true then
        { eclipseEntered n d with pw := { (eclipseEntered n d).pw with parkPending := true } }
      else (eclipseEntered n d).lensUp.foldl (fun e m => lensPark m e) (eclipseEntered n d) := by
  rw [enterEclipse]
  simp only [serves, if_true]
  rfl

theorem enterEclipse_hubKept (n : Nat) (d : Dev) : HubKept d (enterEclipse n d) := by
  have parks (l : List Nat) (e : Dev) : Signals e (l.foldl (fun e m => lensPark m e) e) :=
    .foldl (fun e m => lensPark_signals m e) l e
  cases serves : (d.inMode .focus || d.inMode .solo || d.inMode .lead || d.inMode .mirror || (d.inMode .dark && d.pw.coreStarting)) with
  | false => exact .of_fh_eq (by simp only [enterEclipse, serves, Bool.false_eq_true, if_false])
  | true =>
    rw [enterEclipse_enters n serves]
    split
    · exact (eclipseEntered_hubKept n d).trans (.of_fh_eq rfl)
    · exact (eclipseEntered_hubKept n d).trans (parks _ _).hubKept

theorem eclipseEntered_mode (n : Nat) (d : Dev) : (eclipseEntered n d).pw.mode = some .eclipse := by
  rw [eclipseEntered, setVal_pw, changeMode_pw]

theorem enterEclipse_shown (n : Nat) {d : Dev}
    (serves : d.inMode .focus = true ∨ d.inMode .solo = true ∨ d.inMode .lead = true ∨ d.inMode .mirror = true) :
    (enterEclipse n d).pw.mode = some .eclipse ∧ (enterEclipse n d).val Fam.deviceEclipseSource = n := by
  have parks (l : List Nat) (e : Dev) : Signals e (l.foldl (fun e m => lensPark m e) e) :=
    .foldl (fun e m => lensPark_signals m e) l e
  have source : (eclipseEntered n d).val Fam.deviceEclipseSource = n := val_setVal _ _ _ _
  rw [enterEclipse_enters n (by rcases serves with h | h | h | h <;> simp [h])]
  split
  · exact ⟨eclipseEntered_mode n d, source⟩
  · exact ⟨by rw [(parks _ _).pw_eq, eclipseEntered_mode], by rw [(parks _ _).val_eq, source]⟩

/-! ### The actions of the hub (R414) -/

/-- Severity 1 and above: subscribers are told. -/
def hubTells (n sev : Nat) (d : Dev) : Dev :=
  if 1 ≤ sev then notice 0 (some sev) (noticePayload n sev 0 d.tm.device (d.src n).detail (d.src n).count) d else d

/-- Severity 2 and above: the summary pages show it. -/
def hubShows (n : Nat) (d : Dev) : Dev :=
  let e := refreshSummary d d.adminFn
  match srcScope n with
  | .hostPort p => (e.fnsOfPort p).foldl refreshSummary e
  | _ => e

/-- Severity 2 and above: shown, and recorded where the event writes no record of its own. -/
def hubRecords (n sev : Nat) (own first : Bool) (d : Dev) : Dev :=
  if 2 ≤ sev then (if own then hubShows n d else recordFault n sev first (hubShows n d)) else d

/-- Severity 3 and above: a host port or a Lens channel is isolated. -/
def hubIsolates (n sev : Nat) (d : Dev) : Dev :=
  if 3 ≤ sev then
    match srcScope n with
    | .hostPort p => isolatePort p d
    | .lens c => lensShutter c d
    | _ => d
  else d

/-- All of it up to severity 3. -/
def hubStages (n sev : Nat) (own : Bool) (d : Dev) : Dev :=
  hubIsolates n sev (hubRecords n sev own d.fh.first.isNone (hubTells n sev (setFirst n d)))

theorem hubActions_eq (n sev : Nat) (own : Bool) (d : Dev) :
    hubActions n sev own d = if 4 ≤ sev then enterEclipse n (hubStages n sev own d) else hubStages n sev own d := rfl

theorem hubTells_signals (n sev : Nat) (d : Dev) : Signals d (hubTells n sev d) := .ite (notice_signals 0 d _ _) (.refl d)

theorem hubShows_signals (n : Nat) (d : Dev) : Signals d (hubShows n d) := by
  unfold hubShows
  dsimp only
  split
  · exact (refreshSummary_signals _ d).trans (.foldl (fun e f => refreshSummary_signals f e) _ _)
  · exact refreshSummary_signals _ d

theorem hubIsolates_signals (n sev : Nat) (d : Dev) : Signals d (hubIsolates n sev d) := by
  unfold hubIsolates
  refine .ite ?_ (.refl d)
  split
  · exact isolatePort_signals _ d
  · exact lensShutter_signals _ d
  · exact .refl d

/-- What a source shows, whatever the hub notes about its records. -/
def FaultSrc.shows (x : FaultSrc) : FaultSrc := { x with suppressed := false, lastRecord := 0 }

/-- From `d` to `e` every source shows the same, and those other than `n` are the same. -/
structure SourcesShow (n : Nat) (d e : Dev) : Prop where
  same : (e.src n).shows = (d.src n).shows
  other : ∀ k, k ≠ n → e.src k = d.src k

theorem SourcesShow.trans {n : Nat} {d m e : Dev} (f : SourcesShow n d m) (g : SourcesShow n m e) : SourcesShow n d e :=
  ⟨g.same.trans f.same, fun k h => (g.other k h).trans (f.other k h)⟩

theorem SourcesShow.of_src_eq {n : Nat} {d e : Dev} (h : ∀ k, e.src k = d.src k) : SourcesShow n d e :=
  ⟨by rw [h n], fun k _ => h k⟩

theorem SourcesShow.setSrc {n : Nat} {d : Dev} {x : FaultSrc} (h : x.shows = (d.src n).shows) : SourcesShow n d (d.setSrc n x) :=
  ⟨by rw [src_setSrc]; exact h, fun _ h => src_setSrc_other d x h⟩

theorem sourceRecord_shows (kind n sev : Nat) (real : Bool) (b : List Byte) (d : Dev) :
    SourcesShow n d (sourceRecord kind n sev real b d) :=
  (SourcesShow.setSrc (x := { d.src n with suppressed := false }) rfl).trans (.of_src_eq fun _ => rfl)

theorem bump_src (d : Dev) (f i n : Nat) : (d.bump f i).src n = d.src n := by rw [Dev.src, bump_fh]; rfl

theorem recordFault_shows (n sev : Nat) (first : Bool) (d : Dev) : SourcesShow n d (recordFault n sev first d) := by
  unfold recordFault
  dsimp only
  split
  · exact (SourcesShow.setSrc (x := { d.src n with suppressed := true }) rfl).trans (.of_src_eq fun k => bump_src _ _ _ k)
  · exact (sourceRecord_shows _ _ _ _ _ d).trans (.setSrc rfl)

theorem recordFault_pw (n sev : Nat) (first : Bool) (d : Dev) : (recordFault n sev first d).pw = d.pw := by
  unfold recordFault
  dsimp only
  split
  · exact bump_pw _ _ _
  · rfl

theorem recordFault_first (n sev : Nat) (first : Bool) (d : Dev) : (recordFault n sev first d).fh.first = d.fh.first := by
  unfold recordFault
  dsimp only
  split
  · rw [bump_fh]; rfl
  · rfl

theorem setFirst_src (n k : Nat) (d : Dev) : (setFirst n d).src k = d.src k := by
  unfold setFirst
  dsimp only
  split <;> rfl

theorem setFirst_pw (n : Nat) (d : Dev) : (setFirst n d).pw = d.pw := by
  unfold setFirst
  dsimp only
  split <;> rfl

theorem setFirst_first (n : Nat) (d : Dev) :
    (∀ r, d.fh.first = some r → (setFirst n d).fh.first = some r)
      ∧ (d.fh.first = none → (setFirst n d).fh.first.map (·.1) = some n) := by
  cases first : d.fh.first <;> simp [setFirst, first]

section
variable (n sev : Nat) (own first : Bool) (d : Dev)

theorem hubRecords_shows : SourcesShow n d (hubRecords n sev own first d) := by
  have shows := SourcesShow.of_src_eq (n := n) (hubShows_signals n d).src_eq
  unfold hubRecords
  split
  · split
    · exact shows
    · exact shows.trans (recordFault_shows n sev first _)
  · exact .of_src_eq fun _ => rfl

theorem hubRecords_pw : (hubRecords n sev own first d).pw = d.pw := by
  unfold hubRecords
  split
  · split
    · exact (hubShows_signals n d).pw_eq
    · exact (recordFault_pw n sev first _).trans (hubShows_signals n d).pw_eq
  · rfl

theorem hubRecords_first : (hubRecords n sev own first d).fh.first = d.fh.first := by
  have shows := congrArg FaultHub.first (hubShows_signals n d).fh_eq
  unfold hubRecords
  split
  · split
    · exact shows
    · exact (recordFault_first n sev first _).trans shows
  · rfl

theorem hubStages_shows : SourcesShow n d (hubStages n sev own d) :=
  ((SourcesShow.of_src_eq fun k => ((hubTells_signals n sev _).src_eq k).trans (setFirst_src n k d)).trans
    (hubRecords_shows n sev own _ _)).trans (.of_src_eq (hubIsolates_signals n sev _).src_eq)

/-- Up to severity 3 the hub leaves the power and mode state alone. -/
theorem hubStages_pw : (hubStages n sev own d).pw = d.pw := by
  rw [hubStages, (hubIsolates_signals n sev _).pw_eq, hubRecords_pw, (hubTells_signals n sev _).pw_eq, setFirst_pw]

theorem hubStages_first : (hubStages n sev own d).fh.first = (setFirst n d).fh.first := by
  rw [hubStages, (hubIsolates_signals n sev _).fh_eq, hubRecords_first, (hubTells_signals n sev _).fh_eq]

theorem hubActions_shows : SourcesShow n d (hubActions n sev own d) := by
  rw [hubActions_eq]
  split
  · exact (hubStages_shows n sev own d).trans (.of_src_eq (enterEclipse_hubKept n _).src_eq)
  · exact hubStages_shows n sev own d

theorem hubActions_first : (hubActions n sev own d).fh.first = (setFirst n d).fh.first := by
  rw [hubActions_eq]
  split
  · rw [(enterEclipse_hubKept n _).first_eq, hubStages_first]
  · exact hubStages_first n sev own d

end

/-! ### An onset (R413, R416) -/

/-- The registers of a source after an onset at device time `now`. -/
def FaultSrc.onsetAt (x : FaultSrc) (detail now : Nat) (real injected : Bool) (act : Option Nat) : FaultSrc :=
  { x with
    latched := true, realOnset := x.realOnset || real, injectedOnset := x.injectedOnset || injected
    realLive := x.realLive || real, count := if x.count < 0xFFFFFFFF then x.count + 1 else x.count
    detail := detail % 2 ^ 32, onset := if x.latched then x.onset else now, cleared := 0
    latchedSev := match act with | none => x.latchedSev | some v => max x.latchedSev v }

theorem onsetRegs_eq (n detail : Nat) (real injected : Bool) (act : Option Nat) (d : Dev) :
    onsetRegs n detail real injected act d = d.setSrc n ((d.src n).onsetAt detail d.tm.device real injected act) := rfl

section
variable (n detail : Nat) (real injected : Bool) (sev : Nat) (own : Bool) (d : Dev)

/-- Of the sources an onset changes its own, to what `FaultSrc.onsetAt` says. -/
theorem hubOnset_shows :
    ((hubOnset n detail real injected sev own d).src n).shows
        = ((d.src n).onsetAt detail d.tm.device real injected (some (actionTaken n sev))).shows
      ∧ ∀ k, k ≠ n → (hubOnset n detail real injected sev own d).src k = d.src k := by
  have acts := hubActions_shows n (actionTaken n sev) own (onsetRegs n detail real injected (some (actionTaken n sev)) d)
  rw [onsetRegs_eq] at acts
  refine ⟨?_, fun k other => (acts.other k other).trans (src_setSrc_other d _ other)⟩
  rw [hubOnset, onsetRegs_eq, acts.same, src_setSrc]

theorem hubOnset_first :
    (∀ r, d.fh.first = some r → (hubOnset n detail real injected sev own d).fh.first = some r)
      ∧ (d.fh.first = none → (hubOnset n detail real injected sev own d).fh.first.map (·.1) = some n) := by
  rw [hubOnset, hubActions_first]
  exact setFirst_first n (onsetRegs n detail real injected (some (actionTaken n sev)) d)

end

theorem actionTaken_four (n : Nat) : actionTaken n 4 = 4 := if_neg fun h => absurd h.1 (by decide)

/-- Settles O6: the hub's actions leave what a source shows (`hubOnset_shows`), and severity 4 enters ECLIPSE (`enterEclipse_shown`). -/
theorem onsetLatchesCountsAndActs : Obligations.OnsetLatchesCountsAndActs := by
  refine ⟨fun n detail sev own d => ?registers, fun n detail own d serves => ?eclipse⟩
  case registers =>
    obtain ⟨same, other⟩ := hubOnset_shows n detail true false sev own d
    obtain ⟨kept, filled⟩ := hubOnset_first n detail true false sev own d
    have counts : ((d.src n).onsetAt detail d.tm.device true false (some (actionTaken n sev))).count
        = min ((d.src n).count + 1) (max 0xFFFFFFFF (d.src n).count) := by
      simp only [FaultSrc.onsetAt]
      split <;> omega
    exact ⟨congrArg FaultSrc.latched same, (congrArg FaultSrc.realLive same).trans (Bool.or_true _),
      (congrArg FaultSrc.realOnset same).trans (Bool.or_true _), (congrArg FaultSrc.count same).trans counts,
      congrArg FaultSrc.detail same, congrArg FaultSrc.onset same, congrArg FaultSrc.latchedSev same, other, kept, filled⟩
  case eclipse =>
    have pw : (hubStages n 4 own (onsetRegs n detail true false (some 4) d)).pw = d.pw := hubStages_pw _ _ _ _
    rw [hubOnset, actionTaken_four, hubActions_eq, if_pos le_rfl]
    exact enterEclipse_shown n (by simpa only [Dev.inMode, pw] using serves)

end Sys2Proof.Machine
end

section
/-!
SUPPORT. The hub's commands (R413 to R420) and the black box (R422 to R425): what a fall, a clear and an injection leave of the sources,
the image of a record; O5 and O7.
-/

namespace Sys2Proof.Machine

/-! ### Falls (R413, R419) -/

/-- A source whose real signal has fallen. -/
def FaultSrc.fallen (x : FaultSrc) (now : Nat) : FaultSrc :=
  if x.realLive then { x with realLive := false, cleared := if x.injLive = 0 then now else x.cleared } else x

/-- A source whose pulse has ended. -/
def FaultSrc.pulsed (x : FaultSrc) (now : Nat) : FaultSrc :=
  if x.injLive = 1 then { x with injLive := 0, cleared := if x.realLive then x.cleared else now } else x

/-- From `d` to `e` source `n` has become `x`, and no other source differs. -/
structure SourceIs (n : Nat) (x : FaultSrc) (d e : Dev) : Prop where
  same : e.src n = x
  other : ∀ k, k ≠ n → e.src k = d.src k

theorem SourceIs.setSrc (n : Nat) (x : FaultSrc) (d : Dev) : SourceIs n x d (d.setSrc n x) :=
  ⟨src_setSrc d n x, fun _ h => src_setSrc_other d x h⟩

theorem SourceIs.then {n : Nat} {x : FaultSrc} {d m e : Dev} (f : SourceIs n x d m) (g : ∀ k, e.src k = m.src k) : SourceIs n x d e :=
  ⟨(g n).trans f.same, fun k h => (g k).trans (f.other k h)⟩

theorem SourceIs.trans {n : Nat} {x y : FaultSrc} {d m e : Dev} (f : SourceIs n x d m) (g : SourceIs n y m e) : SourceIs n y d e :=
  ⟨g.same, fun k h => (g.other k h).trans (f.other k h)⟩

theorem hubFall_source (n : Nat) (d : Dev) : SourceIs n ((d.src n).fallen d.tm.device) d (hubFall n d) := by
  unfold hubFall FaultSrc.fallen
  dsimp only
  split
  · exact .setSrc n _ d
  · exact ⟨rfl, fun _ _ => rfl⟩

theorem endPulse_source (n : Nat) (d : Dev) : SourceIs n ((d.src n).pulsed d.tm.device) d (endPulse n d) := by
  unfold endPulse FaultSrc.pulsed
  dsimp only
  split
  · exact .setSrc n _ d
  · exact ⟨rfl, fun _ _ => rfl⟩

/-- The real signal falls, and the pulse of an injection ends with it. -/
theorem liveEnd_source (n : Nat) (d : Dev) :
    SourceIs n (((d.src n).fallen d.tm.device).pulsed d.tm.device) d (liveEnd n d) := by
  have pulse := endPulse_source n (hubFall n d)
  rw [(hubFall_source n d).same, show (hubFall n d).tm = d.tm by rw [hubFall_keeps]] at pulse
  exact ((hubFall_source n d).trans pulse).then fun _ => rfl

/-- What a source shows of its history does not depend on its being live. -/
theorem FaultSrc.fallen_pulsed {x : FaultSrc} (now : Nat) (noHold : x.injLive ≤ 1) :
    ((x.fallen now).pulsed now).live = false ∧ ((x.fallen now).pulsed now).latched = x.latched
      ∧ ((x.fallen now).pulsed now).latchedSev = x.latchedSev ∧ ((x.fallen now).pulsed now).count = x.count := by
  have inj : x.injLive = 0 ∨ x.injLive = 1 := by omega
  cases real : x.realLive <;> rcases inj with inj | inj <;> simp [FaultSrc.fallen, FaultSrc.pulsed, FaultSrc.live, real, inj]

/-! ### Clearing (R416, R417) -/

/-- A source that has been cleared. -/
def FaultSrc.clearedLatch (x : FaultSrc) : FaultSrc :=
  { x with latched := false, realOnset := false, injectedOnset := false, latchedSev := 0 }

/-- Clearing a source that is not live clears its latch; only the note on its records may change besides. -/
theorem clearLatched_idle {who n : Nat} {d : Dev} (idle : (d.src n).live = false) :
    ∃ b, (clearLatched who n d).src n = { (d.src n).clearedLatch with suppressed := b } := by
  have refreshed (l : List Fn) (e : Dev) : Signals e (l.foldl refreshSummary e) := .foldl (fun e f => refreshSummary_signals f e) l e
  unfold clearLatched
  rw [if_neg (ne_true_of_eq_false idle)]
  dsimp only
  rw [(refreshed _ _).src_eq, src_setSrc]
  split
  · refine ⟨false, ?_⟩
    rw [sourceRecord, show ∀ k f sv v b (e : Dev), (bbox k f sv v b e).src n = e.src n from fun _ _ _ _ _ _ => rfl, src_setSrc]
    rfl
  · exact ⟨(d.src n).suppressed, rfl⟩

theorem clearLatched_live {who n : Nat} {d : Dev} (live : (d.src n).live = true) :
    clearLatched who n d = (d.setSrc n { d.src n with clearDenied := true }).bump Fam.faultClearRefused := if_pos live

theorem exec_faultClear_accepted {s : State} {who : Master} {n : Nat} (v : Half) (a : s.dev.accepts who Fam.faultStatus n) :
    exec (.faultClear who n v) s = .next { s with dev := shown who (writeStatus who n v.toNat s.dev) } :=
  runs_of_onDev rfl (guardedWrite_accepted _ a rfl)

theorem firstClearable_iff (d : Dev) : firstClearable d = true ↔ ∀ r, d.fh.first = some r → (d.src r.1).latched = false := by
  cases first : d.fh.first with
  | none => simp [firstClearable, first]
  | some r => simp [firstClearable, first]

/-! ### Injection (R419, R420) -/

theorem injectRefusal_enabled {n : Nat} {d : Dev} (enabled : d.flag Fam.faultInjectEnable = true) (signals : d.canSignal n = true) :
    injectRefusal n d = 0 := by
  simp [injectRefusal, enabled, signals]

/-- The source with the injection's signal high. -/
def FaultSrc.injecting (x : FaultSrc) (mode : Nat) : FaultSrc := { x with injLive := if x.injLive = 2 then 2 else mode }

section
variable {n mode : Nat} {d : Dev} (sev detail : Nat)

/-- Without a real signal an injection acts with the least of its severity and `fault.inject_max`. -/
theorem inject_alone (alone : (d.src n).realLive = false) :
    inject n sev detail mode false d =
      (let e := hubOnset n detail false true (min (sev % 8) (d.val Fam.faultInjectMax)) false (d.setSrc n ((d.src n).injecting mode))
       settle (if 3 ≤ min (sev % 8) (d.val Fam.faultInjectMax) then isolate n detail e else e)) := by
  rw [inject, alone]
  rfl

/-- While the real signal is high an injection takes no action. -/
theorem inject_high (high : (d.src n).realLive = true) :
    inject n sev detail mode false d = onsetRegs n detail false true none (d.setSrc n ((d.src n).injecting mode)) := by
  rw [inject, high]
  rfl

end

section
variable {s : State} {who : Master} {n sev : Nat} {w : Half} {d : Dev} (a : s.dev.accepts who Fam.faultInject n)
  (enabled : s.dev.flag Fam.faultInjectEnable = true) (signals : s.dev.canSignal n = true)
include a enabled signals

theorem exec_faultInjectPulse_accepted (e : inject n sev w.toNat 1 false s.dev = d) :
    exec (.faultInjectPulse who n sev w false) s = .next { s with dev := shown who d } :=
  runs_of_onDev rfl ((guardedWrite_accepted _ a (injectRefusal_enabled enabled signals)).trans (congrArg (shown who) e))

theorem exec_faultInjectHold_accepted (e : inject n sev w.toNat 2 false s.dev = d) :
    exec (.faultInjectHold who n sev w false) s = .next { s with dev := shown who d } :=
  runs_of_onDev rfl ((guardedWrite_accepted _ a (injectRefusal_enabled enabled signals)).trans (congrArg (shown who) e))

end

theorem releaseHold_alone {n : Nat} {d : Dev} (hold : (d.src n).injLive = 2) (alone : (d.src n).realLive = false) :
    releaseHold d n = d.setSrc n { d.src n with injLive := 0, cleared := d.tm.device } := by
  simp only [releaseHold, hold, if_true, alone, Bool.false_eq_true, if_false]

/-- Settles O5: each command by its equation in the clause's case. -/
theorem faultHubCommandsAct : Obligations.FaultHubCommandsAct := by
  refine ⟨?onset, ?liveEnd, ?clears, ?denies, ?undenies, ?clearsAll, ?firstClears, ?firstStays, ?pulse, ?holdHigh, ?hold, ?release⟩
  case onset =>
    intro s n w inRange source
    exact runs_of_onDev rfl (if_pos (by simp [inRange, source]))
  case liveEnd =>
    intro s n inRange running noHold
    obtain ⟨same, other⟩ := liveEnd_source n s.dev
    have e : (if s.dev.periscope && decide (n < 0x280) then liveEnd n s.dev else s.dev) = liveEnd n s.dev :=
      if_pos (by simp [running, inRange])
    refine ⟨liveEnd n s.dev, runs_of_onDev rfl e, ?_⟩
    obtain ⟨live, latched, sev, count⟩ := FaultSrc.fallen_pulsed (x := s.dev.src n) s.dev.tm.device noHold
    rw [same]
    exact ⟨live, latched, sev, count, other⟩
  case clears =>
    intro s who n a idle
    obtain ⟨b, cleared⟩ := clearLatched_idle (who := clearMaster who) idle
    refine ⟨_, exec_faultClear_accepted 2 a, ?_⟩
    show _ ∧ _
    rw [show (shown who (writeStatus who n (BitVec.toNat (2 : Half)) s.dev)).src n = _ from cleared]
    exact ⟨rfl, rfl, rfl, rfl, rfl, rfl⟩
  case denies =>
    intro s who n a live room
    have denied : writeStatus who n (BitVec.toNat (2 : Half)) s.dev = _ := clearLatched_live (who := clearMaster who) live
    refine ⟨_, exec_faultClear_accepted 2 a, ?_⟩
    have source := (SourceIs.setSrc n { s.dev.src n with clearDenied := true } s.dev).then fun k =>
      bump_src (s.dev.setSrc n { s.dev.src n with clearDenied := true }) Fam.faultClearRefused 0 k
    rw [denied]
    exact ⟨source.same, val_bump _ room, source.other⟩
  case undenies => intro s who n a; exact exec_faultClear_accepted 0x80 a
  case clearsAll => intro s who a; exact runs_of_onDev rfl (guardedWrite_accepted _ a rfl)
  case firstClears =>
    intro s who a clearable
    exact runs_of_onDev rfl (guardedWrite_accepted _ a (if_pos ((firstClearable_iff s.dev).mpr clearable)))
  case firstStays =>
    intro s who r a first latched
    have refused : needs firstClearable s.dev = rUnavailable := by simp [needs, firstClearable, first, latched]
    exact runs_of_onDev rfl ((guardedWrite_refused _ a (by rw [refused]; decide)).trans (by rw [refused]))
  case pulse =>
    intro s who n sev w a enabled signals alone
    exact ⟨_, _, rfl, rfl, exec_faultInjectPulse_accepted a enabled signals (inject_alone sev _ alone)⟩
  case holdHigh =>
    intro s who n sev w a enabled signals high
    refine ⟨_, exec_faultInjectHold_accepted a enabled signals (inject_high sev _ high), ?_⟩
    have source : (shown who (onsetRegs n w.toNat false true none (s.dev.setSrc n ((s.dev.src n).injecting 2)))).src n
        = ((s.dev.src n).injecting 2).onsetAt w.toNat s.dev.tm.device false true none := by
      rw [onsetRegs_eq, src_setSrc]
      exact src_setSrc _ _ _
    rw [source]
    exact ⟨ite_self 2, Bool.or_true _, rfl, rfl, rfl⟩
  case hold =>
    intro s who n sev w a enabled signals alone
    refine ⟨_, _, ?_, rfl, exec_faultInjectHold_accepted a enabled signals (inject_alone sev _ alone)⟩
    rw [FaultSrc.injecting, ite_self]
  case release =>
    intro s who n a allowed hold alone
    exact runs_of_onDev rfl ((guardedWrite_accepted _ a allowed).trans (congrArg (shown who) (releaseHold_alone hold alone)))

/-! ### The black box -/

section
variable (seq boot mode : Nat) (r : BbRecord)

theorem length_recordImage : (recordImage seq boot mode r).length = 64 := by simp [recordImage]

/-- A record begins with its sequence number and its time (Table 15.6). -/
theorem take_recordImage : (recordImage seq boot mode r).take 16 = le 8 seq ++ le 8 r.time := by
  have split : ∃ rest, recordImage seq boot mode r = (le 8 seq ++ le 8 r.time) ++ rest := by
    simp only [recordImage, List.append_assoc]
    exact ⟨_, rfl⟩
  obtain ⟨rest, e⟩ := split
  rw [e, List.take_left' (by simp)]

theorem take_recordImage_seq : (recordImage seq boot mode r).take 8 = le 8 seq := by
  have sixteen := congrArg (List.take 8) (take_recordImage seq boot mode r)
  rwa [List.take_take, List.take_left' (length_le 8 seq)] at sixteen

end

theorem writeRecord_ring (r : BbRecord) (d : Dev) :
    ∃ boot mode, writeRecord r d = { d with fh := { d.fh with
      head := d.fh.head + 1, ring := tput d.fh.ring ((d.fh.head + 1) % 65536) (recordImage (d.fh.head + 1) boot mode r) } } :=
  ⟨_, _, rfl⟩

theorem tget_tput_same {α : Type} (t : Tbl α) (k : Nat) (v d : α) : tget (tput t k v) k d = v := by
  rw [tget_eq_tfind, tfind_tput_same, Option.getD_some]

theorem tget_tput_other {α : Type} (t : Tbl α) {j k : Nat} (v d : α) (h : j ≠ k) : tget (tput t k v) j d = tget t j d := by
  rw [tget_eq_tfind, tfind_tput_other t v h, tget_eq_tfind]

theorem blackBoxWrite_oldest {d : Dev} {r : BbRecord} {rest : List BbRecord} (running : d.periscope = true)
    (waits : d.fh.queue = r :: rest) : blackBoxWrite d = writeRecord r { d with fh := { d.fh with queue := rest } } := by
  simp only [blackBoxWrite, waits, running, if_true]

/-- The record that marks an erase (R425). -/
theorem eraseRing_marked (d : Dev) :
    ∃ boot mode r, eraseRing d = { d with fh := { d.fh with head := 1, ring := [(1, recordImage 1 boot mode r)] } } :=
  ⟨_, _, _, rfl⟩

theorem eraseRefusal_allowed {d : Dev} (awake : d.inMode .eclipse = false) : eraseRefusal 0xE2A5 d = 0 := if_pos ⟨rfl, awake⟩

theorem eraseRefusal_refused {d : Dev} {v : Nat} (h : v ≠ 0xE2A5 ∨ d.inMode .eclipse = true) : eraseRefusal v d = rUnavailable :=
  if_neg fun ⟨value, awake⟩ => h.elim (· value) fun eclipse => by rw [awake] at eclipse; cases eclipse

/-- Settles O7: each command by its equation; a record is written whole to its slot (`writeRecord_ring`). -/
theorem blackBoxKeepsTheRing : Obligations.BlackBoxKeepsTheRing := by
  refine ⟨?writes, ?erases, ?refused, ?gasp⟩
  case writes =>
    intro s r rest running waits
    obtain ⟨boot, mode, written⟩ := writeRecord_ring r { s.dev with fh := { s.dev.fh with queue := rest } }
    refine ⟨_, runs_of_onDev rfl ((blackBoxWrite_oldest running waits).trans written), rfl, rfl, ?_, ?_, ?_, rfl⟩
    · rw [tget_tput_same]; exact length_recordImage _ _ _ r
    · rw [tget_tput_same]; exact take_recordImage _ _ _ r
    · intro k other; exact tget_tput_other _ _ _ other
  case erases =>
    intro s who a awake
    obtain ⟨boot, mode, r, marked⟩ := eraseRing_marked s.dev
    refine ⟨_, runs_of_onDev rfl ((guardedWrite_accepted _ a (eraseRefusal_allowed awake)).trans (congrArg (shown who) marked)),
      rfl, rfl, take_recordImage_seq 1 boot mode r, rfl⟩
  case refused =>
    intro s who v a h
    have refused := eraseRefusal_refused h
    exact runs_of_onDev rfl ((guardedWrite_refused _ a (by rw [refused]; decide)).trans (by rw [refused]))
  case gasp =>
    intro s running
    exact ⟨runs_of_onDev rfl (if_pos running), runs_of_onDev rfl (if_pos running)⟩

end Sys2Proof.Machine
end

section
/-!
SUPPORT. Dictionary writes (R430, R434, R437 to R439): the tests of a write in their order, the rows that write an object, the write
claim; O37, O38, O39 and O58.
-/

namespace Sys2Proof.Machine

/-! ### The tests of a write, one after another -/

section
variable {d : Dev} {who : Master} {f i : Nat} {b : List Byte}

theorem writeFamily_barred {t : Nat} (test : writeTest d who f i b.length = t) (fails : t ≠ 0) :
    writeFamily who f i b d = (t, refuseWrite d) := by
  simp [writeFamily, test, fails]

theorem writeFamily_passed (test : writeTest d who f i b.length = 0) (value : valueRefusal who f i b d = 0) :
    writeFamily who f i b d = (rOk, writeEffect who f i b d) := by
  simp [writeFamily, test, value]

theorem accessTest_absent (write : Bool) (absent : (famRow f).instances ≤ i ∨ catalogue.length ≤ f) :
    accessTest d who f i write = rNoObject := if_pos absent

theorem accessTest_outOfScope (t : Nat) (write : Bool) (outside : inScope d t f i = false) :
    accessTest d (.tenant t) f i write = rNoObject := by
  unfold accessTest
  dsimp only
  split
  · rfl
  · simp [outside]

/-- An instance that exists and that the master may know of (test 1 of R430). -/
def Visible (d : Dev) (who : Master) (f i : Nat) : Prop :=
  i < (famRow f).instances ∧ f < catalogue.length ∧ ∀ t, who = .tenant t → inScope d t f i = true

section
variable (visible : Visible d who f i)
include visible

theorem accessTest_visible :
    accessTest d who f i true =
      if (famRow f).access = .RO then rReadOnly
      else if bit (rightsOf who (famRow f).rights) 1 = false then rNoRight
      else rOk := by
  obtain ⟨instance_, family, scope⟩ := visible
  have there : ¬ ((famRow f).instances ≤ i ∨ catalogue.length ≤ f) := by omega
  cases who with
  | tenant t => simp [accessTest, there, scope t rfl, b2n]
  | _ => simp [accessTest, there, b2n]

theorem accessTest_readOnly (ro : (famRow f).access = .RO) : accessTest d who f i true = rReadOnly := by
  rw [accessTest_visible visible, if_pos ro]

theorem accessTest_noRight (rw_ : (famRow f).access ≠ .RO) (noRight : bit (rightsOf who (famRow f).rights) 1 = false) :
    accessTest d who f i true = rNoRight := by
  rw [accessTest_visible visible, if_neg rw_, if_pos noRight]

theorem accessTest_passed (rw_ : (famRow f).access ≠ .RO) (right : bit (rightsOf who (famRow f).rights) 1 = true) :
    accessTest d who f i true = 0 := by
  rw [accessTest_visible visible, if_neg rw_, if_neg (by simp [right])]
  rfl

end

theorem writeTest_access (len : Nat) {t : Nat} (access : accessTest d who f i true = t) (fails : t ≠ 0) :
    writeTest d who f i len = t := by
  simp [writeTest, access, fails]

section
variable (len : Nat) (access : accessTest d who f i true = 0)
include access

theorem writeTest_claimed (bars : claimBars d who (famRow f).exclusive = true) (object : f ≠ Fam.claimRequest) :
    writeTest d who f i len = rClaimed := by
  simp [writeTest, access, bars, object]

/-- Past the claim: the length, then DARK. -/
theorem writeTest_unclaimed (free : claimBars d who (famRow f).exclusive = false ∨ f = Fam.claimRequest) :
    writeTest d who f i len =
      if len ≠ (famRow f).length then rBadLength
      else if (d.inMode .dark && !(famRow f).periscope) = true then rUnavailable
      else rOk := by
  have past : (claimBars d who (famRow f).exclusive && f != Fam.claimRequest) = false := by
    rcases free with free | object
    · rw [free, Bool.false_and]
    · simp [object]
  simp only [writeTest, access, ne_eq, not_true_eq_false, if_false, past, Bool.false_eq_true]

end

end

/-! ### The rows that write an object -/

/-- A row that writes an object makes one guarded write of it. -/
theorem exec_writeRow {c : Instr} {who : Master} {f i : Nat} (row : writeRow c = some (who, f, i)) :
    ∃ r k, ∀ s, exec c s = onDev s (guardedWrite who f i r k) := by
  cases c with
  | modeRequestFocus | modeRequestSolo | softReset | fabricPeakReset | prismKat | meterRingHead | holdupAttest | svnCommit | faultClear
  | faultClearAll | firstFaultClear | faultInjectPulse | faultInjectHold | faultInjectRelease | bboxErase | take | renew | claimRelease
  | force | settingsStore | factoryReset =>
    cases row
    exact ⟨_, _, fun _ => rfl⟩
  | _ => cases row

/-- Settles O39: the rows by `exec_writeRow`, the order of the tests by the lemma of the test that fails. -/
theorem refusedWritesHaveNoEffect : Obligations.RefusedWritesHaveNoEffect := by
  refine ⟨?rows, ?counted, ?order⟩
  case rows =>
    intro s c who f i row
    obtain ⟨r, k, e⟩ := exec_writeRow row
    exact ⟨fun down => runs_of_onDev (e s) (guardedWrite_down r k down),
      fun up barred => runs_of_onDev (e s) (guardedWrite_barred r k up barred)⟩
  case counted => exact fun d => ⟨_, _, refuseWrite_eq d, fun f i other => val_refuseWrite_other d other⟩
  case order =>
    rintro d who f i b r rfl
    have barred {t : Nat} (fails : t ≠ 0) (test : writeTest d who f i b.length = t) := writeFamily_barred test fails
    refine ⟨fun absent => barred (by decide) (writeTest_access _ (accessTest_absent true absent) (by decide)),
      fun instance_ family => ⟨?scope, fun scope => ?visible⟩⟩
    case scope =>
      rintro t rfl outside
      exact barred (by decide) (writeTest_access _ (accessTest_outOfScope t true outside) (by decide))
    case visible =>
      have visible : Visible d who f i := ⟨instance_, family, scope⟩
      refine ⟨fun ro => barred (by decide) (writeTest_access _ (accessTest_readOnly visible ro) (by decide)),
        fun rw_ noRight => barred (by decide) (writeTest_access _ (accessTest_noRight visible rw_ noRight) (by decide)),
        fun rw_ right => ?granted⟩
      have access := accessTest_passed visible rw_ right
      refine ⟨fun bars object => barred (by decide) (writeTest_claimed _ access bars object), fun free => ?unclaimed⟩
      have past := writeTest_unclaimed b.length access free
      refine ⟨fun length => barred (by decide) (past.trans (if_pos length)),
        fun length dark core => barred (by decide) (past.trans ?_),
        fun length lit value => writeFamily_passed (past.trans ?_) value⟩
      · rw [if_neg (not_not.mpr length), if_pos (by simp [dark, core])]
      · rw [if_neg (not_not.mpr length), if_neg (by rcases lit with lit | lit <;> simp [lit])]
        rfl

/-- Settles O58: an object outside the tenant's scope fails the first test, as one that is absent. -/
theorem tenantsCannotProbe : Obligations.TenantsCannotProbe := by
  refine ⟨fun d t f i b outside => ⟨?outside, ?absent⟩, fun d t index sub f i object outside => ?read, fun d t index sub noObject => ?none_⟩
  case outside => exact writeFamily_barred (writeTest_access _ (accessTest_outOfScope t true outside) (by decide)) (by decide)
  case absent => exact writeFamily_barred (writeTest_access _ (accessTest_absent true (.inl le_rfl)) (by decide)) (by decide)
  case read => simp [readObject, object, accessTest_outOfScope t false outside, rNoObject]
  case none_ => simp only [readObject, noObject]

/-! ### The write claim -/

theorem writeFamily_claimed {d : Dev} {who : Master} {f i : Nat} (b : List Byte) (access : accessTest d who f i true = 0)
    (bars : claimBars d who (famRow f).exclusive = true) (object : f ≠ Fam.claimRequest) :
    writeFamily who f i b d = (rClaimed, refuseWrite d) :=
  writeFamily_barred (writeTest_claimed _ access bars object) (by decide)

section
variable {who : Master} {d : Dev} (me : claimant who ≠ 0)
include me

theorem claimRefusal_take : claimRefusal who 1 d = if d.dc.holder = 0 ∨ d.dc.holder = claimant who then 0 else rClaimed := if_neg me

theorem claimRefusal_renew : claimRefusal who 2 d = if d.dc.holder = claimant who then 0 else rClaimed := if_neg me

theorem claimRefusal_release : claimRefusal who 3 d = 0 := if_neg me

end

section
variable {s : State} {who : Master} (a : s.dev.accepts who Fam.claimRequest 0)
include a

theorem claimWrite_granted {v : Nat} (granted : claimRefusal who v s.dev = 0) :
    claimWrite who v s.dev = shown who (claimAct who v s.dev) := guardedWrite_accepted _ a granted

theorem claimWrite_refused {v r : Nat} (refused : claimRefusal who v s.dev = r) (fails : r ≠ 0) :
    claimWrite who v s.dev = emit (.dict who r []) (refuseWrite s.dev) := by
  subst refused
  exact guardedWrite_refused _ a fails

end

/-- A write of `claim.request` whose value is one of the four actions takes that action. -/
theorem writeFamily_claimRequest {d : Dev} {who : Master} {v : Nat} (lo : 1 ≤ v) (hi : v ≤ 4)
    (test : writeTest d who Fam.claimRequest 0 1 = 0) (granted : claimRefusal who v d = 0) :
    writeFamily who Fam.claimRequest 0 [BitVec.ofNat 8 v] d = (rOk, claimAct who v d) := by
  have value : unle [BitVec.ofNat 8 v] = v := by simp [unle]; omega
  have inRange : outOfRange Fam.claimRequest v = false := by interval_cases v <;> decide +kernel
  rw [writeFamily_passed (b := [BitVec.ofNat 8 v]) test]
  · rw [writeEffect, value]
    rfl
  · rw [valueRefusal, value, inRange]
    exact granted

/-- What a read answers does not depend on the claim. -/
theorem readObject_anyClaim (d : Dev) (who : Master) (index sub h e : Nat) :
    (readObject who index sub { d with dc := { d.dc with holder := h, expiry := e } }).1 = (readObject who index sub d).1 := by
  have test (f i : Nat) : accessTest { d with dc := { d.dc with holder := h, expiry := e } } who f i false = accessTest d who f i false := rfl
  have mode : Dev.inMode { d with dc := { d.dc with holder := h, expiry := e } } .dark = d.inMode .dark := rfl
  cases object : findObject index sub with
  | none => simp only [readObject, object]
  | some o => simp only [readObject, object, test, mode, apply_ite Prod.fst]

/-- Settles O37: each command by the refusal of its action, writes by the test that the claim fails. -/
theorem writeClaimBelongsToOne : Obligations.WriteClaimBelongsToOne := by
  refine ⟨?actions, ?adminForce, ?sidebandForce, ?expire, ?writes, ?bars, ?reads, ?neverBarred⟩
  case actions =>
    rintro s who d a me rfl
    refine ⟨fun free => runs_of_onDev rfl (claimWrite_granted a ((claimRefusal_take me).trans (if_pos free))),
      fun held other => runs_of_onDev rfl (claimWrite_refused a ((claimRefusal_take me).trans (if_neg ?_)) (by decide)),
      fun mine => runs_of_onDev rfl (claimWrite_granted a ((claimRefusal_renew me).trans (if_pos mine))),
      fun other => runs_of_onDev rfl (claimWrite_refused a ((claimRefusal_renew me).trans (if_neg other)) (by decide)),
      fun mine => runs_of_onDev rfl ((claimWrite_granted a (claimRefusal_release me)).trans (congrArg (shown who) (if_pos mine))),
      fun other => runs_of_onDev rfl ((claimWrite_granted a (claimRefusal_release me)).trans (congrArg (shown who) (if_neg other)))⟩
    exact not_or.mpr ⟨held, other⟩
  case adminForce => intro s a; exact runs_of_onDev rfl (claimWrite_refused a rfl (by decide))
  case sidebandForce =>
    intro s a
    exact ⟨fun reachable => runs_of_onDev rfl (claimWrite_refused a (if_neg (ne_true_of_eq_false reachable)) (by decide)),
      fun unreachable => ⟨_, rfl, runs_of_onDev rfl (claimWrite_granted a (if_pos unreachable))⟩⟩
  case expire => intro s; rfl
  case writes => intro d who v lo hi test granted; exact writeFamily_claimRequest lo hi test granted
  case bars =>
    intro d f i b object
    exact ⟨fun held access => writeFamily_claimed b access (by simp [claimBars, held]) object,
      fun held access => writeFamily_claimed b access (by simp [claimBars, held]) object⟩
  case reads => exact readObject_anyClaim
  case neverBarred => intro d t x; exact ⟨rfl, rfl⟩

/-- Settles O38: the families by the catalogue; without the claim an exclusive write fails its test. -/
theorem exclusiveObjectsNeedTheClaim : Obligations.ExclusiveObjectsNeedTheClaim := by
  refine ⟨?families, fun d f i b exclusive object => ⟨fun free access => ?_, fun free access => ?_⟩⟩
  case families => decide +kernel
  · exact writeFamily_claimed b access (by simp [claimBars, exclusive, free]) object
  · exact writeFamily_claimed b access (by simp [claimBars, exclusive, free]) object

end Sys2Proof.Machine
end

section
/-!
SUPPORT. Access slots, the mailbox path (R434 to R436) and the settings (R440 to R442): what each of their functions is in each case; O40
and O41.
-/

namespace Sys2Proof.Machine

/-! ### Access slots -/

section
variable {s : State} {n : Nat} (slot : n < 8) (reach : s.dev.reaches s.dev.adminReq)
include slot reach

theorem exec_dictSlotGet_reaches : exec (.dictSlotGet n) s = .next { s with dev := slotGet n s.dev } :=
  runs_of_onDev rfl ((if_pos slot).trans (hostAccess_reaches _ reach))

theorem exec_dictSlotSet_reaches : exec (.dictSlotSet n) s = .next { s with dev := slotSet n s.dev } :=
  runs_of_onDev rfl ((if_pos slot).trans (hostAccess_reaches _ reach))

end

section
variable {d : Dev} {n : Nat}

theorem slotGet_busy (busy : (d.slot n).busy = true) : slotGet n d = d := if_pos busy

theorem slotSet_busy (busy : (d.slot n).busy = true) : slotSet n d = d := if_pos busy

section
variable (idle : (d.slot n).busy = false)
include idle

theorem slotGet_idle {x : DictSlot} {r : Nat × List Byte} (slot : x = d.slot n) (read : r = readObject .admin x.index x.sub d) :
    slotGet n d = emit (.dict .admin r.1 r.2) (afterRead x.index x.sub (d.setSlot n { x with
      result := r.1, rlength := r.2.length, data := if r.1 = 0 then r.2 ++ x.data.drop r.2.length else x.data })) := by
  subst read slot
  exact if_neg (ne_true_of_eq_false idle)

theorem slotSet_idle {x : DictSlot} {r : Nat × Dev} (slot : x = d.slot n)
    (write : r = writeObject .admin x.index x.sub (fitBytes x.length x.data) d) :
    slotSet n d = emit (.dict .admin r.1 []) (r.2.setSlot n { r.2.slot n with result := r.1 }) := by
  subst write slot
  exact if_neg (ne_true_of_eq_false idle)

end

end

/-! ### The mailbox path -/

section
variable {d : Dev} {f : Fn}

/-- A purge marker is taken before any request is served. -/
theorem mailboxAccess_marker (op : Nat) (marker : (d.fnS f).purges ≠ []) : mailboxAccess f op d = d :=
  if_neg (by simp [marker])

section
variable {w : Quad} {st : BitVec 18} {rest : List (Quad × BitVec 18)} (runs : firmwareRuns d = true) (noMarker : (d.fnS f).purges = [])
  (words : mailWords (d.fnS f) = (w, st) :: rest)
include runs noMarker words

theorem mailboxAccess_get_master {who : Master} {r : Nat × List Byte} (get : mOp w = 1) (master : mailMaster d f st = some who)
    (read : r = readObject who (mIndex w) (mSub w) d) :
    mailboxAccess f 1 d =
      sendReply f (mReply w r.1 r.2.length :: valueWords r.2) (afterRead (mIndex w) (mSub w) (takeMail f 1 d)) := by
  subst read
  simp [mailboxAccess, runs, noMarker, words, get, master]

theorem mailboxAccess_get_unbound (get : mOp w = 1) (noMaster : mailMaster d f st = none) :
    mailboxAccess f 1 d = sendReply f [mReply w rNoObject 0] (afterRead (mIndex w) (mSub w) (takeMail f 1 d)) := by
  simp [mailboxAccess, runs, noMarker, words, get, noMaster, valueWords, cdiv]

theorem mailboxAccess_set_master {who : Master} {r : Nat × Dev} (set : mOp w = 2) (master : mailMaster d f st = some who)
    (whole : cdiv (mLength w) 8 ≤ rest.length)
    (write : r = writeObject who (mIndex w) (mSub w)
      (fitBytes (mLength w) ((rest.take (cdiv (mLength w) 8)).flatMap fun e => le 8 e.1.toNat)) d) :
    mailboxAccess f 2 d = sendReply f [mReply w r.1 0] (takeMail f (cdiv (mLength w) 8 + 1) r.2) := by
  subst write
  simp [mailboxAccess, runs, noMarker, words, set, master, whole]

theorem mailboxAccess_set_waits (set : mOp w = 2) (short : rest.length < cdiv (mLength w) 8) : mailboxAccess f 2 d = d := by
  simp [mailboxAccess, runs, noMarker, words, set, Nat.not_le.mpr short]

theorem mailboxAccess_otherOp (op : Nat) (notGet : mOp w ≠ 1) (notSet : mOp w ≠ 2) :
    mailboxAccess f op d = sendReply f [mReply w rUnavailable 0] (takeMail f 1 d) := by
  simp [mailboxAccess, runs, noMarker, words, notGet, notSet]

end

end

/-- Settles O40: each command by its equation in the clause's case. -/
theorem slotsAndMailboxReachTheObjects : Obligations.SlotsAndMailboxReachTheObjects := by
  refine ⟨?slots, ?busy, ?mailbox, ?marker⟩
  case slots =>
    rintro s n x slot reach rfl idle
    exact ⟨fun r read => (exec_dictSlotGet_reaches slot reach).trans (by rw [slotGet_idle idle rfl read]),
      fun r write => (exec_dictSlotSet_reaches slot reach).trans (by rw [slotSet_idle idle rfl write])⟩
  case busy =>
    intro s n slot reach busy
    exact ⟨(exec_dictSlotGet_reaches slot reach).trans (by rw [slotGet_busy busy]),
      (exec_dictSlotSet_reaches slot reach).trans (by rw [slotSet_busy busy])⟩
  case mailbox =>
    intro s f w st rest runs noMarker words
    exact ⟨fun who r get master read => runs_of_onDev rfl (mailboxAccess_get_master runs noMarker words get master read),
      fun who r set master whole write => runs_of_onDev rfl (mailboxAccess_set_master runs noMarker words set master whole write),
      fun get noMaster => runs_of_onDev rfl (mailboxAccess_get_unbound runs noMarker words get noMaster),
      fun set short => runs_of_onDev rfl (mailboxAccess_set_waits runs noMarker words set short),
      fun notGet notSet => ⟨runs_of_onDev rfl (mailboxAccess_otherOp runs noMarker words 1 notGet notSet),
        runs_of_onDev rfl (mailboxAccess_otherOp runs noMarker words 2 notGet notSet)⟩⟩
  case marker =>
    intro s f marker
    exact ⟨runs_of_onDev rfl (mailboxAccess_marker 1 marker), runs_of_onDev rfl (mailboxAccess_marker 2 marker)⟩

/-! ### The settings store (R440) -/

/-- A new copy is later than both copies that are whole, and goes where the earlier one stands. -/
theorem newCopy_facts (d : Dev) :
    d.dc.copyA.seqIn < (newCopy d).2.seq ∧ d.dc.copyB.seqIn < (newCopy d).2.seq ∧ (newCopy d).2.valid = true
      ∧ ((newCopy d).1 = 0 ↔ d.dc.copyA.seqIn ≤ d.dc.copyB.seqIn) := by
  refine ⟨Nat.lt_succ_of_le (le_max_left _ _), Nat.lt_succ_of_le (le_max_right _ _), rfl, ?_⟩
  by_cases older : d.dc.copyA.seqIn ≤ d.dc.copyB.seqIn <;> simp [newCopy, older]

theorem newCopy_lit {d : Dev} (lit : d.inMode .dark = false) :
    (newCopy d).2.binds = storedBinds d ∧ (newCopy d).2.tenants = storedTenants d :=
  ⟨if_neg (ne_true_of_eq_false lit), if_neg (ne_true_of_eq_false lit)⟩

theorem storeReply_unasked {d : Dev} (result : Nat) (unasked : d.dc.storeFor = none) : storeReply result d = d := by
  simp only [storeReply, unasked]

/-- The two copies after one of them is written. -/
theorem setCopy_dc (n : Nat) (c : Settings) (d : Dev) :
    (setCopy n c d).dc = { d.dc with copyA := if n = 0 then c else d.dc.copyA, copyB := if n = 0 then d.dc.copyB else c } := by
  unfold setCopy
  split <;> rfl

section
variable {d : Dev} {n : Nat} {c : Settings} (storing : d.dc.storing = some (n, c))
include storing

theorem storeComplete_verified :
    storeComplete true d =
      storeReply 0 (((setCopy n c { d with dc := { d.dc with storing := none, loaded := c } }).setVal Fam.settingsState 0 0).setVal
        Fam.settingsSequence 0 c.seq) := by
  simp only [storeComplete, storing, if_true]

theorem storeComplete_torn :
    storeComplete false d = storeReply rUnavailable (raise 0x250 n false
      ((setCopy n { c with valid := false } { d with dc := { d.dc with storing := none } }).setVal Fam.settingsState 0 2)) := by
  simp only [storeComplete, storing, Bool.false_eq_true, if_false]

end

theorem exec_settingsStoreComplete_running {s : State} {verified : Bool} {d : Dev} (running : s.dev.periscope = true)
    (e : storeComplete verified s.dev = d) : exec (.settingsStoreComplete verified) s = .next { s with dev := d } :=
  runs_of_onDev rfl ((if_pos running).trans e)

/-! ### The factory reset (R442) -/

/-- In DARK, FOCUS and ECLIPSE only a store that runs refuses a factory reset. -/
theorem factoryRefusal_allowed {d : Dev} (allowed : d.inMode .dark = true ∨ d.inMode .focus = true ∨ d.inMode .eclipse = true) :
    factoryRefusal 0xFAC7 d = if d.dc.storing.isSome then rBusy else 0 := by
  have mode : (d.inMode .dark || d.inMode .focus || d.inMode .eclipse) = true := by
    rcases allowed with h | h | h <;> simp [h]
  rw [factoryRefusal, if_neg (by simp [mode])]

theorem factoryRefusal_elsewhere (v : Nat) {d : Dev} (elsewhere : d.serving = true ∨ d.inMode .mirror = true) :
    factoryRefusal v d = rUnavailable := by
  have mode : (d.inMode .dark || d.inMode .focus || d.inMode .eclipse) = false := by
    rw [Dev.serving, Bool.or_eq_true] at elsewhere
    rcases elsewhere with (h | h) | h <;>
      simp [inMode_other h (n := .dark) (by decide), inMode_other h (n := .focus) (by decide), inMode_other h (n := .eclipse) (by decide)]
  exact if_pos (.inr mode)

theorem factoryRefusal_value {v : Nat} (d : Dev) (other : v ≠ 0xFAC7) : factoryRefusal v d = rUnavailable := if_pos (.inl other)

/-- A refused write of a row that makes a guarded write. -/
theorem runs_of_refused {c : Instr} {s : State} {who : Master} {f i r : Nat} {refusal : Dev → Nat} {k : Dev → Dev}
    (h : exec c s = onDev s (guardedWrite who f i refusal k)) (a : s.dev.accepts who f i) (refused : refusal s.dev = r) (fails : r ≠ 0) :
    exec c s = .next { s with dev := emit (.dict who r []) (refuseWrite s.dev) } := by
  subst refused
  exact runs_of_onDev h (guardedWrite_refused k a fails)

/-- Settles O41: each command by its equation in the clause's case; the new copy by `newCopy_facts`. -/
theorem settingsStoreAndFactoryReset : Obligations.SettingsStoreAndFactoryReset := by
  refine ⟨?store, ?copy, ?complete, ?reset⟩
  case store =>
    intro s who a
    refine ⟨fun idle => runs_of_onDev rfl (guardedWrite_accepted _ a ?_),
      fun busy => runs_of_refused (r := rBusy) rfl a ?_ (by decide),
      fun v other => runs_of_refused rfl a (if_pos other) (by decide)⟩
    · simp [storeRefusal, idle]
    · simp [storeRefusal, busy]
  case copy =>
    intro d
    obtain ⟨afterA, afterB, valid, place⟩ := newCopy_facts d
    exact ⟨afterA, afterB, valid, place.mp, fun other => Nat.lt_of_not_le (mt place.mpr other), newCopy_lit⟩
  case complete =>
    intro s n c running storing unasked
    refine ⟨?verified, ?torn⟩
    case verified =>
      have unasked' : (setCopy n c { s.dev with dc := { s.dev.dc with storing := none, loaded := c } }).dc.storeFor = none := by
        rw [setCopy_dc]; exact unasked
      refine ⟨_, exec_settingsStoreComplete_running running
        ((storeComplete_verified storing).trans (storeReply_unasked 0 unasked')), setCopy_dc _ _ _, ?_, val_setVal _ _ _ _, ?_⟩
      · rw [val_setVal_family _ _ (by decide) (by decide) (by decide), val_setVal]
      · rw [setVal_out, setVal_out, setCopy]
        split <;> rfl
    case torn =>
      have copies := setCopy_dc n { c with valid := false } { s.dev with dc := { s.dev.dc with storing := none } }
      refine ⟨_, rfl, fun zero => ?_, fun other => ?_, fun silent => ?_⟩
      · exact (congrArg Dict.copyB copies).trans (if_pos zero)
      · exact (congrArg Dict.copyA copies).trans (if_neg other)
      · exact exec_settingsStoreComplete_running running ((storeComplete_torn storing).trans (storeReply_unasked _ silent))
  case reset =>
    rintro s who q a rfl
    refine ⟨fun mode idle => runs_of_onDev rfl (guardedWrite_accepted _ a ?_),
      fun mode busy => runs_of_refused (r := rBusy) rfl a ?_ (by decide),
      fun elsewhere => runs_of_refused rfl a (factoryRefusal_elsewhere _ elsewhere) (by decide),
      fun v other => runs_of_refused rfl a (factoryRefusal_value _ other) (by decide)⟩
    · rw [factoryRefusal_allowed mode, idle]; rfl
    · rw [factoryRefusal_allowed mode, busy]; rfl

end Sys2Proof.Machine
end

section
/-!
SUPPORT. Falfer requests (R445 to R448, Table 16.10): how a request is discarded, how each of them is answered; O42.
-/

namespace Sys2Proof.Machine

/-! ### Accepted and discarded requests (R445) -/

/-- A request that is accepted runs on the device with its sequence noted. -/
theorem runs_of_heard {c : Instr} {s : State} {m : FalferMsg} {type : Nat} {b : List Byte} {k : Dev → Dev} {d : Dev}
    (h : exec c s = onDev s (falfer m type b k)) (heard : s.dev.heard m type b) (e : k (s.dev.noted m) = d) :
    exec c s = .next { s with dev := d } :=
  runs_of_onDev h ((falfer_heard k heard).trans e)

section
variable {d : Dev} {m : FalferMsg} {type : Nat} {b : List Byte} (ready : sbReady d = true)
include ready

theorem falfer_forged (k : Dev → Dev) (forged : genuine d m type b = false) :
    falfer m type b k d = raise 0x252 (m.sender.toNat % 2 ^ 32) false (d.bump Fam.sbAuthFailures) := by
  simp [falfer, ready, forged, discardMsg]

theorem falfer_replayed (k : Dev → Dev) (isGenuine : genuine d m type b = true) (old : seqFresh d m = false) :
    falfer m type b k d = raise 0x252 (m.sender.toNat % 2 ^ 32) false ((d.bump Fam.sbAuthFailures).bump Fam.sbReplays) := by
  simp [falfer, ready, isGenuine, old, discardMsg]

end

/-! ### GET (R446) -/

/-- One target's part keeps the reply within 1,404 B, or adds the four bytes of NOT_SENT. -/
theorem length_getTarget_le (p : Dev × List Byte) (t : Nat × Nat) :
    (getTarget p t).2.length ≤ max 1404 (p.2.length + 4) := by
  obtain ⟨d, b⟩ := p
  unfold getTarget
  dsimp only
  split
  · simp only [List.length_append, length_le] at *
    omega
  · simp only [List.length_append, length_le]
    omega

theorem length_foldl_getTarget_le (l : List (Nat × Nat)) (p : Dev × List Byte) :
    (l.foldl getTarget p).2.length ≤ max 1404 p.2.length + 4 * l.length := by
  induction l generalizing p with
  | nil => simp
  | cons t l ih =>
    have first := length_getTarget_le p t
    have rest := ih (getTarget p t)
    rw [List.foldl_cons, List.length_cons]
    omega

theorem getCountOk_iff (l : List (Nat × Nat)) : getCountOk l = true ↔ 0 < l.length ∧ l.length ≤ 16 := by simp [getCountOk]

theorem getReply_counted {m : FalferMsg} {l : List (Nat × Nat)} {d : Dev} (some_ : 0 < l.length) (atMost : l.length ≤ 16) :
    getReply m l d = falferReply m 0x01 rOk (getTargets l d).2 (getTargets l d).1 := if_pos ((getCountOk_iff l).mpr ⟨some_, atMost⟩)

theorem getReply_uncounted {m : FalferMsg} {l : List (Nat × Nat)} {d : Dev} (h : l.length = 0 ∨ 16 < l.length) :
    getReply m l d = falferReply m 0x01 rUnavailable [] d := by
  refine if_neg fun ok => ?_
  have := (getCountOk_iff l).mp ok
  omega

section
variable {tag : Word} {sender : BitVec 128} {port : Nat} {l : List (Nat × Nat)} {d : Dev} (ready : sbReady d = true)
include ready

theorem discovery_answered (named : l.all discoverable = true) (some_ : 0 < l.length) (atMost : l.length ≤ 16) :
    discovery tag sender port l d = emit (.falfer sender port 0 0x81 rOk tag 0 (getTargets l d).2 none) d := by
  simp only [discovery, ready, named, (getCountOk_iff l).mpr ⟨some_, atMost⟩, if_true]

theorem discovery_discarded (other : l.all discoverable = false) :
    discovery tag sender port l d = raise 0x252 (sender.toNat % 2 ^ 32) false (d.bump Fam.sbAuthFailures) := by
  simp only [discovery, ready, if_true, other, Bool.false_eq_true, if_false, discardMsg]

end

/-! ### SET, STORE and SUBSCRIBE -/

theorem setRequest_open {m : FalferMsg} {index sub : Nat} {b : List Byte} {d : Dev} (free : keyBarred m index sub b d = false) :
    setRequest m index sub b d =
      falferReply m 0x02 (writeObject .sideband index sub b d).1 [] (writeObject .sideband index sub b d).2 :=
  if_neg (ne_true_of_eq_false free)

theorem setRequest_barred {m : FalferMsg} {index sub : Nat} {b : List Byte} {d : Dev} (barred : keyBarred m index sub b d = true) :
    setRequest m index sub b d = falferReply m 0x02 rUnavailable [] (refuseWrite d) := if_pos barred

section
variable {m : FalferMsg} {d : Dev} {r : Nat × Dev} (write : r = writeFamily .sideband Fam.settingsStore 0 (le 2 0x5EA1) d)
include write

theorem storeRequest_starts (ok : r.1 = 0) : storeRequest m d = { r.2 with dc := { r.2.dc with storeFor := some m } } := by
  rw [storeRequest, ← write]
  exact if_pos ok

theorem storeRequest_refused (no : r.1 ≠ 0) : storeRequest m d = falferReply m 0x03 r.1 [] r.2 := by
  rw [storeRequest, ← write]
  exact if_neg no

end

theorem claimRequest_answered {m : FalferMsg} {a : Nat} {d : Dev} {r : Nat × Dev}
    (write : r = writeFamily .sideband Fam.claimRequest 0 (le 1 a) d) :
    claimRequest m a d =
      falferReply m 0x04 r.1 (le 1 r.2.dc.holder ++ le 1 0 ++ le 2 (readScalar r.2 Fam.claimRemainingMs 0)) r.2 := by
  rw [claimRequest, ← write]

section
variable {m : FalferMsg} {sev kinds udp life : Nat} {d : Dev}

theorem subscribe_ends {n : Nat} (zero : life = 0) (mine : subscriptionOf d m.sender udp = some n) :
    subscribe m sev kinds udp life d = falferReply m 0x05 rOk (le 1 n ++ le 3 0) (dropSubscription n d) := by
  simp only [subscribe, zero, if_true, mine]

section
variable (lasts : 0 < life)
include lasts

theorem subscribe_badSeverity (bad : sev < 1 ∨ 4 < sev) :
    subscribe m sev kinds udp life d = falferReply m 0x05 rUnavailable [] d := by
  simp only [subscribe, Nat.ne_of_gt lasts, if_false, bad, if_true]

theorem subscribe_taken {n : Nat} (lo : 1 ≤ sev) (hi : sev ≤ 4)
    (place : (subscriptionOf d m.sender udp <|> freeSubscription d) = some n) :
    subscribe m sev kinds udp life d = falferReply m 0x05 rOk (le 1 n ++ le 3 0)
      { d with sb := { d.sb with subs := tput d.sb.subs n (m.sender, udp, m.keySlot, sev, kinds) } } := by
  have good : ¬ (sev < 1 ∨ 4 < sev) := by omega
  simp only [subscribe, Nat.ne_of_gt lasts, if_false, good, place]

theorem subscribe_full (lo : 1 ≤ sev) (hi : sev ≤ 4) (mine : subscriptionOf d m.sender udp = none) (full : freeSubscription d = none) :
    subscribe m sev kinds udp life d = falferReply m 0x05 rUnavailable [] d := by
  have good : ¬ (sev < 1 ∨ 4 < sev) := by omega
  have noPlace : (subscriptionOf d m.sender udp <|> freeSubscription d) = none := by rw [mine, full]; rfl
  simp only [subscribe, Nat.ne_of_gt lasts, if_false, good, noPlace]

end

end

/-! ### FILE (R448) -/

section
variable {m : FalferMsg} {file off len : Nat} {d : Dev}

theorem fileRead_ring (one : file = 1) (short : len ≤ 1024) (within : off + len ≤ 4194304) :
    fileRead m file off len d = falferReply m 0x06 rOk (ringBytes d off len) d := if_pos ⟨one, short, within⟩

theorem fileRead_refused (h : file ≠ 1 ∨ 1024 < len ∨ 4194304 < off + len) :
    fileRead m file off len d = falferReply m 0x06 rUnavailable [] d := by
  refine if_neg fun ⟨one, short, within⟩ => ?_
  omega

theorem fileRefusal_unclaimed (image : file = 2 ∨ file = 3) (unclaimed : d.dc.holder ≠ 2) : fileRefusal file d = rClaimed := by
  have isImage : ¬ (file ≠ 2 ∧ file ≠ 3) := by omega
  rw [fileRefusal, if_neg isImage, if_pos unclaimed]

theorem fileWrite_refused {r : Nat} (refused : writeRefusal file off len d = r) (fails : r ≠ 0) :
    fileWrite m file off len d = falferReply m 0x06 r [] d := by
  subst refused
  exact if_pos fails

theorem fileWrite_accepted (accepted : writeRefusal file off len d = 0) :
    fileWrite m file off len d =
      (let e := if off = 0 then eraseSlot (file - 2) 2 d else d
       falferReply m 0x06 rOk [] (setImageSlot (file - 2) { e.imageSlot (file - 2) with
         written := (e.imageSlot (file - 2)).written ++ [(off, len)] } e)) := if_neg (not_not.mpr accepted)

theorem fileCommit_refused {r : Nat} (img : Option ImageFacts) (refused : fileRefusal file d = r) (fails : r ≠ 0) :
    fileCommit m file img d = falferReply m 0x06 r [] d := by
  subst refused
  exact if_pos fails

theorem fileCommit_accepted (img : Option ImageFacts) (accepted : fileRefusal file d = 0) :
    fileCommit m file img d =
      (let e := judgeSlot (file - 2) img d
       falferReply m 0x06 (if (e.imageSlot (file - 2)).st = 2 then rOk else rUnavailable) [] e) := if_neg (not_not.mpr accepted)

theorem writeRefusal_unclaimed (image : file = 2 ∨ file = 3) (unclaimed : d.dc.holder ≠ 2) : writeRefusal file off len d = rClaimed := by
  rw [writeRefusal, fileRefusal_unclaimed image unclaimed]
  rfl

end

/-- Settles O42: each request by its equation in the clause's case, on the device with its sequence noted. -/
theorem sideBandRequestsAreAuthenticated : Obligations.SideBandRequestsAreAuthenticated := by
  refine ⟨?discards, ?get, ?length, ?mac, ?discovery, ?set, ?store, ?claim, ?subscribe, ?expire, ?fileRead, ?fileWrite, ?fileCommit⟩
  case discards =>
    intro s m l ready
    exact ⟨fun forged => runs_of_onDev rfl (falfer_forged ready _ forged),
      fun isGenuine old => runs_of_onDev rfl (falfer_replayed ready _ isGenuine old)⟩
  case get =>
    rintro s m l r heard rfl
    exact ⟨fun some_ atMost => runs_of_heard rfl heard (getReply_counted some_ atMost),
      fun h => runs_of_heard rfl heard (getReply_uncounted h)⟩
  case length => intro l d; exact length_foldl_getTarget_le l (d, [])
  case mac => rintro d dest port k kind res tag pl q rfl; rfl
  case discovery =>
    intro s tag sender port l ready
    exact ⟨fun named some_ atMost => runs_of_onDev rfl (discovery_answered ready named some_ atMost),
      fun other => runs_of_onDev rfl (discovery_discarded ready other)⟩
  case set =>
    rintro s m index sub b d r heard rfl rfl
    exact ⟨fun free => runs_of_heard rfl heard (setRequest_open free), fun barred => runs_of_heard rfl heard (setRequest_barred barred)⟩
  case store =>
    rintro s m d r heard rfl write
    exact ⟨fun ok => runs_of_heard rfl heard (storeRequest_starts write ok),
      fun no => runs_of_heard rfl heard (storeRequest_refused write no)⟩
  case claim => intro s m a r heard write; exact runs_of_heard rfl heard (claimRequest_answered write)
  case subscribe =>
    rintro s m sev kinds udp life d heard rfl
    exact ⟨fun n zero mine => runs_of_heard rfl heard (subscribe_ends zero mine),
      fun lasts bad => runs_of_heard rfl heard (subscribe_badSeverity lasts bad),
      fun n lasts lo hi place => runs_of_heard rfl heard (subscribe_taken lasts lo hi place),
      fun lasts lo hi mine full => runs_of_heard rfl heard (subscribe_full lasts lo hi mine full)⟩
  case expire => intro s n running; exact runs_of_onDev rfl (if_pos running)
  case fileRead =>
    intro s m file off len heard
    exact ⟨fun one short within => runs_of_heard rfl heard (fileRead_ring one short within),
      fun h => runs_of_heard rfl heard (fileRead_refused h)⟩
  case fileWrite =>
    rintro s m file off b d heard rfl
    exact ⟨fun image unclaimed => runs_of_heard rfl heard (fileWrite_refused (writeRefusal_unclaimed image unclaimed) (by decide)),
      fun accepted => ⟨_, rfl, runs_of_heard rfl heard (fileWrite_accepted accepted)⟩⟩
  case fileCommit =>
    intro s m file img heard
    exact ⟨fun image unclaimed => runs_of_heard rfl heard (fileCommit_refused img (fileRefusal_unclaimed image unclaimed) (by decide)),
      fun accepted => ⟨_, rfl, runs_of_heard rfl heard (fileCommit_accepted img accepted)⟩⟩

end Sys2Proof.Machine
end

section
/-!
SUPPORT. Resets, trip and collapse (R40, R456, R457, R461 to R463, R467): what the core's going down leaves of the device, what POR_N,
a trip and a collapse leave; O1.
-/

namespace Sys2Proof.Machine

/-! ### Objects and tables -/

/-- Dropping the entries of other keys leaves an entry as it is. -/
theorem tget_filter_key {α : Type} {p : Nat → Bool} {k : Nat} (keeps : p k = true) (t : Tbl α) (d : α) :
    tget (t.filter fun e => p e.1) k d = tget t k d := by
  induction t with
  | nil => rfl
  | cons e r ih =>
    obtain ⟨a, v⟩ := e
    by_cases here : a = k
    · subst here; simp [tget, keeps]
    · by_cases kept : p a = true <;> simp [tget, kept, here, ih]

theorem val_filter_families {d e : Dev} {p : Nat → Bool} {f i : Nat} (vals : e.vals = d.vals.filter fun x => p (x.1 % 512)) (family : f < 512)
    (keeps : p f = true) : e.val f i = d.val f i := by
  have key : (fun k => p (k % 512)) (valKey f i) = true := by
    have : valKey f i % 512 = f := by unfold valKey; omega
    simp only [this, keeps]
  rw [Dev.val, vals]
  exact tget_filter_key (p := fun k => p (k % 512)) key d.vals _

theorem val_bump_family {d : Dev} {f i g j : Nat} (hf : f < 512) (hg : g < 512) (other : g ≠ f) : (d.bump f i).val g j = d.val g j :=
  val_addVal_other d 1 (by rw [Ne, valKey_inj hg hf]; exact fun e => other e.1)

/-! ### Mode changes -/

/-- A mode change counts in one object. -/
theorem changeMode_val {m : Mode} (trigger source severity : Nat) {f : Nat} (i : Nat) (d : Dev) (family : f < 512)
    (other : f ≠ Fam.deviceModeChanges) : (changeMode m trigger source severity d).val f i = d.val f i := by
  rcases changeMode_cases m trigger source severity d with ⟨-, same⟩ | ⟨o, signals⟩
  · rw [same]; rfl
  · rw [signals.val_eq]
    exact val_bump_family (d := d.setMode0 (some m)) (by decide) family other

/-! ### The core goes down (R40, R462) -/

theorem coreSignalsEnd_keeps (d : Dev) :
    (coreSignalsEnd d).pw = d.pw ∧ (coreSignalsEnd d).vals = d.vals ∧ (coreSignalsEnd d).fh.ring = d.fh.ring
      ∧ (coreSignalsEnd d).fh.head = d.fh.head := by
  have fall (n : Nat) (e : Dev) : (if srcPeriscope n then e else hubFall n e).pw = e.pw ∧ (if srcPeriscope n then e else hubFall n e).vals = e.vals
      ∧ (if srcPeriscope n then e else hubFall n e).fh.ring = e.fh.ring ∧ (if srcPeriscope n then e else hubFall n e).fh.head = e.fh.head := by
    split
    · exact ⟨rfl, rfl, rfl, rfl⟩
    · unfold hubFall
      dsimp only
      split <;> exact ⟨rfl, rfl, rfl, rfl⟩
  refine foldl_invariant (fun e => e.pw = d.pw ∧ e.vals = d.vals ∧ e.fh.ring = d.fh.ring ∧ e.fh.head = d.fh.head) _ (fun e n h => ?_) _
    ⟨rfl, rfl, rfl, rfl⟩
  obtain ⟨pw, vals, ring, head⟩ := h
  obtain ⟨pw', vals', ring', head'⟩ := fall n e
  exact ⟨pw'.trans pw, vals'.trans vals, ring'.trans ring, head'.trans head⟩

/-- The device in DARK, before what the core held is dropped. -/
def coreDark (d : Dev) : Dev := changeMode .dark 7 0xFFFF 0xFF (coreSignalsEnd d)

theorem coreDark_pw (d : Dev) : (coreDark d).pw = { d.pw with mode := some .dark } := by
  rw [coreDark, changeMode_pw, (coreSignalsEnd_keeps d).1]

theorem coreDark_val {f : Nat} (i : Nat) (d : Dev) (family : f < 512) (other : f ≠ Fam.deviceModeChanges) :
    (coreDark d).val f i = d.val f i := by
  obtain ⟨-, vals, -, -⟩ := coreSignalsEnd_keeps d
  rw [coreDark, changeMode_val _ _ _ i _ family other, Dev.val, vals]
  rfl

theorem coreDark_ring (d : Dev) : (coreDark d).fh.ring = d.fh.ring ∧ (coreDark d).fh.head = d.fh.head := by
  obtain ⟨-, -, ring, head⟩ := coreSignalsEnd_keeps d
  have kept := changeMode_hubKept .dark 7 0xFFFF 0xFF (coreSignalsEnd d)
  exact ⟨kept.ring_eq.trans ring, kept.head_eq.trans head⟩

/-- A dump that ran is lost with the core. -/
def dumpLost (dump : Nat) (d : Dev) : Dev := if dump = 1 ∨ dump = 2 then d.setVal Fam.pcacheDumpState 0 4 else d

theorem dumpLost_stage (dump : Nat) (d : Dev) :
    (emit (.pin "MP_PERST_N" false) ((dumpLost dump d).setVal Fam.bootStage 0 1)).val Fam.bootStage = 1 :=
  val_setVal (dumpLost dump d) Fam.bootStage 0 1

theorem dumpLost_eq (dump : Nat) (d : Dev) : dumpLost dump d = { d with vals := (dumpLost dump d).vals } := by
  unfold dumpLost
  split <;> rfl

theorem dumpLost_val {f : Nat} (dump i : Nat) (d : Dev) (family : f < 512) (other : f ≠ Fam.pcacheDumpState) :
    (dumpLost dump d).val f i = d.val f i := by
  unfold dumpLost
  split
  · exact val_setVal_family d 4 (by decide) family other
  · rfl

/-- What the core held is gone from `x`, where `d` was in DARK before. -/
structure CoreDropped (d x : Dev) : Prop where
  pw : ∃ orderly, x.pw = { d.pw with
    mpPerstLow := true, thermAlertLow := false, hostTerminated := false, trans := none, coreStarting := false, selfTested := false
    ddrReady := false, fetchStopped := false, parkPending := false, sagBelow := [], sagPct := 100, thermPct := 100, recovering := []
    orderly := orderly, triedSlots := [], katRunning := false }
  work : x.cm = Commands.empty ∧ x.fns = [] ∧ x.chans = [] ∧ x.staging = none ∧ x.mb.cmds = [] ∧ x.mb.jobs = []
  fh : x.fh = d.fh
  vals : x.vals = d.vals.filter fun e => !coreStatus.contains (e.1 % 512)

theorem coreDown_dropped (d : Dev) :
    ∃ dump x, coreDown d = emit (.pin "MP_PERST_N" false) ((dumpLost dump x).setVal Fam.bootStage 0 1) ∧ CoreDropped (coreDark d) x :=
  ⟨_, _, rfl, ⟨_, rfl⟩, ⟨rfl, rfl, rfl, rfl, rfl, rfl⟩, rfl, rfl⟩

theorem coreDown_ring (d : Dev) : (coreDown d).fh.ring = d.fh.ring ∧ (coreDown d).fh.head = d.fh.head := by
  obtain ⟨dump, x, down, dropped⟩ := coreDown_dropped d
  have fh : (coreDown d).fh = (coreDark d).fh := by rw [down, emit_fh, setVal_fh, dumpLost_eq, dropped.fh]
  rw [fh]
  exact coreDark_ring d

/-- The core's going down leaves the objects that are not status of the core. -/
theorem coreDown_val {f : Nat} (i : Nat) (d : Dev) (family : f < 512) (notStatus : coreStatus.contains f = false)
    (other : f ≠ Fam.deviceModeChanges ∧ f ≠ Fam.pcacheDumpState ∧ f ≠ Fam.bootStage) : (coreDown d).val f i = d.val f i := by
  obtain ⟨dump, x, down, dropped⟩ := coreDown_dropped d
  obtain ⟨modeChanges, dumpState, bootStage⟩ := other
  calc (coreDown d).val f i = ((dumpLost dump x).setVal Fam.bootStage 0 1).val f i := by rw [down]; rfl
    _ = x.val f i := by rw [val_setVal_family _ _ (by decide) family bootStage, dumpLost_val dump i x family dumpState]
    _ = (coreDark d).val f i := val_filter_families (p := fun g => !coreStatus.contains g) dropped.vals family (by rw [notStatus]; rfl)
    _ = d.val f i := coreDark_val i d family modeChanges

theorem coreStops_powered {d : Dev} (powered : corePowered d = true) : coreStops d = coreDown d := if_pos powered

/-- Stopping the core keeps what a property of `coreDown` keeps. -/
theorem coreStops_keeps {γ : Type} (p : Dev → γ) {d : Dev} (down : p (coreDown d) = p d) : p (coreStops d) = p d := by
  unfold coreStops
  split
  · exact down
  · rfl

/-! ### POR_N (R441, R457, R462, R463) -/

/-- The device as POR_N releases it, before Periscope loads the settings. -/
def porStarted (mode : Nat) (pairId : Bool) (d : Dev) : Dev :=
  let e := { d with pw := { Power.inReset with
    porHigh := true, coreRstHigh := d.pw.coreRstHigh, orderly := d.pw.orderly, adminPort := d.pw.adminPort, bootMode := mode % 4
    pairId := pairId } }
  (((changeMode .dark 2 0xFFFF 0xFF e).bump Fam.bootPorCount).setVal Fam.bootStage 0 1).setVal Fam.bootStraps 0 (mode % 4 + 4 * b2n pairId)

theorem porRelease_eq (mode : Nat) (pairId : Bool) (d : Dev) :
    porRelease mode pairId d = raise 0x253 0 false (loadSettings (porStarted mode pairId d)) := rfl

section
variable (mode : Nat) (pairId : Bool) (d : Dev)

theorem porStarted_pw :
    (porStarted mode pairId d).pw = { Power.inReset with
      porHigh := true, coreRstHigh := d.pw.coreRstHigh, orderly := d.pw.orderly, adminPort := d.pw.adminPort, bootMode := mode % 4
      pairId := pairId, mode := some .dark } := by
  simp only [porStarted, setVal_pw, bump_pw, changeMode_pw]

theorem porStarted_stage : (porStarted mode pairId d).val Fam.bootStage = 1 := by
  simp only [porStarted]
  rw [val_setVal_family _ _ (by decide) (by decide) (by decide), val_setVal]

theorem porStarted_straps : (porStarted mode pairId d).val Fam.bootStraps = mode % 4 + 4 * b2n pairId := val_setVal _ _ _ _

end

theorem exec_porNRelease (mode : Nat) (pairId : Bool) (s : State) :
    exec (.porNRelease mode pairId) s = onDev s (fun d => if d.pw.porHigh then d else porRelease mode pairId d) := rfl

theorem porRelease_high {mode : Nat} {pairId : Bool} {s : State} (high : s.dev.pw.porHigh = true) : exec (.porNRelease mode pairId) s = .next s :=
  runs_of_onDev (exec_porNRelease mode pairId s) (if_pos high)

theorem porRelease_low {mode : Nat} {pairId : Bool} {s : State} (low : s.dev.pw.porHigh = false) :
    exec (.porNRelease mode pairId) s = .next { s with dev := porRelease mode pairId s.dev } :=
  runs_of_onDev (exec_porNRelease mode pairId s) (if_neg (ne_true_of_eq_false low))

/-! ### Collapse (R424, R457) -/

/-- The record that the last gasp writes. -/
def gaspRecord (d : Dev) : BbRecord :=
  { kind := 0x03, flags := b2n d.unsynced, source := 0xFFFF, severity := 0xFF, mode := 0, time := d.tm.device, payload := gaspPayload d }

theorem collapse_eq (d : Dev) :
    collapse d =
      (let e := resetAll (tearStore (writeRecord (gaspRecord (d.bump Fam.powerCollapses)) (d.bump Fam.powerCollapses).draw))
       { e with pw := { e.pw with porHigh := true, collapsed := true } }) := rfl

theorem tearStore_eq (d : Dev) : tearStore d = { d with dc := (tearStore d).dc } := by
  unfold tearStore
  split <;> rfl

theorem resetAll_ring (d : Dev) : (resetAll d).fh.ring = d.fh.ring ∧ (resetAll d).fh.head = d.fh.head :=
  ⟨coreStops_keeps (·.fh.ring) (coreDown_ring d).1, coreStops_keeps (·.fh.head) (coreDown_ring d).2⟩

/-- POR_N leaves the objects held in MRAM, those of the core's status apart. -/
theorem resetAll_val {f : Nat} (i : Nat) (d : Dev) (family : f < 512) (held : heldObject f = true) (notStatus : coreStatus.contains f = false)
    (other : f ≠ Fam.deviceModeChanges ∧ f ≠ Fam.pcacheDumpState ∧ f ≠ Fam.bootStage) : (resetAll d).val f i = d.val f i :=
  (val_filter_families (d := coreStops d) rfl family held).trans (coreStops_keeps (·.val f i) (coreDown_val i d family notStatus other))

/-- The kind of a record is its byte 16 (Table 15.6). -/
theorem recordImage_kind (seq boot mode : Nat) (r : BbRecord) : (recordImage seq boot mode r).getD 16 0 = BitVec.ofNat 8 r.kind := by
  have head : (le 8 seq ++ le 8 r.time).length = 16 := by simp
  simp only [recordImage, List.append_assoc]
  rw [← List.append_assoc, List.getD_append_right _ _ _ _ head.le, head]
  simp [le]

theorem collapse_record (d : Dev) :
    (collapse d).fh.head = d.fh.head + 1 ∧ (tget (collapse d).fh.ring ((d.fh.head + 1) % 65536) []).getD 16 0 = 0x03 := by
  have counted : (d.bump Fam.powerCollapses).fh = d.fh := bump_fh d _ _
  obtain ⟨boot, mode, written⟩ := writeRecord_ring (gaspRecord (d.bump Fam.powerCollapses)) (d.bump Fam.powerCollapses).draw
  rw [draw_fh, counted] at written
  have kept := resetAll_ring (tearStore (writeRecord (gaspRecord (d.bump Fam.powerCollapses)) (d.bump Fam.powerCollapses).draw))
  rw [tearStore_eq, written] at kept
  obtain ⟨ring, head⟩ := kept
  rw [collapse_eq, tearStore_eq, written]
  refine ⟨head, ?_⟩
  show (tget (resetAll _).fh.ring _ []).getD 16 0 = _
  rw [ring, tget_tput_same, recordImage_kind]
  rfl

theorem collapse_counts {d : Dev} (room : d.val Fam.powerCollapses + 1 < 2 ^ 32) :
    (collapse d).val Fam.powerCollapses = d.val Fam.powerCollapses + 1 := by
  have torn := tearStore_eq (writeRecord (gaspRecord (d.bump Fam.powerCollapses)) (d.bump Fam.powerCollapses).draw)
  calc (collapse d).val Fam.powerCollapses
      = (tearStore (writeRecord (gaspRecord (d.bump Fam.powerCollapses)) (d.bump Fam.powerCollapses).draw)).val Fam.powerCollapses :=
        resetAll_val 0 _ (by decide) (by decide +kernel) (by decide +kernel) (by decide)
    _ = (d.bump Fam.powerCollapses).val Fam.powerCollapses := by rw [torn]; rfl
    _ = d.val Fam.powerCollapses + 1 := val_bump d room

/-! ### Thermal trip (R461, R467) -/

theorem startDump_starts (quiet : Bool) {d : Dev} (noImage : d.pc.image = none) (idle : d.val Fam.pcacheDumpState = 0) :
    startDump quiet d =
      ({ d with pc := { d.pc with quiet := quiet, dumpTime := d.tm.device, testing := false } }).setVal Fam.pcacheDumpState 0 1 := by
  simp [startDump, noImage, idle]

section
variable {d : Dev} (running : d.periscope = true) (untripped : d.pw.tripped = false)
include running untripped

theorem thermalTrip_waits (dumping : d.val Fam.pcacheDumpState = 1 ∨ d.val Fam.pcacheDumpState = 2) :
    thermalTrip d = { d with pw := { d.pw with tripPending := true } } := by
  simp only [thermalTrip, running, untripped, Bool.not_false, Bool.and_true, if_true, if_pos dumping]

theorem thermalTrip_dumps (powered : corePowered d = true) (ddr : d.pw.ddrReady = true) (holds : windowHolds d = true)
    (idle : d.val Fam.pcacheDumpState = 0) (noImage : d.pc.image = none) :
    thermalTrip d = { startDump true d with pw := { (startDump true d).pw with tripPending := true } } := by
  simp [thermalTrip, running, untripped, powered, ddr, holds, idle, noImage]

theorem thermalTrip_trips (noDump : ¬ (d.val Fam.pcacheDumpState = 1 ∨ d.val Fam.pcacheDumpState = 2))
    (nothing : ¬ (corePowered d = true ∧ d.pw.ddrReady = true ∧ windowHolds d = true
      ∧ d.val Fam.pcacheDumpState = 0 ∧ d.pc.image.isNone = true)) : thermalTrip d = trip d := by
  have due : (corePowered d && d.pw.ddrReady && windowHolds d && d.val Fam.pcacheDumpState == 0 && d.pc.image.isNone) = false := by
    rw [Bool.eq_false_iff]
    simpa only [Ne, Bool.and_eq_true, beq_iff_eq, and_assoc] using nothing
  simp only [thermalTrip, running, untripped, Bool.not_false, Bool.and_true, if_true, if_neg noDump, due, Bool.false_eq_true, if_false]

end

/-- What a trip leaves: CORE_PWR_EN low, and nothing pending. -/
theorem trip_leaves (d : Dev) :
    (trip d).pw.corePwrEn = false ∧ (trip d).pw.tripPending = false ∧ (trip d).pw.tripped = true
      ∧ (trip d).out.getLast? = some (.pin "CORE_PWR_EN" false) :=
  ⟨rfl, rfl, rfl, List.getLast?_concat⟩

/-! ### CORE_RST_N (R456, R467) -/

theorem exec_coreRstAssert {s : State} {c : Instr} (h : c = .coreRstNAssert ∨ c = .corePowerLoss) :
    exec c s = .next { s with dev := coreStops { s.dev with pw := { s.dev.pw with coreRstHigh := false } } } := by
  rcases h with rfl | rfl <;> rfl

theorem coreStart_due {d : Dev} (running : d.periscope = true) (on : d.pw.corePwrEn = true) (dark : d.inMode .dark = true)
    (stage : d.val Fam.bootStage = 2) (idle : d.pw.coreStarting = false) :
    (d.periscope && d.pw.corePwrEn && d.inMode .dark && d.val Fam.bootStage == 2 && !d.pw.coreStarting) = true := by
  simp [running, on, dark, stage, idle]

/-- Settles O1: each command by its equation in the clause's case, the core's going down by `coreDown_dropped`. -/
theorem resetPinsAndTripEnterDark : Obligations.ResetPinsAndTripEnterDark := by
  refine ⟨?porAssert, ?porHigh, ?porRelease, ?coreReset, ?coreDark, ?level, ?starts, ?tripWaits, ?tripDumps, ?trips, ?waitEnds, ?restart,
    ?collapse, ?collapseRestart⟩
  case porAssert =>
    intro s
    exact ⟨_, rfl, rfl, rfl, rfl, rfl, rfl, rfl, rfl, rfl, rfl, rfl, List.getLast?_concat⟩
  case porHigh => intro s m p high; exact porRelease_high high
  case porRelease =>
    intro s m p low
    have pw := porStarted_pw m p s.dev
    exact ⟨porStarted m p s.dev, (porRelease_low low).trans (by rw [porRelease_eq]),
      congrArg Power.mode pw, congrArg Power.porHigh pw, congrArg Power.bootMode pw, congrArg Power.pairId pw,
      porStarted_stage m p s.dev, porStarted_straps m p s.dev⟩
  case coreReset => intro s; exact ⟨rfl, rfl⟩
  case coreDark =>
    intro s c h powered _
    have stops : coreStops { s.dev with pw := { s.dev.pw with coreRstHigh := false } } = _ := coreStops_powered powered
    obtain ⟨dump, x, down, ⟨orderly, pw⟩, ⟨cm, fns, chans, staging, cmds, jobs⟩, -, -⟩ :=
      coreDown_dropped { s.dev with pw := { s.dev.pw with coreRstHigh := false } }
    refine ⟨_, (exec_coreRstAssert h).trans (by rw [stops, down]), ?_⟩
    rw [coreDark_pw] at pw
    have stage := dumpLost_stage dump x
    rw [dumpLost_eq] at stage ⊢
    exact ⟨congrArg Power.coreRstHigh pw, congrArg Power.mpPerstLow pw, congrArg Power.trans pw, congrArg Power.coreStarting pw,
      cm, fns, chans, staging, cmds, jobs, stage, congrArg Power.mode pw, List.getLast?_concat⟩
  case level =>
    intro s off
    exact runs_of_onDev rfl (if_neg (by simp [off]))
  case starts =>
    intro s running on dark stage idle
    exact runs_of_onDev rfl (if_pos (coreStart_due (d := { s.dev with pw := { s.dev.pw with coreRstHigh := true } }) running on dark stage idle))
  case tripWaits => intro s running untripped dumping; exact runs_of_onDev rfl (thermalTrip_waits running untripped dumping)
  case tripDumps =>
    intro s running untripped idle powered ddr holds noImage
    refine ⟨_, runs_of_onDev rfl (thermalTrip_dumps running untripped powered ddr holds idle noImage), ?_⟩
    have starts := startDump_starts true noImage idle
    have dumping : (startDump true s.dev).val Fam.pcacheDumpState = 1 := by rw [starts]; exact val_setVal _ _ _ _
    refine ⟨?_, ?_, dumping⟩
    · rw [starts]; rfl
    · rw [starts]; rfl
  case trips =>
    intro s running untripped notRunning notStreaming nothing
    obtain ⟨off, -, tripped, -⟩ := trip_leaves s.dev
    exact ⟨_, runs_of_onDev rfl (thermalTrip_trips running untripped (by omega) nothing), rfl, off, tripped⟩
  case waitEnds => intro s pending; exact ⟨_, runs_of_onDev rfl (if_pos pending), trip_leaves s.dev⟩
  case restart => intro s running tripped; exact runs_of_onDev rfl (if_pos (by simp [running, tripped]))
  case collapse =>
    intro s running room
    obtain ⟨head, kind⟩ := collapse_record s.dev
    exact ⟨_, runs_of_onDev rfl (if_pos running), collapse_counts room, head, kind, rfl, rfl, rfl, rfl, rfl, rfl⟩
  case collapseRestart =>
    intro s m p high collapsed
    have pw := porStarted_pw m p s.dev
    exact ⟨porStarted m p s.dev, runs_of_onDev rfl ((if_pos (by simp [high, collapsed])).trans (porRelease_eq m p s.dev)),
      congrArg Power.mode pw, congrArg Power.collapsed pw, congrArg Power.bootMode pw, congrArg Power.pairId pw, porStarted_stage m p s.dev⟩

end Sys2Proof.Machine
end

section
/-!
SUPPORT. Boot (R29, R233, R251, R465, R466): what a verified and a failed image, the self-test and the core's settings leave of the device.
Every clause of O2 but one holds (`bootAdvancesStageByStage_iff`). The clause on failing engines turns on the opaque `Config.freeNat`: O2
holds where free values are alike (`bootAdvancesStageByStage_of_alike`) and fails where the first two differ in a certain way
(`not_bootAdvancesStageByStage_of_freeNat`), so neither it nor its negation has a proof.
-/

namespace Sys2Proof.Machine

/-! ### Verification of the image (R29, R465) -/

/-- A slot is due for verification while CORE_PWR_EN is low. -/
structure VerifyDue (slot : Nat) (d : Dev) : Prop where
  running : d.periscope = true
  dark : d.inMode .dark = true
  stage : d.val Fam.bootStage = 1
  idle : d.pw.coreStarting = false
  untripped : d.pw.tripped = false
  off : d.pw.corePwrEn = false
  next : nextSlot d = some slot

section
variable {slot : Nat} {d : Dev} (due : VerifyDue slot d)
include due

theorem imageVerify_due (img : Option ImageFacts) :
    imageVerify slot img d = match img with
      | some i => if imageValid d i && (d.imageSlot slot).st != 1 then imagePasses slot i d else imageFails slot img d
      | none => imageFails slot none d := by
  obtain ⟨running, dark, stage, idle, untripped, off, next⟩ := due
  exact if_pos (by simp [running, dark, stage, idle, untripped, off, next])

theorem imageVerify_passes {i : ImageFacts} (valid : imageValid d i = true) (whole : (d.imageSlot slot).st ≠ 1) :
    imageVerify slot (some i) d = imagePasses slot i d := by
  rw [imageVerify_due due]
  exact if_pos (by simp [valid, whole])

theorem imageVerify_fails {img : Option ImageFacts} (bad : ∀ i, img = some i → imageValid d i = false) :
    imageVerify slot img d = imageFails slot img d := by
  rw [imageVerify_due due]
  cases img with
  | none => rfl
  | some i => exact if_neg (by simp [bad i rfl])

end

/-- The device with the image running, before the core starts. -/
def imageRuns (slot : Nat) (i : ImageFacts) (d : Dev) : Dev :=
  let e := setImageSlot slot { d.imageSlot slot with st := 2, img := some i } d
  bootRecord slot ((setCorePwr true { e with fw := { e.fw with version := i.fwVersion, svn := i.svn } }).setVal Fam.bootBootedSlot 0 slot)

theorem imagePasses_eq (slot : Nat) (i : ImageFacts) (d : Dev) :
    imagePasses slot i d = if d.pw.coreRstHigh then startCore (imageRuns slot i d) else (imageRuns slot i d).setVal Fam.bootStage 0 2 := rfl

theorem imageRuns_pw (slot : Nat) (i : ImageFacts) (d : Dev) : (imageRuns slot i d).pw = { d.pw with corePwrEn := true } := rfl

theorem imageRuns_bootedSlot (slot : Nat) (i : ImageFacts) (d : Dev) : (imageRuns slot i d).val Fam.bootBootedSlot = slot :=
  val_setVal _ Fam.bootBootedSlot 0 slot

/-! ### An image that fails (R29) -/

/-- The failure of a boot image acts with severity 2, whatever the state of the core. -/
theorem raise_imageFault {d : Dev} (slot : Nat) (running : d.periscope = true) :
    raise 0x002 slot false d = hubStages 0x002 2 false (onsetRegs 0x002 slot true false (some 2) d) := by
  have signals : d.canSignal 0x002 = true := by
    simp only [Dev.canSignal, running, show srcReserved 0x002 = false from rfl, show srcPeriscope 0x002 = true from rfl, Bool.or_true,
      Bool.not_false, Bool.and_self]
  have severity : d.severity 0x002 = 2 := rfl
  have onset : hubReal 0x002 slot false d = hubOnset 0x002 slot true false 2 false d := by
    rw [hubReal, severity, signals]
    rfl
  rw [raise, severity, onset, signals]
  rfl

/-- The device with the slot's state noted, before the fault is raised. -/
def slotTried (slot : Nat) (img : Option ImageFacts) (d : Dev) : Dev :=
  let e := if (d.imageSlot slot).st = 1 then d
    else setImageSlot slot { d.imageSlot slot with st := if img.isSome then 3 else 0, img := img } d
  { e with pw := { e.pw with triedSlots := e.pw.triedSlots ++ [slot] } }

theorem slotTried_pw (slot : Nat) (img : Option ImageFacts) (d : Dev) :
    (slotTried slot img d).pw = { d.pw with triedSlots := d.pw.triedSlots ++ [slot] } := by
  unfold slotTried
  split <;> rfl

/-- The device with the fault raised. -/
def imageFaulted (slot : Nat) (img : Option ImageFacts) (d : Dev) : Dev := raise 0x002 slot false (slotTried slot img d)

theorem imageFails_eq (slot : Nat) (img : Option ImageFacts) (d : Dev) :
    imageFails slot img d =
      if (nextSlot (imageFaulted slot img d)).isNone then bootRecord slot (setCorePwr false (imageFaulted slot img d))
      else imageFaulted slot img d := rfl

/-- `imageFails` leaves what the last record and the pin do not touch as the fault leaves it. -/
theorem imageFails_keeps {γ : Type} (p : Dev → γ) (slot : Nat) (img : Option ImageFacts) {d : Dev}
    (record : ∀ e, p (bootRecord slot (setCorePwr false e)) = p e) : p (imageFails slot img d) = p (imageFaulted slot img d) := by
  rw [imageFails_eq]
  split
  · exact record _
  · rfl

section
variable {d : Dev} (running : d.periscope = true) (slot : Nat) (img : Option ImageFacts)
include running

theorem imageFaulted_stages :
    imageFaulted slot img d = hubStages 0x002 2 false (onsetRegs 0x002 slot true false (some 2) (slotTried slot img d)) := by
  refine raise_imageFault slot ?_
  rw [Dev.periscope, slotTried_pw]
  exact running

theorem imageFaulted_pw : (imageFaulted slot img d).pw = { d.pw with triedSlots := d.pw.triedSlots ++ [slot] } := by
  rw [imageFaulted_stages running, hubStages_pw, ← slotTried_pw slot img d]
  rfl

theorem imageFaulted_shows :
    ((imageFaulted slot img d).src 0x002).latched = true ∧ ((imageFaulted slot img d).src 0x002).detail = slot % 2 ^ 32 := by
  have shows := (hubStages_shows 0x002 2 false (onsetRegs 0x002 slot true false (some 2) (slotTried slot img d))).same
  rw [← imageFaulted_stages running, onsetRegs_eq, src_setSrc] at shows
  exact ⟨congrArg FaultSrc.latched shows, congrArg FaultSrc.detail shows⟩

end

/-- After the last slot the core stays unpowered, and a BOOT record waits. -/
theorem imageFails_last (slot : Nat) (img : Option ImageFacts) (d : Dev) (last : nextSlot (imageFails slot img d) = none) :
    (imageFails slot img d).pw.corePwrEn = false ∧ (imageFails slot img d).fh.queue.getLast?.map (·.kind) = some 0x0A := by
  have none_ : (nextSlot (imageFaulted slot img d)).isNone = true := by
    rw [← imageFails_keeps nextSlot slot img fun _ => rfl, last]
    rfl
  rw [imageFails_eq, if_pos none_]
  exact ⟨rfl, congrArg (Option.map BbRecord.kind) List.getLast?_concat⟩

/-! ### Self-test (R29, R190) -/

/-- The device with the result of the known-answer test noted. -/
def katNoted (k : BitVec 16) (d : Dev) : Dev := (d.setVal Fam.prismKatResult 0 k.toNat).bump Fam.prismKatRuns

theorem katNoted_result (k : BitVec 16) (d : Dev) : (katNoted k d).val Fam.prismKatResult = k.toNat := by
  rw [katNoted, val_bump_family (by decide) (by decide) (by decide), val_setVal]

theorem katNoted_pw (k : BitVec 16) (d : Dev) : (katNoted k d).pw = d.pw := bump_pw _ _ _

section
variable {d : Dev} (starting : d.pw.coreStarting = true) (stage : d.val Fam.bootStage = 3)
include starting stage

theorem selfTest_passes :
    selfTest none 0 d = ({ katNoted 0 d with pw := { (katNoted 0 d).pw with selfTested := true } }).setVal Fam.bootStage 0 4 :=
  if_pos (by simp [starting, stage])

theorem selfTest_blockFails (cal : Bool) (block : Nat) (k : BitVec 16) :
    selfTest (some (cal, block)) k d = katFaults k (raise (if cal then 0x001 else 0x000) block false (katNoted k d)) := by
  rw [selfTest, if_pos (by simp [starting, stage])]
  cases cal <;> rfl

theorem selfTest_enginesFail {k : BitVec 16} (fails : k ≠ 0) :
    selfTest none k d = katFaults k (raise 0x000 (Config.freeNat (katNoted k d).fresh) false (katNoted k d)).draw := by
  rw [selfTest, if_pos (by simp [starting, stage])]
  dsimp only
  rw [if_neg fails]
  rfl

end

/-! ### The core's settings (R441) -/

theorem startTenant_blocksWritten (now : Nat) (e x : Tenant) : (startTenant now e x).blocksWritten = x.blocksWritten := rfl

/-- The token table's entries from the settings leave the counters as they were (R151). -/
theorem foldl_startTenant_blocksWritten (now t : Nat) (l : List (Nat × Tenant)) (tenants : Tbl Tenant) :
    (tget (l.foldl (fun r e => tset r e.1 (startTenant now e.2 (tget r e.1 Tenant.undefined)) Tenant.undefined) tenants) t
      Tenant.undefined).blocksWritten = (tget tenants t Tenant.undefined).blocksWritten := by
  induction l generalizing tenants with
  | nil => rfl
  | cons e r ih =>
    rw [List.foldl_cons, ih, tget_tset]
    split
    next same => rw [same, startTenant_blocksWritten]
    next => rfl

/-- Bindings change the functions alone. -/
theorem loadCore_binds {γ : Type} (p : Dev → γ) (d : Dev) (setFn : ∀ e f x, p (e.setFn f x) = p e) :
    p (loadCore d) = p { loadValues false d.dc.loaded d with
      tenants := d.dc.loaded.tenants.foldl
        (fun t e => tset t e.1 (startTenant d.tm.now e.2 (tget t e.1 Tenant.undefined)) Tenant.undefined) d.tenants } :=
  foldl_keeps p _ (fun e _ => setFn e _ _) _ _

theorem loadCore_pw (d : Dev) : (loadCore d).pw = d.pw := loadCore_binds (·.pw) d fun _ _ _ => rfl

theorem loadCore_out (d : Dev) : (loadCore d).out = d.out := loadCore_binds (·.out) d fun _ _ _ => rfl

theorem loadCore_blocksWritten (d : Dev) (t : Nat) : ((loadCore d).ten t).blocksWritten = (d.ten t).blocksWritten :=
  (loadCore_binds (fun e => (e.ten t).blocksWritten) d fun _ _ _ => rfl).trans (foldl_startTenant_blocksWritten _ t _ d.tenants)

/-! ### Trained DDR (R233, R441) -/

/-- The device with DDR ready and the core's settings taken, before it shows them. -/
def ddrStarted (d : Dev) : Dev := loadCore { d with pw := { d.pw with ddrReady := true, mpPerstLow := false } }

/-- DDR's size and mode and the division of the member ports are shown, boot goes on, and the members come out of reset. -/
def ddrShown (config capacity : Nat) (split : List Nat) (d : Dev) : Dev :=
  let e := (d.setVal Fam.ddrConfig 0 config).setVal Fam.ddrCapacityGib 0 capacity
  emit (.pin "MP_PERST_N" true) (({ e with mb := { e.mb with bifurcated := split } }).setVal Fam.bootStage 0 5)

section
variable (config capacity : Nat) (split : List Nat) (d : Dev)

theorem ddrShown_config : (ddrShown config capacity split d).val Fam.ddrConfig = config :=
  calc (ddrShown config capacity split d).val Fam.ddrConfig
      = ((d.setVal Fam.ddrConfig 0 config).setVal Fam.ddrCapacityGib 0 capacity).val Fam.ddrConfig :=
        val_setVal_family (f := Fam.bootStage) _ 5 (by decide) (by decide) (by decide)
    _ = config := by rw [val_setVal_family _ _ (by decide) (by decide) (by decide), val_setVal]

theorem ddrShown_capacity : (ddrShown config capacity split d).val Fam.ddrCapacityGib = capacity :=
  calc (ddrShown config capacity split d).val Fam.ddrCapacityGib
      = ((d.setVal Fam.ddrConfig 0 config).setVal Fam.ddrCapacityGib 0 capacity).val Fam.ddrCapacityGib :=
        val_setVal_family (f := Fam.bootStage) _ 5 (by decide) (by decide) (by decide)
    _ = capacity := val_setVal _ _ _ _

theorem ddrShown_stage : (ddrShown config capacity split d).val Fam.bootStage = 5 := val_setVal _ Fam.bootStage 0 5

end

section
variable {d : Dev} (starting : d.pw.coreStarting = true) (stage : d.val Fam.bootStage = 4)
include starting stage

theorem ddrTrained_none : ddrTrained none d = raise 0x000 0 false d := if_pos (by simp [starting, stage])

theorem ddrTrained_fits {gib rate : Nat} {two : Bool} (lr : Bool) (size : gib = 16 ∨ gib = 32 ∨ gib = 64)
    (speed : rate ≤ (if two then 2933 else 3200)) :
    ∃ split, ddrTrained (some (gib, two, lr, rate)) d =
      ddrShown (gib + 256 * b2n two + 512 * b2n lr + 65536 * (rate / 100)) (12 * gib * (if two then 2 else 1)) split (ddrStarted d) :=
  ⟨_, (if_pos (by simp [starting, stage])).trans (if_pos ⟨size, speed⟩)⟩

end

/-! ### The vault headers (R251) -/

theorem headState_badCrc {d : Dev} {lead : Quad} {h : VaultHead} (bad : (crc32c (h.bytes.take 0xFFC)).toNat ≠ fieldAt h.bytes 0xFFC 4) :
    headState d lead h = 0 ∨ headState d lead h = 4 := by
  unfold headState
  dsimp only
  rw [if_pos bad]
  split
  · exact .inl rfl
  · exact .inr rfl

/-! ### RECOVERY_COMPLETE (R220) -/

section
variable {d : Dev} {a : Nat} {x : Arr} (here : d.arr? a = some x)
include here

theorem recoveryComplete_offline (offline : x.offline ≠ 0) (focus : d.inMode .focus = true) :
    recoveryComplete a d = recoveryEnds a d := by
  simp only [recoveryComplete, here, if_pos offline, focus, if_true]

theorem recoveryComplete_placed (online : x.offline = 0) (recovering : x.recovery.isSome = true) (placed : x.recovered = true)
    (executing : d.executing = true) :
    recoveryComplete a d = if pagesDue d a then startCheckpoint d else recoveryEnds a (closeOut a d) := by
  simp only [recoveryComplete, here, online, ne_eq, not_true_eq_false, if_false, recovering, placed, executing, Bool.and_self, if_true]

end

theorem recoveryEnds_noImage (a : Nat) {d : Dev} (noImage : d.pc.image = none) :
    recoveryEnds a d = settle { d with pw := { d.pw with recovering := d.pw.recovering.filter (· != a) } } := by
  simp only [recoveryEnds, noImage, Option.isSome_none, Bool.and_false, Bool.false_eq_true, if_false]

/-- O2's clause on a self-test whose engines alone fail: it draws the block code's free value after the engines' faults, where the model
draws it before them (`selfTest_enginesFail`). -/
def EnginesFailThenDraw : Prop :=
  ∀ s k, s.dev.pw.coreStarting = true → s.dev.val Fam.bootStage = 3 → k ≠ 0 → ∃ (d : Dev) (b : Nat),
    exec (.selfTestComplete none k) s = .next { s with dev := (katFaults k (raise 0x000 b false d)).draw } ∧ d.val Fam.prismKatResult = k.toNat

/-- Every other clause of O2 holds, each command by its equation in the clause's case. -/
theorem bootAdvancesStageByStage_iff : Obligations.BootAdvancesStageByStage ↔ EnginesFailThenDraw := by
  refine ⟨fun ⟨_, _, _, _, engines, _⟩ => engines, fun engines => ?_⟩
  refine ⟨?passes, ?fails, ?selfTested, ?blockFails, engines, ?ddr, ?badDdr, ?assembles, ?badCrc, ?closesOut, ?offline, ?noImage,
    ?phy, ?plca⟩
  case passes =>
    intro s slot i running dark stage idle untripped off next valid whole
    refine ⟨_, runs_of_onDev rfl (imageVerify_passes ⟨running, dark, stage, idle, untripped, off, next⟩ valid whole), ?_⟩
    rw [imagePasses_eq]
    have slotKept (v : Nat) : ((imageRuns slot i s.dev).setVal Fam.bootStage 0 v).val Fam.bootBootedSlot = slot :=
      (val_setVal_family _ v (by decide) (by decide) (by decide)).trans (imageRuns_bootedSlot slot i s.dev)
    cases high : s.dev.pw.coreRstHigh with
    | false => exact ⟨rfl, rfl, rfl, slotKept 2, val_setVal _ Fam.bootStage 0 2, idle⟩
    | true => exact ⟨rfl, rfl, rfl, slotKept 3, val_setVal _ Fam.bootStage 0 3, rfl⟩
  case fails =>
    intro s slot img running dark stage idle untripped off next bad
    obtain ⟨latched, detail⟩ := imageFaulted_shows running slot img
    have source := imageFails_keeps (d := s.dev) (·.src 0x002) slot img fun _ => rfl
    have tried := imageFails_keeps (d := s.dev) (·.pw.triedSlots) slot img fun _ => rfl
    exact ⟨_, runs_of_onDev rfl (imageVerify_fails ⟨running, dark, stage, idle, untripped, off, next⟩ bad), rfl,
      (congrArg FaultSrc.latched source).trans latched, (congrArg FaultSrc.detail source).trans detail,
      tried.trans (congrArg Power.triedSlots (imageFaulted_pw running slot img)), imageFails_last slot img s.dev⟩
  case selfTested =>
    intro s starting stage
    refine ⟨_, runs_of_onDev rfl (selfTest_passes starting stage), ?_, val_setVal _ Fam.bootStage 0 4⟩
    rw [setVal_pw, katNoted_pw]
  case blockFails =>
    intro s cal block k starting stage
    exact ⟨katNoted k s.dev, runs_of_onDev rfl (selfTest_blockFails starting stage cal block k), katNoted_result k s.dev⟩
  case ddr =>
    intro s gib two lr rate starting stage size speed
    obtain ⟨split, trained⟩ := ddrTrained_fits starting stage lr size speed
    exact ⟨_, runs_of_onDev rfl trained, loadCore_pw _, loadCore_blocksWritten _, ddrShown_capacity _ _ _ _, ddrShown_config _ _ _ _,
      ddrShown_stage _ _ _ _, congrArg (· ++ _) (loadCore_out _)⟩
  case badDdr => intro s starting stage; exact runs_of_onDev rfl (ddrTrained_none starting stage)
  case assembles =>
    intro s h0 h1 lead starting stage
    exact ⟨_, rfl, runs_of_onDev rfl (if_pos (by simp [starting, stage]))⟩
  case badCrc => intro d lead h bad; exact headState_badCrc bad
  case closesOut =>
    intro s a x here online recovering placed executing
    have ends := recoveryComplete_placed here online recovering placed executing
    exact ⟨fun written => runs_of_onDev rfl (ends.trans (if_neg (ne_true_of_eq_false written))),
      fun due => runs_of_onDev rfl (ends.trans (if_pos due))⟩
  case offline => intro s a x here offline focus; exact runs_of_onDev rfl (recoveryComplete_offline here offline focus)
  case noImage => intro a d noImage; exact recoveryEnds_noImage a noImage
  case phy => intro s running; exact runs_of_onDev rfl (if_pos running)
  case plca => intro s running high; exact runs_of_onDev rfl (if_pos (by simp [running, high]))

/-! ### The block code's free value in O2

O2's clause on failing engines draws the block code's free value after the engines' faults, the model before them. What either says of a
counter that goes past its width there depends on `Config.freeNat`, which is opaque.
-/

theorem Signals.fresh_eq {d e : Dev} (h : Signals d e) : e.fresh = d.fresh := by rw [h.frame]; rfl

theorem setFirst_fresh (n : Nat) (d : Dev) : (setFirst n d).fresh = d.fresh := by
  unfold setFirst
  dsimp only
  split <;> rfl

theorem setFirst_vals (n : Nat) (d : Dev) : (setFirst n d).vals = d.vals := by
  unfold setFirst
  dsimp only
  split <;> rfl

/-- A record that is not written is counted, and noted at its source. -/
theorem recordFault_cases (n sev : Nat) (first : Bool) (d : Dev) :
    recordFault n sev first d = (d.setSrc n { d.src n with suppressed := true }).bump Fam.bboxSuppressed
      ∨ ((recordFault n sev first d).src n).suppressed = false := by
  unfold recordFault
  dsimp only
  split
  · exact .inl rfl
  · refine .inr ?_
    rw [src_setSrc]
    show ((d.setSrc n { d.src n with suppressed := false }).src n).suppressed = false
    rw [src_setSrc]

/-- A counter that a bump leaves at 0 went past its width, by the free value that it drew. -/
theorem bump_zero_drew {d : Dev} {f : Nat} (zero : (d.bump f).val f = 0) :
    (d.bump f).fresh = d.fresh + 1 ∧ Config.freeNat d.fresh % 2 ^ (famRow f).ty.bits = 0 := by
  rcases addVal_cases d f 0 1 with ⟨-, adds⟩ | ⟨-, draws⟩
  · rw [Dev.bump, adds, val_setVal] at zero
    cases zero
  · rw [Dev.bump, draws] at zero ⊢
    exact ⟨rfl, (val_setVal d f 0 _).symm.trans zero⟩

/-- A counter at its greatest shows the next free value after a bump. -/
theorem val_bump_full {d : Dev} {f : Nat} (full : 2 ^ (famRow f).ty.bits ≤ d.val f + 1) :
    (d.bump f).val f = Config.freeNat d.fresh % 2 ^ (famRow f).ty.bits := by
  rcases addVal_cases d f 0 1 with ⟨short, -⟩ | ⟨-, draws⟩
  · omega
  · rw [Dev.bump, draws]
    exact val_setVal d f 0 _

/-- Up to its record, a fault whose action is DEGRADE or less changes no value and draws none. -/
theorem hubStages_light {n act : Nat} (d : Dev) (light : act ≤ 2) :
    ∃ e first, e.fresh = d.fresh ∧ e.vals = d.vals ∧ hubStages n act false d = if 2 ≤ act then recordFault n act first e else e := by
  have told := hubTells_signals n act (setFirst n d)
  have shown := told.trans (hubShows_signals n _)
  rw [hubStages, hubIsolates, if_neg (by omega), hubRecords]
  by_cases degrades : 2 ≤ act
  · exact ⟨_, _, shown.fresh_eq.trans (setFirst_fresh n d), shown.vals_eq.trans (setFirst_vals n d), by
      rw [if_pos degrades, if_pos degrades]; rfl⟩
  · exact ⟨_, false, told.fresh_eq.trans (setFirst_fresh n d), told.vals_eq.trans (setFirst_vals n d), by
      rw [if_neg degrades, if_neg degrades]⟩

theorem katFaults_firstEngine (d : Dev) : katFaults 1 d = raise 0x040 0 false d := rfl

theorem raise_engine {d : Dev} (signals : d.canSignal 0x040 = true) :
    raise 0x040 0 false d = hubOnset 0x040 0 true false (d.severity 0x040) false d := by
  simp only [raise, hubReal, signals, show srcCondition 0x040 = false from rfl, show srcScope 0x040 = .device from rfl, Bool.false_and,
    Bool.not_false, Bool.and_self, if_true, ite_self]

theorem raise_engine_silent {d : Dev} (silent : d.canSignal 0x040 = false) : raise 0x040 0 false d = d := by
  simp [raise, hubReal, silent]

/-- The severity acted on is not above the one that the source shows then. -/
theorem actionTaken_le_latchedSev {d : Dev} (signals : d.canSignal 0x040 = true) :
    actionTaken 0x040 (d.severity 0x040) ≤ ((raise 0x040 0 false d).src 0x040).latchedSev := by
  have shows := congrArg FaultSrc.latchedSev (hubOnset_shows 0x040 0 true false (d.severity 0x040) false d).1
  rw [← raise_engine signals] at shows
  exact (Nat.le_max_right _ _).trans (Eq.ge shows)

theorem raise_engine_light {d : Dev} (signals : d.canSignal 0x040 = true) (light : actionTaken 0x040 (d.severity 0x040) ≤ 2) :
    ∃ e first, e.fresh = d.fresh ∧ e.vals = d.vals ∧ raise 0x040 0 false d =
      if 2 ≤ actionTaken 0x040 (d.severity 0x040) then recordFault 0x040 (actionTaken 0x040 (d.severity 0x040)) first e else e := by
  rw [raise_engine signals, hubOnset, hubActions_eq, if_neg (by omega)]
  exact hubStages_light (onsetRegs 0x040 0 true false _ d) light

theorem severity_engine (d : Dev) : d.severity 0x040 = d.val Fam.faultSeverity 0x040 := rfl

theorem severity_of_vals {d e : Dev} (vals : e.vals = d.vals) (n : Nat) : e.severity n = d.severity n := by
  simp only [Dev.severity, Dev.val, vals]

/-- With severity 2 then and no more shown, the fault acts with severity 2. -/
theorem raise_engine_degrades {d : Dev} (signals : d.canSignal 0x040 = true) (severity : (raise 0x040 0 false d).severity 0x040 = 2)
    (latched : ((raise 0x040 0 false d).src 0x040).latchedSev ≤ 2) : actionTaken 0x040 (d.severity 0x040) = 2 := by
  have light := (actionTaken_le_latchedSev signals).trans latched
  refine le_antisymm light (not_lt.mp fun minor => ?_)
  obtain ⟨e, first, -, vals, raised⟩ := raise_engine_light signals light
  rw [raised, if_neg (by omega), severity_of_vals vals] at severity
  rw [severity] at minor
  exact absurd minor (by decide)

/-- A record of it that was not written has been counted. -/
theorem raise_engine_counted {d : Dev} (signals : d.canSignal 0x040 = true) (degrades : actionTaken 0x040 (d.severity 0x040) = 2)
    (suppressed : ((raise 0x040 0 false d).src 0x040).suppressed = true) :
    ∃ e : Dev, e.fresh = d.fresh ∧ e.vals = d.vals ∧ raise 0x040 0 false d = e.bump Fam.bboxSuppressed := by
  obtain ⟨e, first, fresh, vals, raised⟩ := raise_engine_light signals degrades.le
  rw [if_pos degrades.ge] at raised
  rcases recordFault_cases 0x040 (actionTaken 0x040 (d.severity 0x040)) first e with counted | written
  · exact ⟨e.setSrc 0x040 { e.src 0x040 with suppressed := true }, fresh, vals, raised.trans counted⟩
  · rw [raised, written] at suppressed
    cases suppressed

/-- Where the count is 0 then, it went past its width by the last free value drawn. -/
theorem raise_engine_drew {d : Dev} (signals : (raise 0x040 0 false d).canSignal 0x040 = true)
    (severity : (raise 0x040 0 false d).severity 0x040 = 2) (latched : ((raise 0x040 0 false d).src 0x040).latchedSev ≤ 2)
    (suppressed : ((raise 0x040 0 false d).src 0x040).suppressed = true)
    (count : (raise 0x040 0 false d).val Fam.bboxSuppressed = 0) :
    ∃ m, (raise 0x040 0 false d).fresh = m + 1 ∧ Config.freeNat m % 2 ^ 32 = 0 := by
  have heard : d.canSignal 0x040 = true := by
    rw [← Bool.not_eq_false]
    intro silent
    rw [raise_engine_silent silent, silent] at signals
    cases signals
  obtain ⟨w, -, -, counted⟩ := raise_engine_counted heard (raise_engine_degrades heard severity latched) suppressed
  rw [counted] at count ⊢
  exact ⟨w.fresh, bump_zero_drew count⟩

/-- A device in self-test whose first engine has severity 2 and a record within the last second, with the count of records that were not
written at its greatest. -/
def countFull : Dev :=
  ({ Dev.reset with pw := { Power.inReset with porHigh := true, corePwrEn := true, coreRstHigh := true, mode := some .dark, coreStarting := true } }
      |>.setVal Fam.bootStage 0 3 |>.setVal Fam.faultSeverity 0x040 2 |>.setVal Fam.bboxSuppressed 0 (2 ^ 32 - 1)).setSrc 0x040
    { FaultSrc.clear with lastRecord := 1 }

/-- The block code drawn, before the first engine's fault. -/
def blockCodeDrawn : Dev := (raise 0x000 (Config.freeNat (katNoted 1 countFull).fresh) false (katNoted 1 countFull)).draw

/-- The model counts the engine's record with the second free value. -/
theorem blockCodeDrawn_counts :
    (raise 0x040 0 false blockCodeDrawn).severity 0x040 = 2
      ∧ (raise 0x040 0 false blockCodeDrawn).val Fam.bboxSuppressed = Config.freeNat 1 % 2 ^ 32 := by
  have signals : blockCodeDrawn.canSignal 0x040 = true := by decide +kernel
  have severity : blockCodeDrawn.severity 0x040 = 2 := by decide +kernel
  have fresh : blockCodeDrawn.fresh = 1 := by decide +kernel
  have full : blockCodeDrawn.val Fam.bboxSuppressed = 2 ^ 32 - 1 := by decide +kernel
  have suppressed : ((raise 0x040 0 false blockCodeDrawn).src 0x040).suppressed = true := by decide +kernel
  obtain ⟨e, drawn, vals, counted⟩ := raise_engine_counted signals (by rw [severity]; rfl) suppressed
  have same (f : Nat) (i : Nat) : e.val f i = blockCodeDrawn.val f i := by rw [Dev.val, vals]; rfl
  rw [counted]
  constructor
  · rw [severity_engine] at severity ⊢
    rw [val_bump_family (by decide) (by decide) (by decide), same, severity]
  · rw [val_bump_full (f := Fam.bboxSuppressed) (by rw [same, full]; decide), drawn, fresh]
    rfl

theorem selfTest_countFull : selfTest none 1 countFull = raise 0x040 0 false blockCodeDrawn := by
  have stage : countFull.val Fam.bootStage = 3 := by decide +kernel
  rw [selfTest_enginesFail rfl stage (by decide), katFaults_firstEngine, blockCodeDrawn]

theorem exec_selfTest {failed : Option (Bool × Nat)} {k : BitVec 16} {s : State} {d : Dev} (e : selfTest failed k s.dev = d) :
    exec (.selfTestComplete failed k) s = .next { s with dev := d } := runs_of_onDev rfl e

/-- A command runs to one device. -/
theorem runs_unique {c : Instr} {s : State} {d e : Dev} (runs : exec c s = .next { s with dev := d })
    (runs' : exec c s = .next { s with dev := e }) : d = e :=
  congrArg State.dev (Host.Outcome.next.inj (runs.symm.trans runs'))

/-- With these free values O2 fails: the model counts with the second of them, O2's clause with the first. -/
theorem not_bootAdvancesStageByStage_of_freeNat (first : Config.freeNat 0 % 2 ^ 32 ≠ 0) (second : Config.freeNat 1 % 2 ^ 32 = 0) :
    ¬ Obligations.BootAdvancesStageByStage := by
  rw [bootAdvancesStageByStage_iff]
  intro clause
  have stage : countFull.val Fam.bootStage = 3 := by decide +kernel
  obtain ⟨d, b, runs, -⟩ := clause ⟨[], countFull⟩ 1 rfl stage (by decide)
  rw [katFaults_firstEngine] at runs
  have same : raise 0x040 0 false blockCodeDrawn = (raise 0x040 0 false (raise 0x000 b false d)).draw :=
    runs_unique (exec_selfTest (s := ⟨[], countFull⟩) selfTest_countFull) runs
  obtain ⟨severity, count⟩ := blockCodeDrawn_counts
  have signals : (raise 0x040 0 false blockCodeDrawn).canSignal 0x040 = true := by decide +kernel
  have latched : ((raise 0x040 0 false blockCodeDrawn).src 0x040).latchedSev ≤ 2 := by decide +kernel
  have suppressed : ((raise 0x040 0 false blockCodeDrawn).src 0x040).suppressed = true := by decide +kernel
  have fresh : (raise 0x040 0 false blockCodeDrawn).fresh = 2 := by decide +kernel
  rw [second] at count
  rw [same] at severity count signals latched suppressed fresh
  obtain ⟨m, drew, zero⟩ := raise_engine_drew signals severity latched suppressed count
  have none_ : m = 0 := by
    have : (raise 0x040 0 false (raise 0x000 b false d)).fresh + 1 = 2 := fresh
    omega
  exact first (none_ ▸ zero)

/-! ### Alike free values

With free values that are all alike nothing shows how many were drawn before, and the place of a draw makes no difference.
-/

section
variable (d : Dev)

@[simp] theorem setFn_draw (f : Fn) (x : FnState) : d.draw.setFn f x = (d.setFn f x).draw := rfl
@[simp] theorem fnS_draw (f : Fn) : d.draw.fnS f = d.fnS f := rfl
@[simp] theorem setVal_draw (f i v : Nat) : d.draw.setVal f i v = (d.setVal f i v).draw := rfl
@[simp] theorem val_draw (f i : Nat) : d.draw.val f i = d.val f i := rfl
@[simp] theorem setSrc_draw (n : Nat) (x : FaultSrc) : d.draw.setSrc n x = (d.setSrc n x).draw := rfl
@[simp] theorem src_draw (n : Nat) : d.draw.src n = d.src n := rfl
@[simp] theorem emit_draw (o : Out) : emit o d.draw = (emit o d).draw := rfl
@[simp] theorem inMode_draw (m : Mode) : d.draw.inMode m = d.inMode m := rfl
@[simp] theorem allFns_draw : d.draw.allFns = d.allFns := rfl
@[simp] theorem lensUp_draw : d.draw.lensUp = d.lensUp := rfl

theorem foldl_draw {β : Type} {g : Dev → β → Dev} (h : ∀ d b, g d.draw b = (g d b).draw) (l : List β) :
    l.foldl g d.draw = (l.foldl g d).draw := List.foldl_hom Dev.draw h

theorem ite_draw {c : Prop} [Decidable c] {a b a' b' : Dev} (ha : a' = a.draw) (hb : b' = b.draw) :
    (if c then a' else b') = (if c then a else b).draw := by
  rw [ha, hb, apply_ite Dev.draw]

end

section
variable (f : Fn) (n : Nat) (d : Dev)

@[simp] theorem raiseVector_draw : raiseVector f n d.draw = (raiseVector f n d).draw := by
  unfold raiseVector
  exact ite_draw (c := msixAllowed d f n = true) rfl rfl

@[simp] theorem latchEvent_draw : latchEvent f n d.draw = (latchEvent f n d).draw := by
  simp only [latchEvent, fnS_draw, setFn_draw, raiseVector_draw, apply_ite Dev.draw]

@[simp] theorem setSummary_draw (on : Bool) : setSummary n on d.draw f = (setSummary n on d f).draw := by
  simp only [setSummary, fnS_draw, setFn_draw, latchEvent_draw, apply_ite Dev.draw]

theorem refreshSummary_draw : refreshSummary d.draw f = (refreshSummary d f).draw := by
  have concerns (e : Dev) : faultConcerns e.draw f = faultConcerns e f := rfl
  have pending (e : Dev) : mailboxPending e.draw f = mailboxPending e f := rfl
  have isolated (e : Dev) : isolatedFn e.draw f = isolatedFn e f := rfl
  simp only [refreshSummary, concerns, pending, isolated, setSummary_draw, fnS_draw]

theorem flushPba_draw : flushPba f d.draw = (flushPba f d).draw := by
  have allowed (e : Dev) (v : Nat) : msixAllowed e.draw f v = msixAllowed e f v := rfl
  have sent (e : Dev) (v : Nat) : sendMsix f v e.draw = (sendMsix f v e).draw := rfl
  refine foldl_draw d (fun e v => ?_) (d.fnS f).pba
  simp only [allowed, fnS_draw, setFn_draw, sent, apply_ite Dev.draw]

theorem latchModeBits_draw (old : Nat) : latchModeBits old n d.draw f = (latchModeBits old n d f).draw := by
  refine foldl_draw d (fun e i => ?_) (List.range 3)
  simp only [latchEvent_draw, apply_ite Dev.draw]

@[simp] theorem notice_draw (v : Option Nat) (b : List Byte) : notice n v b d.draw = (notice n v b d).draw := by
  have sent (e : Dev) (a : BitVec 128) (p k t r : Nat) (g : Word) (b : List Byte) :
      falferSend a p k t r g b e.draw = (falferSend a p k t r g b e).draw := rfl
  refine foldl_draw d (fun e sub => ?_) (d.sb.subs.map (·.2))
  simp only [sent, apply_ite Dev.draw]

theorem lensShutter_draw : lensShutter n d.draw = (lensShutter n d).draw := by
  unfold lensShutter
  exact ite_draw (c := ((d.lens n).gate || (d.lens n).region.isSome) = true) rfl rfl

theorem lensPark_draw : lensPark n d.draw = (lensPark n d).draw := rfl

theorem setFirst_draw : setFirst n d.draw = (setFirst n d).draw := by
  cases first : d.fh.first
  all_goals
    simp only [setFirst, draw_fh, first]
    try rfl

theorem abandonActivation_draw : abandonActivation d.draw = (abandonActivation d).draw := by
  cases activating : d.fw.activating
  all_goals
    simp only [abandonActivation, draw_fw, activating]
    try rfl

theorem abandonPairing_draw : abandonPairing d.draw = (abandonPairing d).draw := by
  have dropped (c : Bool) :
      (let e := if c then d.draw.setVal Fam.pairState 0 0 else d.draw
       { e with pr := { e.pr with resync := none, guarding := false } })
        = (let e := if c then d.setVal Fam.pairState 0 0 else d
           { e with pr := { e.pr with resync := none, guarding := false } }).draw := by cases c <;> rfl
  exact dropped (d.pr.resync.isSome || d.pr.guarding || d.val Fam.pairState == 5)

theorem abandonWork_draw : abandonWork d.draw = (abandonWork d).draw := by
  unfold abandonWork
  rw [← abandonActivation_draw, ← abandonPairing_draw]
  rfl

end

section
variable (o m : Mode) (d : Dev)

theorem modeTold_draw : modeTold o m d.draw = (modeTold o m d).draw := by
  simp only [modeTold, draw_tm, notice_draw, emit_draw, apply_ite Dev.draw]

theorem eclipseShown_draw (b : Bool) : eclipseShown b d.draw = (eclipseShown b d).draw :=
  foldl_draw d (fun e f => setSummary_draw f 0 e b) d.allFns

theorem modeShown_draw : modeShown o m d.draw = (modeShown o m d).draw := by
  have bits (e : Dev) (l : List Fn) : l.foldl (latchModeBits o.code m.code) e.draw = (l.foldl (latchModeBits o.code m.code) e).draw :=
    foldl_draw e (fun e f => latchModeBits_draw f m.code e o.code) l
  have flushed (e : Dev) (l : List Fn) : l.foldl (fun e f => flushPba f e) e.draw = (l.foldl (fun e f => flushPba f e) e).draw :=
    foldl_draw e (fun e f => flushPba_draw f e) l
  simp only [modeShown, allFns_draw, bits, eclipseShown_draw, ← apply_ite Dev.draw, flushed]

end

section
variable (alike : ∀ m n, Config.freeNat m = Config.freeNat n)
include alike

theorem bump_draw (f i : Nat) (d : Dev) : d.draw.bump f i = (d.bump f i).draw := by
  simp only [Dev.bump, Dev.addVal, val_draw, setVal_draw, alike d.draw.fresh d.fresh, apply_ite Dev.draw]

theorem recordFault_draw (n sev : Nat) (first : Bool) (d : Dev) : recordFault n sev first d.draw = (recordFault n sev first d).draw := by
  unfold recordFault
  dsimp only [src_draw, draw_tm, setSrc_draw]
  exact ite_draw (bump_draw alike _ _ _) rfl

theorem modeNoted_draw (o m : Mode) (trigger source severity : Nat) (d : Dev) :
    modeNoted o m trigger source severity d.draw = (modeNoted o m trigger source severity d).draw := by
  have counted : (d.draw.setMode0 (some m)).bump Fam.deviceModeChanges = ((d.setMode0 (some m)).bump Fam.deviceModeChanges).draw :=
    bump_draw alike _ _ (d.setMode0 (some m))
  rw [modeNoted, counted]
  rfl

theorem changeMode_draw (m : Mode) (trigger source severity : Nat) (d : Dev) :
    changeMode m trigger source severity d.draw = (changeMode m trigger source severity d).draw := by
  cases mode : d.pw.mode with
  | none => simp only [changeMode, draw_pw, mode]; rfl
  | some o =>
    by_cases same : o = m
    · rw [changeMode_same mode same, changeMode_same (d := d.draw) mode same]; rfl
    · rw [changeMode_other mode same, changeMode_other (d := d.draw) mode same]
      simp only [modeNoted_draw alike, modeTold_draw, modeShown_draw, apply_ite Dev.draw]

theorem eclipseEntered_draw (n : Nat) (d : Dev) : eclipseEntered n d.draw = (eclipseEntered n d).draw := by
  have shutters (e : Dev) (l : List Nat) : l.foldl (fun e m => lensShutter m e) e.draw = (l.foldl (fun e m => lensShutter m e) e).draw :=
    foldl_draw e (fun e m => lensShutter_draw m e) l
  simp only [eclipseEntered, abandonWork_draw, lensUp_draw, shutters, changeMode_draw alike, setVal_draw]

theorem enterEclipse_draw (n : Nat) (d : Dev) : enterEclipse n d.draw = (enterEclipse n d).draw := by
  have parks (e : Dev) (l : List Nat) : l.foldl (fun e m => lensPark m e) e.draw = (l.foldl (fun e m => lensPark m e) e).draw :=
    foldl_draw e (fun e m => lensPark_draw m e) l
  cases serves : (d.inMode .focus || d.inMode .solo || d.inMode .lead || d.inMode .mirror || (d.inMode .dark && d.pw.coreStarting)) with
  | false => rw [enterEclipse, enterEclipse, if_neg (ne_true_of_eq_false serves), if_neg (by simp [serves])]
  | true =>
    rw [enterEclipse_enters n serves, enterEclipse_enters (d := d.draw) n serves, eclipseEntered_draw alike]
    exact ite_draw rfl (parks _ _)

theorem hubStages_draw {n : Nat} (sev : Nat) (own : Bool) (scope : srcScope n = .device) (d : Dev) :
    hubStages n sev own d.draw = (hubStages n sev own d).draw := by
  have adminFn (e : Dev) : e.draw.adminFn = e.adminFn := rfl
  simp only [hubStages, hubIsolates, hubRecords, hubShows, hubTells, scope, setFirst_draw, draw_fh, draw_tm, src_draw, notice_draw, adminFn,
    refreshSummary_draw, recordFault_draw alike, ← apply_ite Dev.draw, ite_self]

theorem raise_draw {n : Nat} (scope : srcScope n = .device) (detail : Nat) (d : Dev) :
    raise n detail false d.draw = (raise n detail false d).draw := by
  have onset (sev : Nat) : hubOnset n detail true false sev false d.draw = (hubOnset n detail true false sev false d).draw := by
    simp only [hubOnset, hubActions_eq, onsetRegs_eq, src_draw, draw_tm, setSrc_draw, hubStages_draw alike _ _ scope, enterEclipse_draw alike,
      apply_ite Dev.draw]
  have signals : d.draw.canSignal n = d.canSignal n := rfl
  have severity : d.draw.severity n = d.severity n := rfl
  simp only [raise, hubReal, signals, severity, src_draw, scope, onset, apply_ite Dev.draw, ite_self]

theorem katFaults_draw (k : BitVec 16) (d : Dev) : katFaults k d.draw = (katFaults k d).draw := by
  have engines : ∀ i < 16, srcScope (0x040 + i) = .device := by decide
  have faults (l : List Nat) (inRange : ∀ i ∈ l, i < 16) (e : Dev) :
      l.foldl (fun s i => raise (0x040 + i) (if i < 12 then i else i - 12) false s) e.draw
        = (l.foldl (fun s i => raise (0x040 + i) (if i < 12 then i else i - 12) false s) e).draw := by
    induction l generalizing e with
    | nil => rfl
    | cons i r ih =>
      rw [List.foldl_cons, List.foldl_cons, raise_draw alike (engines i (inRange i List.mem_cons_self)),
        ih fun j h => inRange j (List.mem_cons_of_mem i h)]
  exact faults _ (fun i h => List.mem_range.mp (List.mem_of_mem_filter h)) d

end

/-- With free values that are all alike O2 holds: its clause on failing engines takes the model's own device and block code. -/
theorem bootAdvancesStageByStage_of_alike (alike : ∀ m n, Config.freeNat m = Config.freeNat n) : Obligations.BootAdvancesStageByStage := by
  rw [bootAdvancesStageByStage_iff]
  intro s k starting stage fails
  refine ⟨katNoted k s.dev, Config.freeNat (katNoted k s.dev).fresh, ?_, katNoted_result k s.dev⟩
  rw [exec_selfTest (selfTest_enginesFail starting stage fails), katFaults_draw alike]

end Sys2Proof.Machine
end
